-- ==== Sys2Proof/Word.lean ====
section
/-! DEFINITION. The word types of the H2 (spec/00_scope.md R1, spec/02_encoding.md R55, R64): bytes, 32-bit lane
values and 64-bit instruction words and addresses. -/

namespace Sys2Proof

/-- A byte of memory. -/
abbrev Byte := BitVec 8

/-- A 32-bit lane value, the width of every register (R64). -/
abbrev Word := BitVec 32

/-- A 64-bit instruction word, address or counter (R55, R176). -/
abbrev DWord := BitVec 64

end Sys2Proof
end

