-- ==== Sys2Proof/Config.lean ====
section
/-! DEFINITION. What the manual leaves open: free values, as constants with no body, so that no proof can see
what they are (assumption log 3, 8, 10, 12, 13). Each is applied to the plain counter `fresh` of the state, or to
the operands the open value depends on. -/

namespace Sys2Proof.Config

/-- A 32-bit value the manual leaves open. -/
opaque freeWord : Nat → Word

/-- A 64-bit value the manual leaves open: how far a clock has run (R153, R479), a hardware random seed (R530). -/
opaque freeDWord : Nat → DWord

/-- The bits of a page's payload that have flipped when an engine reads it outside the events that say so (R403). -/
opaque flips : Nat → List Nat

/-- Whether a transfer meets an uncorrectable error in a source byte (R304). -/
opaque sourceError : Nat → Bool

/-- Which of several earlier groups a race trap names (R213), in an epoch with so many accesses recorded. -/
opaque earlier : (epoch count : Nat) → Nat

/-- A choice between two outcomes that the manual leaves open: cached or stored record (R291), copy or SPAD (R339). -/
opaque freeBool : Nat → Bool

/-- What lane `lane` of v register `reg` holds once GROW has given it to group `ggid` at LTIME `ltime`, in Reckoning mode:
one value on every run (R54). -/
opaque grown : (ggid ltime reg lane : Nat) → Word

/-- Value number `i` that the manual leaves open of the instruction or command of group `ggid` with key `ltime`, in Reckoning
mode: one value on every run (R54). -/
opaque keyed : (ltime ggid i : Nat) → Word

/-- Whether command `cmd` reads the new value of a source byte that was overwritten while it was in flight (R34): space
number and address. -/
opaque pick : (cmd space addr : Nat) → Bool

/-- The same in Reckoning mode, by the command's key and by the byte's place in the cluster (R54). -/
opaque pickKeyed : (ltime ggid space addr : Nat) → Bool

/-- The value a special function (R265) of operation number `f` gives for operand `a`, one fixed function (R259);
it is taken wherever it lies within the bound of R266. -/
opaque special : (f : Nat) → (a : Word) → Word

/-- The RSASSA-PSS signature, 512 bytes, of a message with the device identity key (R539). -/
opaque deviceSignature : List Byte → List Byte

/-- The root-key hash fused in die 0 (R537). -/
opaque rootKeyHash : BitVec 512

/-- The device serial number, 16 bytes (R539). -/
opaque serialNumber : BitVec 128

end Sys2Proof.Config
end

