-- ==== Sys2Proof/Syntax.lean ====
section
/-! DEFINITION. The syntax of the machine: one constructor of `Instr` for every row of spec/opcode_table.json, the
193 instructions of the Bamion set (spec/02_encoding.md R76) with their operands already pulled apart, and the 108
machine events of spec/95_what_each_step_holds.md, whose operands name what the event acts on. -/

namespace Sys2Proof

/-- A register field of R64. -/
inductive Reg where
  | v (n : Fin 176)
  | s (n : Fin 48)
  | h (n : Fin 16)
  | x (n : Fin 15)
  | zero
deriving DecidableEq, Repr

/-- HOLD, bits 5:4 (R59). -/
inductive Hold where
  | none | a | b | c
deriving DecidableEq, Repr

/-- The low bits of a full word: HOLD and the predicate PM, PN (R59, R69). -/
structure Guard where
  hold : Hold
  pm : Fin 8
  pn : Bool
deriving DecidableEq, Repr

/-- Wrapping or saturating integer arithmetic (R233). -/
inductive SatMode where
  | wrap | sat | usat
deriving DecidableEq, Repr

/-- Rounding of a float result (R80). -/
inductive Round where
  | rn | rz | ru | rd
deriving DecidableEq, Repr

/-- How ISET and FSET update their mask (R238, R264). -/
inductive MaskUpd where
  | replace | and | or
deriving DecidableEq, Repr

/-- ISET conditions (R238). -/
inductive ICond where
  | eq | ne | lt | le | gt | ge | ltu | leu | gtu | geu
deriving DecidableEq, Repr

/-- FSET conditions (R264). -/
inductive FCond where
  | eq | ne | lt | le | gt | ge | ord | uno | equ | neu | ltu | leu | gtu | geu
deriving DecidableEq, Repr

/-- Scopes of R81. -/
inductive Scope where
  | group | team | cluster | package | pod
deriving DecidableEq, Repr

/-- Order and scope of an access (R82). -/
inductive Order where
  | plain
  | ordered (sc : Scope)
deriving DecidableEq, Repr

/-- LD and LDU sizes (R215). -/
inductive LdSize where
  | b | bs | h | hs | w | d | q
deriving DecidableEq, Repr

/-- ST sizes (R219). -/
inductive StSize where
  | b | h | w | d | q
deriving DecidableEq, Repr

/-- ATOM operations (R220). -/
inductive AtomOp where
  | add | min | max | minu | maxu | and | or | xor | exch | cas
deriving DecidableEq, Repr

/-- RED operations (R221). -/
inductive RedOp where
  | addI32 | addF32 | addBf16 | addN8e4 | addN8e5 | minF32 | maxF32
deriving DecidableEq, Repr

/-- LXCH forms (R241). -/
inductive LxchOp where
  | at | back | ahead | flip
deriving DecidableEq, Repr

/-- LPRED forms (R242). -/
inductive LpredOp where
  | some | every | bits | same | count
deriving DecidableEq, Repr

/-- SCAN operations (R244). -/
inductive ScanOp where
  | add | addx | max | min | or
deriving DecidableEq, Repr

/-- Types SCAN accepts (R244). -/
inductive ScanTy where
  | i32 | u32 | f32
deriving DecidableEq, Repr

/-- RDUX operations (R245). -/
inductive RduxOp where
  | add | max | min | and | or | xor | fadd | fmax
deriving DecidableEq, Repr

/-- Scale formats of QNT4 and DQ4, and block-scale formats of SCALE (R272). -/
inductive ScaleFmt where
  | f32 | e5 | e4
deriving DecidableEq, Repr

/-- Tensor-scale formats of SCALE (R272). -/
inductive TScaleFmt where
  | f32 | bf16 | none
deriving DecidableEq, Repr

/-- Word count of RNGX (R281). -/
inductive RngCount where
  | x1 | x2 | x4
deriving DecidableEq, Repr

/-- Completion scope of XFER (R296). -/
inductive XScope where
  | team | cluster | package
deriving DecidableEq, Repr

/-- Roles that MFMT checks (R326). -/
inductive FmtRole where
  | a | aacc | b
deriving DecidableEq, Repr

/-- Tile modes (R318). -/
inductive TileMode where
  | f32 | x2 | i32
deriving DecidableEq, Repr

/-- Block size P of MHAD (R351). -/
inductive HadP where
  | p16 | p32 | p64
deriving DecidableEq, Repr

/-- Scale of MHAD (R351). -/
inductive HadScale where
  | s1 | s4 | s8
deriving DecidableEq, Repr

/-- Delivery mode of NSEND and NPUT (R497). -/
inductive NetMode where
  | rud | rod | uud | ord
deriving DecidableEq, Repr

/-- NRED operations (R497). -/
inductive NredOp where
  | addI32 | addF32 | addBf16 | maxF32 | minF32
deriving DecidableEq, Repr

/-- Operations of the pairable opcodes 0x00 to 0x0F (R76). -/
inductive PairOp where
  | mov | iadd | isub | and | or | xor | shl | shr | sar | imin | imax | imul | fadd | fmul | fmin | fmax
deriving DecidableEq, Repr

/-- The second source of a pair slot (R72). -/
inductive SlotSrc where
  | reg (a : Reg)
  | imm (i : BitVec 15)
deriving DecidableEq, Repr

/-- One slot of a pair word (R72). -/
structure Slot where
  op : PairOp
  d : Reg
  src : SlotSrc
deriving DecidableEq, Repr

/-- Operands of XFER (R296): flags, scope, barrier locator register, s pairs by pair number, tag. -/
structure XArgs where
  sacc : Bool
  wbuf : Bool
  scope : XScope
  bar : Reg
  recp : Fin 24
  src : Fin 24
  dst : Fin 24
  tag : Fin 64
deriving DecidableEq, Repr

/-- A space an engine or a group may address: global memory, the SPAD of a core, or the WBUF of a core (R178, R186). -/
inductive Space where
  | global
  | spad (core : Nat)
  | wbuf (core : Nat)
deriving DecidableEq, Repr

/-- Host windows (R430, R476, R531, R544). -/
inductive Window where
  | main | meridian | memory | mgmt
deriving DecidableEq, Repr

/-- The key of an ordered packet (R481). -/
structure PKey where
  stamp : Nat
  src : Nat
  seq : Nat
deriving DecidableEq, Repr

/-- An ordered-class or unordered packet (R474): the header extension, and what it carries. `space` is the 13-bit
encoding of R474; `queue` is 64 for an ordered put; `reply` names the command waiting for an answer at its source; `late`
marks a packet that a switch on the way found LATE (R489). -/
structure Packet where
  kind : Nat
  key : PKey
  space : Nat
  ord : Bool
  dest : Nat
  queue : Nat
  addr : Nat
  asid : Nat
  reply : Nat
  late : Bool
  payload : List Byte
deriving DecidableEq, Repr

/-- What a one-sided request asks of its target (R478, R499). -/
inductive PutGet where
  | put (addr asid : Nat) (data : List Byte)
  | get (addr asid len : Nat)
deriving DecidableEq, Repr

/-- What a read of a page meets: nothing; bits of its payload that have flipped, by number from the first byte's bit 0 (R403);
or copies of its header slot that do not decode, the first, the second or both (R402). -/
inductive PageError where
  | none
  | flips (bits : List Nat)
  | header (first second : Bool)
deriving DecidableEq, Repr

/-- A firmware image of the boot flash (R536): its header fields and its body and signature bytes. -/
structure Image where
  magic : Word
  kind : Nat
  svn : Nat
  digest : BitVec 512
  modulus : List Byte
  header : List Byte
  body : List Byte
  signature : List Byte
deriving DecidableEq, Repr

/-- What bring-up finds on the board (R513, R535): populated channels and ports, capacities in GB, firmware images. -/
structure Board where
  lpddrChannels : BitVec 16
  lpddrGb : Nat
  cxlGb : List Nat
  images : List Image
deriving DecidableEq, Repr

/-- A page handed over by a peer (R421, R503): its block-table entry, FILL, payload, scale plane and id plane. -/
structure HandPage where
  entry : Nat
  fill : Nat
  payload : List Byte
  scales : List Byte
  ids : List Word
deriving DecidableEq, Repr

/-- A block-table record handed over by a peer (R503), with the pages it names: the request it is for, and its pages. -/
structure HandOver where
  handle : Nat
  pages : List HandPage
deriving DecidableEq, Repr

/-- One constructor a row of spec/opcode_table.json (R76, 95_what_each_step_holds.md). -/
inductive Instr where
  | mov (d : Reg) (a : Reg) (g : Guard)
  | movImm (d : Reg) (imm : BitVec 24) (g : Guard)
  | iadd (m : SatMode) (d : Reg) (a : Reg) (b : Reg) (g : Guard)
  | iaddImm (m : SatMode) (d : Reg) (a : Reg) (imm : BitVec 24) (g : Guard)
  | isub (m : SatMode) (d : Reg) (a : Reg) (b : Reg) (g : Guard)
  | isubImm (m : SatMode) (d : Reg) (a : Reg) (imm : BitVec 24) (g : Guard)
  | iand (d : Reg) (a : Reg) (b : Reg) (g : Guard)
  | iandImm (d : Reg) (a : Reg) (imm : BitVec 24) (g : Guard)
  | ior (d : Reg) (a : Reg) (b : Reg) (g : Guard)
  | iorImm (d : Reg) (a : Reg) (imm : BitVec 24) (g : Guard)
  | ixor (d : Reg) (a : Reg) (b : Reg) (g : Guard)
  | ixorImm (d : Reg) (a : Reg) (imm : BitVec 24) (g : Guard)
  | shl (d : Reg) (a : Reg) (b : Reg) (g : Guard)
  | shlImm (d : Reg) (a : Reg) (imm : BitVec 24) (g : Guard)
  | shr (d : Reg) (a : Reg) (b : Reg) (g : Guard)
  | shrImm (d : Reg) (a : Reg) (imm : BitVec 24) (g : Guard)
  | sar (d : Reg) (a : Reg) (b : Reg) (g : Guard)
  | sarImm (d : Reg) (a : Reg) (imm : BitVec 24) (g : Guard)
  | imin (u : Bool) (d : Reg) (a : Reg) (b : Reg) (g : Guard)
  | iminImm (u : Bool) (d : Reg) (a : Reg) (imm : BitVec 24) (g : Guard)
  | imax (u : Bool) (d : Reg) (a : Reg) (b : Reg) (g : Guard)
  | imaxImm (u : Bool) (d : Reg) (a : Reg) (imm : BitVec 24) (g : Guard)
  | imul (m : SatMode) (d : Reg) (a : Reg) (b : Reg) (g : Guard)
  | imulImm (m : SatMode) (d : Reg) (a : Reg) (imm : BitVec 24) (g : Guard)
  | fadd (r : Round) (d : Reg) (a : Reg) (b : Reg) (g : Guard)
  | faddImm (r : Round) (d : Reg) (a : Reg) (imm : BitVec 24) (g : Guard)
  | fmul (r : Round) (d : Reg) (a : Reg) (b : Reg) (g : Guard)
  | fmulImm (r : Round) (d : Reg) (a : Reg) (imm : BitVec 24) (g : Guard)
  | fmin (d : Reg) (a : Reg) (b : Reg) (g : Guard)
  | fminImm (d : Reg) (a : Reg) (imm : BitVec 24) (g : Guard)
  | fmax (d : Reg) (a : Reg) (b : Reg) (g : Guard)
  | fmaxImm (d : Reg) (a : Reg) (imm : BitVec 24) (g : Guard)
  | pairWord (p q : Slot)
  | andn (d : Reg) (a : Reg) (b : Reg) (g : Guard)
  | inot (d : Reg) (a : Reg) (g : Guard)
  | rotl (d : Reg) (a : Reg) (b : Reg) (g : Guard)
  | shf (left : Bool) (d : Reg) (a : Reg) (b : Reg) (c : Reg) (g : Guard)
  | imulh (d : Reg) (a : Reg) (b : Reg) (g : Guard)
  | imulhu (d : Reg) (a : Reg) (b : Reg) (g : Guard)
  | imad (sat : Bool) (d : Reg) (a : Reg) (b : Reg) (c : Reg) (g : Guard)
  | iabs (sat : Bool) (d : Reg) (a : Reg) (g : Guard)
  | ineg (sat : Bool) (d : Reg) (a : Reg) (g : Guard)
  | sel (d : Reg) (a : Reg) (b : Reg) (c : Reg) (g : Guard)
  | bysel (d : Reg) (a : Reg) (b : Reg) (c : Reg) (g : Guard)
  | clz (d : Reg) (a : Reg) (g : Guard)
  | popc (d : Reg) (a : Reg) (g : Guard)
  | brev (d : Reg) (a : Reg) (g : Guard)
  | bfe (sg : Bool) (d : Reg) (a : Reg) (b : Reg) (g : Guard)
  | bfi (d : Reg) (a : Reg) (b : Reg) (c : Reg) (g : Guard)
  | movw (d : Reg) (imm : BitVec 32) (g : Guard)
  | movx (d : Reg) (imm : BitVec 32) (g : Guard)
  | iset (cond : ICond) (u : MaskUpd) (d : Fin 8) (a : Reg) (b : Reg) (g : Guard)
  | mand (d : Fin 8) (a : Fin 8) (b : Fin 8) (g : Guard)
  | mor (d : Fin 8) (a : Fin 8) (b : Fin 8) (g : Guard)
  | mxor (d : Fin 8) (a : Fin 8) (b : Fin 8) (g : Guard)
  | mnot (d : Fin 8) (a : Fin 8) (g : Guard)
  | mmov (d : Fin 8) (a : Reg) (g : Guard)
  | mget (d : Reg) (a : Fin 8) (g : Guard)
  | mpop (d : Reg) (a : Fin 8) (g : Guard)
  | mffs (d : Reg) (a : Fin 8) (g : Guard)
  | shape (d : Reg) (a : Reg) (g : Guard)
  | lxch (op : LxchOp) (d : Reg) (a : Reg) (b : Reg) (c : Reg) (g : Guard)
  | lpred (op : LpredOp) (inv : Bool) (d : Reg) (a : Reg) (g : Guard)
  | scan (op : ScanOp) (ty : ScanTy) (d : Reg) (a : Reg) (g : Guard)
  | rdux (op : RduxOp) (u : Bool) (d : Reg) (a : Reg) (g : Guard)
  | matchLanes (d : Reg) (a : Reg) (g : Guard)
  | fsub (r : Round) (d : Reg) (a : Reg) (b : Reg) (g : Guard)
  | ffma (r : Round) (d : Reg) (a : Reg) (b : Reg) (c : Reg) (g : Guard)
  | fabs (d : Reg) (a : Reg) (g : Guard)
  | fneg (d : Reg) (a : Reg) (g : Guard)
  | fcps (d : Reg) (a : Reg) (b : Reg) (g : Guard)
  | frnd (r : Round) (d : Reg) (a : Reg) (g : Guard)
  | fclass (d : Reg) (a : Reg) (g : Guard)
  | fset (cond : FCond) (u : MaskUpd) (d : Fin 8) (a : Reg) (b : Reg) (g : Guard)
  | frcp (d : Reg) (a : Reg) (g : Guard)
  | frsq (d : Reg) (a : Reg) (g : Guard)
  | fsqrt (d : Reg) (a : Reg) (g : Guard)
  | fex2 (d : Reg) (a : Reg) (g : Guard)
  | flg2 (d : Reg) (a : Reg) (g : Guard)
  | ftanh (d : Reg) (a : Reg) (g : Guard)
  | fsin (d : Reg) (a : Reg) (g : Guard)
  | fcos (d : Reg) (a : Reg) (g : Guard)
  | hadd2 (r : Round) (d : Reg) (a : Reg) (b : Reg) (g : Guard)
  | hmul2 (r : Round) (d : Reg) (a : Reg) (b : Reg) (g : Guard)
  | hfma2 (r : Round) (d : Reg) (a : Reg) (b : Reg) (c : Reg) (g : Guard)
  | hmax2 (d : Reg) (a : Reg) (b : Reg) (g : Guard)
  | hmin2 (d : Reg) (a : Reg) (b : Reg) (g : Guard)
  | cvtfi (u : Bool) (r : Round) (d : Reg) (a : Reg) (g : Guard)
  | cvtif (u : Bool) (r : Round) (d : Reg) (a : Reg) (g : Guard)
  | cvtfh (r : Round) (d : Reg) (a : Reg) (b : Reg) (g : Guard)
  | cvthf (hi : Bool) (d : Reg) (a : Reg) (g : Guard)
  | cvtn8 (byte : (Fin 4)) (nan : Bool) (e5 : Bool) (d : Reg) (a : Reg) (b : Reg) (g : Guard)
  | cvtf8 (byte : (Fin 4)) (e5 : Bool) (d : Reg) (a : Reg) (g : Guard)
  | qnt4 (sf : ScaleFmt) (bsv : Bool) (d : Reg) (a : Reg) (b : Reg) (c : Reg) (nib : Fin 8) (g : Guard)
  | dq4 (sf : ScaleFmt) (d : Reg) (a : Reg) (b : Reg) (c : Reg) (nib : Fin 8) (g : Guard)
  | scale (bf : ScaleFmt) (tf : TScaleFmt) (d : Reg) (a : Reg) (b : Reg) (c : Reg) (g : Guard)
  | selkLd (a : Reg) (loc : Reg) (slot : Reg) (g : Guard)
  | selkRun (loc : Reg) (geom : Reg) (g : Guard)
  | selkRd (mask : Bool) (d : Reg) (loc : Reg) (geom : Reg) (slot : Reg) (g : Guard)
  | rngx (cnt : RngCount) (frac : Bool) (d : Reg) (a : Reg) (key : Fin 24) (c : Reg) (stream : BitVec 8) (g : Guard)
  | ld (sz : LdSize) (ord : Order) (d : Reg) (base : Reg) (idx : Reg) (off : BitVec 16) (g : Guard)
  | st (sz : StSize) (ord : Order) (d : Reg) (base : Reg) (idx : Reg) (off : BitVec 16) (g : Guard)
  | ldu (sz : LdSize) (ord : Order) (d : Reg) (base : Reg) (idx : Reg) (off : BitVec 16) (g : Guard)
  | atom (op : AtomOp) (ord : Order) (d : Reg) (base : Reg) (idx : Reg) (off : BitVec 16) (g : Guard)
  | red (op : RedOp) (ord : Order) (d : Reg) (base : Reg) (idx : Reg) (off : BitVec 16) (g : Guard)
  | fence (sc : Scope) (g : Guard)
  | pref (base : Reg) (idx : Reg) (off : BitVec 16) (g : Guard)
  | bra (off : BitVec 32) (g : Guard)
  | bru (k : Reg) (off : BitVec 32) (g : Guard)
  | brd (m : Fin 8) (off : BitVec 32) (g : Guard)
  | call (p : Fin 24) (off : BitVec 32) (g : Guard)
  | ret (p : Fin 24) (g : Guard)
  | brx (p : Fin 24) (g : Guard)
  | exit (g : Guard)
  | nop
  | icpf (n : BitVec 8) (off : BitVec 32)
  | hint (w : DWord)
  | binit (lane : Bool) (cluster : Bool) (loc : Reg) (arr : Reg) (bytes : Reg) (g : Guard)
  | bjoin (loc : Reg) (g : Guard)
  | barv (d : Reg) (loc : Reg) (g : Guard)
  | barx (d : Reg) (loc : Reg) (bytes : Reg) (g : Guard)
  | bwait (loc : Reg) (ph : Reg) (g : Guard)
  | btest (d : Reg) (loc : Reg) (ph : Reg) (g : Guard)
  | bwaitt (d : Reg) (loc : Reg) (ph : Reg) (t : Reg) (g : Guard)
  | bleave (loc : Reg) (g : Guard)
  | tbar (g : Guard)
  | cbar (g : Guard)
  | sleep (a : Reg) (g : Guard)
  | yield (g : Guard)
  | grow (d : Reg) (n : BitVec 8) (g : Guard)
  | shrink (n : BitVec 8) (g : Guard)
  | fork (p : Fin 24) (g : Guard)
  | joinw (d : Reg) (g : Guard)
  | spawn (d : Reg) (idx : Reg) (cnt : Reg) (g : Guard)
  | movs (d : Reg) (sr : BitVec 8) (g : Guard)
  | movsw (sr : BitVec 8) (a : Reg) (g : Guard)
  | trap (code : BitVec 8) (g : Guard)
  | sysc (svc : BitVec 8) (a : Reg) (b : Reg) (g : Guard)
  | eret (g : Guard)
  | bkpt (code : BitVec 8) (g : Guard)
  | csave (d : Reg) (p : Fin 24) (g : Guard)
  | cload (p : Fin 24) (g : Guard)
  | xferCopy (x : XArgs) (g : Guard)
  | xferTranspose (x : XArgs) (g : Guard)
  | xferRepack (x : XArgs) (g : Guard)
  | xferQuant (x : XArgs) (g : Guard)
  | xferDequant (x : XArgs) (g : Guard)
  | xferGather (x : XArgs) (g : Guard)
  | xferScatter (x : XArgs) (g : Guard)
  | xferFill (x : XArgs) (g : Guard)
  | xmcast (x : XArgs) (g : Guard)
  | twaita (trp : Bool) (sc : Scope) (d : Reg) (m : Option (Fin 24)) (g : Guard)
  | twaitl (trp : Bool) (sc : Scope) (d : Reg) (m : Option (Fin 24)) (g : Guard)
  | tffr (sc : Scope) (d : Reg) (m : Option (Fin 24)) (g : Guard)
  | tclr (m : Option (Fin 24)) (g : Guard)
  | xstat (trp : Bool) (d : Reg) (tag : Fin 64) (g : Guard)
  | rfence (rec : Option (Fin 24)) (g : Guard)
  | spfence (loc : Reg) (len : Reg) (g : Guard)
  | mfmt (role : FmtRole) (d : Reg) (loc : Reg) (g : Guard)
  | mloop (nan : Bool) (d : Reg) (o : Fin 6) (g : Guard)
  | accz (tm : TileMode) (a : Reg) (g : Guard)
  | accrd (raw : Bool) (d : Reg) (a : Reg) (g : Guard)
  | accwr (a : Reg) (b : Reg) (g : Guard)
  | mwait (trp : Bool) (d : Reg) (a : Reg) (g : Guard)
  | mstat (d : Reg) (a : Reg) (g : Guard)
  | mhad (p : HadP) (sc : HadScale) (d : Reg) (loc : Reg) (geom : Reg) (g : Guard)
  | tbld (d : Reg) (o : Fin 6) (g : Guard)
  | tlook (d : Reg) (o : Fin 6) (g : Guard)
  | tval (d : Reg) (num : Reg) (g : Guard)
  | tspill (d : Reg) (num : Reg) (loc : Reg) (g : Guard)
  | tfill (d : Reg) (num : Reg) (g : Guard)
  | tdrop (num : Reg) (g : Guard)
  | kvgath (fetch : Bool) (bar : Reg) (o : Fin 6) (tag : Fin 64) (g : Guard)
  | kvapp (o : Fin 6) (tag : Fin 64) (g : Guard)
  | pgalloc (d : Reg) (req : Reg) (idx : Reg) (tag : Fin 64) (g : Guard)
  | pgrefQ (d : Reg) (page : Reg) (tag : Fin 64) (g : Guard)
  | pgrefQf (d : Reg) (page : Reg) (tag : Fin 64) (g : Guard)
  | pgrefInc (d : Reg) (page : Reg) (tag : Fin 64) (g : Guard)
  | pgrefDec (d : Reg) (page : Reg) (tag : Fin 64) (g : Guard)
  | pgfetch (page : Reg) (tag : Fin 64) (g : Guard)
  | btset (d : Reg) (req : Reg) (idx : Reg) (page : Reg) (tag : Fin 64) (g : Guard)
  | btget (d : Reg) (req : Reg) (idx : Reg) (tag : Fin 64) (g : Guard)
  | kvsend (req : Reg) (dest : Reg) (rreq : Reg) (tag : Fin 64) (g : Guard)
  | pfxh (d : Fin 24) (ids : Reg) (par : Fin 24) (mdl : Reg) (tag : Fin 64) (g : Guard)
  | pfxlook (d : Reg) (key : Reg) (req : Reg) (idx : Reg) (tag : Fin 64) (g : Guard)
  | pfxins (d : Reg) (key : Reg) (page : Reg) (tag : Fin 64) (g : Guard)
  | pfxinsDel (d : Reg) (page : Reg) (tag : Fin 64) (g : Guard)
  | sqget (d : Reg) (hd : Reg) (w : Fin 64) (g : Guard)
  | tokemit (d : Reg) (hd : Reg) (loc : Reg) (cnt : Reg) (g : Guard)
  | sqstop (d : Reg) (hd : Reg) (reason : Reg) (g : Guard)
  | sqroll (d : Reg) (hd : Reg) (n : Reg) (g : Guard)
  | sqyield (skip : Bool) (d : Reg) (hd : Reg) (g : Guard)
  | nsend (nm : NetMode) (len : Reg) (dq : Reg) (src : Fin 24) (tag : Fin 64) (g : Guard)
  | nput (rep : Bool) (nm : NetMode) (len : Reg) (dest : Reg) (src : Fin 24) (raddr : Fin 24) (tag : Fin 64) (g : Guard)
  | nget (rod : Bool) (len : Reg) (dest : Reg) (raddr : Fin 24) (dst : Fin 24) (tag : Fin 64) (g : Guard)
  | nred (op : NredOp) (blk : Reg) (tag : Fin 64) (g : Guard)
  | npoll (d : Reg) (q : Reg) (g : Guard)
  | nrecv (q : Reg) (dst : Fin 24) (mx : Reg) (tag : Fin 64) (g : Guard)
  | ntime (hor : Bool) (d : Fin 24) (g : Guard)
  | splitMerge (grp i j : Nat)
  | icacheMissFill (core seq cycles : Nat)
  | yieldTimeout (grp slot : Nat)
  | sleepExpire (grp slot : Nat)
  | bwaittTimeout (grp slot : Nat)
  | growGrant (core : Nat)
  | growDeadlockResolve (core : Nat)
  | syncOpEffect (grp slot : Nat)
  | exitUnblock (grp slot : Nat)
  | registerWriteLand (grp : Nat)
  | forkSwapOut (team : Nat)
  | forkResume (team : Nat)
  | storeDrain (grp : Nat)
  | l2LineEvict (line : Nat)
  | hostMemoryAccess (port pa : Nat) (data : List Byte) (len : Nat)
  | engineLineRelease (cmd : Nat) (sp : Space) (unit : Nat)
  | commandComplete (cmd : Nat)
  | traverseRefusalRetry (cmd : Nat) (sp : Space) (unit hint : Nat)
  | loopStep (core idx : Nat)
  | tableBuild (core idx : Nat)
  | tlookStep (core idx : Nat)
  | loopComplete (core idx : Nat)
  | kvgathPageStep (cmd : Nat) (err : PageError)
  | evictionComplete (die page : Nat)
  | fetchComplete (die page : Nat) (err : PageError)
  | chartScrub (die page : Nat) (err : PageError)
  | chcfgReload (port die : Nat)
  | blockTableRecord (ho : HandOver)
  | kvsendAck (cmd : Nat) (ok : Bool)
  | launch (q : Nat)
  | admitReq (q : Nat)
  | cancel (q : Nat)
  | model (q : Nat)
  | modeldel (q : Nat)
  | badcmd (q : Nat)
  | rtail (port q : Nat) (val : Word)
  | ehead (port q : Nat) (val : Word)
  | semaphoreRead (port n : Nat) (tie : Bool)
  | semaphoreWrite (port n : Nat) (val : DWord)
  | hostLinkDown (port : Nat)
  | partk (port : Nat) (val : DWord)
  | kChangeApply (die : Nat)
  | phalt (port : Nat) (val : DWord)
  | partitionHalt (part : Nat)
  | shadowSwap (part : Nat)
  | haltSlowPath (part : Nat)
  | partitionResume (part : Nat)
  | gridDispatch (q : Nat)
  | leaseStage (grid : Nat)
  | saveAreaAllocate (grid : Nat)
  | holdAcquire (grid : Nat)
  | clusterPlace (grid : Nat)
  | teamStart (core : Nat)
  | workSteal (core : Nat)
  | teamSwapOut (grid : Nat)
  | gridCompletion (grid : Nat)
  | watchdogTrap (grid : Nat)
  | watchdogEnd (grid : Nat)
  | batchForm (part : Nat)
  | swappedReturn (handle : Nat)
  | blockHandOver (handle : Nat)
  | sramSoftError (grp : Nat)
  | linkTraining (port : Nat) (huaxel : Bool)
  | mroute (port : Nat) (val : DWord)
  | mqcfg (port q : Nat) (val : DWord)
  | sextantFrame (port : Nat) (time : DWord) (master : Nat × Nat)
  | sextantFrameSend (port : Nat)
  | orderedPacketArrival (inp : Nat) (pkt : Packet)
  | beacon (inp : Nat) (keys : List (Nat × PKey))
  | beaconSend (out : Nat)
  | orderedEmit (out space : Nat)
  | stallDeclare (inp space : Nat)
  | stallNotice (space : Nat)
  | messageDelivery (pkt : Packet)
  | putGetServe (inp : Nat) (src : Nat) (req : PutGet) (reply : Nat)
  | reductionContribution (pkt : Packet)
  | reductionCombine (asid coll round : Nat)
  | reductionAbandon (asid coll round : Nat) (mismatch : Bool)
  | reductionResult (cmd stamp : Nat) (data : List Byte)
  | abandonNotice (cmd : Nat) (mismatch : Bool)
  | tlbinvc (port : Nat) (val : DWord)
  | invalidationComplete
  | memcfg (port : Nat) (val : DWord)
  | memcfgChangeComplete
  | nrseed (port : Nat) (val : DWord)
  | keydata (port off : Nat) (val : DWord)
  | rowActivate (pc bank row : Nat)
  | reset (board : Board)
  | attctl (port : Nat) (val : DWord)
  | attestationReportDone
  | governorInterval (power : Nat)
  | plimit (port : Nat) (val : DWord)
  | pclkmax (port p : Nat) (val : DWord)
  | pwrctl (port : Nat) (val : DWord)
  | partitionIdle (part : Nat)
  | partitionOff (part : Nat)
  | thermalHot (die : Nat) (temp : Nat)
  | thermtrip (die : Nat)
  | registerWrite (port : Nat) (win : Window) (off : Nat) (val : DWord)
  | illegalInstruction (w : DWord)
  | linkFailure (port : Nat)
  | retransmission (cmd : Nat) (exhausted : Bool)
deriving DecidableEq, Repr

end Sys2Proof
end

