-- ==== Sys2Proof/Machine/Map.lean ====
section
/-! DEFINITION. Sparse tables: a list of (number, value) pairs in one canonical form, numbers strictly rising, so that
equal tables are equal data. Memories are such tables of bytes in which no entry holds the value that an unlisted
address reads as (spec/00_scope.md R1; assumption log 1). -/

namespace Sys2Proof.Machine

/-- A sparse table by number. -/
abbrev Map (α : Type) := List (Nat × α)

/-- The entry at `k`. -/
def Map.find? {α : Type} : Map α → Nat → Option α
  | [], _ => none
  | (j, a) :: m, k => if k = j then some a else Map.find? m k

/-- The entry at `k`, or `d`. -/
def Map.getD {α : Type} (m : Map α) (k : Nat) (d : α) : α := (m.find? k).getD d

/-- Writes the entry at `k`, keeping numbers rising. -/
def Map.set {α : Type} : Map α → Nat → α → Map α
  | [], k, a => [(k, a)]
  | (j, b) :: m, k, a =>
    if k < j then (k, a) :: (j, b) :: m
    else if k = j then (k, a) :: m
    else (j, b) :: Map.set m k a

/-- Removes what is listed at `k`. -/
def Map.erase {α : Type} : Map α → Nat → Map α
  | [], _ => []
  | (j, b) :: m, k => if k = j then Map.erase m k else (j, b) :: Map.erase m k

/-- Writes `a` at `k` in a table whose unlisted entries read as `d`. -/
def Map.put {α : Type} [DecidableEq α] (m : Map α) (d : α) (k : Nat) (a : α) : Map α :=
  if a = d then m.erase k else m.set k a

/-- Changes the entry at `k`, if there is one. -/
def Map.modify {α : Type} : Map α → Nat → (α → α) → Map α
  | [], _, _ => []
  | (j, b) :: m, k, f => if k = j then (j, f b) :: m else (j, b) :: Map.modify m k f

/-- The numbers of a table. -/
def Map.keys {α : Type} (m : Map α) : List Nat := m.map Prod.fst

/-- Numbers strictly rising. -/
def Map.sorted {α : Type} : Map α → Bool
  | [] => true
  | [_] => true
  | (j, _) :: (k, b) :: m => decide (j < k) && Map.sorted ((k, b) :: m)

/-- A memory: bytes by address (Host.Cell). -/
abbrev Mem := List Host.Cell

/-- What an unlisted address of a memory reads as (assumption log 1). DESIGN CHOICE, unsafe. -/
def Mem.unlisted : Byte := 0

/-- One byte of a memory. -/
def Mem.byte (m : Mem) (a : Nat) : Byte := Map.getD m a Mem.unlisted

/-- Stores one byte. -/
def Mem.store (m : Mem) (a : Nat) (b : Byte) : Mem := Map.put m Mem.unlisted a b

/-- `n` bytes from `a` on, lowest address first. -/
def Mem.bytes (m : Mem) (a : Nat) : Nat → List Byte
  | 0 => []
  | n + 1 => m.byte a :: Mem.bytes m (a + 1) n

/-- Stores bytes from `a` on, lowest address first. -/
def Mem.storeBytes (m : Mem) (a : Nat) : List Byte → Mem
  | [] => m
  | b :: bs => Mem.storeBytes (m.store a b) (a + 1) bs

/-- The canonical form: addresses strictly rising and no entry equal to what an unlisted address reads as. -/
def Mem.wf (m : Mem) : Bool := Map.sorted m && m.all (fun c => c.2 != Mem.unlisted)

/-- The little-endian value of bytes (R1). -/
def leNat : List Byte → Nat
  | [] => 0
  | b :: bs => b.toNat + 256 * leNat bs

/-- `n` little-endian bytes of a number (R1). -/
def leBytes : Nat → Nat → List Byte
  | 0, _ => []
  | n + 1, v => BitVec.ofNat 8 v :: leBytes n (v / 256)

/-- An `n`-byte little-endian number at `a`. -/
def Mem.nat (m : Mem) (a n : Nat) : Nat := leNat (m.bytes a n)

/-- Stores a number as `n` little-endian bytes. -/
def Mem.storeNat (m : Mem) (a n v : Nat) : Mem := m.storeBytes a (leBytes n v)

/-- Bits `lo + len - 1 : lo` of a number. -/
def bits (v lo len : Nat) : Nat := v / 2 ^ lo % 2 ^ len

/-- Bit `i` of a number. -/
def bit (v i : Nat) : Bool := v.testBit i

/-- A truth value as 0 or 1. -/
def b2n (b : Bool) : Nat := if b then 1 else 0

end Sys2Proof.Machine
end

