-- ==== Sys2Proof/Machine/Crypto.lean ====
section
/-! DEFINITION. The algorithms that spec/13_memory_tiers.md R516 and spec/14_package.md R536, R537, R539 take from public
standards: SHA-512 of FIPS 180-4, RSASSA-PSS verification of RFC 8017, AES-256 of FIPS 197 and XTS of IEEE 1619
(assumption logs 9, 10). -/

namespace Sys2Proof.Machine

/-- A byte string as a big-endian number (RFC 8017, OS2IP). -/
def beNat (bs : List Byte) : Nat := leNat bs.reverse

/-- `n` big-endian bytes of a number (RFC 8017, I2OSP). -/
def beBytes (n v : Nat) : List Byte := (leBytes n v).reverse

/-- Bytes exclusive-ored in pairs. -/
def xorBytes (a b : List Byte) : List Byte := List.zipWith (· ^^^ ·) a b

/-! ### SHA-512 (FIPS 180-4) -/

/-- The largest number whose `k`-th power is at most `n`, below `r + 2 ^ b`, from `r` up, bit by bit. -/
def rootFrom (k n : Nat) : Nat → Nat → Nat
  | 0, r => r
  | b + 1, r => rootFrom k n b (if (r + 2 ^ b) ^ k ≤ n then r + 2 ^ b else r)

/-- The primes up to 409, of which there are 80. -/
def shaPrimes : List Nat := ((List.range 408).map (· + 2)).filter (fun n => (List.range 19).all (fun d => n ≤ d + 2 || n % (d + 2) ≠ 0))

/-- The first 64 fractional bits of the `k`-th root of a number. -/
def rootBits (k p : Nat) : DWord := BitVec.ofNat 64 (rootFrom k (p * 2 ^ (64 * k)) 70 0)

/-- The constants of the rounds: cube roots of the first 80 primes (FIPS 180-4, 4.2.3). -/
def shaConsts : List DWord := shaPrimes.map (rootBits 3)

/-- The initial hash value: square roots of the first eight (FIPS 180-4, 5.3.5). -/
def shaStart : List DWord := (shaPrimes.take 8).map (rootBits 2)

/-- The message schedule, continued for `n` more words; the newest word comes first. -/
def shaExpand : Nat → List DWord → List DWord
  | 0, w => w
  | n + 1, w =>
    let a := w.getD 1 0
    let b := w.getD 14 0
    let s1 := a.rotateRight 19 ^^^ a.rotateRight 61 ^^^ (a >>> 6)
    let s0 := b.rotateRight 1 ^^^ b.rotateRight 8 ^^^ (b >>> 7)
    shaExpand n ((s1 + w.getD 6 0 + s0 + w.getD 15 0) :: w)

/-- One round on the eight working variables. -/
def shaRound (v : List DWord) (kw : DWord) : List DWord :=
  match v with
  | [a, b, c, d, e, f, g, h] =>
    let t1 := h + (e.rotateRight 14 ^^^ e.rotateRight 18 ^^^ e.rotateRight 41) + ((e &&& f) ^^^ (~~~e &&& g)) + kw
    let t2 := (a.rotateRight 28 ^^^ a.rotateRight 34 ^^^ a.rotateRight 39) + ((a &&& b) ^^^ (a &&& c) ^^^ (b &&& c))
    [t1 + t2, a, b, c, d + t1, e, f, g]
  | v => v

/-- One block of 128 bytes. -/
def shaBlock (hash : List DWord) (block : List Byte) : List DWord :=
  let w := (List.range 16).map (fun i => BitVec.ofNat 64 (beNat ((block.drop (8 * i)).take 8)))
  let kw := List.zipWith (· + ·) shaConsts (shaExpand 64 w.reverse).reverse
  List.zipWith (· + ·) hash (kw.foldl shaRound hash)

/-- The padded message: a 1 bit, zeros, and the length in bits as 128 bits. -/
def shaPad (bs : List Byte) : List Byte :=
  bs ++ [0x80] ++ List.replicate ((239 - bs.length % 128) % 128) 0 ++ beBytes 16 (8 * bs.length)

/-- The blocks of a padded message, folded in. -/
def shaFold : Nat → List Byte → List DWord → List DWord
  | 0, _, hash => hash
  | n + 1, bs, hash => shaFold n (bs.drop 128) (shaBlock hash (bs.take 128))

/-- SHA-512 of a byte string, 64 bytes. -/
def sha512 (bs : List Byte) : List Byte :=
  let m := shaPad bs
  (shaFold (m.length / 128) m shaStart).flatMap (fun w => beBytes 8 w.toNat)

/-- A SHA-512 digest as one number whose little-endian bytes are the digest. -/
def digest (bs : List Byte) : BitVec 512 := BitVec.ofNat 512 (leNat (sha512 bs))

/-! ### RSASSA-PSS (RFC 8017) -/

/-- `b ^ e mod n` for the exponent 65,537: sixteen squarings and a product. -/
def rsaPublic (n b : Nat) : Nat := ((List.range 16).foldl (fun x _ => x * x % n) (b % n)) * b % n

/-- `n` bytes of MGF1 with SHA-512. -/
def mgf1 (seed : List Byte) (n : Nat) : List Byte :=
  ((List.range ((n + 63) / 64)).flatMap (fun c => sha512 (seed ++ beBytes 4 c))).take n

/-- EMSA-PSS verification of an encoded message of `emBits` bits, with SHA-512 and a salt of 64 bytes. -/
def pssEncoded (message em : List Byte) (emBits : Nat) : Bool :=
  let emLen := (emBits + 7) / 8
  if emLen < 130 then false
  else
    let dbLen := emLen - 65
    let masked := em.take dbLen
    let h := (em.drop dbLen).take 64
    let top := 8 * emLen - emBits
    let db := xorBytes masked (mgf1 h dbLen)
    let db := (BitVec.ofNat 8 ((db.getD 0 0).toNat % 2 ^ (8 - top))) :: db.drop 1
    (em.getD (emLen - 1) 0) == 0xBC && decide ((masked.getD 0 0).toNat < 2 ^ (8 - top)) &&
      (db.take (dbLen - 65)).all (fun b => b == 0) && db.getD (dbLen - 65) 0 == 1 &&
      h == sha512 (List.replicate 8 0 ++ sha512 message ++ db.drop (dbLen - 64))

/-- The signature of 512 bytes verifies over the message under the big-endian modulus and the exponent 65,537 (R536). -/
def pssVerifies (modulus message signature : List Byte) : Bool :=
  let n := beNat modulus
  let v := beNat signature
  let emBits := Nat.log2 n
  let m := rsaPublic n v
  decide (0 < n) && decide (v < n) && decide (m < 256 ^ ((emBits + 7) / 8)) &&
    pssEncoded message (beBytes ((emBits + 7) / 8) m) emBits

/-! ### AES-256 (FIPS 197), on blocks as lists of 16 numbers below 256, column after column -/

/-- Doubling in the field of 256 elements. -/
def gfDouble (a : Nat) : Nat := (2 * a % 256) ^^^ (if 128 ≤ a then 27 else 0)

/-- The product by a factor below 16. -/
def gfMul (k a : Nat) : Nat :=
  let a2 := gfDouble a
  let a4 := gfDouble a2
  (if k.testBit 0 then a else 0) ^^^ (if k.testBit 1 then a2 else 0) ^^^ (if k.testBit 2 then a4 else 0) ^^^
    (if k.testBit 3 then gfDouble a4 else 0)

/-- The substitution tables, entry a at bits 8a + 7 : 8a, and the inverse one. -/
def sboxTable : Nat :=
  0x16bb54b00f2d99416842e6bf0d89a18cdf2855cee9871e9b948ed9691198f8e19e1dc186b95735610ef6034866b53e708a8bbd4b1f74dde8c6b4a61c2e2578ba08ae7a65eaf4566ca94ed58d6d37c8e779e4959162acd3c25c2406490a3a32e0db0b5ede14b8ee4688902a22dc4f816073195d643d7ea7c41744975fec130ccdd2f3ff1021dab6bcf5389d928f40a351a89f3c507f02f94585334d43fbaaefd0cf584c4a39becb6a5bb1fc20ed00d153842fe329b3d63b52a05a6e1b1a2c830975b227ebe28012079a059618c323c7041531d871f1e5a534ccf73f362693fdb7c072a49cafa2d4adf04759fa7dc982ca76abd7fe2b670130c56f6bf27b777c63
def invSboxTable : Nat :=
  0x7d0c2155631469e126d677ba7e042b17619953833cbbebc8b0f52aae4d3be0a0ef9cc9939f7ae52d0d4ab519a97f51605fec8027591012b131c7078833a8dd1ff45acd78fec0db9a2079d2c64b3e56fc1bbe18aa0e62b76f89c5291d711af1476edf751ce837f9e28535ade72274ac9673e6b4f0cecff297eadc674f4111913a6b8a130103bdafc1020f3fca8f1e2cd00645b3b80558e4f70ad3bc8c00abd890849d8da75746155edab9edfd5048706c92b6655dcc5ca4d41698688664f6f87225d18b6d49a25b76b224d92866a12e084ec3fa420b954cee3d23c2a632947b54cbe9dec444438e3487ff2f9b8239e37cfbd7f3819ea340bf38a53630d56a0952

/-- The substitution of one byte, and its inverse. -/
def subByte (a : Nat) : Nat := sboxTable / 2 ^ (8 * a) % 256
def invSubByte (a : Nat) : Nat := invSboxTable / 2 ^ (8 * a) % 256

/-- Numbers exclusive-ored in pairs. -/
def xorNats (a b : List Nat) : List Nat := List.zipWith (· ^^^ ·) a b

/-- The key schedule, continued for `n` more words from word number `i`; the newest word comes first. -/
def aesExpand : Nat → Nat → List (List Nat) → List (List Nat)
  | 0, _, w => w
  | n + 1, i, w =>
    let last := w.headD []
    let t := if i % 8 = 0 then
        xorNats ((last.drop 1 ++ last.take 1).map subByte) [2 ^ (i / 8 - 1), 0, 0, 0]
      else if i % 8 = 4 then last.map subByte
      else last
    aesExpand n (i + 1) (xorNats (w.getD 7 []) t :: w)

/-- The fifteen round keys of a key of 32 bytes. -/
def aesKeys (key : List Nat) : List (List Nat) :=
  let w := (aesExpand 52 8 ((List.range 8).map (fun i => (key.drop (4 * i)).take 4)).reverse).reverse
  (List.range 15).map (fun r => ((w.drop (4 * r)).take 4).flatten)

/-- Row r of the block rotated by r columns, left, or right to undo it. -/
def shiftRows (b : List Nat) : List Nat := (List.range 16).map (fun i => b.getD ((i + 4 * (i % 4)) % 16) 0)
def invShiftRows (b : List Nat) : List Nat := (List.range 16).map (fun i => b.getD ((i + 12 * (i % 4)) % 16) 0)

/-- Every column multiplied by a circulant matrix, given by its first row. -/
def mixWith (row : List Nat) (b : List Nat) : List Nat :=
  (List.range 16).map (fun i => (List.range 4).foldl
    (fun (x : Nat) k => x ^^^ gfMul (row.getD ((k + 4 - i % 4) % 4) 0) (b.getD (i / 4 * 4 + k) 0)) 0)

/-- One block encrypted under the round keys. -/
def aesEncrypt (ks : List (List Nat)) (b : List Nat) : List Nat :=
  let mid := (List.range 13).foldl
    (fun x r => xorNats (mixWith [2, 3, 1, 1] (shiftRows (x.map subByte))) (ks.getD (r + 1) [])) (xorNats b (ks.getD 0 []))
  xorNats (shiftRows (mid.map subByte)) (ks.getD 14 [])

/-- One block decrypted under the round keys. -/
def aesDecrypt (ks : List (List Nat)) (b : List Nat) : List Nat :=
  let mid := (List.range 13).foldl
    (fun x r => mixWith [14, 11, 13, 9] (xorNats ((invShiftRows x).map invSubByte) (ks.getD (13 - r) [])))
    (xorNats b (ks.getD 14 []))
  xorNats ((invShiftRows mid).map invSubByte) (ks.getD 0 [])

/-! ### XTS (IEEE 1619) -/

/-- The next tweak block: the product by the primitive element of the field of 2 ^ 128 elements, little-endian. -/
def xtsNext (t : Nat) : Nat := (2 * t % 2 ^ 128) ^^^ (if 2 ^ 127 ≤ t then 0x87 else 0)

/-- The first `n` bytes of a little-endian number, as numbers; and back. -/
def byteNats (n v : Nat) : List Nat := (leBytes n v).map BitVec.toNat
def natBytes (b : List Nat) : List Byte := b.map (BitVec.ofNat 8)

/-- The blocks of a data unit, each between two additions of its tweak block. -/
def xtsBlocks (f : List Nat → List Nat) : Nat → Nat → List Byte → List Byte
  | 0, _, _ => []
  | n + 1, t, bs =>
    natBytes (xorNats (f (xorNats ((bs.take 16).map BitVec.toNat) (byteNats 16 t))) (byteNats 16 t)) ++
      xtsBlocks f n (xtsNext t) (bs.drop 16)

/-- XTS-AES-256 over one line of 128 bytes, encrypting or decrypting: the key pair holds the data key and then the tweak
key, and the tweak is the number of the line as a little-endian 128-bit integer (R516). -/
def xts (enc : Bool) (keys : BitVec 512) (line : Nat) (bs : List Byte) : List Byte :=
  let k := byteNats 64 keys.toNat
  let data := aesKeys (k.take 32)
  xtsBlocks (if enc then aesEncrypt data else aesDecrypt data) 8
    (leNat (natBytes (aesEncrypt (aesKeys (k.drop 32)) (byteNats 16 line)))) bs

end Sys2Proof.Machine
end

