-- ==== Sys2Proof/Machine/Float.lean ====
section
/-! DEFINITION. Number formats and exact float arithmetic (spec/06_float.md R248 to R258): FP32, BF16, the narrow formats
N8E4, N8E5 and N4, rounding, and quantisation. Every computation is exact on dyadic numbers and rounds once. -/

namespace Sys2Proof.Machine

/-- A decoded float: a NaN, an infinity, or (−1)^neg × m × 2^e with a signed zero. -/
inductive FVal where
  | nan
  | inf (neg : Bool)
  | fin (neg : Bool) (m : Nat) (e : Int)
deriving DecidableEq, Repr

/-- The canonical FP32 NaN (R248). -/
def nan32 : Word := 0x7FC00000

/-- The value of an IEEE pattern with `fb` fraction bits and bias `bias`, 8 exponent bits (R248, R249). -/
def fvalOfBits (fb : Nat) (p : Nat) : FVal :=
  let frac := p % 2 ^ fb
  let ex := p / 2 ^ fb % 256
  let neg := p / 2 ^ (fb + 8) % 2 = 1
  if ex = 255 then (if frac = 0 then .inf neg else .nan)
  else if ex = 0 then .fin neg frac (-126 - (fb : Int))
  else .fin neg (frac + 2 ^ fb) ((ex : Int) - 127 - (fb : Int))

/-- The value of an FP32 pattern (R248). -/
def fval (w : Word) : FVal := fvalOfBits 23 w.toNat

/-- The value of a BF16 pattern (R249). -/
def fvalBf (h : BitVec 16) : FVal := fvalOfBits 7 h.toNat

/-- The value of an N8E4 code (R251). -/
def fvalE4 (b : Byte) : FVal :=
  let c := b.toNat
  if c = 0 then .fin false 0 0
  else if c = 0x80 then .nan
  else .fin (decide (128 ≤ c)) (8 + c % 8) ((c / 8 % 16 : Nat) - 10 : Int)

/-- The value of an N8E5 code (R251). -/
def fvalE5 (b : Byte) : FVal :=
  let c := b.toNat
  if c = 0 then .fin false 0 0
  else if c = 0x80 then .nan
  else if c / 4 % 32 = 31 then (if c % 4 = 0 then .inf (decide (128 ≤ c)) else .nan)
  else .fin (decide (128 ≤ c)) (4 + c % 4) ((c / 4 % 32 : Nat) - 17 : Int)

/-- The value of an N4 code under a block special value (R251, R252). -/
def fvalN4 (c : BitVec 4) (bsv : Byte) : FVal :=
  let n := c.toNat
  if n = 0 then .fin false 0 0
  else if n = 8 then fvalE4 bsv
  else .fin (decide (8 ≤ n)) (2 + n % 2) ((n / 2 % 4 : Nat) - 2 : Int)

/-- Rounds `n + rem/den` under a mode, for a value of the given sign (R80). -/
def roundUp (r : Round) (neg : Bool) (n rem den : Nat) : Bool :=
  match r with
  | .rn => decide (den < 2 * rem) || (decide (2 * rem = den) && n % 2 == 1)
  | .rz => false
  | .ru => !neg && decide (0 < rem)
  | .rd => neg && decide (0 < rem)

/-- The magnitude pattern of m × 2^e in an IEEE format with `p` significand bits, least exponent `emin` and infinity
pattern `infp`, rounded once (R257). -/
def roundPat (p : Nat) (emin : Int) (infp : Nat) (r : Round) (neg : Bool) (m : Nat) (e : Int) : Nat :=
  if m = 0 then 0 else
    let ulp := max emin (e + (m.log2 : Int) + 1 - (p : Int))
    let n :=
      if ulp ≤ e then m * 2 ^ (e - ulp).toNat
      else
        let den := 2 ^ (ulp - e).toNat
        let q := m / den
        if roundUp r neg q (m % den) den then q + 1 else q
    let pat := n + (ulp - emin).toNat * 2 ^ (p - 1)
    if pat < infp then pat
    else
      match r with
      | .rn => infp
      | .rz => infp - 1
      | .ru => if neg then infp - 1 else infp
      | .rd => if neg then infp else infp - 1

/-- FP32 of an exact value (R257). -/
def toF32 (r : Round) : FVal → Word
  | .nan => nan32
  | .inf neg => if neg then 0xFF800000 else 0x7F800000
  | .fin neg m e =>
    BitVec.ofNat 32 (roundPat 24 (-149) 0x7F800000 r neg m e + (if neg then 2 ^ 31 else 0))

/-- BF16 of an exact value (R249). -/
def toBf16 (r : Round) : FVal → BitVec 16
  | .nan => 0x7FC0
  | .inf neg => if neg then 0xFF80 else 0x7F80
  | .fin neg m e =>
    BitVec.ofNat 16 (roundPat 8 (-133) 0x7F80 r neg m e + (if neg then 2 ^ 15 else 0))

/-- The signed integer m × 2^(e − base) of a finite value, for `base` at most e. -/
def scaled (neg : Bool) (m : Nat) (e base : Int) : Int :=
  let v : Int := (m * 2 ^ (e - base).toNat : Nat)
  if neg then -v else v

/-- The sign of a zero sum: kept when both have it, else + except under .RD (R257). -/
def zeroSign (r : Round) (a b : Bool) : Bool := if a = b then a else r == .rd

/-- The exact sum; a zero sum takes its sign from the rounding mode (R257). -/
def addF (r : Round) : FVal → FVal → FVal
  | .nan, _ => .nan
  | _, .nan => .nan
  | .inf a, .inf b => if a = b then .inf a else .nan
  | .inf a, .fin _ _ _ => .inf a
  | .fin _ _ _, .inf b => .inf b
  | .fin a m e, .fin b n f =>
    let base := min e f
    let v := scaled a m e base + scaled b n f base
    if v = 0 then .fin (zeroSign r a b) 0 0 else .fin (decide (v < 0)) v.natAbs base

/-- Sign reversed. -/
def negF : FVal → FVal
  | .nan => .nan
  | .inf a => .inf (!a)
  | .fin a m e => .fin (!a) m e

/-- The exact product; the sign of a zero product is the exclusive-or (R257). -/
def mulF : FVal → FVal → FVal
  | .nan, _ => .nan
  | _, .nan => .nan
  | .inf a, .inf b => .inf (a != b)
  | .inf a, .fin b n _ => if n = 0 then .nan else .inf (a != b)
  | .fin a m _, .inf b => if m = 0 then .nan else .inf (a != b)
  | .fin a m e, .fin b n f => .fin (a != b) (m * n) (e + f)

/-- Order of two values that are no NaN: −1, 0 or 1, with −0 equal to +0 (R258). -/
def cmpF : FVal → FVal → Int
  | .inf a, .inf b => if a = b then 0 else if a then -1 else 1
  | .inf a, _ => if a then -1 else 1
  | _, .inf b => if b then 1 else -1
  | .fin a m e, .fin b n f =>
    let base := min e f
    let v := scaled a m e base - scaled b n f base
    if v < 0 then -1 else if v = 0 then 0 else 1
  | _, _ => 0

/-- Whether a value is a NaN. -/
def FVal.isNan : FVal → Bool
  | .nan => true
  | _ => false

/-- The sign of a value, of a zero too. -/
def FVal.neg : FVal → Bool
  | .nan => false
  | .inf a => a
  | .fin a _ _ => a

/-- FADD (R257). -/
def fadd32 (r : Round) (a b : Word) : Word := toF32 r (addF r (fval a) (fval b))

/-- FSUB (R257). -/
def fsub32 (r : Round) (a b : Word) : Word := toF32 r (addF r (fval a) (negF (fval b)))

/-- FMUL (R257). -/
def fmul32 (r : Round) (a b : Word) : Word := toF32 r (mulF (fval a) (fval b))

/-- FFMA: exact(a × b + c) rounded once (R257). -/
def ffma32 (r : Round) (a b c : Word) : Word := toF32 r (addF r (mulF (fval a) (fval b)) (fval c))

/-- IEEE 754-2019 minimum and maximum on patterns of a format: −0 below +0, a NaN gives `nanp` (R258). -/
def minMax (isMax : Bool) {w : Nat} (val : BitVec w → FVal) (nanp a b : BitVec w) : BitVec w :=
  let x := val a
  let y := val b
  if x.isNan || y.isNan then nanp
  else
    let c := cmpF x y
    let less := decide (c < 0) || (decide (c = 0) && x.neg && !y.neg)
    if less then (if isMax then b else a) else (if isMax then a else b)

/-- FMIN (R258). -/
def fmin32 (a b : Word) : Word := minMax false fval nan32 a b

/-- FMAX (R258). -/
def fmax32 (a b : Word) : Word := minMax true fval nan32 a b

/-! ### Quantisation (R255) -/

/-- Narrow formats. -/
inductive Narrow where
  | e4 | e5 | n4
deriving DecidableEq, Repr

/-- The values of regular finite codes, in units of 2^−17: (code, value) (R251, R252). -/
def narrowValue : Narrow → Nat → Option Int
  | .e4, c => match fvalE4 (BitVec.ofNat 8 c) with
    | .fin a m e => some (scaled a m e (-17))
    | _ => none
  | .e5, c => match fvalE5 (BitVec.ofNat 8 c) with
    | .fin a m e => some (scaled a m e (-17))
    | _ => none
  | .n4, c => if c = 8 then none else match fvalN4 (BitVec.ofNat 4 c) 0 with
    | .fin a m e => some (scaled a m e (-17))
    | _ => none

/-- Number of codes of a narrow format. -/
def Narrow.codes : Narrow → Nat
  | .n4 => 16
  | _ => 256

/-- The nearest regular code to num/den × 2^−17 among codes 0 to k − 1, ties to a code whose bit 0 is 0; the result is
(code, distance × den) (R255). -/
def nearestCode (f : Narrow) (num : Int) (den : Nat) : Nat → Nat × Nat
  | 0 => (0, num.natAbs)
  | k + 1 =>
    let best := nearestCode f num den k
    match narrowValue f k with
    | none => best
    | some v =>
      let d := (v * (den : Int) - num).natAbs
      if d < best.2 || (d == best.2 && k % 2 == 0 && best.1 % 2 == 1) then (k, d) else best

/-- The NaN code (R255). -/
def nanCode : Narrow → Bool → Nat
  | .n4, useb => if useb then 8 else 0
  | _, _ => 0x80

/-- quantise(x, s, F, ovf, useb, bsv) of R255. `s` and `x` are decoded values; `ovf` is true for NAN. -/
def quantise (x s : FVal) (f : Narrow) (ovf useb : Bool) (bsv : Byte) : Nat :=
  match s with
  | .nan => nanCode f useb
  | .inf _ => nanCode f useb
  | .fin sneg sm se =>
    if sneg || sm = 0 then nanCode f useb
    else match x with
      | .nan => nanCode f useb
      | .inf neg =>
        match f with
        | .e5 => if neg then 0xFC else 0x7C
        | .e4 => if ovf then 0x80 else if neg then 0xFF else 0x7F
        | .n4 => if neg then 0xF else 7
      | .fin neg m e =>
        -- q = m × 2^(e − se) / sm, in units of 2^−17
        let sh := e - se + 17
        let numN := if 0 ≤ sh then m * 2 ^ sh.toNat else m
        let den := if 0 ≤ sh then sm else sm * 2 ^ (-sh).toNat
        let num : Int := if neg then -(numN : Int) else numN
        let tooBig : Bool :=
          match f with
          | .e4 => ovf && decide (496 * 2 ^ 17 * den ≤ numN)
          | .e5 => ovf && decide (61440 * 2 ^ 17 * den ≤ numN)
          | .n4 => false
        if tooBig then (if f = .e4 then 0x80 else if neg then 0xFC else 0x7C)
        else
          let best := nearestCode f num den f.codes
          match f, useb, fvalE4 bsv with
          | .n4, true, .fin bn bm be =>
            let d := (scaled bn bm be (-17) * (den : Int) - num).natAbs
            if d < best.2 then 8 else best.1
          | _, _, _ => best.1

/-- The value 1.0. -/
def oneF : FVal := .fin false 1 0

end Sys2Proof.Machine
end

