-- ==== Sys2Proof/Machine/CoreTypes.lean ====
section
/-! DEFINITION. What the state holds for groups, teams, clusters, grids and cores (spec/01_machine.md,
spec/03_sequencer.md, spec/04_loadstore.md): records of plain data, each field with the rule that names it. -/

namespace Sys2Proof.Machine

/-- The 32 lane values of a v register, lane 0 first (R64). -/
abbrev Lanes := List Word

/-- Where one access lands: a space, and an address in it (R178, R186). In the global space the address is physical,
unless a definition says virtual. -/
abbrev Place := Space × Nat

/-- A key of logical time: (LTIME, GGID), compared lexicographically (00 R4, R5). -/
abbrev Key := Nat × Nat

/-! ### Groups (03) -/

/-- What a split waits for (R105, R162 WAITS). -/
inductive Wait where
  /-- Not blocked. -/
  | none
  /-- Reckoning: for its key to be the smallest live key (R36). -/
  | key
  /-- BWAIT, or BWAITT with a deadline in logical ticks: for the end of phase `ph` of the object at a SPAD offset of a
  core (R141, R169). -/
  | phase (core off : Nat) (ph : Bool) (deadline : Option Nat)
  /-- Released by an event with this key (R167, R169). -/
  | released (k : Key)
  /-- Released because its object is BROKEN (R138). -/
  | broken
  /-- BWAITT timed out, by an event with this key (R141, R169). -/
  | expired (k : Key)
  /-- TBAR and CBAR (R145). -/
  | tbar | cbar
  /-- FORK of the launch record at an address (R148). -/
  | fork (addr : DWord)
  /-- GROW of `n` units into `d` by the lanes `act`, with a place in the core's queue (R124). -/
  | grow (n : Nat) (d : Reg) (act : Word)
  /-- SLEEP and YIELD (R109, R145). -/
  | sleep | yield
  /-- TWAITA and TWAITL on the tags of a mask that were live as they issued (R309, R313). -/
  | tags (live : DWord)
  /-- Reckoning: EXIT, of this word, waiting for the group's commands (R130). -/
  | exit (w : DWord)
  /-- Blocked as its group was halted or swapped out: its instruction executes again (R162, R173). -/
  | redo
  /-- Reckoning: stalled at issue by a PENDING tag, whose completion is its releasing event (R171, R313). -/
  | stalled
deriving DecidableEq, Repr

/-- A split (R112). The stack lists its top entry first. -/
structure Split where
  pc : DWord
  mask : Word
  stack : List (DWord × Word)
  wait : Wait
  suspended : Bool
deriving DecidableEq, Repr

/-- An entry of a membership set (R139): the object by core and SPAD offset, and its locator. -/
structure Member where
  core : Nat
  off : Nat
  locator : Word
  arrived : Bool
  aphase : Bool
  lanes : Nat
deriving DecidableEq, Repr

/-- States of a group (R103). -/
inductive GState where
  | resident | handler | draining | swapped | halted | ended
deriving DecidableEq, Repr

/-- One ST in the store FIFO (R188): the bytes it writes at each place, and the key of its instruction (R379). -/
structure StoreEntry where
  bytes : List (Place × Byte)
  key : Key
deriving DecidableEq, Repr

/-- A register with a pending write (R105, R122): its field code, and whether the write can land. -/
structure Pend where
  reg : Nat
  ready : Bool
deriving DecidableEq, Repr

/-- A trap found after acceptance and not yet taken (R24, R213, R425). -/
structure Owed where
  sub : Nat
  addr : DWord
  other : Word
  cmd : Nat
  /-- STATUS of the frame: the status word, for a page outside the hold set (R159, R425). -/
  status : Nat
  /-- Loop id of an Almanac loop, which MWAIT and MSTAT name (R344). -/
  loop : Option Nat
deriving DecidableEq, Repr

/-- A group (R100 to R175). -/
structure Group where
  team : Nat
  core : Nat
  num : Nat
  ggid : Word
  seq : Nat
  age : Nat
  st : GState
  pilot : Bool
  v : Map Lanes
  s : Map Word
  x : Map (Word × Word)
  m : Map Word
  vallot : Nat
  splits : Map Split
  /-- The slot of its split that its sequencer chose last (R106). -/
  lastSlot : Option Nat
  members : Map Member
  icnt : DWord
  ltime : DWord
  growz : Bool
  intrap : Bool
  forkres : Bool
  childStatus : Word
  trapSlot : Nat
  trapMask : Word
  fifo : List StoreEntry
  pend : List Pend
  /-- Units released by SHRINK, EXIT or a swap-out that still drain (R122). -/
  releasing : Nat
  /-- Units that SHRINK gave to the team reserve and that still drain (R122, R127). -/
  returning : Nat
  aloop : BitVec 16
  astat : Word
  /-- Loops of the group not yet merged into ASTAT, by id: finished with this status, or not finished (R344). -/
  loops : Map (Option Word)
  saveSlot : Nat
  stackBase : Nat
  owed : List Owed
deriving DecidableEq, Repr

/-- A group with nothing in it: the value a lookup falls back on. -/
def Group.empty : Group where
  team := 0
  core := 0
  num := 0
  ggid := 0
  seq := 0
  age := 0
  st := .ended
  pilot := false
  v := []
  s := []
  x := []
  m := []
  vallot := 0
  splits := []
  lastSlot := none
  members := []
  icnt := 0
  ltime := 0
  growz := false
  intrap := false
  forkres := false
  childStatus := 0
  trapSlot := 0
  trapMask := 0
  fifo := []
  pend := []
  releasing := 0
  returning := 0
  aloop := 0
  astat := 0
  loops := []
  saveSlot := 0
  stackBase := 0
  owed := []

/-! ### Almanac tables (09) -/

/-- States of an almanac table (R362). -/
inductive TabState where
  | free | valid | stale | spilled
deriving DecidableEq, Repr

/-- A descriptor and the entries of an almanac table (R361 to R367). -/
structure Table where
  st : TabState
  codebook : Bool
  lost : Bool
  /-- Chunks reserved now (R362). -/
  chunks : Nat
  octet : List Word
  afb : List Byte
  cbfb : List Byte
  entries : Map Word
  /-- Source ranges (R365): space, first byte, end. -/
  watch : List (Space × Nat × Nat)
  /-- TLOOKs that named the table and that no MWAIT of their group has covered: group and loop id (R371). -/
  looks : List (Nat × Nat)
  /-- A mark of R365 was made whose key is not known yet (R379). -/
  marked : Bool
  /-- Reckoning: the smallest key of the marks that made the table STALE (R379). -/
  staleAt : Option Key
deriving DecidableEq, Repr

/-! ### Teams, clusters and grids (02 R93, 03, 11) -/

/-- A launch record as Helm read it (R93). -/
structure LaunchRecord where
  entry : DWord
  trapEntry : DWord
  paramPtr : DWord
  leasePtr : DWord
  clusters : Nat
  teams : Nat
  groups : Nat
  rectW : Nat
  rectH : Nat
  vcnt : Nat
  scnt : Nat
  xcnt : Nat
  spadb : Nat
  leaseCnt : Nat
  reckon : Bool
  maint : Bool
  pilot : Bool
  prio : Nat
  queue : Nat
  depCnt : Nat
  entryCnt : Nat
  entryTab : DWord
  deps : List (DWord × DWord)
  doneAddr : DWord
  doneAdd : DWord
  holdPtr : DWord
  holdCnt : Nat
deriving DecidableEq, Repr

/-- A record of zeros. -/
def LaunchRecord.empty : LaunchRecord where
  entry := 0
  trapEntry := 0
  paramPtr := 0
  leasePtr := 0
  clusters := 0
  teams := 0
  groups := 0
  rectW := 0
  rectH := 0
  vcnt := 0
  scnt := 0
  xcnt := 0
  spadb := 0
  leaseCnt := 0
  reckon := false
  maint := false
  pilot := false
  prio := 0
  queue := 0
  depCnt := 0
  entryCnt := 0
  entryTab := 0
  deps := []
  doneAddr := 0
  doneAdd := 0
  holdPtr := 0
  holdCnt := 0

/-- How an access of a Reckoning domain counts under R211. -/
inductive AccessKind where
  | read
  | write
  | atom
  /-- A RED of this FN. -/
  | red (fn : Nat)
  /-- A source read of the command in flight (R212). -/
  | source (cmd : Nat)
deriving DecidableEq, Repr

/-- A location the race trap checks: a byte of a space, or an h register of a team (R210). -/
inductive RaceLoc where
  | byte (p : Place)
  | hreg (team n : Nat)
deriving DecidableEq, Repr

/-- An access recorded in a domain's epoch (R211, R214). -/
structure Access where
  loc : RaceLoc
  ggid : Word
  kind : AccessKind
deriving DecidableEq, Repr

/-- A team (R39, R104). -/
structure Team where
  grid : Nat
  cluster : Nat
  member : Nat
  core : Nat
  spadBase : Nat
  h : Map Word
  tables : Map Table
  /-- Generation counters of the 4 KiB regions of the team's SPAD (R312). -/
  gens : Map Nat
  /-- Reckoning team reserve, in units (R127). -/
  reserve : Nat
  saveArea : Nat
  /-- Swapped out to the team save area (R103); `core` is then the number under which its images are kept (R457;
  assumption log 18). -/
  swapped : Bool
  /-- It was swapped out by FORK, and returns by itself (R148). -/
  forked : Bool
  /-- Child grid of a FORK (R148). -/
  child : Option Nat
  /-- The team's groups have been started on a core (R452). -/
  started : Bool
  /-- The team has ended (R104); what is left of it is what its commands in flight and the last stores of its groups name. -/
  ended : Bool
deriving DecidableEq, Repr

/-- A team with nothing in it. -/
def Team.empty : Team where
  grid := 0
  cluster := 0
  member := 0
  core := 0
  spadBase := 0
  h := []
  tables := []
  gens := []
  reserve := 0
  saveArea := 0
  swapped := false
  forked := false
  child := none
  started := false
  ended := false

/-- A cluster, which is a Reckoning domain (R36, R172). -/
structure Cluster where
  grid : Nat
  index : Nat
  /-- The order in which Helm placed it: `uid` at its last placement (R456). -/
  stamp : Nat
  epoch : Nat
  accesses : List Access
  /-- Lanes that ended at a key that some live key still precedes: the key, how many, and whether the group ended with
  them (R172). -/
  exits : List (Key × Nat × Bool)
deriving DecidableEq, Repr

/-- Stages of a grid (R428). -/
inductive Stage where
  | waiting | dispatched | leased | saved | held | running | done
deriving DecidableEq, Repr

/-- How a failed grid ended: the group and the cause (R157, R436). -/
structure GridEnd where
  status : Nat
  ggid : Word
  cause : Nat
  epc : DWord
deriving DecidableEq, Repr

/-- One staged page of a lease (R525): its unit number in virtual address bits 55:16, the physical unit in use, the
original physical unit, whether a frame of the staging pool holds it, and whether it has been written. -/
structure Pin where
  unit : Nat
  pa : Nat
  orig : Nat
  staged : Bool
  written : Bool
deriving DecidableEq, Repr

/-- A grid (R95, R428). -/
structure Grid where
  record : LaunchRecord
  recAddr : DWord
  queue : Nat
  asid : Nat
  decodeRole : Bool
  stage : Stage
  leases : List (Nat × Nat)
  pins : Map Pin
  /-- Save slots and team save areas allocated for the grid: base and bytes (R182). -/
  saves : List (Nat × Nat)
  /-- Its part of the save arena: the areas of its teams, then their stacks (R428). -/
  arena : Option (Nat × Nat)
  /-- Save slots of a team (R428). -/
  slots : Nat
  /-- Prompts of the requests of a step grid, readable (R448). -/
  reads : List (Nat × Nat)
  holds : List Nat
  /-- The holds are taken, and the pages are awaited (R425). -/
  holding : Bool
  ending : Option GridEnd
  /-- Clusters not yet placed, by next index (R452). -/
  nextCluster : Nat
  /-- Parent team of a child grid (R148). -/
  parent : Option Nat
  depth : Nat
  cookie : DWord
  /-- Step grid of a partition, with its request handles (R448). -/
  step : Option (Nat × List Nat)
  /-- Slices of the teams of a step grid, by team number, and where they go in SPAD (R448). -/
  slices : Map (List Byte)
  sliceOff : Nat
  /-- The watchdog's trap has been raised; the groups that have still to take it (R437). -/
  dog : Option (List Nat)
deriving DecidableEq, Repr

/-! ### Cores (01 R18, R44) -/

/-- A transfer tag (R292): its state and its 32-bit status word (R293). -/
inductive TagState where
  | idle | pending | ready
deriving DecidableEq, Repr

/-- A transfer tag (R25, R292): its state, its status word, and the command last accepted on it with its team and key. -/
structure Tag where
  st : TagState
  status : Word
  cmd : Nat
  team : Nat
  key : Key
deriving DecidableEq, Repr

/-- A request of the GROW queue (R124). -/
structure GrowReq where
  grp : Nat
  slot : Nat
  n : Nat
deriving DecidableEq, Repr

/-- A line or sector as the groups of a core still see it, while writes of other agents to it are not yet visible there
(R206): its bytes then, when that was, and the cores that have written it since. -/
structure View where
  unit : Place
  bytes : List Byte
  since : Nat
  writers : List Nat
deriving DecidableEq, Repr

/-- A core (R18, R44). -/
structure Core where
  spad : Mem
  wbuf : Mem
  wbufTag : Map (Nat × Nat)
  /-- ACC words by tile × 16,384 + row × 128 + column (R317). -/
  acc : Map Word
  accMode : Map TileMode
  accTag : Map (Nat × Nat)
  tags : Map Tag
  poolFree : Nat
  growQ : List GrowReq
  dispatch : Nat
  /-- Teams waiting to start on the core, head first (R452). -/
  dispatchQ : List Nat
  /-- Schedule-slip counter of each sequencer (R107). -/
  slip : Map Word
  /-- Sequencers frozen by an instruction-cache miss: the physical address of the word, and its key tag (R107). -/
  frozen : Map (Nat × Nat)
  /-- Line buffer of each sequencer, 16 KiB: the words it holds (R44, R57). -/
  lines : Map (Map DWord)
  compass : Map Nat
  /-- Records of the Traverse engine, most recently used first: ASID, address, bytes (R291). -/
  recCache : List (Nat × Nat × List Byte)
  /-- Commands in ACC order that have not finished (R321). -/
  accQ : List Nat
  /-- Operand cache, most recent first: team, 128-byte line of its SPAD, bytes. A copy leaves when its region's
  generation advances (R338, R339). -/
  opCache : List (Nat × Nat × List Byte)
  /-- Atomic line buffer: physical lines, most recently used first (R189). -/
  alb : List Nat
  /-- Lines and sectors of which the core's groups see an earlier state (R206). -/
  views : List View
  cycle : DWord
  halted : Bool
  /-- Key of the event that last completed a phase of the object at a SPAD offset (R169). -/
  phaseKey : Map Key
deriving DecidableEq, Repr

/-- A core after reset: pool of 512 units, tags IDLE (R120, R292); the rest as assumption log 2 names. -/
def Core.reset : Core where
  spad := []
  wbuf := []
  wbufTag := []
  acc := []
  accMode := []
  accTag := []
  tags := []
  poolFree := 512
  growQ := []
  dispatch := 0
  dispatchQ := []
  slip := []
  frozen := []
  lines := []
  compass := []
  recCache := []
  accQ := []
  opCache := []
  alb := []
  views := []
  cycle := 0
  halted := false
  phaseKey := []

end Sys2Proof.Machine
end

