-- ==== Sys2Proof/Machine/EngineTypes.lean ====
section
/-! DEFINITION. What the state holds for asynchronous engine commands (spec/01_machine.md R22 to R34,
spec/07_traverse.md) and for the shadows of RED (spec/04_loadstore.md R192, R196). -/

namespace Sys2Proof.Machine

/-- The shadow of an element (R192, R196): the RED that made it, and an FP32 value, or in Reckoning mode a 96-bit
accumulator with its three sticky flags. -/
structure Shadow where
  op : RedOp
  reckon : Bool
  f32 : Word
  acc : BitVec 96
  posInf : Bool
  negInf : Bool
  nan : Bool
deriving DecidableEq, Repr

/-! ### Traverse (07) -/

/-- A dimension descriptor (R288). -/
structure Dim where
  tile : Nat
  valid : Nat
  padlo : Nat
  sstride : Int
  dstride : Int
deriving DecidableEq, Repr

/-- A shape record (R287). -/
structure Shape where
  version : Nat
  stype : Nat
  dtype : Nat
  ndim : Nat
  swz : Nat
  padval : Nat
  idxAddr : DWord
  idxLim : Nat
  dims : List Dim
  scaleAddr : DWord
  specAddr : DWord
  tscale : Word
  sfmt : Nat
  blk : Nat
  usebsv : Bool
  ovf : Bool
  tsen : Bool
  scomp : Bool
deriving DecidableEq, Repr

/-- A member of the issuing cluster as a command sees it: member number (15 is the issuing team), core, first byte and
bytes of its SPAD allocation (R136, R180). -/
structure MemberView where
  member : Nat
  core : Nat
  base : Nat
  spadb : Nat
deriving DecidableEq, Repr

/-- XFER and XMCAST (R296 to R307). -/
structure Xfer where
  /-- FN of R299; COPY for XMCAST. -/
  fn : Nat
  sacc : Bool
  wbuf : Bool
  shape : Shape
  src : DWord
  dst : DWord
  /-- Members written by XMCAST; none for XFER. -/
  replicas : List Nat
  /-- The indices of a gather or scatter as read; those of the first `fixed` rows have been used (R302, R303). -/
  idx : Option (List Nat)
  fixed : Nat
  /-- The elements of XMCAST's tile that have been read, by place in tile order (R307). -/
  tile : Map Nat
  /-- The block scale codes that SCOMP = 1 has chosen, by place in the scale plane (R300). -/
  scales : Map Nat
deriving DecidableEq, Repr

/-! ### Almanac (08, 09) -/

/-- The loop commands (R316). -/
inductive LoopOp where
  | mloop | mhad | tbld | tlook
deriving DecidableEq, Repr

/-- A loop in flight: its id (R344), its operands as read at acceptance (R342, R356) and how far it has run. MHAD holds
its locator's offset and its geometry in place of the octet. -/
structure Loop where
  op : LoopOp
  id : BitVec 16
  octet : List Word
  /-- First and second format block (R323): A and B, activation and codebook, or code. -/
  fa : List Byte
  fb : List Byte
  /-- MOD of the command. -/
  mod : Nat
  progress : Nat
  sat : Bool
  iovf : Bool
  /-- CODE and STEP, once the loop has stopped or run to its end. -/
  done : Option (Nat × Nat)
  /-- Tables that TBLD spills (R371). -/
  victims : List Nat
  /-- Tables of the team named by a pending TLOOK as this one was accepted (R371). -/
  pendTabs : List Nat
  /-- TLOOK: its step has decided to spill these tables, to refill its own (or to rebuild it), and waits until it may write
  their spill areas (R375). -/
  decided : Option (Bool × List Nat)
deriving DecidableEq, Repr

/-! ### Chart (10) -/

/-- One page ordinal of a gather (R413): request, block-table entry, first slot, tokens, and its first token in the
gather. -/
structure GOrd where
  handle : Nat
  entry : Nat
  slot : Nat
  count : Nat
  tok : Nat
deriving DecidableEq, Repr

/-- A KVGATH in flight (R411 to R414). `walk` is what the walk found in Reckoning mode: the pages pinned, and the code
and ordinal it stops with (R424). `written` counts the tokens delivered. -/
structure Gather where
  fetch : Bool
  rowb : Nat
  kdst : Nat
  vdst : Nat
  sdst : Option Nat
  first : Nat
  ords : List GOrd
  next : Nat
  walk : Option (List Nat × Option (Nat × Nat))
  /-- This command's CSEQ on each die, once taken (R390). -/
  seqs : Map Word
  stop : Option (Nat × Nat)
  /-- Bytes written of the ordinal whose copy met an uncorrectable error (R414). -/
  spoiled : List Place
deriving DecidableEq, Repr

/-- A KVAPP in flight (R415 to R417): operands, and once its acceptance step is done the pages it writes: page, first
slot, rows, first row. -/
structure Append where
  handle : Nat
  lg : Nat
  pos : Nat
  n : Nat
  ksrc : Nat
  vsrc : Nat
  ssrc : Option Nat
  waitFor : Option Nat
  /-- It has started the fetch that it waits for (R400, R404). -/
  starter : Bool
  /-- Its CSEQ on the issuing die, and on the die of the page it starts in (R390). -/
  seq : Word
  there : Word
  plan : List (Nat × Nat × Nat × Nat)
  next : Nat
deriving DecidableEq, Repr

/-- A KVSEND in flight (R421): the request, the peer endpoint and the peer's handle; its CSEQ on each die (R390); the pages whose
fetch it started; the puts not yet acknowledged, once its pages have been sent; and whether its record has been sent. -/
structure Send where
  handle : Nat
  dest : Nat
  rreq : Nat
  seqs : Map Word
  started : List Nat
  acks : Option Nat
  recorded : Bool
deriving DecidableEq, Repr

/-- What a Chart command still has to do. -/
inductive ChartOp where
  /-- Nothing: its work was done at acceptance. -/
  | settled
  | gather (g : Gather)
  | append (a : Append)
  /-- PGALLOC of an entry, waiting for a frame or header (R425), with its CSEQ. -/
  | alloc (handle entry : Nat) (seq : Word)
  /-- PGFETCH of a page, with its CSEQ on the page's die; whether it started the fetch. -/
  | fetch (page : Nat) (starter : Bool) (seq : Word)
  | send (x : Send)
deriving DecidableEq, Repr

/-- A Chart command in flight: what it does, its results by register, its status once known, and the pages it pins. -/
structure ChartCmd where
  op : ChartOp
  results : List (Reg × Word)
  status : Option Word
  pins : List Nat
deriving DecidableEq, Repr

/-! ### Meridian (12) -/

/-- The Meridian commands (R497). -/
inductive NetKind where
  | send | put | get | red | recv
deriving DecidableEq, Repr

/-- A Meridian command in flight (R499 to R501). -/
structure Net where
  kind : NetKind
  /-- Generic address of its local source (NSEND, NPUT, NRED), and of its destination (NGET, NRED, NRECV). -/
  src : DWord
  dst : DWord
  /-- Bytes that it sends or asks for; most payload bytes that NRECV takes. -/
  len : Nat
  /-- Endpoints that have not answered; for NRED its root. -/
  waits : List Nat
  /-- Delivery queue of NSEND and NRECV. -/
  queue : Nat
  /-- Remote address of NPUT and NGET. -/
  raddr : Nat
  /-- Operand block of NRED: COLL, ROUND, NPART, COUNT and operation (R500). -/
  coll : Nat
  round : Nat
  npart : Nat
  count : Nat
  op : Nat
  /-- No acknowledgment and no retransmission: UUD (R499). -/
  uud : Bool
  /-- Reliable ordered delivery: in order of acceptance among those for an endpoint (R473). -/
  rod : Bool
  /-- It travels in the ordered class (R480). -/
  ord : Bool
  /-- Its packets have been sent. -/
  sent : Bool
  /-- Bytes to be written at its destination, once they are there. -/
  data : Option (List Byte)
  /-- Its status word, once known. -/
  status : Option Word
deriving DecidableEq, Repr

/-- What a command does. -/
inductive Work where
  | xfer (x : Xfer)
  | loop (l : Loop)
  | accz (mode : TileMode) (first count : Nat)
  | accrd (raw : Bool) (d : Reg) (addr : Nat)
  | accwr (addr : Nat) (act : Word) (vals : Lanes)
  | tval (num : Nat) (d : Reg)
  /-- TSPILL of a table to a SPAD offset, when it writes one; its result. -/
  | tspill (num : Nat) (writes : Bool) (d : Reg) (res : Word)
  /-- TFILL of a table, when it reads one, after spilling some; its result. -/
  | tfill (num : Nat) (fills : Bool) (victims : List Nat) (d : Reg) (res : Word)
  | chart (k : ChartCmd)
  | net (n : Net)
deriving DecidableEq, Repr

/-- The id of a loop command (R344). -/
def Work.loopId : Work → Option Nat
  | .loop l => some l.id.toNat
  | _ => none

/-- A command of the Almanac engine. -/
def Work.isAlmanac : Work → Bool
  | .xfer _ => false
  | .chart _ => false
  | .net _ => false
  | _ => true

/-- A command in flight (R22 to R34). -/
structure Cmd where
  core : Nat
  grp : Nat
  team : Nat
  cluster : Nat
  grid : Nat
  asid : Nat
  ggid : Word
  reckon : Bool
  key : Key
  /-- Its key is live in the domain (R170): not that of a receive or a reduction that waits for its message, whose
  releasing event brings its own key (R504). -/
  keyed : Bool
  tag : Option Nat
  /-- Offset of the barrier object it names, in its team's SPAD (R26). -/
  bar : Option Nat
  view : List MemberView
  /-- The lanes that participated as it issued (R70). -/
  act : Word
  /-- Units it owns and has not released: space, first unit, end (R30). -/
  owned : List (Space × Nat × Nat)
  /-- Global lines of it that the L2 directory has recalled (R31). -/
  recalled : List Place
  /-- When it took ownership: its id, or `uid` at the later moment of R30 (R33). -/
  grant : Nat
  /-- Generation regions that it has written: team and region (R338). -/
  regions : List (Nat × Nat)
  /-- Length of the overwrite log at its acceptance (R34). -/
  mark : Nat
  /-- Reckoning: bytes written and not yet counted: core, offset of the object, bytes (R170). -/
  uncounted : List (Nat × Nat × Nat)
  work : Work
deriving DecidableEq, Repr

/-- A byte overwritten while commands are in flight (R34): what it was, and whether the Almanac engine overwrote it (R322). -/
structure Overwrite where
  place : Place
  old : Byte
  almanac : Bool
deriving DecidableEq, Repr

/-- A command owns a unit (R30). -/
def Cmd.owns (c : Cmd) (u : Place) : Bool :=
  c.owned.any (fun r => r.1 = u.1 && decide (r.2.1 ≤ u.2) && decide (u.2 < r.2.2))

end Sys2Proof.Machine
end

