-- ==== Sys2Proof/Machine/HostTypes.lean ====
section
/-! DEFINITION. What the state holds for the memory system (spec/13_memory_tiers.md): the memory window's registers and
the state behind them. -/

namespace Sys2Proof.Machine

/-- A change of MEMCFG in progress (R533). -/
structure MemChange where
  tcsize : Nat
  ilv : Bool
deriving DecidableEq, Repr

/-- An invalidation that has not completed (R524): its ASID, whether it covers all of it, its first unit and count. -/
structure Inval where
  asid : Nat
  all : Bool
  unit : Nat
  count : Nat
deriving DecidableEq, Repr

/-- A leaf that cores and engines keep (R524): of a 64 KiB unit of an ASID, its level, the entry as it was walked, and whether
they use it in place of the entry in memory. -/
structure Kept where
  asid : Nat
  unit : Nat
  lvl : Nat
  leaf : Nat
  used : Bool
deriving DecidableEq, Repr

/-- The memory system (R507 to R533). -/
structure MemSys where
  nrtest : Bool
  nrk : Nat
  tcsize : Nat
  ilv : Bool
  change : Option MemChange
  inval : List Inval
  /-- Translations that cores and engines keep (R524; assumption log 23). -/
  kept : List Kept
  rej : Bool
  paerr : Bool
  /-- MEMPOP and MEMCXLp: populated channels and capacities in GB (R513, R531). -/
  lpddrMask : BitVec 16
  lpddrGb : Nat
  cxlGb : List Nat
  asidBase : DWord
  stgBase : Nat
  stgSize : Nat
  tlbinva : DWord
  tlbinvc : DWord
  nrseed : DWord
  keysel : Nat
  /-- KEYDATA as written so far, by double word 0 to 7 (R531). -/
  keyBuf : Map DWord
  hpasid : Map DWord
  paerrcnt : DWord
  tchits : DWord
  shdBase : Nat
  shdSize : Nat
  rmdBase : Nat
  rmdSize : Nat
  /-- Key slots that were loaded; the others hold zeros (R516, R518). -/
  keys : Map (BitVec 512)
  /-- Tier cache: capacity-tier lines, and whether each is dirty (R514). -/
  tcache : Map Bool
  /-- Neighbour-refresh generators of the 768 pseudo-channels (R529). -/
  nrgen : Map Word
  /-- Rows refreshed as neighbours so far, by (pseudo-channel, bank, row) (R529). -/
  refreshed : List (Nat × Nat × Nat)
  /-- Frames of the staging pool in use, by number (R525). -/
  frames : List Nat
  /-- Race metadata of global bytes that need new lines has to be spilled from the L2 (R214). -/
  arenaSpills : Bool
  /-- The race metadata arena is full (R214). -/
  arenaFull : Bool
deriving DecidableEq, Repr

/-- The memory system after reset (R531 to R533; assumption log 2). -/
def MemSys.reset : MemSys where
  nrtest := false
  nrk := 8
  tcsize := 0
  ilv := false
  change := none
  inval := []
  kept := []
  rej := false
  paerr := false
  lpddrMask := 0
  lpddrGb := 0
  cxlGb := []
  asidBase := 0
  stgBase := 0
  stgSize := 0
  tlbinva := 0
  tlbinvc := 0
  nrseed := 0
  keysel := 0
  keyBuf := []
  hpasid := []
  paerrcnt := 0
  tchits := 0
  shdBase := 0
  shdSize := 0
  rmdBase := 0
  rmdSize := 0
  keys := []
  tcache := []
  nrgen := []
  refreshed := []
  frames := []
  arenaSpills := false
  arenaFull := false

/-! ### Chart (10) -/

/-- What waits for a frame of a pool: the fetch of a page, or the allocations of a command (R400, R425). -/
inductive Waiter where
  | fetch (page : Nat)
  | alloc (cmd : Nat)
deriving DecidableEq, Repr

/-- A pool: its descriptor as last read (R384), the frames in use, those retired (R391), what waits for a frame, and
whether the target of R399 could not be reached yet. -/
structure Pool where
  en : Bool
  low : Nat
  frameB : Nat
  pages : Nat
  frames : Nat
  hdrBase : Nat
  frameBase : Nat
  capBase : Nat
  used : List Nat
  retired : List Nat
  waiters : List Waiter
  short : Bool
deriving DecidableEq, Repr

/-- A pool whose descriptor has not been read. -/
def Pool.empty : Pool where
  en := false
  low := 0
  frameB := 0
  pages := 0
  frames := 0
  hdrBase := 0
  frameBase := 0
  capBase := 0
  used := []
  retired := []
  waiters := []
  short := false

/-- States of a page (R389); a FREE page has no record. -/
inductive PageState where
  | resident | evicting | capacity | fetching | quarantined
deriving DecidableEq, Repr

/-- A page: its header (R389), its planes (R386), the geometry of its model, the frame it holds, and the CSEQ of the
command that started its fetch (R400). -/
structure Page where
  st : PageState
  inserted : Bool
  lowerr : Nat
  holds : Nat
  refcnt : Nat
  fill : Nat
  pins : Nat
  asid : Nat
  xref : Nat
  owner : Nat
  model : Nat
  lastUse : Word
  parent : Nat
  phash : DWord
  tok : Nat
  rowb : Nat
  kvtype : Nat
  /-- Scale plane, by byte. -/
  scales : Map Byte
  /-- Id plane, by slot. -/
  ids : Map Word
  frame : Option Nat
  fetchSeq : Word
deriving DecidableEq, Repr

/-- A Chart engine (R388, R390, R407): registers, pools, keys as last read, and the prefix hash table by bucket × 8 +
way. -/
structure Chart where
  scrub : Bool
  lowStrict : Bool
  poolBase : DWord
  keyBase : DWord
  rej : Bool
  cseq : Word
  pools : Map Pool
  keys : Map (BitVec 128)
  hash : Map Nat
deriving DecidableEq, Repr

/-- A Chart engine after reset (R388; assumption log 2). -/
def Chart.reset : Chart where
  scrub := true
  lowStrict := false
  poolBase := 0
  keyBase := 0
  rej := false
  cseq := 0
  pools := []
  keys := []
  hash := []

/-! ### Helm (11) -/

/-- A model record as Helm copied it (R438), the ASID of its ring (R439), and its three templates with their addresses. -/
structure Model where
  asid : Nat
  tok : Nat
  kvtype : Nat
  pool0 : Nat
  pool1 : Nat
  rowb : Nat
  nlg : Nat
  /-- Pages per layer group (MAXPG + 1). -/
  maxpg : Nat
  pfBudget : Nat
  decBudget : Nat
  chunk : Nat
  ageQ : Nat
  maxSeq : Nat
  stepQ : Nat
  sliceOff : Nat
  vocab : Nat
  salt : DWord
  pflr : Option LaunchRecord
  declr : Option LaunchRecord
  mixedlr : Option LaunchRecord
  pflrAt : DWord
  declrAt : DWord
  mixedlrAt : DWord
deriving DecidableEq, Repr

/-- States of a request (R442); a FREE one has no record. -/
inductive ReqState where
  | queued | prefill | handoff | decode | swapped | remote | done | failed
deriving DecidableEq, Repr

/-- A request record (R440) with its block table by entry (R395), and what Helm keeps of its step: the count c, whether
its step has ended, tokens emitted (R446, R464), and whether an end event waits (R461). -/
structure Request where
  st : ReqState
  prio : Nat
  echo : Bool
  imported : Bool
  cancel : Bool
  model : Nat
  evq : Nat
  prompt : Nat
  donepf : Nat
  gen : Nat
  maxgen : Nat
  kvlen : Nat
  age : Nat
  dsteps : Nat
  lastTok : Word
  status : Word
  draftk : Nat
  btBase : Nat
  /-- Bytes of its block table in the arena, as its model was at admission (R441, R442). -/
  btBytes : Nat
  promptAddr : DWord
  outAddr : DWord
  seed : DWord
  temp : Word
  topk : Word
  topp : Word
  stopcnt : Nat
  stopset : List Word
  admseq : Nat
  placed : Bool
  decodePart : Bool
  placeDie : Nat
  stepno : Nat
  cookie : DWord
  bt : Map Nat
  /-- In a step: the count c of its slice, whether the slice is a prefill chunk, and its team (R448). -/
  inStep : Option (Nat × Bool × Nat)
  ended : Bool
  emitted : Nat
  /-- A SWAPPED request whose pages are being fetched (R447). -/
  returning : Bool
  /-- Consecutive steps in which it was passed over for lack of frames (R447). -/
  starved : Nat
  /-- Its end event (REQEND) has not been written yet (R442). -/
  ending : Bool
deriving DecidableEq, Repr

/-- An event that a queue holds, and the request that becomes FREE once it is written (R437, R442). -/
structure Posted where
  bytes : List Byte
  frees : Option Nat
deriving DecidableEq, Repr

/-- A launch queue: its registers (R433), the events it holds (R437) and the grids that wait in it (R451). -/
structure Queue where
  rbase : DWord
  ebase : DWord
  en : Bool
  rlog : Nat
  elog : Nat
  prefill : Bool
  asid : Nat
  wdog : Nat
  rtail : Word
  rhead : Word
  etail : Word
  ehead : Word
  grids : List Nat
  held : List Posted
deriving DecidableEq, Repr

/-- A queue after reset (R433). -/
def Queue.reset : Queue where
  rbase := 0
  ebase := 0
  en := false
  rlog := 0
  elog := 0
  prefill := false
  asid := 0
  wdog := 0
  rtail := 0
  rhead := 0
  etail := 0
  ehead := 0
  grids := []
  held := []

/-- How far the halt of a partition has come (R459, R460). -/
inductive Halt where
  /-- Not halted. -/
  | run
  /-- Helm has stopped placement; the cores are halting. -/
  | halting
  /-- The cores have halted; the shadow swap follows. -/
  | halted
  /-- The context is in shadow storage. -/
  | shadow
deriving DecidableEq, Repr

/-- A partition (R12, R445, R458): its step counter, its running step grid (or a batch that needs no grid), its halt. -/
structure Part where
  steps : Word
  running : Option Nat
  halt : Halt
  swapOut : Bool
  /-- Queue whose event ring receives the PART event of the halt or resume in progress. -/
  partQ : Nat
  /-- Halts (true) and resumes written while one was in progress, with their PARTQ. -/
  next : List (Bool × Bool × Nat)
  resuming : Bool
  /-- Requests that SQYIELD.SKIP keeps out of the next step (R469). -/
  skip : List Nat
  /-- Requests passed over as the running batch was formed (R446). -/
  passed : List Nat
deriving DecidableEq, Repr

/-- A partition after reset. -/
def Part.reset : Part where
  steps := 0
  running := none
  halt := .run
  swapOut := false
  partQ := 0
  next := []
  resuming := false
  skip := []
  passed := []

/-- Helm (R428 to R471): registers of the main window, queues, partitions. -/
structure Helm where
  /-- k of each die: in force, and requested (R12, R14, R430). -/
  k : Map Nat
  want : Map Nat
  partQ : Nat
  /-- HBTA and HBTS of each die, HSAVA and HSAVS (R430). -/
  btBase : Map DWord
  btSize : Map DWord
  savBase : DWord
  savSize : DWord
  /-- Owners of the semaphores (R431), and the port that wins the next tie. -/
  sems : Map Nat
  tie : Map Nat
  semViol : Map Bool
  queues : Map Queue
  /-- Ring that is served next (R435). -/
  turn : Nat
  admseq : Word
  parts : Map Part
deriving DecidableEq, Repr

/-- Helm after reset (R430, R431, R433; assumption log 2). -/
def Helm.reset : Helm where
  k := []
  want := []
  partQ := 0
  btBase := []
  btSize := []
  savBase := 0
  savSize := 0
  sems := []
  tie := []
  semViol := []
  queues := []
  turn := 0
  admseq := 0
  parts := []

/-! ### Meridian (12) -/

/-- A Meridian port: its link is up, its partner is a Huaxel switch (R475), and it has been trained since reset. -/
structure NetPort where
  up : Bool
  huaxel : Bool
  trained : Bool
deriving DecidableEq, Repr

/-- A message in a delivery queue (R491, R492). -/
structure Msg where
  src : Nat
  stamp : Nat
  ord : Bool
  logical : Bool
  payload : List Byte
deriving DecidableEq, Repr

/-- A delivery queue: its messages, head first, where the head lies in the ring (R491), its mark (R490), and the NRECVs
that wait on it, oldest first (R501). -/
structure DQueue where
  msgs : List Msg
  head : Nat
  marked : Bool
  waiting : List Nat
deriving DecidableEq, Repr

/-- An ordered packet queued for an output of the switch, with the input it came on (R483). -/
structure Queued where
  out : Nat
  inp : Nat
  pkt : Packet
deriving DecidableEq, Repr

/-- A contribution to a reduction round (R493, R494): key, the command that waits for the result, values. -/
structure Contribution where
  key : PKey
  reply : Nat
  data : List Byte
deriving DecidableEq, Repr

/-- A reduction round at its root (R493): its name, what its contributions agree on, and the contributions. -/
structure RedRound where
  asid : Nat
  coll : Nat
  round : Nat
  space : Nat
  root : Nat
  npart : Nat
  count : Nat
  op : Nat
  contribs : List Contribution
  /-- Two contributions disagree, or one source has contributed twice (R495). -/
  bad : Bool
deriving DecidableEq, Repr

/-- What the package puts on a link: a packet, a time-transfer frame with the grandmaster it follows and the hops to
it (R479), a put or get for
an endpoint, the answer to one, or a page of a KVSEND for a peer's request (R503). -/
inductive Frame where
  | packet (p : Packet)
  | sextant (time : DWord) (master hops : Nat)
  | ask (dest : Nat) (req : PutGet) (reply : Nat)
  | answer (reply : Nat) (code : Nat) (data : List Byte)
  | page (dest handle : Nat) (p : HandPage)
deriving DecidableEq, Repr

/-- The Meridian engine and the forwarding switch (R472 to R503). -/
structure Mer where
  mepid : Nat
  cfg : DWord
  sync : Bool
  stall : Bool
  abandon : Bool
  rej : Bool
  spaces : Map DWord
  qbase : Map DWord
  qcfg : Map DWord
  mroute : DWord
  mexpose : DWord
  mrepset : DWord
  errBase : DWord
  errSize : DWord
  errHead : DWord
  errTail : DWord
  mlate : DWord
  mrlate : DWord
  /-- The route table as loaded, by endpoint (R478). -/
  routes : Map Nat
  ports : Map NetPort
  time : DWord
  /-- Horizons by input × 8,192 + space (R482), and the last key emitted by output × 8,192 + space (R483). -/
  horizon : Map PKey
  last : Map PKey
  /-- Fenced inputs with their spaces (R488). -/
  fenced : List (Nat × Nat)
  queued : List Queued
  /-- Ordered packets sent by the endpoint in a space (R481). -/
  seq : Map Word
  /-- Ordered packets of accepted commands not yet injected (R486). -/
  staged : List Packet
  /-- Ordered packets emitted to the package's own endpoint and not yet taken in, in order (R487). -/
  inbound : List Packet
  /-- Unordered messages, puts and gets of the endpoint to itself, in the switch. -/
  flight : List Packet
  asked : List (Nat × PutGet)
  queues : Map DQueue
  rounds : List RedRound
  /-- Rounds combined or abandoned here: ASID, COLL, ROUND (R495). -/
  closed : List (Nat × Nat × Nat)
  /-- What was put on the links, with their ports, oldest first. -/
  wire : List (Nat × Frame)
  /-- Grandmaster that each port's partner follows, and the partner's hops to it (R479). -/
  masters : Map (Nat × Nat)
  /-- What the own time still has to slew by, in units of Meridian time (R479). -/
  slew : Int
deriving DecidableEq, Repr

/-- Meridian after reset (R472, R477; assumption log 2). -/
def Mer.reset : Mer where
  mepid := 0xFFFF
  cfg := 0x1F40032
  sync := false
  stall := false
  abandon := false
  rej := false
  spaces := []
  qbase := []
  qcfg := []
  mroute := 0
  mexpose := 0
  mrepset := 0
  errBase := 0
  errSize := 0
  errHead := 0
  errTail := 0
  mlate := 0
  mrlate := 0
  routes := []
  ports := []
  time := 0
  horizon := []
  last := []
  fenced := []
  queued := []
  seq := []
  staged := []
  inbound := []
  flight := []
  asked := []
  queues := []
  rounds := []
  closed := []
  wire := []
  masters := []
  slew := 0

/-! ### The package (14) -/

/-- Power states of a partition (R540); HALTED is a partition whose halt has completed (R458). -/
inductive PState where
  | active | idle | off
deriving DecidableEq, Repr

/-- The package's management state (R535 to R545). -/
structure Pkg where
  /-- Management counters by name number: 0 SHDFULL, 1 XRETRY, 2 CHRETIRED, 3 CHCORR, 4 CHLOWERR, 5 SRAMCORR,
  6 SRAMUNC; 64 bits, saturating (R544). -/
  counters : Map DWord
  ready : Bool
  fail : Bool
  stage : Nat
  plimit : Nat
  /-- PCLKMAX and PCLK of each partition, in MHz. -/
  pclkmax : Map Nat
  pclk : Map Nat
  pwrnow : Nat
  floor : Bool
  hot : Bool
  trip : Bool
  /-- Dies that have reached 105 °C and have not fallen below 100 °C since (R543). -/
  hotDies : List Nat
  temp : Map Nat
  pwrOff : Bool
  power : Map PState
  /-- ATTNONCE by double word; ATTADDR; DONE; a request waits for its report (R539). -/
  nonce : Map DWord
  attaddr : DWord
  attDone : Bool
  attBusy : Bool
  /-- SHA-512 of each image that bring-up accepted, by TYPE; the fused rollback counter (R537, R539). -/
  digests : Map (BitVec 512)
  fuse : Nat
  /-- Key slots loaded since reset (R539). -/
  loaded : List Nat
deriving DecidableEq, Repr

/-- The management state after reset (R544; assumption log 2). -/
def Pkg.reset : Pkg where
  counters := []
  ready := false
  fail := false
  stage := 0
  plimit := 2400
  pclkmax := []
  pclk := []
  pwrnow := 0
  floor := false
  hot := false
  trip := false
  hotDies := []
  temp := []
  pwrOff := false
  power := []
  nonce := []
  attaddr := 0
  attDone := false
  attBusy := false
  digests := []
  fuse := 0
  loaded := []

end Sys2Proof.Machine
end

