-- ==== Sys2Proof/Machine/State.lean ====
section
/-! DEFINITION. The state of the machine as plain data: everything INVENTORY.md lists under '## State', each field
with the rule of spec/ that names it, the reasons a step can stop, and the state after reset. -/

namespace Sys2Proof.Machine

/-- Why the machine stops with a fault. -/
inductive Fault where
  /-- Raised by the prelude of every instruction meaning when it is executed outside an issue turn: no split is
  issuing (assumption log 16). Safe: no run of `step` reaches it. -/
  | noIssuer
deriving DecidableEq, Repr

/-- Why an instruction has no meaning here. -/
inductive Refusal where
  /-- Raised by an arm of `exec` whose instruction has no meaning yet. Safe. -/
  | notModelled (mnemonic : String)
deriving DecidableEq, Repr

/-- Which agent moves next (assumption log 4). -/
inductive Turn where
  /-- A split of a group issues. -/
  | issue (grp slot : Nat)
  /-- A machine event. -/
  | event (e : Instr)
  /-- A die's instruction cache drops a line (R57). -/
  | icacheDrop (die line : Nat)
  /-- The line buffer of a core's sequencer drops a line (R57). -/
  | lineDrop (core seq line : Nat)
  /-- New race metadata of global bytes has to be spilled from the L2, or not; the metadata arena is full, or not (R214). -/
  | arena (spills full : Bool)
  /-- A core's groups go on seeing a line, or a sector of another core's SPAD, as it is now (R206). -/
  | lag (core : Nat) (unit : Place)
  /-- The writes to a line or sector become visible to a core's groups (R206). -/
  | see (core : Nat) (unit : Place)
  /-- Cores and engines keep the translation of a 64 KiB unit of an ASID as it is now (R524). -/
  | keep (asid unit : Nat)
  /-- From now on they use the translation that they keep of a unit, or walk anew (R524). -/
  | useKept (asid unit : Nat) (on : Bool)
deriving DecidableEq, Repr

/-- The word a split is issuing. -/
structure Loc where
  grp : Nat
  slot : Nat
  word : DWord
deriving DecidableEq, Repr

/-- A die: its shared instruction cache, by physical word address (R57). -/
structure Die where
  icache : Map DWord
deriving DecidableEq, Repr

/-- The machine. -/
structure State where
  agenda : List Turn
  cur : Option Loc
  fresh : Nat
  uid : Nat
  mem : Mem
  /-- Key slot + 1 of each 128-byte line; unlisted: none (R518). -/
  lineKey : Map Nat
  cores : Map Core
  groups : Map Group
  teams : Map Team
  clusters : Map Cluster
  grids : Map Grid
  dies : Map Die
  cmds : Map Cmd
  /-- Bytes overwritten while commands are in flight, oldest first: place and prior value (R34). -/
  undo : List Overwrite
  /-- Shadows by physical address of the element (R192). -/
  shadows : Map Shadow
  /-- Chart engines by die (R383). -/
  charts : Map Chart
  /-- Pages by page number; the others are FREE (R389). -/
  pages : Map Page
  /-- Models by number (R438). -/
  models : Map Model
  /-- Live requests by handle (R440). -/
  requests : Map Request
  helm : Helm
  /-- Meridian and the forwarding switch (R476 to R503). -/
  mer : Mer
  ms : MemSys
  pkg : Pkg
deriving DecidableEq, Repr

/-- The machine right after reset (assumption log 2 names the values the spec does not give). -/
def State.reset : State where
  agenda := []
  cur := none
  fresh := 0
  uid := 0
  mem := []
  lineKey := []
  cores := []
  groups := []
  teams := []
  clusters := []
  grids := []
  dies := []
  cmds := []
  undo := []
  shadows := []
  charts := []
  pages := []
  models := []
  requests := []
  helm := Helm.reset
  mer := Mer.reset
  ms := MemSys.reset
  pkg := Pkg.reset

end Sys2Proof.Machine
end

