-- ==== Sys2Proof/Machine/Memory.lean ====
section
/-! DEFINITION. Physical memory (spec/13_memory_tiers.md): which physical addresses exist (R507, R508), line keys (R516
to R518), the tier cache (R514), RED shadows as every access keeps them (spec/04_loadstore.md R192 to R196), and the
page-table walk (R520 to R523). -/

namespace Sys2Proof.Machine

/-- 10^9 bytes, the GB of the capacities (R46, R507). -/
def gb : Nat := 1000000000

/-- Base of the host memory windows (R507). -/
def hostBase : Nat := 0x300000000000

/-- A physical address in host memory (R507). -/
def isHostPa (pa : Nat) : Bool := decide (hostBase ≤ pa) && decide (pa < hostBase + 2 * 0x80000000000)

/-- A physical address in the fast tier (R507). -/
def isFastPa (pa : Nat) : Bool := decide (pa < 768 * gb)

/-- Number of populated LPDDR-6 channels (R511). -/
def lpddrCount (ms : MemSys) : Nat := ((List.range 16).filter (fun k => ms.lpddrMask.getLsbD k)).length

/-- A physical address in the populated capacity tier (R507, R513). -/
def isCapacityPa (ms : MemSys) (pa : Nat) : Bool :=
  if pa < 0x10000000000 then false
  else if pa < 0x100000000000 then decide (pa - 0x10000000000 < lpddrCount ms * ms.lpddrGb * gb)
  else if pa < hostBase then
    let o := pa - 0x100000000000
    decide (o / 0x40000000000 < 8) && decide (o % 0x40000000000 < ms.cxlGb.getD (o / 0x40000000000) 0 * gb)
  else false

/-! ### Where an address lives (R507 to R512) -/

/-- The pseudo-channel of a fast-tier address: hashed over the package, or die-local (R509, R510). -/
def channelOf (ilv : Bool) (pa : Nat) : Nat :=
  if ilv then
    let d := pa / (384 * gb)
    let g := (pa - d * (384 * gb)) / 256
    384 * d + (g + 7 * (g / 384)) % 384
  else
    let g := pa / 256
    (g + 7 * (g / 768) + 131 * (g / 589824)) % 768

/-- The LPDDR-6 channel of an offset into its window: 4 KiB units over the populated channels (R511). -/
def lpddrChannel (ms : MemSys) (o : Nat) : Nat :=
  ((List.range 16).filter (fun k => ms.lpddrMask.getLsbD k)).getD (o / 4096 % max 1 (lpddrCount ms)) 0

/-- The home die of a physical address in a populated window (R9, R507). -/
def homeDie (ms : MemSys) (pa : Nat) : Option Nat :=
  if isFastPa pa then some (channelOf ms.ilv pa / 64 / 6)
  else if isHostPa pa then some ((pa - hostBase) / 0x80000000000)
  else if ¬isCapacityPa ms pa then none
  else if pa < 0x100000000000 then some (lpddrChannel ms (pa - 0x10000000000) / 8)
  else some ((pa - 0x100000000000) / 0x40000000000 / 4)

/-- The home slice of a line in the L2, as the package numbers them (R8, R512). -/
def homeSlice (ms : MemSys) (pa : Nat) : Option Nat :=
  (homeDie ms pa).map (fun d => 96 * d + (pa / 128 + 13 * (pa / 128 / 96)) % 96)

/-- Inside [base, base + size). -/
def inRange (pa base size : Nat) : Bool := decide (base ≤ pa) && decide (pa < base + size)

/-- The fast-tier ranges that only their own machinery reaches: tier cache, shadow store, metadata arena (R508). -/
def isReservedPa (ms : MemSys) (pa : Nat) : Bool :=
  (isFastPa pa && decide (768 * gb - ms.tcsize * gb ≤ pa)) ||
  inRange pa ms.shdBase ms.shdSize || inRange pa ms.rmdBase ms.rmdSize

/-- A physical address that an access reaches (R507, R508). -/
def paOk (ms : MemSys) (pa : Nat) : Bool :=
  (isFastPa pa || isCapacityPa ms pa || isHostPa pa) && !isReservedPa ms pa

/-! ### Keys and the tier cache -/

/-- The key pair of a slot (R518: zeros when never loaded). -/
def slotKey (ms : MemSys) (slot : Nat) : BitVec 512 := ms.keys.getD slot 0

/-- A line's bytes under a tag, from or to the bytes memory stores, as many as before: a tag of 0 is no key, n + 1 is
slot n (R516; assumption log 9). -/
def cipher (ms : MemSys) (enc : Bool) (tag line : Nat) (bs : List Byte) : List Byte :=
  if tag = 0 then bs
  else
    let out := xts enc (slotKey ms (tag - 1)) line bs
    (List.range bs.length).map (fun k => out.getD k 0)

/-- The line as the L2 holds it, retagged: written back under its tag, read again under the new one (R518). -/
def State.retag (s : State) (tag line : Nat) : State :=
  let old := s.lineKey.getD line 0
  if old = tag then s
  else
    let raw := cipher s.ms true old line (s.mem.bytes (line * 128) 128)
    { s with mem := s.mem.storeBytes (line * 128) (cipher s.ms false tag line raw),
             lineKey := s.lineKey.put 0 line tag }

/-- What an access of one line does besides its value: the tier cache gives the line up on a hit (R514), the line takes
the access's key (R518), and an address that does not exist is counted (R508). -/
def State.touchLine (s : State) (tag line : Nat) : State :=
  if paOk s.ms (line * 128) then
    let s := if (s.ms.tcache.find? line).isSome then
        { s with ms := { s.ms with tcache := s.ms.tcache.erase line, tchits := s.ms.tchits + 1 } }
      else s
    if isHostPa (line * 128) then s else s.retag tag line
  else { s with ms := { s.ms with paerr := true, paerrcnt := s.ms.paerrcnt + 1 } }

/-- The lines of an access. -/
def State.touch (s : State) (tag pa n : Nat) : State :=
  (List.range ((pa + n - 1) / 128 + 1 - pa / 128)).foldl (fun s k => s.touchLine tag (pa / 128 + k)) s

/-- `n` bytes of physical memory; an address that does not exist reads 0 (R508). -/
def State.physBytes (s : State) (pa n : Nat) : List Byte :=
  if paOk s.ms pa then s.mem.bytes pa n else List.replicate n 0

/-- A physical little-endian number, its line read under the key it is held under. -/
def State.physNat (s : State) (pa n : Nat) : Nat := leNat (s.physBytes pa n)

/-- A number of at most one line, as a page-table walk reads it: without a key, so that a line held under one is seen as it
is stored (R517, R518). -/
def State.clearNat (s : State) (pa n : Nat) : Nat :=
  let tag := s.lineKey.getD (pa / 128) 0
  if tag = 0 then s.physNat pa n
  else leNat (((cipher s.ms true tag (pa / 128) (s.physBytes (pa / 128 * 128) 128)).drop (pa % 128)).take n)

/-! ### RED shadows (R192 to R196) -/

/-- Element size of a RED (R221). -/
def redSize : RedOp → Nat
  | .addBf16 => 2
  | .addN8e4 => 1
  | .addN8e5 => 1
  | _ => 4

/-- The narrow or BF16 value of an element's bytes (R192). -/
def elemVal (op : RedOp) (v : Nat) : FVal :=
  match op with
  | .addBf16 => fvalBf (BitVec.ofNat 16 v)
  | .addN8e4 => fvalE4 (BitVec.ofNat 8 v)
  | .addN8e5 => fvalE5 (BitVec.ofNat 8 v)
  | _ => fval (BitVec.ofNat 32 v)

/-- Least significant bit of a Reckoning accumulator, as an exponent of two (R196). -/
def accLsb : RedOp → Int
  | .addN8e5 => -17
  | _ => -10

/-- A shadow with a value added exactly to it (R192, R196). -/
def Shadow.add (sh : Shadow) (v : FVal) : Shadow :=
  if sh.reckon then
    match v with
    | .nan => { sh with nan := true }
    | .inf neg => if neg then { sh with negInf := true } else { sh with posInf := true }
    | .fin neg m e => { sh with acc := sh.acc + BitVec.ofInt 96 (scaled neg m e (accLsb sh.op)) }
  else { sh with f32 := toF32 .rn (addF .rn (fval sh.f32) v) }

/-- A new shadow: the exact value of an element's contents (R192, R194, R196). -/
def Shadow.make (op : RedOp) (reckon : Bool) (v : FVal) : Shadow :=
  let z : Shadow := { op := op, reckon := reckon, f32 := 0, acc := 0, posInf := false, negInf := false, nan := false }
  if reckon then z.add v else { z with f32 := toF32 .rn v }

/-- The exact value of a shadow (R193, R196). -/
def Shadow.value (sh : Shadow) : FVal :=
  if sh.reckon then
    if sh.nan || (sh.posInf && sh.negInf) then .nan
    else if sh.posInf then .inf false
    else if sh.negInf then .inf true
    else .fin (decide (sh.acc.toInt < 0)) sh.acc.toInt.natAbs (accLsb sh.op)
  else fval sh.f32

/-- round() of R193: the element's bytes for an exact value. -/
def roundElem (op : RedOp) (v : FVal) : Nat :=
  match op with
  | .addBf16 => (toBf16 .rn v).toNat
  | .addN8e4 => quantise v oneF .e4 false false 0
  | .addN8e5 => quantise v oneF .e5 true false 0
  | _ => (toF32 .rn v).toNat

/-- round(shadow) (R193). -/
def Shadow.round (sh : Shadow) : Nat := roundElem sh.op sh.value

/-- A new shadow of the same element and kind, exact in the contents of a memory (R194). -/
def Shadow.renew (sh : Shadow) (m : Mem) (pa : Nat) : Shadow :=
  Shadow.make sh.op sh.reckon (elemVal sh.op (m.nat pa (redSize sh.op)))

/-- Shadows whose element has changed with a write of [pa, pa + n) from memory `m` to `m'` take the exact value of the new
contents (R194). Memory itself always holds round(shadow), which is what every read returns (R193). -/
def reshadow (m m' : Mem) (shs : Map Shadow) (pa n : Nat) : Map Shadow :=
  shs.map (fun e =>
    if e.1 < pa + n && pa < e.1 + redSize e.2.op && m.nat e.1 (redSize e.2.op) != m'.nat e.1 (redSize e.2.op) then
      (e.1, e.2.renew m' e.1)
    else e)

/-- A RED of [pa, pa + n) ends the shadows of another FN there: their elements are round(shadow) (R194). -/
def State.endShadows (s : State) (op : RedOp) (reckon : Bool) (pa n : Nat) : State :=
  if s.shadows.isEmpty then s
  else { s with shadows := s.shadows.map (fun e =>
    if e.1 < pa + n && pa < e.1 + redSize e.2.op && !(e.2.op == op && e.2.reckon == reckon) then (e.1, e.2.renew s.mem e.1)
    else e) }

/-- Stores bytes to physical memory; an address that does not exist discards them (R508). -/
def State.physStore (s : State) (pa : Nat) (bs : List Byte) : State :=
  if paOk s.ms pa then
    let m := s.mem.storeBytes pa bs
    { s with mem := m, shadows := if s.shadows.isEmpty then s.shadows else reshadow s.mem m s.shadows pa bs.length }
  else s

/-! ### Translation (R519 to R523) -/

/-- The entry of an ASID in the ASID table: bits as R519 lays them out; 0 while the table is not in use. -/
def State.asidEntry (s : State) (asid : Nat) : Nat :=
  if s.ms.asidBase.getLsbD 0 then s.clearNat (bits s.ms.asidBase.toNat 16 30 * 65536 + 16 * asid) 16 else 0

/-- EN of an ASID (R519). -/
def State.asidEn (s : State) (asid : Nat) : Bool := bit (s.asidEntry asid) 46

/-- The tag of accesses in an ASID: its slot + 1 when ENC is set, else 0 (R517). -/
def State.asidTag (s : State) (asid : Nat) : Nat :=
  let e := s.asidEntry asid
  if bit e 46 && bit e 47 then bits e 64 12 + 1 else 0

/-- What an access needs of a leaf (R522). -/
inductive Need where
  | read | fetch | write | atomic
deriving DecidableEq, Repr

/-- Whether a leaf permits an access (R522). -/
def leafPermits (e : Nat) : Need → Bool
  | .read => bit e 56
  | .fetch => bit e 58
  | .write => bit e 57
  | .atomic => bit e 56 && bit e 57

/-- Index of a virtual address at a level, and the bits below it (R520). -/
def levelIndex (lvl va : Nat) : Nat :=
  match lvl with
  | 3 => bits va 43 13
  | 2 => bits va 30 13
  | 1 => bits va 21 9
  | _ => bits va 16 5

/-- log2 of what one entry of a level maps (R520). -/
def levelShift : Nat → Nat
  | 3 => 43
  | 2 => 30
  | 1 => 21
  | _ => 16

/-- log2 of the alignment of the table a level's entry names (R520). -/
def tableAlign : Nat → Nat
  | 3 => 16
  | 2 => 12
  | _ => 8

/-- The walk from a table of a level down: the address of the leaf and the leaf (R520, R521). An entry is invalid with
V = 0, with LEAF against its level, with ADDR against its alignment, or in a table outside the fast tier. -/
def State.walkFrom (s : State) (va : Nat) : Nat → Nat → Option (Nat × Nat × Nat)
  | lvl, table =>
    let go := fun (lvl : Nat) (table : Nat) =>
      let ea := table + 8 * levelIndex lvl va
      if isFastPa table then
        let e := s.clearNat ea 8
        if bit e 54 then some (ea, e) else none
      else none
    match lvl with
    | 0 =>
      match go 0 table with
      | some (ea, e) => if bit e 55 && bits e 8 8 = 0 then some (0, ea, e) else none
      | none => none
    | n + 1 =>
      match go (n + 1) table with
      | some (ea, e) =>
        let addr := bits e 8 38 * 256
        if bit e 55 then
          if n + 1 < 3 && addr % 2 ^ levelShift (n + 1) = 0 then some (n + 1, ea, e) else none
        else if addr % 2 ^ tableAlign (n + 1) = 0 then s.walkFrom va n addr else none
      | none => none

/-- The walk of an address in an ASID: level, address of the leaf, leaf (R519, R520). -/
def State.walk (s : State) (asid va : Nat) : Option (Nat × Nat × Nat) :=
  let e := s.asidEntry asid
  if bit e 46 && decide (va < 2 ^ 56) then s.walkFrom va 3 (bits e 16 30 * 65536) else none

/-- The physical address that a leaf of a level gives, when it permits the access (R521, R522). -/
def leafAddr (lvl e va : Nat) (need : Need) : Option Nat :=
  if leafPermits e need then some (bits e 8 38 * 256 / 2 ^ levelShift lvl * 2 ^ levelShift lvl + va % 2 ^ levelShift lvl)
  else none

/-- The physical address of an access by the page tables, when a leaf permits it (R522). -/
def State.translate (s : State) (asid : Nat) (need : Need) (va : Nat) : Option Nat :=
  match s.walk asid va with
  | some (lvl, _, e) => leafAddr lvl e va need
  | none => none

/-- A and D as the walker sets them in the leaf before an access (R523). -/
def State.markLeaf (s : State) (asid : Nat) (dirty : Bool) (va : Nat) : State :=
  match s.walk asid va with
  | some (_, ea, e) =>
    let e1 := if bit e 59 then e else e + 2 ^ 59
    let e2 := if dirty && !bit e1 60 then e1 + 2 ^ 60 else e1
    if e2 = e then s else (s.retag 0 (ea / 128)).physStore ea (leBytes 8 e2)
  | none => s

/-- Whether a walk from a table reads an entry at an address that does not exist, which ends it (R508). -/
def State.walkLost (s : State) (va : Nat) : Nat → Nat → Bool
  | lvl, table =>
    let ea := table + 8 * levelIndex lvl va
    if ¬isFastPa table then false
    else if ¬paOk s.ms ea then true
    else
      match lvl with
      | 0 => false
      | n + 1 =>
        let e := s.clearNat ea 8
        bit e 54 && !bit e 55 && decide (bits e 8 38 * 256 % 2 ^ tableAlign (n + 1) = 0) && s.walkLost va n (bits e 8 38 * 256)

/-- A failed walk of an address: where it read an address that does not exist, that is counted (R508). -/
def State.lostWalk (s : State) (asid va : Nat) : State :=
  let e := s.asidEntry asid
  if s.ms.asidBase.getLsbD 0 && (!paOk s.ms (bits s.ms.asidBase.toNat 16 30 * 65536 + 16 * asid) ||
      bit e 46 && s.walkLost va 3 (bits e 16 30 * 65536)) then
    { s with ms := { s.ms with paerr := true, paerrcnt := s.ms.paerrcnt + 1 } }
  else s

/-! ### Translations that are kept (R524; assumption log 23) -/

/-- The kept translation in use for an access, when its leaf has the bits that the access sets (R523, R524). -/
def State.keptFor (s : State) (asid : Nat) (need : Need) (va : Nat) : Option Kept :=
  s.ms.kept.find? (fun k => k.used && k.asid == asid && k.unit == va / 65536 && bit k.leaf 59 &&
    (bit k.leaf 60 || match need with
      | .read => true
      | .fetch => true
      | _ => false))

/-- The physical address of an access by a core or an engine: by a translation that it keeps, else by the page tables. -/
def State.mapped (s : State) (asid : Nat) (need : Need) (va : Nat) : Option Nat :=
  match s.keptFor asid need va with
  | some k => leafAddr k.lvl k.leaf va need
  | none => s.translate asid need va

/-- A set in the leaf that a core or an engine walks to (R523). -/
def State.markMapped (s : State) (asid : Nat) (need : Need) (va : Nat) : State :=
  match s.keptFor asid need va with
  | some _ => s
  | none => s.markLeaf asid false va

/-- Cores and engines keep the translation of a unit as it is now, and use it. -/
def State.keep (s : State) (asid unit : Nat) : State :=
  match s.walk asid (unit * 65536) with
  | some (lvl, _, e) => { s with ms := { s.ms with
      kept := { asid := asid, unit := unit, lvl := lvl, leaf := e, used := true } ::
        s.ms.kept.filter (fun k => !(k.asid == asid && k.unit == unit)) } }
  | none => s

/-- Cores and engines use what they keep of a unit, or walk anew. -/
def State.useKept (s : State) (asid unit : Nat) (on : Bool) : State :=
  { s with ms := { s.ms with kept := s.ms.kept.map (fun k => if k.asid = asid ∧ k.unit = unit then { k with used := on } else k) } }

/-- Units that a lease of a running grid of an ASID pins: their translations are kept until its release (R524, R526). -/
def State.leased (s : State) (asid unit : Nat) : Bool :=
  s.grids.any (fun e => e.2.asid == asid && (e.2.pins.find? unit).isSome)

/-- The translations that an invalidation covers are kept no more, but those of leases (R524). -/
def State.dropKept (s : State) (i : Inval) : State :=
  { s with ms := { s.ms with kept := s.ms.kept.filter (fun k =>
      !(k.asid == i.asid && (i.all || decide (i.unit ≤ k.unit) && decide (k.unit < i.unit + i.count))) || s.leased k.asid k.unit) } }

/-- A lease gives up a unit: no translation of it is kept (R526). -/
def State.unkeep (s : State) (asid unit : Nat) : State :=
  { s with ms := { s.ms with kept := s.ms.kept.filter (fun k => !(k.asid == asid && k.unit == unit) || s.leased asid unit) } }

end Sys2Proof.Machine
end

