-- ==== Sys2Proof/Machine/Shapes.lean ====
section
/-! DEFINITION. Operand classes and what makes a word legal: result shapes against destination classes
(spec/02_encoding.md R64 to R68, spec/03_sequencer.md R117), hold fields (R68), pair words (R75), and the operand
limits that the engine chapters answer with trap 0x01. `Instr.legal` collects them, one arm a constructor. -/

namespace Sys2Proof

/-- Width of the class a source register is read in: 0 uniform, 1 affine, 2 general (R64, R67). -/
def Reg.rank : Reg → Nat
  | .s _ => 0
  | .h _ => 0
  | .zero => 0
  | .x _ => 1
  | .v _ => 2

/-- Width of the widest result a destination accepts; zero accepts any (R67). -/
def Reg.capacity : Reg → Nat
  | .s _ => 0
  | .h _ => 0
  | .x _ => 1
  | .v _ => 2
  | .zero => 2

/-- s, h and zero are of uniform class (R64). -/
def Reg.isUniform (r : Reg) : Bool := r.rank == 0

/-- A v register (R64). -/
def Reg.isV : Reg → Bool
  | .v _ => true
  | _ => false

/-- A destination accepts a result of shape `sh` (R67). -/
def destOk (sh : Nat) (d : Reg) : Bool := sh ≤ d.capacity

/-- Widest class among the sources. -/
def maxRank : List Reg → Nat
  | [] => 0
  | r :: rs => Nat.max r.rank (maxRank rs)

/-- Result shape of MOV, IADD, ISUB and INEG in their wrapping forms (R117, R231). -/
def linShape (rs : List Reg) : Nat := maxRank rs

/-- Result shape of the other pairable, 0x10 and 0x30 to 0x35 instructions (R117). -/
def aluShape (rs : List Reg) : Nat := if maxRank rs = 0 then 0 else 2

/-- Result shape of SHL: affine only for an affine first source and a uniform second (R117). -/
def shlShape (a b : Nat) : Nat := if b = 0 then a else 2

/-- Result shape of IMUL: affine when exactly one source is affine and the other uniform (R117, R231). -/
def mulShape (m : SatMode) (a b : Nat) : Nat :=
  if a + b = 0 then 0 else if m = .wrap ∧ a + b = 1 then 1 else 2

/-- A held field must be a register source of the instruction that names a v register (R68). -/
def holdOk (g : Guard) (a b c : List Reg) : Bool :=
  match g.hold with
  | .none => true
  | .a => !a.isEmpty && a.all Reg.isV
  | .b => !b.isEmpty && b.all Reg.isV
  | .c => !c.isEmpty && c.all Reg.isV

/-- Types SCAN accepts (R244). -/
def scanTyOk : ScanOp → ScanTy → Bool
  | .add, ty => ty != .u32
  | .addx, ty => ty != .u32
  | .max, _ => true
  | .min, _ => true
  | .or, ty => ty == .i32

/-- SCALE reads C unless the tensor scale is absent (R272). -/
def scaleC : TScaleFmt → Reg → List Reg
  | .none, _ => []
  | _, c => [c]

/-- Registers that a load size writes (R216). -/
def LdSize.regs : LdSize → Nat
  | .d => 2
  | .q => 4
  | _ => 1

/-- Registers that a store size reads (R219). -/
def StSize.regs : StSize → Nat
  | .d => 2
  | .q => 4
  | _ => 1

/-- Words that RNGX writes (R281). -/
def RngCount.num : RngCount → Nat
  | .x1 => 1
  | .x2 => 2
  | .x4 => 4

/-- A group of `n` v registers: aligned, inside v0 to v175; zero discards (R216, R281). -/
def vGroupOk (n : Nat) : Reg → Bool
  | .v k => k.val % n == 0 && k.val + n ≤ 176
  | .zero => true
  | _ => false

/-- Destinations of LDU: aligned v, s and h groups, zero, and an x register for one word (R216, R67). DEDUCED: R216
names v, s, h and zero; R67 lets x take a uniform result (log 17). Safe or unsafe: unsafe. -/
def uGroupOk (n : Nat) : Reg → Bool
  | .v k => k.val % n == 0 && k.val + n ≤ 176
  | .s k => k.val % n == 0 && k.val + n ≤ 48
  | .h k => k.val % n == 0 && k.val + n ≤ 16
  | .x _ => n == 1
  | .zero => true

/-- Bases of FM words: an even s, h or v register, or zero (R177). -/
def baseOk : Reg → Bool
  | .s k => k.val % 2 == 0
  | .h k => k.val % 2 == 0
  | .v k => k.val % 2 == 0
  | .x _ => false
  | .zero => true

/-- Data registers of ST: any for one word, aligned v or s groups or zero for D and Q (R219). -/
def stDataOk (n : Nat) : Reg → Bool
  | .v k => k.val % n == 0 && k.val + n ≤ 176
  | .s k => k.val % n == 0 && k.val + n ≤ 48
  | .h _ => n == 1
  | .x _ => n == 1
  | .zero => true

/-- ATOM's data register: a v register, even for CAS (R220). -/
def atomDataOk (op : AtomOp) : Reg → Bool
  | .v k => op != .cas || k.val % 2 == 0
  | _ => false

/-- Special register numbers that R153 lists. -/
def srListed (n : BitVec 8) : Bool := n.toNat ≤ 0x1C || n == 0x40#8

/-- XFER and XMCAST: HOLD must be 0 and the barrier field is of uniform class (R296). -/
def xOk (x : XArgs) (g : Guard) : Bool := g.hold == .none && x.bar.isUniform

/-- The registers a pair slot reads: D unless the operation is MOV, then A (R72, R75). -/
def Slot.srcs (p : Slot) : List Reg :=
  (if p.op = .mov then [] else [p.d]) ++
    match p.src with
    | .reg a => [a]
    | .imm _ => []

/-- Banks of the distinct v registers read: n mod 4 (R75). -/
def banksOk : List Reg → Bool
  | [] => true
  | r :: rs =>
    (match r with
      | .v n => rs.all (fun q =>
          match q with
          | .v k => k == n || k.val % 4 != n.val % 4
          | _ => true)
      | _ => true) && banksOk rs

/-- A slot's destination is a v or s register that its result shape fits (R75, R67). A slot's s destination is
itself a uniform source, so an s destination needs every source uniform. -/
def Slot.ok (p : Slot) : Bool :=
  match p.d with
  | .v _ => true
  | .s _ => maxRank p.srcs == 0
  | _ => false

/-- R75. -/
def pairOk (p q : Slot) : Bool :=
  p.ok && q.ok && p.d != q.d && !q.srcs.contains p.d && banksOk (p.srcs ++ q.srcs)

/-- Words of the hint region (R78) that are neither NOP nor ICPF. -/
def hintOk (w : DWord) : Bool :=
  !w.getLsbD 63 && w.extractLsb' 59 4 == 0xF#4 && !(w.extractLsb' 56 3 == 0#3 && (w.extractLsb' 10 6).toNat ≤ 1)

/-- A word is legal under R67, R68, R75 and the operand limits of its chapter; a word that is not raises trap 0x01. -/
def Instr.legal : Instr → Bool
  | .mov d a g => holdOk g [a] [] [] && destOk (linShape [a]) d
  | .movImm d _ g => holdOk g [] [] [] && destOk (aluShape []) d
  | .iadd m d a b g => holdOk g [a] [b] [] && (destOk (if m = .wrap then linShape [a, b] else aluShape [a, b]) d)
  | .iaddImm m d a _ g => holdOk g [a] [] [] && (destOk (if m = .wrap then linShape [a] else aluShape [a]) d)
  | .isub m d a b g => holdOk g [a] [b] [] && (destOk (if m = .wrap then linShape [a, b] else aluShape [a, b]) d)
  | .isubImm m d a _ g => holdOk g [a] [] [] && (destOk (if m = .wrap then linShape [a] else aluShape [a]) d)
  | .iand d a b g => holdOk g [a] [b] [] && destOk (aluShape [a, b]) d
  | .iandImm d a _ g => holdOk g [a] [] [] && destOk (aluShape [a]) d
  | .ior d a b g => holdOk g [a] [b] [] && destOk (aluShape [a, b]) d
  | .iorImm d a _ g => holdOk g [a] [] [] && destOk (aluShape [a]) d
  | .ixor d a b g => holdOk g [a] [b] [] && destOk (aluShape [a, b]) d
  | .ixorImm d a _ g => holdOk g [a] [] [] && destOk (aluShape [a]) d
  | .shl d a b g => holdOk g [a] [b] [] && destOk (shlShape a.rank b.rank) d
  | .shlImm d a _ g => holdOk g [a] [] [] && destOk (shlShape a.rank 0) d
  | .shr d a b g => holdOk g [a] [b] [] && destOk (aluShape [a, b]) d
  | .shrImm d a _ g => holdOk g [a] [] [] && destOk (aluShape [a]) d
  | .sar d a b g => holdOk g [a] [b] [] && destOk (aluShape [a, b]) d
  | .sarImm d a _ g => holdOk g [a] [] [] && destOk (aluShape [a]) d
  | .imin _ d a b g => holdOk g [a] [b] [] && destOk (aluShape [a, b]) d
  | .iminImm _ d a _ g => holdOk g [a] [] [] && destOk (aluShape [a]) d
  | .imax _ d a b g => holdOk g [a] [b] [] && destOk (aluShape [a, b]) d
  | .imaxImm _ d a _ g => holdOk g [a] [] [] && destOk (aluShape [a]) d
  | .imul m d a b g => holdOk g [a] [b] [] && destOk (mulShape m a.rank b.rank) d
  | .imulImm m d a _ g => holdOk g [a] [] [] && destOk (mulShape m a.rank 0) d
  | .fadd _ d a b g => holdOk g [a] [b] [] && destOk (aluShape [a, b]) d
  | .faddImm _ d a _ g => holdOk g [a] [] [] && destOk (aluShape [a]) d
  | .fmul _ d a b g => holdOk g [a] [b] [] && destOk (aluShape [a, b]) d
  | .fmulImm _ d a _ g => holdOk g [a] [] [] && destOk (aluShape [a]) d
  | .fmin d a b g => holdOk g [a] [b] [] && destOk (aluShape [a, b]) d
  | .fminImm d a _ g => holdOk g [a] [] [] && destOk (aluShape [a]) d
  | .fmax d a b g => holdOk g [a] [b] [] && destOk (aluShape [a, b]) d
  | .fmaxImm d a _ g => holdOk g [a] [] [] && destOk (aluShape [a]) d
  | .pairWord p q => pairOk p q
  | .andn d a b g => holdOk g [a] [b] [] && destOk (aluShape [a, b]) d
  | .inot d a g => holdOk g [a] [] [] && destOk (aluShape [a]) d
  | .rotl d a b g => holdOk g [a] [b] [] && destOk (aluShape [a, b]) d
  | .shf _ d a b c g => holdOk g [a] [b] [c] && destOk (aluShape [a, b, c]) d
  | .imulh d a b g => holdOk g [a] [b] [] && destOk (aluShape [a, b]) d
  | .imulhu d a b g => holdOk g [a] [b] [] && destOk (aluShape [a, b]) d
  | .imad _ d a b c g => holdOk g [a] [b] [c] && destOk (aluShape [a, b, c]) d
  | .iabs _ d a g => holdOk g [a] [] [] && destOk (aluShape [a]) d
  | .ineg sat d a g => holdOk g [a] [] [] && (destOk (if sat then aluShape [a] else a.rank) d)
  | .sel d a b c g => holdOk g [a] [b] [c] && destOk (aluShape [a, b, c]) d
  | .bysel d a b c g => holdOk g [a] [b] [c] && destOk (aluShape [a, b, c]) d
  | .clz d a g => holdOk g [a] [] [] && destOk (aluShape [a]) d
  | .popc d a g => holdOk g [a] [] [] && destOk (aluShape [a]) d
  | .brev d a g => holdOk g [a] [] [] && destOk (aluShape [a]) d
  | .bfe _ d a b g => holdOk g [a] [b] [] && destOk (aluShape [a, b]) d
  | .bfi d a b c g => holdOk g [a] [b] [c] && destOk (aluShape [a, b, c]) d
  | .movw _ _ g => holdOk g [] [] []
  | .movx d _ g => holdOk g [] [] [] && destOk 1 d
  | .iset _ _ _ a b g => holdOk g [a] [b] []
  | .mand _ _ _ g => holdOk g [] [] []
  | .mor _ _ _ g => holdOk g [] [] []
  | .mxor _ _ _ g => holdOk g [] [] []
  | .mnot _ _ g => holdOk g [] [] []
  | .mmov _ a g => holdOk g [a] [] [] && a.isUniform
  | .mget _ _ g => holdOk g [] [] []
  | .mpop _ _ g => holdOk g [] [] []
  | .mffs _ _ g => holdOk g [] [] []
  | .shape _ a g => holdOk g [a] [] []
  | .lxch _ d a b c g => holdOk g [a] [b] [c] && destOk 2 d
  | .lpred op inv _ a g => holdOk g [a] [] [] && !(inv && op == .same)
  | .scan op ty d a g => holdOk g [a] [] [] && destOk 2 d && scanTyOk op ty
  | .rdux op u _ a g => holdOk g [a] [] [] && !(u && op != .max && op != .min)
  | .matchLanes d a g => holdOk g [a] [] [] && destOk 2 d
  | .fsub _ d a b g => holdOk g [a] [b] [] && destOk (aluShape [a, b]) d
  | .ffma _ d a b c g => holdOk g [a] [b] [c] && destOk (aluShape [a, b, c]) d
  | .fabs d a g => holdOk g [a] [] [] && destOk (aluShape [a]) d
  | .fneg d a g => holdOk g [a] [] [] && destOk (aluShape [a]) d
  | .fcps d a b g => holdOk g [a] [b] [] && destOk (aluShape [a, b]) d
  | .frnd _ d a g => holdOk g [a] [] [] && destOk (aluShape [a]) d
  | .fclass d a g => holdOk g [a] [] [] && destOk (aluShape [a]) d
  | .fset _ _ _ a b g => holdOk g [a] [b] []
  | .frcp d a g => holdOk g [a] [] [] && destOk (aluShape [a]) d
  | .frsq d a g => holdOk g [a] [] [] && destOk (aluShape [a]) d
  | .fsqrt d a g => holdOk g [a] [] [] && destOk (aluShape [a]) d
  | .fex2 d a g => holdOk g [a] [] [] && destOk (aluShape [a]) d
  | .flg2 d a g => holdOk g [a] [] [] && destOk (aluShape [a]) d
  | .ftanh d a g => holdOk g [a] [] [] && destOk (aluShape [a]) d
  | .fsin d a g => holdOk g [a] [] [] && destOk (aluShape [a]) d
  | .fcos d a g => holdOk g [a] [] [] && destOk (aluShape [a]) d
  | .hadd2 _ d a b g => holdOk g [a] [b] [] && destOk (aluShape [a, b]) d
  | .hmul2 _ d a b g => holdOk g [a] [b] [] && destOk (aluShape [a, b]) d
  | .hfma2 _ d a b c g => holdOk g [a] [b] [c] && destOk (aluShape [a, b, c]) d
  | .hmax2 d a b g => holdOk g [a] [b] [] && destOk (aluShape [a, b]) d
  | .hmin2 d a b g => holdOk g [a] [b] [] && destOk (aluShape [a, b]) d
  | .cvtfi _ _ d a g => holdOk g [a] [] [] && destOk (aluShape [a]) d
  | .cvtif _ _ d a g => holdOk g [a] [] [] && destOk (aluShape [a]) d
  | .cvtfh _ d a b g => holdOk g [a] [b] [] && destOk (aluShape [a, b]) d
  | .cvthf _ d a g => holdOk g [a] [] [] && destOk (aluShape [a]) d
  | .cvtn8 _ _ _ d a b g => holdOk g [a] [b] [] && destOk (aluShape [d, a, b]) d
  | .cvtf8 _ _ d a g => holdOk g [a] [] [] && destOk (aluShape [a]) d
  | .qnt4 _ _ d a b c _ g => holdOk g [a] [b] [c] && destOk (aluShape [d, a, b, c]) d
  | .dq4 _ d a b c _ g => holdOk g [a] [b] [c] && destOk (aluShape [a, b, c]) d
  | .scale _ tf d a b c g => holdOk g [a] [b] (scaleC tf c) && destOk (aluShape (a :: b :: scaleC tf c)) d
  | .selkLd a loc slot g => holdOk g [a] [loc] [slot] && loc.isUniform && slot.isUniform
  | .selkRun loc geom g => holdOk g [loc] [geom] [] && loc.isUniform && geom.isUniform
  | .selkRd _ d loc geom slot g => holdOk g [loc] [geom] [slot] && destOk 2 d && loc.isUniform && geom.isUniform && slot.isUniform
  | .rngx cnt _ d a _ c _ g => holdOk g [a] [] [c] && vGroupOk cnt.num d
  | .ld sz _ d base idx _ g => holdOk g [base] [idx] [] && baseOk base && vGroupOk sz.regs d
  | .st sz _ d base idx _ g => holdOk g [base] [idx] [] && baseOk base && stDataOk sz.regs d
  | .ldu sz _ d base idx _ g => holdOk g [base] [idx] [] && baseOk base && uGroupOk sz.regs d
  | .atom op _ d base idx _ g => holdOk g [base] [idx] [] && baseOk base && atomDataOk op d
  | .red _ _ _ base idx _ g => holdOk g [base] [idx] [] && baseOk base
  | .fence _ g => holdOk g [] [] []
  | .pref base idx _ g => holdOk g [base] [idx] [] && baseOk base
  | .bra _ g => holdOk g [] [] []
  | .bru k _ g => holdOk g [] [] [] && k.isUniform
  | .brd _ _ g => holdOk g [] [] []
  | .call _ _ g => holdOk g [] [] []
  | .ret _ g => holdOk g [] [] []
  | .brx _ g => holdOk g [] [] []
  | .exit g => holdOk g [] [] []
  | .nop => true
  | .icpf _ _ => true
  | .hint w => hintOk w
  | .binit _ _ loc arr bytes g => holdOk g [loc] [arr] [bytes] && loc.isUniform && arr.isUniform && bytes.isUniform
  | .bjoin loc g => holdOk g [loc] [] [] && loc.isUniform
  | .barv _ loc g => holdOk g [loc] [] [] && loc.isUniform
  | .barx _ loc bytes g => holdOk g [loc] [bytes] [] && loc.isUniform && bytes.isUniform
  | .bwait loc ph g => holdOk g [loc] [ph] [] && loc.isUniform && ph.isUniform
  | .btest _ loc ph g => holdOk g [loc] [ph] [] && loc.isUniform && ph.isUniform
  | .bwaitt _ loc ph t g => holdOk g [loc] [ph] [t] && loc.isUniform && ph.isUniform && t.isUniform
  | .bleave loc g => holdOk g [loc] [] [] && loc.isUniform
  | .tbar g => holdOk g [] [] []
  | .cbar g => holdOk g [] [] []
  | .sleep a g => holdOk g [a] [] [] && a.isUniform
  | .yield g => holdOk g [] [] []
  | .grow _ n g => holdOk g [] [] [] && (1 ≤ n.toNat && n.toNat ≤ 22)
  | .shrink n g => holdOk g [] [] [] && (1 ≤ n.toNat && n.toNat ≤ 22)
  | .fork _ g => holdOk g [] [] []
  | .joinw _ g => holdOk g [] [] []
  | .spawn _ idx cnt g => holdOk g [idx] [cnt] [] && idx.isUniform && cnt.isUniform
  | .movs d sr g => holdOk g [] [] [] && srListed sr && (destOk (if sr = 0 then 1 else 0) d)
  | .movsw sr a g => holdOk g [a] [] [] && srListed sr && a.isUniform
  | .trap _ g => holdOk g [] [] []
  | .sysc svc a b g => svc == 0 && holdOk g [a] [b] [] && a.isUniform && b.isUniform
  | .eret g => holdOk g [] [] []
  | .bkpt _ g => holdOk g [] [] []
  | .csave _ _ g => holdOk g [] [] []
  | .cload _ g => holdOk g [] [] []
  | .xferCopy x g => (g.hold == .none) && xOk x g
  | .xferTranspose x g => (g.hold == .none) && xOk x g
  | .xferRepack x g => (g.hold == .none) && xOk x g
  | .xferQuant x g => (g.hold == .none) && xOk x g
  | .xferDequant x g => (g.hold == .none) && xOk x g
  | .xferGather x g => (g.hold == .none) && xOk x g
  | .xferScatter x g => (g.hold == .none) && xOk x g
  | .xferFill x g => (g.hold == .none) && xOk x g && !x.sacc && (x.src == 0)
  | .xmcast x g => (g.hold == .none) && xOk x g && !x.sacc && (x.scope != .team)
  | .twaita _ _ _ _ g => (g.hold == .none)
  | .twaitl _ _ _ _ g => (g.hold == .none)
  | .tffr _ _ _ g => (g.hold == .none)
  | .tclr _ g => (g.hold == .none)
  | .xstat _ _ _ g => (g.hold == .none)
  | .rfence _ g => (g.hold == .none)
  | .spfence loc len g => (g.hold == .none) && loc.isUniform && len.isUniform
  | .mfmt _ _ loc g => (g.hold == .none) && loc.isUniform
  | .mloop _ _ _ g => (g.hold == .none)
  | .accz _ a g => (g.hold == .none) && a.isUniform
  | .accrd _ d a g => (g.hold == .none) && destOk 2 d && a.isUniform
  | .accwr a _ g => (g.hold == .none) && a.isUniform
  | .mwait _ _ a g => (g.hold == .none) && a.isUniform
  | .mstat _ a g => (g.hold == .none) && a.isUniform
  | .mhad _ _ _ loc geom g => (g.hold == .none) && loc.isUniform && geom.isUniform
  | .tbld _ _ g => (g.hold == .none)
  | .tlook _ _ g => (g.hold == .none)
  | .tval _ num g => (g.hold == .none) && num.isUniform
  | .tspill _ num loc g => (g.hold == .none) && num.isUniform && loc.isUniform
  | .tfill _ num g => (g.hold == .none) && num.isUniform
  | .tdrop num g => (g.hold == .none) && num.isUniform
  | .kvgath _ bar _ _ g => (g.hold == .none) && bar.isUniform
  | .kvapp _ _ g => (g.hold == .none)
  | .pgalloc _ req idx _ g => (g.hold == .none) && req.isUniform && idx.isUniform
  | .pgrefQ _ page _ g => (g.hold == .none) && page.isUniform
  | .pgrefQf _ page _ g => (g.hold == .none) && page.isUniform
  | .pgrefInc _ page _ g => (g.hold == .none) && page.isUniform
  | .pgrefDec _ page _ g => (g.hold == .none) && page.isUniform
  | .pgfetch page _ g => (g.hold == .none) && page.isUniform
  | .btset _ req idx page _ g => (g.hold == .none) && req.isUniform && idx.isUniform && page.isUniform
  | .btget _ req idx _ g => (g.hold == .none) && req.isUniform && idx.isUniform
  | .kvsend req dest rreq _ g => (g.hold == .none) && req.isUniform && dest.isUniform && rreq.isUniform
  | .pfxh _ ids _ mdl _ g => (g.hold == .none) && ids.isUniform && mdl.isUniform
  | .pfxlook _ key req idx _ g => (g.hold == .none) && key.isUniform && req.isUniform && idx.isUniform
  | .pfxins _ key page _ g => (g.hold == .none) && key.isUniform && page.isUniform
  | .pfxinsDel _ page _ g => (g.hold == .none) && page.isUniform
  | .sqget d hd _ g => (g.hold == .none) && !d.isV && hd.isUniform
  | .tokemit d hd loc cnt g => (g.hold == .none) && !d.isV && hd.isUniform && loc.isUniform && cnt.isUniform
  | .sqstop d hd reason g => (g.hold == .none) && !d.isV && hd.isUniform && reason.isUniform
  | .sqroll d hd n g => (g.hold == .none) && !d.isV && hd.isUniform && n.isUniform
  | .sqyield _ d hd g => (g.hold == .none) && !d.isV && hd.isUniform
  | .nsend _ len dq _ _ g => (g.hold == .none) && len.isUniform && dq.isUniform
  | .nput _ _ len dest _ _ _ g => (g.hold == .none) && len.isUniform && dest.isUniform
  | .nget _ len dest _ _ _ g => (g.hold == .none) && len.isUniform && dest.isUniform
  | .nred _ blk _ g => (g.hold == .none) && blk.isUniform
  | .npoll d q g => (g.hold == .none) && !d.isV && q.isUniform
  | .nrecv q _ mx _ g => (g.hold == .none) && q.isUniform && mx.isUniform
  | .ntime _ _ g => (g.hold == .none)
  | .splitMerge _ _ _ => true
  | .icacheMissFill _ _ _ => true
  | .yieldTimeout _ _ => true
  | .sleepExpire _ _ => true
  | .bwaittTimeout _ _ => true
  | .growGrant _ => true
  | .growDeadlockResolve _ => true
  | .syncOpEffect _ _ => true
  | .exitUnblock _ _ => true
  | .registerWriteLand _ => true
  | .forkSwapOut _ => true
  | .forkResume _ => true
  | .storeDrain _ => true
  | .l2LineEvict _ => true
  | .hostMemoryAccess _ _ _ _ => true
  | .engineLineRelease _ _ _ => true
  | .commandComplete _ => true
  | .traverseRefusalRetry _ _ _ _ => true
  | .loopStep _ _ => true
  | .tableBuild _ _ => true
  | .tlookStep _ _ => true
  | .loopComplete _ _ => true
  | .kvgathPageStep _ _ => true
  | .evictionComplete _ _ => true
  | .fetchComplete _ _ _ => true
  | .chartScrub _ _ _ => true
  | .chcfgReload _ _ => true
  | .blockTableRecord _ => true
  | .kvsendAck _ _ => true
  | .launch _ => true
  | .admitReq _ => true
  | .cancel _ => true
  | .model _ => true
  | .modeldel _ => true
  | .badcmd _ => true
  | .rtail _ _ _ => true
  | .ehead _ _ _ => true
  | .semaphoreRead _ _ _ => true
  | .semaphoreWrite _ _ _ => true
  | .hostLinkDown _ => true
  | .partk _ _ => true
  | .kChangeApply _ => true
  | .phalt _ _ => true
  | .partitionHalt _ => true
  | .shadowSwap _ => true
  | .haltSlowPath _ => true
  | .partitionResume _ => true
  | .gridDispatch _ => true
  | .leaseStage _ => true
  | .saveAreaAllocate _ => true
  | .holdAcquire _ => true
  | .clusterPlace _ => true
  | .teamStart _ => true
  | .workSteal _ => true
  | .teamSwapOut _ => true
  | .gridCompletion _ => true
  | .watchdogTrap _ => true
  | .watchdogEnd _ => true
  | .batchForm _ => true
  | .swappedReturn _ => true
  | .blockHandOver _ => true
  | .sramSoftError _ => true
  | .linkTraining _ _ => true
  | .mroute _ _ => true
  | .mqcfg _ _ _ => true
  | .sextantFrame _ _ _ => true
  | .sextantFrameSend _ => true
  | .orderedPacketArrival _ _ => true
  | .beacon _ _ => true
  | .beaconSend _ => true
  | .orderedEmit _ _ => true
  | .stallDeclare _ _ => true
  | .stallNotice _ => true
  | .messageDelivery _ => true
  | .putGetServe _ _ _ _ => true
  | .reductionContribution _ => true
  | .reductionCombine _ _ _ => true
  | .reductionAbandon _ _ _ _ => true
  | .reductionResult _ _ _ => true
  | .abandonNotice _ _ => true
  | .tlbinvc _ _ => true
  | .invalidationComplete => true
  | .memcfg _ _ => true
  | .memcfgChangeComplete => true
  | .nrseed _ _ => true
  | .keydata _ _ _ => true
  | .rowActivate _ _ _ => true
  | .reset _ => true
  | .attctl _ _ => true
  | .attestationReportDone => true
  | .governorInterval _ => true
  | .plimit _ _ => true
  | .pclkmax _ _ _ => true
  | .pwrctl _ _ => true
  | .partitionIdle _ => true
  | .partitionOff _ => true
  | .thermalHot _ _ => true
  | .thermtrip _ => true
  | .registerWrite _ _ _ _ => true
  | .illegalInstruction _ => true
  | .linkFailure _ => true
  | .retransmission _ _ => true

end Sys2Proof
end

