-- ==== Sys2Proof/WellFormed.lean ====
section
/-! DEFINITION. Well-formed instructions: those whose word is legal (spec/02_encoding.md R67, R68, R75, R77). The
checks themselves stand in Machine/Shapes.lean. Machine events have no word and are always well formed. -/

namespace Sys2Proof

/-- Well formed: the word of the instruction raises no trap 0x01 at decode. -/
def Instr.wf (i : Instr) : Bool := i.legal

end Sys2Proof
end

