-- ==== Sys2Proof/Decode.lean ====
section
/-! DEFINITION. Decoding and encoding of instruction words (spec/02_encoding.md R55 to R83). A word is taken apart into
its fields once; `decode` is total and refuses by name, and every refused word raises trap 0x01 (R77, R79). The encoder
writes the words of well-formed instructions from the same tables. -/

namespace Sys2Proof

/-- Why a word is no instruction; every one of them is trap 0x01 (R77). -/
inductive DecodeError where
  /-- A major opcode outside R76. -/
  | unassignedMajor
  /-- An FN beyond the last one listed. -/
  | unassignedFn
  /-- A MOD code the instruction does not accept. -/
  | badMod
  /-- A register or immediate field outside what the instruction names (R66, R128). -/
  | badField
  /-- A pair word that breaks R75 in its fields. -/
  | badPair
  /-- A word that breaks R67, R68, R75 or an operand limit. -/
  | illFormed
  /-- Fewer than eight bytes. -/
  | truncated
deriving DecidableEq, Repr

/-- The fields of a full word in the layout F3, which the other layouts regroup (R59, R60). -/
structure Fields where
  op : BitVec 7
  d : BitVec 8
  a : BitVec 8
  b : BitVec 8
  c : BitVec 8
  e : BitVec 8
  fn : BitVec 6
  md : BitVec 4
  hold : BitVec 2
  pm : BitVec 3
  pn : BitVec 1
deriving DecidableEq, Repr

/-- The full word with these fields; bit 63 is P = 0 (R55, R59, R60). -/
def Fields.pack (f : Fields) : DWord :=
  0#1 ++ f.op ++ f.d ++ f.a ++ f.b ++ f.c ++ f.e ++ f.fn ++ f.md ++ f.hold ++ f.pm ++ f.pn

/-- The fields of a word (R59, R60). -/
def Fields.unpack (w : DWord) : Fields where
  op := w.extractLsb' 56 7
  d := w.extractLsb' 48 8
  a := w.extractLsb' 40 8
  b := w.extractLsb' 32 8
  c := w.extractLsb' 24 8
  e := w.extractLsb' 16 8
  fn := w.extractLsb' 10 6
  md := w.extractLsb' 6 4
  hold := w.extractLsb' 4 2
  pm := w.extractLsb' 1 3
  pn := w.extractLsb' 0 1

/-- IMM24, bits 39:16 (R60). -/
def Fields.imm24 (f : Fields) : BitVec 24 := f.b ++ f.c ++ f.e

/-- IMM32 or OFF32, bits 47:16 (R60). -/
def Fields.imm32 (f : Fields) : BitVec 32 := f.a ++ f.b ++ f.c ++ f.e

/-- OFF16, bits 31:16 (R60). -/
def Fields.off16 (f : Fields) : BitVec 16 := f.c ++ f.e

/-- HOLD codes (R59). -/
def Hold.ofCode (c : BitVec 2) : Hold :=
  match c.toNat with
  | 0 => .none
  | 1 => .a
  | 2 => .b
  | _ => .c

/-- HOLD codes (R59). -/
def Hold.code : Hold → BitVec 2
  | .none => 0
  | .a => 1
  | .b => 2
  | .c => 3

/-- HOLD, PM and PN of a full word (R59). -/
def Fields.guard (f : Fields) : Guard :=
  { hold := Hold.ofCode f.hold, pm := ⟨f.pm.toNat, f.pm.isLt⟩, pn := f.pn == 1#1 }

/-- PM as its field (R59). -/
def Guard.pmCode (g : Guard) : BitVec 3 := BitVec.ofNat 3 g.pm.val

/-- PN as its field (R59). -/
def Guard.pnCode (g : Guard) : BitVec 1 := if g.pn then 1 else 0

/-- The register a field value names (R64). -/
def Reg.ofCode (c : BitVec 8) : Reg :=
  let n := c.toNat
  if h : n < 176 then .v ⟨n, h⟩
  else if h : n - 176 < 48 then .s ⟨n - 176, h⟩
  else if h : n - 224 < 16 then .h ⟨n - 224, h⟩
  else if h : n - 240 < 15 then .x ⟨n - 240, h⟩
  else .zero

/-- The field value of a register (R64). -/
def Reg.code : Reg → BitVec 8
  | .v n => BitVec.ofNat 8 n.val
  | .s n => BitVec.ofNat 8 (176 + n.val)
  | .h n => BitVec.ofNat 8 (224 + n.val)
  | .x n => BitVec.ofNat 8 (240 + n.val)
  | .zero => 0xFF

/-- A number below 8 in an 8-bit field: a mask register (R66) or a nibble index (R272). -/
def maskOf (c : BitVec 8) : Except DecodeError (Fin 8) :=
  if h : c.toNat < 8 then .ok ⟨c.toNat, h⟩ else .error .badField

/-- A number below 8 in an 8-bit field. -/
def maskCode (m : Fin 8) : BitVec 8 := BitVec.ofNat 8 m.val

/-- Nibble index n of QNT4 and DQ4 (R272). -/
def nibOf (c : BitVec 8) : Except DecodeError (Fin 8) := maskOf c

/-- An even s register, 0xB0, 0xB2, … 0xDE, as the number of its pair (R128, R296). -/
def pairOf (c : BitVec 8) : Except DecodeError (Fin 24) :=
  if h : 176 ≤ c.toNat ∧ c.toNat % 2 = 0 ∧ (c.toNat - 176) / 2 < 24 then .ok ⟨(c.toNat - 176) / 2, h.2.2⟩
  else .error .badField

/-- The field value of an even s register. -/
def pairCode (p : Fin 24) : BitVec 8 := BitVec.ofNat 8 (176 + 2 * p.val)

/-- An even s register, or zero (R308, R311). -/
def pairOrZeroOf (c : BitVec 8) : Except DecodeError (Option (Fin 24)) :=
  if c = 0xFF then .ok none else
    match pairOf c with
    | .ok p => .ok (some p)
    | .error e => .error e

/-- The field value of an even s register or zero. -/
def pairOrZeroCode : Option (Fin 24) → BitVec 8
  | some p => pairCode p
  | none => 0xFF

/-- The base of an octet of s registers, 0xB0, 0xB8, … 0xD8 (R341, R368, R411). -/
def octOf (c : BitVec 8) : Except DecodeError (Fin 6) :=
  if h : 176 ≤ c.toNat ∧ c.toNat % 8 = 0 ∧ (c.toNat - 176) / 8 < 6 then .ok ⟨(c.toNat - 176) / 8, h.2.2⟩
  else .error .badField

/-- The field value of an octet base. -/
def octCode (o : Fin 6) : BitVec 8 := BitVec.ofNat 8 (176 + 8 * o.val)

/-- E bits 5:0 of an engine command; bits 7:6 are reserved (R296). -/
def tagOf (c : BitVec 8) : Fin 64 := ⟨c.toNat % 64, Nat.mod_lt _ (by decide)⟩

/-- A tag as an E field. -/
def tagCode (t : Fin 64) : BitVec 8 := BitVec.ofNat 8 t.val

/-- The word number of SQGET: E above 63 is illegal (R471). -/
def word6Of (c : BitVec 8) : Except DecodeError (Fin 64) :=
  if h : c.toNat < 64 then .ok ⟨c.toNat, h⟩ else .error .badField

/-! ### MOD codes (R80 to R83 and the rule of each chapter) -/

/-- MOD must be `k`. -/
def modIs (k : Nat) (md : BitVec 4) : Except DecodeError Unit :=
  if md.toNat = k then .ok () else .error .badMod

/-- IADD, ISUB and IMUL: wrapping, .SAT, .USAT (R233). -/
def modSat3 (md : BitVec 4) : Except DecodeError SatMode :=
  match md.toNat with
  | 0 => .ok .wrap
  | 1 => .ok .sat
  | 2 => .ok .usat
  | _ => .error .badMod

/-- IADD, ISUB and IMUL: wrapping, .SAT, .USAT (R233). -/
def codeSat3 : SatMode → BitVec 4
  | .wrap => 0
  | .sat => 1
  | .usat => 2

/-- IMIN, IMAX and RDUX: signed or unsigned (R233, R245). -/
def modUns (md : BitVec 4) : Except DecodeError Bool :=
  match md.toNat with
  | 0 => .ok false
  | 1 => .ok true
  | _ => .error .badMod

/-- IMIN, IMAX and RDUX: signed or unsigned (R233, R245). -/
def codeUns : Bool → BitVec 4
  | false => 0
  | true => 1

/-- A single qualifier in bit 0. -/
def modFlag (md : BitVec 4) : Except DecodeError Bool :=
  match md.toNat with
  | 0 => .ok false
  | 1 => .ok true
  | _ => .error .badMod

/-- A single qualifier in bit 0. -/
def codeFlag : Bool → BitVec 4
  | false => 0
  | true => 1

/-- A single qualifier in bit 3, .TRAP of XSTAT (R308). -/
def modFlag8 (md : BitVec 4) : Except DecodeError Bool :=
  match md.toNat with
  | 0 => .ok false
  | 8 => .ok true
  | _ => .error .badMod

/-- A single qualifier in bit 3, .TRAP of XSTAT (R308). -/
def codeFlag8 : Bool → BitVec 4
  | false => 0
  | true => 8

/-- Rounding (R80). -/
def modRnd (md : BitVec 4) : Except DecodeError Round :=
  match md.toNat with
  | 0 => .ok .rn
  | 1 => .ok .rz
  | 2 => .ok .ru
  | 3 => .ok .rd
  | _ => .error .badMod

/-- Rounding (R80). -/
def codeRnd : Round → BitVec 4
  | .rn => 0
  | .rz => 1
  | .ru => 2
  | .rd => 3

/-- ISET and FSET: replace, and, or (R76, R238, R264). -/
def modMupd (md : BitVec 4) : Except DecodeError MaskUpd :=
  match md.toNat with
  | 0 => .ok .replace
  | 1 => .ok .and
  | 2 => .ok .or
  | _ => .error .badMod

/-- ISET and FSET: replace, and, or (R76, R238, R264). -/
def codeMupd : MaskUpd → BitVec 4
  | .replace => 0
  | .and => 1
  | .or => 2

/-- Type codes SCAN accepts (R83, R244). -/
def modScanTy (md : BitVec 4) : Except DecodeError ScanTy :=
  match md.toNat with
  | 0 => .ok .i32
  | 1 => .ok .u32
  | 2 => .ok .f32
  | _ => .error .badMod

/-- Type codes SCAN accepts (R83, R244). -/
def codeScanTy : ScanTy → BitVec 4
  | .i32 => 0
  | .u32 => 1
  | .f32 => 2

/-- Order and scope of an access (R81, R82). -/
def modOrder (md : BitVec 4) : Except DecodeError Order :=
  match md.toNat with
  | 0 => .ok .plain
  | 8 => .ok (.ordered .group)
  | 9 => .ok (.ordered .team)
  | 10 => .ok (.ordered .cluster)
  | 11 => .ok (.ordered .package)
  | 12 => .ok (.ordered .pod)
  | _ => .error .badMod

/-- Order and scope of an access (R81, R82). -/
def codeOrder : Order → BitVec 4
  | .plain => 0
  | (.ordered .group) => 8
  | (.ordered .team) => 9
  | (.ordered .cluster) => 10
  | (.ordered .package) => 11
  | (.ordered .pod) => 12

/-- The scope of FENCE, with the order bit set (R222). -/
def modFence (md : BitVec 4) : Except DecodeError Scope :=
  match md.toNat with
  | 8 => .ok .group
  | 9 => .ok .team
  | 10 => .ok .cluster
  | 11 => .ok .package
  | 12 => .ok .pod
  | _ => .error .badMod

/-- The scope of FENCE, with the order bit set (R222). -/
def codeFence : Scope → BitVec 4
  | .group => 8
  | .team => 9
  | .cluster => 10
  | .package => 11
  | .pod => 12

/-- A scope without the order bit (R81, R308). -/
def modScope (md : BitVec 4) : Except DecodeError Scope :=
  match md.toNat with
  | 0 => .ok .group
  | 1 => .ok .team
  | 2 => .ok .cluster
  | 3 => .ok .package
  | 4 => .ok .pod
  | _ => .error .badMod

/-- A scope without the order bit (R81, R308). -/
def codeScope : Scope → BitVec 4
  | .group => 0
  | .team => 1
  | .cluster => 2
  | .package => 3
  | .pod => 4

/-- Roles of MFMT (R326). -/
def modRole (md : BitVec 4) : Except DecodeError FmtRole :=
  match md.toNat with
  | 0 => .ok .a
  | 1 => .ok .aacc
  | 2 => .ok .b
  | _ => .error .badMod

/-- Roles of MFMT (R326). -/
def codeRole : FmtRole → BitVec 4
  | .a => 0
  | .aacc => 1
  | .b => 2

/-- Modes ACCZ sets (R349). -/
def modTmode (md : BitVec 4) : Except DecodeError TileMode :=
  match md.toNat with
  | 0 => .ok .f32
  | 1 => .ok .x2
  | 2 => .ok .i32
  | _ => .error .badMod

/-- Modes ACCZ sets (R349). -/
def codeTmode : TileMode → BitVec 4
  | .f32 => 0
  | .x2 => 1
  | .i32 => 2

/-- Delivery modes of NSEND (R497). -/
def modNet (md : BitVec 4) : Except DecodeError NetMode :=
  match md.toNat with
  | 0 => .ok .rud
  | 1 => .ok .rod
  | 2 => .ok .uud
  | 3 => .ok .ord
  | _ => .error .badMod

/-- Delivery modes of NSEND (R497). -/
def codeNet : NetMode → BitVec 4
  | .rud => 0
  | .rod => 1
  | .uud => 2
  | .ord => 3

/-- Operations of NRED (R497). -/
def modNred (md : BitVec 4) : Except DecodeError NredOp :=
  match md.toNat with
  | 0 => .ok .addI32
  | 1 => .ok .addF32
  | 2 => .ok .addBf16
  | 3 => .ok .maxF32
  | 4 => .ok .minF32
  | _ => .error .badMod

/-- Operations of NRED (R497). -/
def codeNred : NredOp → BitVec 4
  | .addI32 => 0
  | .addF32 => 1
  | .addBf16 => 2
  | .maxF32 => 3
  | .minF32 => 4

/-- Scale format of DQ4, bits 3:2 (R272). -/
def modDq4 (md : BitVec 4) : Except DecodeError ScaleFmt :=
  match md.toNat with
  | 0 => .ok .f32
  | 4 => .ok .e5
  | 8 => .ok .e4
  | _ => .error .badMod

/-- Scale format of DQ4, bits 3:2 (R272). -/
def codeDq4 : ScaleFmt → BitVec 4
  | .f32 => 0
  | .e5 => 4
  | .e4 => 8

/-- CVTFI and CVTIF: unsigned bit 2, rounding bits 1:0 (R268). -/
def modUrnd (md : BitVec 4) : Except DecodeError (Bool × Round) :=
  match md.toNat with
  | 0 => .ok (false, .rn)
  | 1 => .ok (false, .rz)
  | 2 => .ok (false, .ru)
  | 3 => .ok (false, .rd)
  | 4 => .ok (true, .rn)
  | 5 => .ok (true, .rz)
  | 6 => .ok (true, .ru)
  | 7 => .ok (true, .rd)
  | _ => .error .badMod

/-- CVTFI and CVTIF: unsigned bit 2, rounding bits 1:0 (R268). -/
def codeUrnd : Bool → Round → BitVec 4
  | false, .rn => 0
  | false, .rz => 1
  | false, .ru => 2
  | false, .rd => 3
  | true, .rn => 4
  | true, .rz => 5
  | true, .ru => 6
  | true, .rd => 7

/-- CVTN8: byte, .NAN, .E5 (R268). -/
def modCvtn8 (md : BitVec 4) : Except DecodeError (Fin 4 × Bool × Bool) :=
  match md.toNat with
  | 0 => .ok (0, false, false)
  | 1 => .ok (0, false, true)
  | 2 => .ok (0, true, false)
  | 3 => .ok (0, true, true)
  | 4 => .ok (1, false, false)
  | 5 => .ok (1, false, true)
  | 6 => .ok (1, true, false)
  | 7 => .ok (1, true, true)
  | 8 => .ok (2, false, false)
  | 9 => .ok (2, false, true)
  | 10 => .ok (2, true, false)
  | 11 => .ok (2, true, true)
  | 12 => .ok (3, false, false)
  | 13 => .ok (3, false, true)
  | 14 => .ok (3, true, false)
  | _ => .ok (3, true, true)

/-- CVTN8: byte, .NAN, .E5 (R268). -/
def codeCvtn8 : Fin 4 → Bool → Bool → BitVec 4
  | 0, false, false => 0
  | 0, false, true => 1
  | 0, true, false => 2
  | 0, true, true => 3
  | 1, false, false => 4
  | 1, false, true => 5
  | 1, true, false => 6
  | 1, true, true => 7
  | 2, false, false => 8
  | 2, false, true => 9
  | 2, true, false => 10
  | 2, true, true => 11
  | 3, false, false => 12
  | 3, false, true => 13
  | 3, true, false => 14
  | 3, true, true => 15

/-- CVTF8: byte, .E5 (R268). -/
def modCvtf8 (md : BitVec 4) : Except DecodeError (Fin 4 × Bool) :=
  match md.toNat with
  | 0 => .ok (0, false)
  | 1 => .ok (0, true)
  | 4 => .ok (1, false)
  | 5 => .ok (1, true)
  | 8 => .ok (2, false)
  | 9 => .ok (2, true)
  | 12 => .ok (3, false)
  | 13 => .ok (3, true)
  | _ => .error .badMod

/-- CVTF8: byte, .E5 (R268). -/
def codeCvtf8 : Fin 4 → Bool → BitVec 4
  | 0, false => 0
  | 0, true => 1
  | 1, false => 4
  | 1, true => 5
  | 2, false => 8
  | 2, true => 9
  | 3, false => 12
  | 3, true => 13

/-- QNT4: scale format bits 3:2, .BSV bit 0 (R272). -/
def modQnt4 (md : BitVec 4) : Except DecodeError (ScaleFmt × Bool) :=
  match md.toNat with
  | 0 => .ok (.f32, false)
  | 1 => .ok (.f32, true)
  | 4 => .ok (.e5, false)
  | 5 => .ok (.e5, true)
  | 8 => .ok (.e4, false)
  | 9 => .ok (.e4, true)
  | _ => .error .badMod

/-- QNT4: scale format bits 3:2, .BSV bit 0 (R272). -/
def codeQnt4 : ScaleFmt → Bool → BitVec 4
  | .f32, false => 0
  | .f32, true => 1
  | .e5, false => 4
  | .e5, true => 5
  | .e4, false => 8
  | .e4, true => 9

/-- SCALE: block format bits 1:0, tensor format bits 3:2 (R272). -/
def modScale (md : BitVec 4) : Except DecodeError (ScaleFmt × TScaleFmt) :=
  match md.toNat with
  | 0 => .ok (.f32, .f32)
  | 1 => .ok (.e5, .f32)
  | 2 => .ok (.e4, .f32)
  | 4 => .ok (.f32, .bf16)
  | 5 => .ok (.e5, .bf16)
  | 6 => .ok (.e4, .bf16)
  | 8 => .ok (.f32, .none)
  | 9 => .ok (.e5, .none)
  | 10 => .ok (.e4, .none)
  | _ => .error .badMod

/-- SCALE: block format bits 1:0, tensor format bits 3:2 (R272). -/
def codeScale : ScaleFmt → TScaleFmt → BitVec 4
  | .f32, .f32 => 0
  | .e5, .f32 => 1
  | .e4, .f32 => 2
  | .f32, .bf16 => 4
  | .e5, .bf16 => 5
  | .e4, .bf16 => 6
  | .f32, .none => 8
  | .e5, .none => 9
  | .e4, .none => 10

/-- RNGX: count bits 1:0, .FRAC bit 2 (R281). -/
def modRngx (md : BitVec 4) : Except DecodeError (RngCount × Bool) :=
  match md.toNat with
  | 0 => .ok (.x1, false)
  | 1 => .ok (.x2, false)
  | 2 => .ok (.x4, false)
  | 4 => .ok (.x1, true)
  | 5 => .ok (.x2, true)
  | 6 => .ok (.x4, true)
  | _ => .error .badMod

/-- RNGX: count bits 1:0, .FRAC bit 2 (R281). -/
def codeRngx : RngCount → Bool → BitVec 4
  | .x1, false => 0
  | .x2, false => 1
  | .x4, false => 2
  | .x1, true => 4
  | .x2, true => 5
  | .x4, true => 6

/-- TWAITA and TWAITL: .TRAP bit 3, scope bits 2:0 (R308). -/
def modTscope (md : BitVec 4) : Except DecodeError (Bool × Scope) :=
  match md.toNat with
  | 0 => .ok (false, .group)
  | 1 => .ok (false, .team)
  | 2 => .ok (false, .cluster)
  | 3 => .ok (false, .package)
  | 4 => .ok (false, .pod)
  | 8 => .ok (true, .group)
  | 9 => .ok (true, .team)
  | 10 => .ok (true, .cluster)
  | 11 => .ok (true, .package)
  | 12 => .ok (true, .pod)
  | _ => .error .badMod

/-- TWAITA and TWAITL: .TRAP bit 3, scope bits 2:0 (R308). -/
def codeTscope : Bool → Scope → BitVec 4
  | false, .group => 0
  | false, .team => 1
  | false, .cluster => 2
  | false, .package => 3
  | false, .pod => 4
  | true, .group => 8
  | true, .team => 9
  | true, .cluster => 10
  | true, .package => 11
  | true, .pod => 12

/-- MHAD: block size bits 1:0, scale bits 3:2 (R351). -/
def modMhad (md : BitVec 4) : Except DecodeError (HadP × HadScale) :=
  match md.toNat with
  | 0 => .ok (.p16, .s1)
  | 1 => .ok (.p32, .s1)
  | 2 => .ok (.p64, .s1)
  | 4 => .ok (.p16, .s4)
  | 5 => .ok (.p32, .s4)
  | 6 => .ok (.p64, .s4)
  | 8 => .ok (.p16, .s8)
  | 9 => .ok (.p32, .s8)
  | 10 => .ok (.p64, .s8)
  | _ => .error .badMod

/-- MHAD: block size bits 1:0, scale bits 3:2 (R351). -/
def codeMhad : HadP → HadScale → BitVec 4
  | .p16, .s1 => 0
  | .p32, .s1 => 1
  | .p64, .s1 => 2
  | .p16, .s4 => 4
  | .p32, .s4 => 5
  | .p64, .s4 => 6
  | .p16, .s8 => 8
  | .p32, .s8 => 9
  | .p64, .s8 => 10

/-- NPUT: .REP bit 2, delivery mode bits 1:0 (R497). -/
def modNetrep (md : BitVec 4) : Except DecodeError (Bool × NetMode) :=
  match md.toNat with
  | 0 => .ok (false, .rud)
  | 1 => .ok (false, .rod)
  | 2 => .ok (false, .uud)
  | 3 => .ok (false, .ord)
  | 4 => .ok (true, .rud)
  | 5 => .ok (true, .rod)
  | 6 => .ok (true, .uud)
  | 7 => .ok (true, .ord)
  | _ => .error .badMod

/-- NPUT: .REP bit 2, delivery mode bits 1:0 (R497). -/
def codeNetrep : Bool → NetMode → BitVec 4
  | false, .rud => 0
  | false, .rod => 1
  | false, .uud => 2
  | false, .ord => 3
  | true, .rud => 4
  | true, .rod => 5
  | true, .uud => 6
  | true, .ord => 7

/-- BINIT: UNIT bit 0, SCOPE bit 1 (R141). -/
def modBinit (md : BitVec 4) : Except DecodeError (Bool × Bool) :=
  match md.toNat with
  | 0 => .ok (false, false)
  | 1 => .ok (true, false)
  | 2 => .ok (false, true)
  | 3 => .ok (true, true)
  | _ => .error .badMod

/-- BINIT: UNIT bit 0, SCOPE bit 1 (R141). -/
def codeBinit : Bool → Bool → BitVec 4
  | false, false => 0
  | true, false => 1
  | false, true => 2
  | true, true => 3

/-! ### Sub-operations that FN selects (R76) -/

/-- ISET conditions (R238). -/
def ICond.ofCode (fn : BitVec 6) : Except DecodeError ICond :=
  match fn.toNat with
  | 0 => .ok .eq
  | 1 => .ok .ne
  | 2 => .ok .lt
  | 3 => .ok .le
  | 4 => .ok .gt
  | 5 => .ok .ge
  | 6 => .ok .ltu
  | 7 => .ok .leu
  | 8 => .ok .gtu
  | 9 => .ok .geu
  | _ => .error .unassignedFn

/-- ISET conditions (R238). -/
def ICond.code : ICond → BitVec 6
  | .eq => 0
  | .ne => 1
  | .lt => 2
  | .le => 3
  | .gt => 4
  | .ge => 5
  | .ltu => 6
  | .leu => 7
  | .gtu => 8
  | .geu => 9

/-- FSET conditions (R264). -/
def FCond.ofCode (fn : BitVec 6) : Except DecodeError FCond :=
  match fn.toNat with
  | 0 => .ok .eq
  | 1 => .ok .ne
  | 2 => .ok .lt
  | 3 => .ok .le
  | 4 => .ok .gt
  | 5 => .ok .ge
  | 6 => .ok .ord
  | 7 => .ok .uno
  | 8 => .ok .equ
  | 9 => .ok .neu
  | 10 => .ok .ltu
  | 11 => .ok .leu
  | 12 => .ok .gtu
  | 13 => .ok .geu
  | _ => .error .unassignedFn

/-- FSET conditions (R264). -/
def FCond.code : FCond → BitVec 6
  | .eq => 0
  | .ne => 1
  | .lt => 2
  | .le => 3
  | .gt => 4
  | .ge => 5
  | .ord => 6
  | .uno => 7
  | .equ => 8
  | .neu => 9
  | .ltu => 10
  | .leu => 11
  | .gtu => 12
  | .geu => 13

/-- LXCH forms (R241). -/
def LxchOp.ofCode (fn : BitVec 6) : Except DecodeError LxchOp :=
  match fn.toNat with
  | 0 => .ok .at
  | 1 => .ok .back
  | 2 => .ok .ahead
  | 3 => .ok .flip
  | _ => .error .unassignedFn

/-- LXCH forms (R241). -/
def LxchOp.code : LxchOp → BitVec 6
  | .at => 0
  | .back => 1
  | .ahead => 2
  | .flip => 3

/-- LPRED forms (R242). -/
def LpredOp.ofCode (fn : BitVec 6) : Except DecodeError LpredOp :=
  match fn.toNat with
  | 0 => .ok .some
  | 1 => .ok .every
  | 2 => .ok .bits
  | 3 => .ok .same
  | 4 => .ok .count
  | _ => .error .unassignedFn

/-- LPRED forms (R242). -/
def LpredOp.code : LpredOp → BitVec 6
  | .some => 0
  | .every => 1
  | .bits => 2
  | .same => 3
  | .count => 4

/-- SCAN operations (R244). -/
def ScanOp.ofCode (fn : BitVec 6) : Except DecodeError ScanOp :=
  match fn.toNat with
  | 0 => .ok .add
  | 1 => .ok .addx
  | 2 => .ok .max
  | 3 => .ok .min
  | 4 => .ok .or
  | _ => .error .unassignedFn

/-- SCAN operations (R244). -/
def ScanOp.code : ScanOp → BitVec 6
  | .add => 0
  | .addx => 1
  | .max => 2
  | .min => 3
  | .or => 4

/-- RDUX operations (R245). -/
def RduxOp.ofCode (fn : BitVec 6) : Except DecodeError RduxOp :=
  match fn.toNat with
  | 0 => .ok .add
  | 1 => .ok .max
  | 2 => .ok .min
  | 3 => .ok .and
  | 4 => .ok .or
  | 5 => .ok .xor
  | 6 => .ok .fadd
  | 7 => .ok .fmax
  | _ => .error .unassignedFn

/-- RDUX operations (R245). -/
def RduxOp.code : RduxOp → BitVec 6
  | .add => 0
  | .max => 1
  | .min => 2
  | .and => 3
  | .or => 4
  | .xor => 5
  | .fadd => 6
  | .fmax => 7

/-- LD and LDU sizes (R215). -/
def LdSize.ofCode (fn : BitVec 6) : Except DecodeError LdSize :=
  match fn.toNat with
  | 0 => .ok .b
  | 1 => .ok .bs
  | 2 => .ok .h
  | 3 => .ok .hs
  | 4 => .ok .w
  | 5 => .ok .d
  | 6 => .ok .q
  | _ => .error .unassignedFn

/-- LD and LDU sizes (R215). -/
def LdSize.code : LdSize → BitVec 6
  | .b => 0
  | .bs => 1
  | .h => 2
  | .hs => 3
  | .w => 4
  | .d => 5
  | .q => 6

/-- ST sizes (R219). -/
def StSize.ofCode (fn : BitVec 6) : Except DecodeError StSize :=
  match fn.toNat with
  | 0 => .ok .b
  | 1 => .ok .h
  | 2 => .ok .w
  | 3 => .ok .d
  | 4 => .ok .q
  | _ => .error .unassignedFn

/-- ST sizes (R219). -/
def StSize.code : StSize → BitVec 6
  | .b => 0
  | .h => 1
  | .w => 2
  | .d => 3
  | .q => 4

/-- ATOM operations (R220). -/
def AtomOp.ofCode (fn : BitVec 6) : Except DecodeError AtomOp :=
  match fn.toNat with
  | 0 => .ok .add
  | 1 => .ok .min
  | 2 => .ok .max
  | 3 => .ok .minu
  | 4 => .ok .maxu
  | 5 => .ok .and
  | 6 => .ok .or
  | 7 => .ok .xor
  | 8 => .ok .exch
  | 9 => .ok .cas
  | _ => .error .unassignedFn

/-- ATOM operations (R220). -/
def AtomOp.code : AtomOp → BitVec 6
  | .add => 0
  | .min => 1
  | .max => 2
  | .minu => 3
  | .maxu => 4
  | .and => 5
  | .or => 6
  | .xor => 7
  | .exch => 8
  | .cas => 9

/-- RED operations (R221). -/
def RedOp.ofCode (fn : BitVec 6) : Except DecodeError RedOp :=
  match fn.toNat with
  | 0 => .ok .addI32
  | 1 => .ok .addF32
  | 2 => .ok .addBf16
  | 3 => .ok .addN8e4
  | 4 => .ok .addN8e5
  | 5 => .ok .minF32
  | 6 => .ok .maxF32
  | _ => .error .unassignedFn

/-- RED operations (R221). -/
def RedOp.code : RedOp → BitVec 6
  | .addI32 => 0
  | .addF32 => 1
  | .addBf16 => 2
  | .addN8e4 => 3
  | .addN8e5 => 4
  | .minF32 => 5
  | .maxF32 => 6

/-! ### XFER and XMCAST operands (R296, R306) -/

/-- XFER completion scopes, MOD bits 3:2 (R296). -/
def XScope.ofCode (c : Nat) : Except DecodeError XScope :=
  match c with
  | 0 => .ok .team
  | 1 => .ok .cluster
  | 2 => .ok .package
  | _ => .error .badMod

/-- XFER completion scopes (R296). -/
def XScope.code : XScope → BitVec 2
  | .team => 0
  | .cluster => 1
  | .package => 2

/-- The operands of XFER and XMCAST; FILL's B field is reserved (R296). -/
def xargsOf (fill : Bool) (f : Fields) : Except DecodeError XArgs := do
  let sc ← XScope.ofCode (f.md.toNat / 4)
  let recp ← pairOf f.a
  let src ← if fill then pure 0 else pairOf f.b
  let dst ← pairOf f.c
  pure { sacc := f.md.getLsbD 0, wbuf := f.md.getLsbD 1, scope := sc, bar := Reg.ofCode f.d,
         recp := recp, src := src, dst := dst, tag := tagOf f.e }

/-- The fields of an XFER or XMCAST word (R296, R306). -/
def XArgs.fields (x : XArgs) (g : Guard) (op : BitVec 7) (fn : BitVec 6) : Fields :=
  .mk op x.bar.code (pairCode x.recp) (pairCode x.src) (pairCode x.dst) (tagCode x.tag) fn
    (x.scope.code ++ BitVec.ofBool x.wbuf ++ BitVec.ofBool x.sacc) g.hold.code g.pmCode g.pnCode

/-! ### Pair words (R72 to R75) -/

/-- Pairable opcodes 0x00 to 0x0F (R76). -/
def PairOp.ofCode (c : BitVec 7) : Except DecodeError PairOp :=
  match c.toNat with
  | 0 => .ok .mov
  | 1 => .ok .iadd
  | 2 => .ok .isub
  | 3 => .ok .and
  | 4 => .ok .or
  | 5 => .ok .xor
  | 6 => .ok .shl
  | 7 => .ok .shr
  | 8 => .ok .sar
  | 9 => .ok .imin
  | 10 => .ok .imax
  | 11 => .ok .imul
  | 12 => .ok .fadd
  | 13 => .ok .fmul
  | 14 => .ok .fmin
  | 15 => .ok .fmax
  | _ => .error .badPair

/-- Pairable opcodes (R76). -/
def PairOp.code : PairOp → BitVec 7
  | .mov => 0
  | .iadd => 1
  | .isub => 2
  | .and => 3
  | .or => 4
  | .xor => 5
  | .shl => 6
  | .shr => 7
  | .sar => 8
  | .imin => 9
  | .imax => 10
  | .imul => 11
  | .fadd => 12
  | .fmul => 13
  | .fmin => 14
  | .fmax => 15

/-- One slot of 31 bits; D must lie in 0x00 to 0xDF (R72, R75). -/
def Slot.ofBits (w : BitVec 31) : Except DecodeError Slot := do
  let op ← PairOp.ofCode (w.extractLsb' 24 7)
  let d := Reg.ofCode (w.extractLsb' 15 8)
  if (w.extractLsb' 15 8).toNat ≤ 0xDF then
    pure { op := op, d := d,
           src := if w.getLsbD 23 then .imm (w.extractLsb' 0 15) else .reg (Reg.ofCode (w.extractLsb' 7 8)) }
  else .error .badPair

/-- The 31 bits of a slot (R72). -/
def Slot.bits (p : Slot) : BitVec 31 :=
  match p.src with
  | .reg a => p.op.code ++ 0#1 ++ p.d.code ++ a.code ++ 0#7
  | .imm i => p.op.code ++ 1#1 ++ p.d.code ++ i

/-- A pair word: slot 0 in bits 62:32, slot 1 in bits 30:0, bit 31 reserved (R72). -/
def pairDecode (w : DWord) : Except DecodeError Instr := do
  let p ← Slot.ofBits (w.extractLsb' 32 31)
  let q ← Slot.ofBits (w.extractLsb' 0 31)
  pure (.pairWord p q)

/-! ### Full words, one definition a major opcode (R76) -/

/-- Words of major opcode 0x00 (R76). -/
def decode00 (f : Fields) : Except DecodeError Instr :=
  match f.fn.toNat with
  | 0 => do let _ ← modIs 0 f.md; pure (.mov (Reg.ofCode f.d) (Reg.ofCode f.a) f.guard)
  | 1 => do let _ ← modIs 0 f.md; pure (.movImm (Reg.ofCode f.d) f.imm24 f.guard)
  | _ => .error .unassignedFn

/-- Words of major opcode 0x01 (R76). -/
def decode01 (f : Fields) : Except DecodeError Instr :=
  match f.fn.toNat with
  | 0 => do let m ← modSat3 f.md; pure (.iadd m (Reg.ofCode f.d) (Reg.ofCode f.a) (Reg.ofCode f.b) f.guard)
  | 1 => do let m ← modSat3 f.md; pure (.iaddImm m (Reg.ofCode f.d) (Reg.ofCode f.a) f.imm24 f.guard)
  | _ => .error .unassignedFn

/-- Words of major opcode 0x02 (R76). -/
def decode02 (f : Fields) : Except DecodeError Instr :=
  match f.fn.toNat with
  | 0 => do let m ← modSat3 f.md; pure (.isub m (Reg.ofCode f.d) (Reg.ofCode f.a) (Reg.ofCode f.b) f.guard)
  | 1 => do let m ← modSat3 f.md; pure (.isubImm m (Reg.ofCode f.d) (Reg.ofCode f.a) f.imm24 f.guard)
  | _ => .error .unassignedFn

/-- Words of major opcode 0x03 (R76). -/
def decode03 (f : Fields) : Except DecodeError Instr :=
  match f.fn.toNat with
  | 0 => do let _ ← modIs 0 f.md; pure (.iand (Reg.ofCode f.d) (Reg.ofCode f.a) (Reg.ofCode f.b) f.guard)
  | 1 => do let _ ← modIs 0 f.md; pure (.iandImm (Reg.ofCode f.d) (Reg.ofCode f.a) f.imm24 f.guard)
  | _ => .error .unassignedFn

/-- Words of major opcode 0x04 (R76). -/
def decode04 (f : Fields) : Except DecodeError Instr :=
  match f.fn.toNat with
  | 0 => do let _ ← modIs 0 f.md; pure (.ior (Reg.ofCode f.d) (Reg.ofCode f.a) (Reg.ofCode f.b) f.guard)
  | 1 => do let _ ← modIs 0 f.md; pure (.iorImm (Reg.ofCode f.d) (Reg.ofCode f.a) f.imm24 f.guard)
  | _ => .error .unassignedFn

/-- Words of major opcode 0x05 (R76). -/
def decode05 (f : Fields) : Except DecodeError Instr :=
  match f.fn.toNat with
  | 0 => do let _ ← modIs 0 f.md; pure (.ixor (Reg.ofCode f.d) (Reg.ofCode f.a) (Reg.ofCode f.b) f.guard)
  | 1 => do let _ ← modIs 0 f.md; pure (.ixorImm (Reg.ofCode f.d) (Reg.ofCode f.a) f.imm24 f.guard)
  | _ => .error .unassignedFn

/-- Words of major opcode 0x06 (R76). -/
def decode06 (f : Fields) : Except DecodeError Instr :=
  match f.fn.toNat with
  | 0 => do let _ ← modIs 0 f.md; pure (.shl (Reg.ofCode f.d) (Reg.ofCode f.a) (Reg.ofCode f.b) f.guard)
  | 1 => do let _ ← modIs 0 f.md; pure (.shlImm (Reg.ofCode f.d) (Reg.ofCode f.a) f.imm24 f.guard)
  | _ => .error .unassignedFn

/-- Words of major opcode 0x07 (R76). -/
def decode07 (f : Fields) : Except DecodeError Instr :=
  match f.fn.toNat with
  | 0 => do let _ ← modIs 0 f.md; pure (.shr (Reg.ofCode f.d) (Reg.ofCode f.a) (Reg.ofCode f.b) f.guard)
  | 1 => do let _ ← modIs 0 f.md; pure (.shrImm (Reg.ofCode f.d) (Reg.ofCode f.a) f.imm24 f.guard)
  | _ => .error .unassignedFn

/-- Words of major opcode 0x08 (R76). -/
def decode08 (f : Fields) : Except DecodeError Instr :=
  match f.fn.toNat with
  | 0 => do let _ ← modIs 0 f.md; pure (.sar (Reg.ofCode f.d) (Reg.ofCode f.a) (Reg.ofCode f.b) f.guard)
  | 1 => do let _ ← modIs 0 f.md; pure (.sarImm (Reg.ofCode f.d) (Reg.ofCode f.a) f.imm24 f.guard)
  | _ => .error .unassignedFn

/-- Words of major opcode 0x09 (R76). -/
def decode09 (f : Fields) : Except DecodeError Instr :=
  match f.fn.toNat with
  | 0 => do let u ← modUns f.md; pure (.imin u (Reg.ofCode f.d) (Reg.ofCode f.a) (Reg.ofCode f.b) f.guard)
  | 1 => do let u ← modUns f.md; pure (.iminImm u (Reg.ofCode f.d) (Reg.ofCode f.a) f.imm24 f.guard)
  | _ => .error .unassignedFn

/-- Words of major opcode 0x0A (R76). -/
def decode0A (f : Fields) : Except DecodeError Instr :=
  match f.fn.toNat with
  | 0 => do let u ← modUns f.md; pure (.imax u (Reg.ofCode f.d) (Reg.ofCode f.a) (Reg.ofCode f.b) f.guard)
  | 1 => do let u ← modUns f.md; pure (.imaxImm u (Reg.ofCode f.d) (Reg.ofCode f.a) f.imm24 f.guard)
  | _ => .error .unassignedFn

/-- Words of major opcode 0x0B (R76). -/
def decode0B (f : Fields) : Except DecodeError Instr :=
  match f.fn.toNat with
  | 0 => do let m ← modSat3 f.md; pure (.imul m (Reg.ofCode f.d) (Reg.ofCode f.a) (Reg.ofCode f.b) f.guard)
  | 1 => do let m ← modSat3 f.md; pure (.imulImm m (Reg.ofCode f.d) (Reg.ofCode f.a) f.imm24 f.guard)
  | _ => .error .unassignedFn

/-- Words of major opcode 0x0C (R76). -/
def decode0C (f : Fields) : Except DecodeError Instr :=
  match f.fn.toNat with
  | 0 => do let r ← modRnd f.md; pure (.fadd r (Reg.ofCode f.d) (Reg.ofCode f.a) (Reg.ofCode f.b) f.guard)
  | 1 => do let r ← modRnd f.md; pure (.faddImm r (Reg.ofCode f.d) (Reg.ofCode f.a) f.imm24 f.guard)
  | _ => .error .unassignedFn

/-- Words of major opcode 0x0D (R76). -/
def decode0D (f : Fields) : Except DecodeError Instr :=
  match f.fn.toNat with
  | 0 => do let r ← modRnd f.md; pure (.fmul r (Reg.ofCode f.d) (Reg.ofCode f.a) (Reg.ofCode f.b) f.guard)
  | 1 => do let r ← modRnd f.md; pure (.fmulImm r (Reg.ofCode f.d) (Reg.ofCode f.a) f.imm24 f.guard)
  | _ => .error .unassignedFn

/-- Words of major opcode 0x0E (R76). -/
def decode0E (f : Fields) : Except DecodeError Instr :=
  match f.fn.toNat with
  | 0 => do let _ ← modIs 0 f.md; pure (.fmin (Reg.ofCode f.d) (Reg.ofCode f.a) (Reg.ofCode f.b) f.guard)
  | 1 => do let _ ← modIs 0 f.md; pure (.fminImm (Reg.ofCode f.d) (Reg.ofCode f.a) f.imm24 f.guard)
  | _ => .error .unassignedFn

/-- Words of major opcode 0x0F (R76). -/
def decode0F (f : Fields) : Except DecodeError Instr :=
  match f.fn.toNat with
  | 0 => do let _ ← modIs 0 f.md; pure (.fmax (Reg.ofCode f.d) (Reg.ofCode f.a) (Reg.ofCode f.b) f.guard)
  | 1 => do let _ ← modIs 0 f.md; pure (.fmaxImm (Reg.ofCode f.d) (Reg.ofCode f.a) f.imm24 f.guard)
  | _ => .error .unassignedFn

/-- Words of major opcode 0x10 (R76). -/
def decode10 (f : Fields) : Except DecodeError Instr :=
  match f.fn.toNat with
  | 0 => do let _ ← modIs 0 f.md; pure (.andn (Reg.ofCode f.d) (Reg.ofCode f.a) (Reg.ofCode f.b) f.guard)
  | 1 => do let _ ← modIs 0 f.md; pure (.inot (Reg.ofCode f.d) (Reg.ofCode f.a) f.guard)
  | 2 => do let _ ← modIs 0 f.md; pure (.rotl (Reg.ofCode f.d) (Reg.ofCode f.a) (Reg.ofCode f.b) f.guard)
  | 3 => do let left ← modFlag f.md; pure (.shf left (Reg.ofCode f.d) (Reg.ofCode f.a) (Reg.ofCode f.b) (Reg.ofCode f.c) f.guard)
  | 4 => do let _ ← modIs 0 f.md; pure (.imulh (Reg.ofCode f.d) (Reg.ofCode f.a) (Reg.ofCode f.b) f.guard)
  | 5 => do let _ ← modIs 0 f.md; pure (.imulhu (Reg.ofCode f.d) (Reg.ofCode f.a) (Reg.ofCode f.b) f.guard)
  | 6 => do let sat ← modFlag f.md; pure (.imad sat (Reg.ofCode f.d) (Reg.ofCode f.a) (Reg.ofCode f.b) (Reg.ofCode f.c) f.guard)
  | 7 => do let sat ← modFlag f.md; pure (.iabs sat (Reg.ofCode f.d) (Reg.ofCode f.a) f.guard)
  | 8 => do let sat ← modFlag f.md; pure (.ineg sat (Reg.ofCode f.d) (Reg.ofCode f.a) f.guard)
  | 9 => do let _ ← modIs 0 f.md; pure (.sel (Reg.ofCode f.d) (Reg.ofCode f.a) (Reg.ofCode f.b) (Reg.ofCode f.c) f.guard)
  | 10 => do let _ ← modIs 0 f.md; pure (.bysel (Reg.ofCode f.d) (Reg.ofCode f.a) (Reg.ofCode f.b) (Reg.ofCode f.c) f.guard)
  | 11 => do let _ ← modIs 0 f.md; pure (.clz (Reg.ofCode f.d) (Reg.ofCode f.a) f.guard)
  | 12 => do let _ ← modIs 0 f.md; pure (.popc (Reg.ofCode f.d) (Reg.ofCode f.a) f.guard)
  | 13 => do let _ ← modIs 0 f.md; pure (.brev (Reg.ofCode f.d) (Reg.ofCode f.a) f.guard)
  | 14 => do let sg ← modFlag f.md; pure (.bfe sg (Reg.ofCode f.d) (Reg.ofCode f.a) (Reg.ofCode f.b) f.guard)
  | 15 => do let _ ← modIs 0 f.md; pure (.bfi (Reg.ofCode f.d) (Reg.ofCode f.a) (Reg.ofCode f.b) (Reg.ofCode f.c) f.guard)
  | _ => .error .unassignedFn

/-- Words of major opcode 0x11 (R76). -/
def decode11 (f : Fields) : Except DecodeError Instr :=
  match f.fn.toNat with
  | 0 => do let _ ← modIs 0 f.md; pure (.movw (Reg.ofCode f.d) f.imm32 f.guard)
  | 1 => do let _ ← modIs 0 f.md; pure (.movx (Reg.ofCode f.d) f.imm32 f.guard)
  | _ => .error .unassignedFn

/-- Words of major opcode 0x12 (R76). -/
def decode12 (f : Fields) : Except DecodeError Instr :=
  do let cond ← ICond.ofCode f.fn; let u ← modMupd f.md; let d ← maskOf f.d; pure (.iset cond u d (Reg.ofCode f.a) (Reg.ofCode f.b) f.guard)

/-- Words of major opcode 0x14 (R76). -/
def decode14 (f : Fields) : Except DecodeError Instr :=
  match f.fn.toNat with
  | 0 => do let _ ← modIs 0 f.md; let d ← maskOf f.d; let a ← maskOf f.a; let b ← maskOf f.b; pure (.mand d a b f.guard)
  | 1 => do let _ ← modIs 0 f.md; let d ← maskOf f.d; let a ← maskOf f.a; let b ← maskOf f.b; pure (.mor d a b f.guard)
  | 2 => do let _ ← modIs 0 f.md; let d ← maskOf f.d; let a ← maskOf f.a; let b ← maskOf f.b; pure (.mxor d a b f.guard)
  | 3 => do let _ ← modIs 0 f.md; let d ← maskOf f.d; let a ← maskOf f.a; pure (.mnot d a f.guard)
  | 4 => do let _ ← modIs 0 f.md; let d ← maskOf f.d; pure (.mmov d (Reg.ofCode f.a) f.guard)
  | 5 => do let _ ← modIs 0 f.md; let a ← maskOf f.a; pure (.mget (Reg.ofCode f.d) a f.guard)
  | 6 => do let _ ← modIs 0 f.md; let a ← maskOf f.a; pure (.mpop (Reg.ofCode f.d) a f.guard)
  | 7 => do let _ ← modIs 0 f.md; let a ← maskOf f.a; pure (.mffs (Reg.ofCode f.d) a f.guard)
  | _ => .error .unassignedFn

/-- Words of major opcode 0x15 (R76). -/
def decode15 (f : Fields) : Except DecodeError Instr :=
  match f.fn.toNat with
  | 0 => do let _ ← modIs 0 f.md; pure (.shape (Reg.ofCode f.d) (Reg.ofCode f.a) f.guard)
  | _ => .error .unassignedFn

/-- Words of major opcode 0x20 (R76). -/
def decode20 (f : Fields) : Except DecodeError Instr :=
  do let op ← LxchOp.ofCode f.fn; let _ ← modIs 0 f.md; pure (.lxch op (Reg.ofCode f.d) (Reg.ofCode f.a) (Reg.ofCode f.b) (Reg.ofCode f.c) f.guard)

/-- Words of major opcode 0x21 (R76). -/
def decode21 (f : Fields) : Except DecodeError Instr :=
  do let op ← LpredOp.ofCode f.fn; let inv ← modFlag f.md; pure (.lpred op inv (Reg.ofCode f.d) (Reg.ofCode f.a) f.guard)

/-- Words of major opcode 0x22 (R76). -/
def decode22 (f : Fields) : Except DecodeError Instr :=
  do let op ← ScanOp.ofCode f.fn; let ty ← modScanTy f.md; pure (.scan op ty (Reg.ofCode f.d) (Reg.ofCode f.a) f.guard)

/-- Words of major opcode 0x23 (R76). -/
def decode23 (f : Fields) : Except DecodeError Instr :=
  do let op ← RduxOp.ofCode f.fn; let u ← modUns f.md; pure (.rdux op u (Reg.ofCode f.d) (Reg.ofCode f.a) f.guard)

/-- Words of major opcode 0x24 (R76). -/
def decode24 (f : Fields) : Except DecodeError Instr :=
  match f.fn.toNat with
  | 0 => do let _ ← modIs 0 f.md; pure (.matchLanes (Reg.ofCode f.d) (Reg.ofCode f.a) f.guard)
  | _ => .error .unassignedFn

/-- Words of major opcode 0x30 (R76). -/
def decode30 (f : Fields) : Except DecodeError Instr :=
  match f.fn.toNat with
  | 0 => do let r ← modRnd f.md; pure (.fsub r (Reg.ofCode f.d) (Reg.ofCode f.a) (Reg.ofCode f.b) f.guard)
  | 1 => do let r ← modRnd f.md; pure (.ffma r (Reg.ofCode f.d) (Reg.ofCode f.a) (Reg.ofCode f.b) (Reg.ofCode f.c) f.guard)
  | 2 => do let _ ← modIs 0 f.md; pure (.fabs (Reg.ofCode f.d) (Reg.ofCode f.a) f.guard)
  | 3 => do let _ ← modIs 0 f.md; pure (.fneg (Reg.ofCode f.d) (Reg.ofCode f.a) f.guard)
  | 4 => do let _ ← modIs 0 f.md; pure (.fcps (Reg.ofCode f.d) (Reg.ofCode f.a) (Reg.ofCode f.b) f.guard)
  | 5 => do let r ← modRnd f.md; pure (.frnd r (Reg.ofCode f.d) (Reg.ofCode f.a) f.guard)
  | 6 => do let _ ← modIs 0 f.md; pure (.fclass (Reg.ofCode f.d) (Reg.ofCode f.a) f.guard)
  | _ => .error .unassignedFn

/-- Words of major opcode 0x31 (R76). -/
def decode31 (f : Fields) : Except DecodeError Instr :=
  do let cond ← FCond.ofCode f.fn; let u ← modMupd f.md; let d ← maskOf f.d; pure (.fset cond u d (Reg.ofCode f.a) (Reg.ofCode f.b) f.guard)

/-- Words of major opcode 0x32 (R76). -/
def decode32 (f : Fields) : Except DecodeError Instr :=
  match f.fn.toNat with
  | 0 => do let _ ← modIs 0 f.md; pure (.frcp (Reg.ofCode f.d) (Reg.ofCode f.a) f.guard)
  | 1 => do let _ ← modIs 0 f.md; pure (.frsq (Reg.ofCode f.d) (Reg.ofCode f.a) f.guard)
  | 2 => do let _ ← modIs 0 f.md; pure (.fsqrt (Reg.ofCode f.d) (Reg.ofCode f.a) f.guard)
  | 3 => do let _ ← modIs 0 f.md; pure (.fex2 (Reg.ofCode f.d) (Reg.ofCode f.a) f.guard)
  | 4 => do let _ ← modIs 0 f.md; pure (.flg2 (Reg.ofCode f.d) (Reg.ofCode f.a) f.guard)
  | 5 => do let _ ← modIs 0 f.md; pure (.ftanh (Reg.ofCode f.d) (Reg.ofCode f.a) f.guard)
  | 6 => do let _ ← modIs 0 f.md; pure (.fsin (Reg.ofCode f.d) (Reg.ofCode f.a) f.guard)
  | 7 => do let _ ← modIs 0 f.md; pure (.fcos (Reg.ofCode f.d) (Reg.ofCode f.a) f.guard)
  | _ => .error .unassignedFn

/-- Words of major opcode 0x33 (R76). -/
def decode33 (f : Fields) : Except DecodeError Instr :=
  match f.fn.toNat with
  | 0 => do let r ← modRnd f.md; pure (.hadd2 r (Reg.ofCode f.d) (Reg.ofCode f.a) (Reg.ofCode f.b) f.guard)
  | 1 => do let r ← modRnd f.md; pure (.hmul2 r (Reg.ofCode f.d) (Reg.ofCode f.a) (Reg.ofCode f.b) f.guard)
  | 2 => do let r ← modRnd f.md; pure (.hfma2 r (Reg.ofCode f.d) (Reg.ofCode f.a) (Reg.ofCode f.b) (Reg.ofCode f.c) f.guard)
  | 3 => do let _ ← modIs 0 f.md; pure (.hmax2 (Reg.ofCode f.d) (Reg.ofCode f.a) (Reg.ofCode f.b) f.guard)
  | 4 => do let _ ← modIs 0 f.md; pure (.hmin2 (Reg.ofCode f.d) (Reg.ofCode f.a) (Reg.ofCode f.b) f.guard)
  | _ => .error .unassignedFn

/-- Words of major opcode 0x34 (R76). -/
def decode34 (f : Fields) : Except DecodeError Instr :=
  match f.fn.toNat with
  | 0 => do let (u, r) ← modUrnd f.md; pure (.cvtfi u r (Reg.ofCode f.d) (Reg.ofCode f.a) f.guard)
  | 1 => do let (u, r) ← modUrnd f.md; pure (.cvtif u r (Reg.ofCode f.d) (Reg.ofCode f.a) f.guard)
  | 2 => do let r ← modRnd f.md; pure (.cvtfh r (Reg.ofCode f.d) (Reg.ofCode f.a) (Reg.ofCode f.b) f.guard)
  | 3 => do let hi ← modFlag f.md; pure (.cvthf hi (Reg.ofCode f.d) (Reg.ofCode f.a) f.guard)
  | 4 => do let (byte, nan, e5) ← modCvtn8 f.md; pure (.cvtn8 byte nan e5 (Reg.ofCode f.d) (Reg.ofCode f.a) (Reg.ofCode f.b) f.guard)
  | 5 => do let (byte, e5) ← modCvtf8 f.md; pure (.cvtf8 byte e5 (Reg.ofCode f.d) (Reg.ofCode f.a) f.guard)
  | _ => .error .unassignedFn

/-- Words of major opcode 0x35 (R76). -/
def decode35 (f : Fields) : Except DecodeError Instr :=
  match f.fn.toNat with
  | 0 => do let (sf, bsv) ← modQnt4 f.md; let nib ← nibOf f.e; pure (.qnt4 sf bsv (Reg.ofCode f.d) (Reg.ofCode f.a) (Reg.ofCode f.b) (Reg.ofCode f.c) nib f.guard)
  | 1 => do let sf ← modDq4 f.md; let nib ← nibOf f.e; pure (.dq4 sf (Reg.ofCode f.d) (Reg.ofCode f.a) (Reg.ofCode f.b) (Reg.ofCode f.c) nib f.guard)
  | 2 => do let (bf, tf) ← modScale f.md; pure (.scale bf tf (Reg.ofCode f.d) (Reg.ofCode f.a) (Reg.ofCode f.b) (Reg.ofCode f.c) f.guard)
  | _ => .error .unassignedFn

/-- Words of major opcode 0x36 (R76). -/
def decode36 (f : Fields) : Except DecodeError Instr :=
  match f.fn.toNat with
  | 0 => do let _ ← modIs 0 f.md; pure (.selkLd (Reg.ofCode f.a) (Reg.ofCode f.b) (Reg.ofCode f.c) f.guard)
  | 1 => do let _ ← modIs 0 f.md; pure (.selkRun (Reg.ofCode f.a) (Reg.ofCode f.b) f.guard)
  | 2 => do let mask ← modFlag f.md; pure (.selkRd mask (Reg.ofCode f.d) (Reg.ofCode f.a) (Reg.ofCode f.b) (Reg.ofCode f.c) f.guard)
  | _ => .error .unassignedFn

/-- Words of major opcode 0x37 (R76). -/
def decode37 (f : Fields) : Except DecodeError Instr :=
  match f.fn.toNat with
  | 0 => do let (cnt, frac) ← modRngx f.md; let key ← pairOf f.b; pure (.rngx cnt frac (Reg.ofCode f.d) (Reg.ofCode f.a) key (Reg.ofCode f.c) f.e f.guard)
  | _ => .error .unassignedFn

/-- Words of major opcode 0x50 (R76). -/
def decode50 (f : Fields) : Except DecodeError Instr :=
  do let sz ← LdSize.ofCode f.fn; let ord ← modOrder f.md; pure (.ld sz ord (Reg.ofCode f.d) (Reg.ofCode f.a) (Reg.ofCode f.b) f.off16 f.guard)

/-- Words of major opcode 0x51 (R76). -/
def decode51 (f : Fields) : Except DecodeError Instr :=
  do let sz ← StSize.ofCode f.fn; let ord ← modOrder f.md; pure (.st sz ord (Reg.ofCode f.d) (Reg.ofCode f.a) (Reg.ofCode f.b) f.off16 f.guard)

/-- Words of major opcode 0x52 (R76). -/
def decode52 (f : Fields) : Except DecodeError Instr :=
  do let sz ← LdSize.ofCode f.fn; let ord ← modOrder f.md; pure (.ldu sz ord (Reg.ofCode f.d) (Reg.ofCode f.a) (Reg.ofCode f.b) f.off16 f.guard)

/-- Words of major opcode 0x53 (R76). -/
def decode53 (f : Fields) : Except DecodeError Instr :=
  do let op ← AtomOp.ofCode f.fn; let ord ← modOrder f.md; pure (.atom op ord (Reg.ofCode f.d) (Reg.ofCode f.a) (Reg.ofCode f.b) f.off16 f.guard)

/-- Words of major opcode 0x54 (R76). -/
def decode54 (f : Fields) : Except DecodeError Instr :=
  do let op ← RedOp.ofCode f.fn; let ord ← modOrder f.md; pure (.red op ord (Reg.ofCode f.d) (Reg.ofCode f.a) (Reg.ofCode f.b) f.off16 f.guard)

/-- Words of major opcode 0x55 (R76). -/
def decode55 (f : Fields) : Except DecodeError Instr :=
  match f.fn.toNat with
  | 0 => do let sc ← modFence f.md; pure (.fence sc f.guard)
  | _ => .error .unassignedFn

/-- Words of major opcode 0x56 (R76). -/
def decode56 (f : Fields) : Except DecodeError Instr :=
  match f.fn.toNat with
  | 0 => do let _ ← modIs 0 f.md; pure (.pref (Reg.ofCode f.a) (Reg.ofCode f.b) f.off16 f.guard)
  | _ => .error .unassignedFn

/-- Words of major opcode 0x58 (R76). -/
def decode58 (f : Fields) : Except DecodeError Instr :=
  match f.fn.toNat with
  | 0 => do let _ ← modIs 0 f.md; pure (.bra f.imm32 f.guard)
  | 1 => do let _ ← modIs 0 f.md; pure (.bru (Reg.ofCode f.d) f.imm32 f.guard)
  | 2 => do let _ ← modIs 0 f.md; let m ← maskOf f.d; pure (.brd m f.imm32 f.guard)
  | 3 => do let _ ← modIs 0 f.md; let p ← pairOf f.d; pure (.call p f.imm32 f.guard)
  | 4 => do let _ ← modIs 0 f.md; let p ← pairOf f.a; pure (.ret p f.guard)
  | 5 => do let _ ← modIs 0 f.md; let p ← pairOf f.a; pure (.brx p f.guard)
  | 6 => do let _ ← modIs 0 f.md; pure (.exit f.guard)
  | _ => .error .unassignedFn

/-- Words of major opcode 0x59 (R76). -/
def decode59 (f : Fields) : Except DecodeError Instr :=
  match f.fn.toNat with
  | 0 => do let (lane, cluster) ← modBinit f.md; pure (.binit lane cluster (Reg.ofCode f.a) (Reg.ofCode f.b) (Reg.ofCode f.c) f.guard)
  | 1 => do let _ ← modIs 0 f.md; pure (.bjoin (Reg.ofCode f.a) f.guard)
  | 2 => do let _ ← modIs 0 f.md; pure (.barv (Reg.ofCode f.d) (Reg.ofCode f.a) f.guard)
  | 3 => do let _ ← modIs 0 f.md; pure (.barx (Reg.ofCode f.d) (Reg.ofCode f.a) (Reg.ofCode f.b) f.guard)
  | 4 => do let _ ← modIs 0 f.md; pure (.bwait (Reg.ofCode f.a) (Reg.ofCode f.b) f.guard)
  | 5 => do let _ ← modIs 0 f.md; pure (.btest (Reg.ofCode f.d) (Reg.ofCode f.a) (Reg.ofCode f.b) f.guard)
  | 6 => do let _ ← modIs 0 f.md; pure (.bwaitt (Reg.ofCode f.d) (Reg.ofCode f.a) (Reg.ofCode f.b) (Reg.ofCode f.c) f.guard)
  | 7 => do let _ ← modIs 0 f.md; pure (.bleave (Reg.ofCode f.a) f.guard)
  | _ => .error .unassignedFn

/-- Words of major opcode 0x5A (R76). -/
def decode5A (f : Fields) : Except DecodeError Instr :=
  match f.fn.toNat with
  | 0 => do let _ ← modIs 0 f.md; pure (.tbar f.guard)
  | 1 => do let _ ← modIs 0 f.md; pure (.cbar f.guard)
  | 2 => do let _ ← modIs 0 f.md; pure (.sleep (Reg.ofCode f.a) f.guard)
  | 3 => do let _ ← modIs 0 f.md; pure (.yield f.guard)
  | _ => .error .unassignedFn

/-- Words of major opcode 0x5B (R76). -/
def decode5B (f : Fields) : Except DecodeError Instr :=
  match f.fn.toNat with
  | 0 => do let _ ← modIs 0 f.md; pure (.grow (Reg.ofCode f.d) f.e f.guard)
  | 1 => do let _ ← modIs 0 f.md; pure (.shrink f.e f.guard)
  | _ => .error .unassignedFn

/-- Words of major opcode 0x5C (R76). -/
def decode5C (f : Fields) : Except DecodeError Instr :=
  match f.fn.toNat with
  | 0 => do let _ ← modIs 0 f.md; let p ← pairOf f.a; pure (.fork p f.guard)
  | 1 => do let _ ← modIs 0 f.md; pure (.joinw (Reg.ofCode f.d) f.guard)
  | 2 => do let _ ← modIs 0 f.md; pure (.spawn (Reg.ofCode f.d) (Reg.ofCode f.a) (Reg.ofCode f.b) f.guard)
  | _ => .error .unassignedFn

/-- Words of major opcode 0x60 (R76). -/
def decode60 (f : Fields) : Except DecodeError Instr :=
  match f.fn.toNat with
  | 0 => do let x ← xargsOf false f; pure (.xferCopy x f.guard)
  | 1 => do let x ← xargsOf false f; pure (.xferTranspose x f.guard)
  | 2 => do let x ← xargsOf false f; pure (.xferRepack x f.guard)
  | 3 => do let x ← xargsOf false f; pure (.xferQuant x f.guard)
  | 4 => do let x ← xargsOf false f; pure (.xferDequant x f.guard)
  | 5 => do let x ← xargsOf false f; pure (.xferGather x f.guard)
  | 6 => do let x ← xargsOf false f; pure (.xferScatter x f.guard)
  | 7 => do let x ← xargsOf true f; pure (.xferFill x f.guard)
  | _ => .error .unassignedFn

/-- Words of major opcode 0x61 (R76). -/
def decode61 (f : Fields) : Except DecodeError Instr :=
  match f.fn.toNat with
  | 0 => do let (trp, sc) ← modTscope f.md; let m ← pairOrZeroOf f.a; pure (.twaita trp sc (Reg.ofCode f.d) m f.guard)
  | 1 => do let (trp, sc) ← modTscope f.md; let m ← pairOrZeroOf f.a; pure (.twaitl trp sc (Reg.ofCode f.d) m f.guard)
  | 2 => do let sc ← modScope f.md; let m ← pairOrZeroOf f.a; pure (.tffr sc (Reg.ofCode f.d) m f.guard)
  | 3 => do let _ ← modIs 0 f.md; let m ← pairOrZeroOf f.a; pure (.tclr m f.guard)
  | 4 => do let trp ← modFlag8 f.md; pure (.xstat trp (Reg.ofCode f.d) (tagOf f.e) f.guard)
  | _ => .error .unassignedFn

/-- RFENCE's B, which R315 lets be zero alone: the field value 0 or that of the zero register (assumption log 17). -/
def bZero (c : BitVec 8) : Except DecodeError Unit := if c = 0 ∨ c = 0xFF then .ok () else .error .badField

/-- Words of major opcode 0x62 (R76). -/
def decode62 (f : Fields) : Except DecodeError Instr :=
  match f.fn.toNat with
  | 0 => do let _ ← modIs 0 f.md; let _ ← bZero f.b; let rec ← pairOrZeroOf f.a; pure (.rfence rec f.guard)
  | 1 => do let _ ← modIs 0 f.md; pure (.spfence (Reg.ofCode f.a) (Reg.ofCode f.b) f.guard)
  | _ => .error .unassignedFn

/-- Words of major opcode 0x63 (R76). -/
def decode63 (f : Fields) : Except DecodeError Instr :=
  match f.fn.toNat with
  | 0 => do let x ← xargsOf false f; pure (.xmcast x f.guard)
  | _ => .error .unassignedFn

/-- Words of major opcode 0x64 (R76). -/
def decode64 (f : Fields) : Except DecodeError Instr :=
  match f.fn.toNat with
  | 0 => do let role ← modRole f.md; pure (.mfmt role (Reg.ofCode f.d) (Reg.ofCode f.a) f.guard)
  | _ => .error .unassignedFn

/-- Words of major opcode 0x65 (R76). -/
def decode65 (f : Fields) : Except DecodeError Instr :=
  match f.fn.toNat with
  | 0 => do let nan ← modFlag f.md; let o ← octOf f.a; pure (.mloop nan (Reg.ofCode f.d) o f.guard)
  | _ => .error .unassignedFn

/-- Words of major opcode 0x66 (R76). -/
def decode66 (f : Fields) : Except DecodeError Instr :=
  match f.fn.toNat with
  | 0 => do let tm ← modTmode f.md; pure (.accz tm (Reg.ofCode f.a) f.guard)
  | 1 => do let raw ← modFlag f.md; pure (.accrd raw (Reg.ofCode f.d) (Reg.ofCode f.a) f.guard)
  | 2 => do let _ ← modIs 0 f.md; pure (.accwr (Reg.ofCode f.a) (Reg.ofCode f.b) f.guard)
  | 3 => do let trp ← modFlag f.md; pure (.mwait trp (Reg.ofCode f.d) (Reg.ofCode f.a) f.guard)
  | 4 => do let _ ← modIs 0 f.md; pure (.mstat (Reg.ofCode f.d) (Reg.ofCode f.a) f.guard)
  | _ => .error .unassignedFn

/-- Words of major opcode 0x67 (R76). -/
def decode67 (f : Fields) : Except DecodeError Instr :=
  match f.fn.toNat with
  | 0 => do let (p, sc) ← modMhad f.md; pure (.mhad p sc (Reg.ofCode f.d) (Reg.ofCode f.a) (Reg.ofCode f.b) f.guard)
  | _ => .error .unassignedFn

/-- Words of major opcode 0x68 (R76). -/
def decode68 (f : Fields) : Except DecodeError Instr :=
  match f.fn.toNat with
  | 0 => do let _ ← modIs 0 f.md; let o ← octOf f.a; pure (.tbld (Reg.ofCode f.d) o f.guard)
  | _ => .error .unassignedFn

/-- Words of major opcode 0x69 (R76). -/
def decode69 (f : Fields) : Except DecodeError Instr :=
  match f.fn.toNat with
  | 0 => do let _ ← modIs 0 f.md; let o ← octOf f.a; pure (.tlook (Reg.ofCode f.d) o f.guard)
  | _ => .error .unassignedFn

/-- Words of major opcode 0x6A (R76). -/
def decode6A (f : Fields) : Except DecodeError Instr :=
  match f.fn.toNat with
  | 0 => do let _ ← modIs 0 f.md; pure (.tval (Reg.ofCode f.d) (Reg.ofCode f.a) f.guard)
  | 1 => do let _ ← modIs 0 f.md; pure (.tspill (Reg.ofCode f.d) (Reg.ofCode f.a) (Reg.ofCode f.b) f.guard)
  | 2 => do let _ ← modIs 0 f.md; pure (.tfill (Reg.ofCode f.d) (Reg.ofCode f.a) f.guard)
  | 3 => do let _ ← modIs 0 f.md; pure (.tdrop (Reg.ofCode f.a) f.guard)
  | _ => .error .unassignedFn

/-- Words of major opcode 0x6C (R76). -/
def decode6C (f : Fields) : Except DecodeError Instr :=
  match f.fn.toNat with
  | 0 => do let fetch ← modFlag f.md; let o ← octOf f.a; pure (.kvgath fetch (Reg.ofCode f.d) o (tagOf f.e) f.guard)
  | _ => .error .unassignedFn

/-- Words of major opcode 0x6D (R76). -/
def decode6D (f : Fields) : Except DecodeError Instr :=
  match f.fn.toNat with
  | 0 => do let _ ← modIs 0 f.md; let o ← octOf f.a; pure (.kvapp o (tagOf f.e) f.guard)
  | _ => .error .unassignedFn

/-- Words of major opcode 0x6E (R76). -/
def decode6E (f : Fields) : Except DecodeError Instr :=
  match f.fn.toNat with
  | 0 => do let _ ← modIs 0 f.md; pure (.pgalloc (Reg.ofCode f.d) (Reg.ofCode f.a) (Reg.ofCode f.b) (tagOf f.e) f.guard)
  | 1 => match f.md.toNat with
    | 0 => pure (.pgrefQ (Reg.ofCode f.d) (Reg.ofCode f.a) (tagOf f.e) f.guard)
    | 1 => pure (.pgrefInc (Reg.ofCode f.d) (Reg.ofCode f.a) (tagOf f.e) f.guard)
    | 2 => pure (.pgrefDec (Reg.ofCode f.d) (Reg.ofCode f.a) (tagOf f.e) f.guard)
    | 3 => pure (.pgrefQf (Reg.ofCode f.d) (Reg.ofCode f.a) (tagOf f.e) f.guard)
    | _ => .error .badMod
  | 2 => do let _ ← modIs 0 f.md; pure (.pgfetch (Reg.ofCode f.a) (tagOf f.e) f.guard)
  | 3 => do let _ ← modIs 0 f.md; pure (.btset (Reg.ofCode f.d) (Reg.ofCode f.a) (Reg.ofCode f.b) (Reg.ofCode f.c) (tagOf f.e) f.guard)
  | 4 => do let _ ← modIs 0 f.md; pure (.btget (Reg.ofCode f.d) (Reg.ofCode f.a) (Reg.ofCode f.b) (tagOf f.e) f.guard)
  | 5 => do let _ ← modIs 0 f.md; pure (.kvsend (Reg.ofCode f.a) (Reg.ofCode f.b) (Reg.ofCode f.c) (tagOf f.e) f.guard)
  | _ => .error .unassignedFn

/-- Words of major opcode 0x6F (R76). -/
def decode6F (f : Fields) : Except DecodeError Instr :=
  match f.fn.toNat with
  | 0 => do let _ ← modIs 0 f.md; let d ← pairOf f.d; let par ← pairOf f.b; pure (.pfxh d (Reg.ofCode f.a) par (Reg.ofCode f.c) (tagOf f.e) f.guard)
  | 1 => do let _ ← modIs 0 f.md; pure (.pfxlook (Reg.ofCode f.d) (Reg.ofCode f.a) (Reg.ofCode f.b) (Reg.ofCode f.c) (tagOf f.e) f.guard)
  | 2 => match f.md.toNat with
    | 0 => pure (.pfxins (Reg.ofCode f.d) (Reg.ofCode f.a) (Reg.ofCode f.b) (tagOf f.e) f.guard)
    | 1 => pure (.pfxinsDel (Reg.ofCode f.d) (Reg.ofCode f.b) (tagOf f.e) f.guard)
    | _ => .error .badMod
  | _ => .error .unassignedFn

/-- Words of major opcode 0x70 (R76). -/
def decode70 (f : Fields) : Except DecodeError Instr :=
  match f.fn.toNat with
  | 0 => do let _ ← modIs 0 f.md; let w ← word6Of f.e; pure (.sqget (Reg.ofCode f.d) (Reg.ofCode f.a) w f.guard)
  | 1 => do let _ ← modIs 0 f.md; pure (.tokemit (Reg.ofCode f.d) (Reg.ofCode f.a) (Reg.ofCode f.b) (Reg.ofCode f.c) f.guard)
  | 2 => do let _ ← modIs 0 f.md; pure (.sqstop (Reg.ofCode f.d) (Reg.ofCode f.a) (Reg.ofCode f.b) f.guard)
  | 3 => do let _ ← modIs 0 f.md; pure (.sqroll (Reg.ofCode f.d) (Reg.ofCode f.a) (Reg.ofCode f.b) f.guard)
  | 4 => do let skip ← modFlag f.md; pure (.sqyield skip (Reg.ofCode f.d) (Reg.ofCode f.a) f.guard)
  | _ => .error .unassignedFn

/-- Words of major opcode 0x72 (R76). -/
def decode72 (f : Fields) : Except DecodeError Instr :=
  match f.fn.toNat with
  | 0 => do let nm ← modNet f.md; let src ← pairOf f.b; pure (.nsend nm (Reg.ofCode f.d) (Reg.ofCode f.a) src (tagOf f.e) f.guard)
  | 1 => do let (rep, nm) ← modNetrep f.md; let src ← pairOf f.b; let raddr ← pairOf f.c; pure (.nput rep nm (Reg.ofCode f.d) (Reg.ofCode f.a) src raddr (tagOf f.e) f.guard)
  | 2 => do let rod ← modFlag f.md; let raddr ← pairOf f.b; let dst ← pairOf f.c; pure (.nget rod (Reg.ofCode f.d) (Reg.ofCode f.a) raddr dst (tagOf f.e) f.guard)
  | _ => .error .unassignedFn

/-- Words of major opcode 0x73 (R76). -/
def decode73 (f : Fields) : Except DecodeError Instr :=
  match f.fn.toNat with
  | 0 => do let op ← modNred f.md; pure (.nred op (Reg.ofCode f.a) (tagOf f.e) f.guard)
  | 1 => do let _ ← modIs 0 f.md; pure (.npoll (Reg.ofCode f.d) (Reg.ofCode f.a) f.guard)
  | 2 => do let _ ← modIs 0 f.md; let dst ← pairOf f.b; pure (.nrecv (Reg.ofCode f.a) dst (Reg.ofCode f.c) (tagOf f.e) f.guard)
  | 3 => do let hor ← modFlag f.md; let d ← pairOf f.d; pure (.ntime hor d f.guard)
  | _ => .error .unassignedFn

/-- Words of major opcode 0x74 (R76). -/
def decode74 (f : Fields) : Except DecodeError Instr :=
  match f.fn.toNat with
  | 0 => do let _ ← modIs 0 f.md; pure (.movs (Reg.ofCode f.d) f.e f.guard)
  | 1 => do let _ ← modIs 0 f.md; pure (.movsw f.e (Reg.ofCode f.a) f.guard)
  | _ => .error .unassignedFn

/-- Words of major opcode 0x75 (R76). -/
def decode75 (f : Fields) : Except DecodeError Instr :=
  match f.fn.toNat with
  | 0 => do let _ ← modIs 0 f.md; pure (.trap f.e f.guard)
  | 1 => do let _ ← modIs 0 f.md; pure (.sysc f.e (Reg.ofCode f.a) (Reg.ofCode f.b) f.guard)
  | 2 => do let _ ← modIs 0 f.md; pure (.eret f.guard)
  | 3 => do let _ ← modIs 0 f.md; pure (.bkpt f.e f.guard)
  | _ => .error .unassignedFn

/-- Words of major opcode 0x76 (R76). -/
def decode76 (f : Fields) : Except DecodeError Instr :=
  match f.fn.toNat with
  | 0 => do let _ ← modIs 0 f.md; let p ← pairOf f.a; pure (.csave (Reg.ofCode f.d) p f.guard)
  | 1 => do let _ ← modIs 0 f.md; let p ← pairOf f.a; pure (.cload p f.guard)
  | _ => .error .unassignedFn

/-- The hint region 0x78 to 0x7F: NOP, ICPF, and every other encoding, which executes as NOP (R76, R78). -/
def decodeHint (w : DWord) (f : Fields) : Instr :=
  if f.op = 0x78 ∧ f.fn = 0 then .nop
  else if f.op = 0x78 ∧ f.fn = 1 then .icpf f.d f.imm32
  else .hint w

/-- A full word by its major opcode (R76, R77, R78). -/
def decodeFull (w : DWord) (f : Fields) : Except DecodeError Instr :=
  match f.op.toNat with
  | 0x00 => decode00 f
  | 0x01 => decode01 f
  | 0x02 => decode02 f
  | 0x03 => decode03 f
  | 0x04 => decode04 f
  | 0x05 => decode05 f
  | 0x06 => decode06 f
  | 0x07 => decode07 f
  | 0x08 => decode08 f
  | 0x09 => decode09 f
  | 0x0A => decode0A f
  | 0x0B => decode0B f
  | 0x0C => decode0C f
  | 0x0D => decode0D f
  | 0x0E => decode0E f
  | 0x0F => decode0F f
  | 0x10 => decode10 f
  | 0x11 => decode11 f
  | 0x12 => decode12 f
  | 0x14 => decode14 f
  | 0x15 => decode15 f
  | 0x20 => decode20 f
  | 0x21 => decode21 f
  | 0x22 => decode22 f
  | 0x23 => decode23 f
  | 0x24 => decode24 f
  | 0x30 => decode30 f
  | 0x31 => decode31 f
  | 0x32 => decode32 f
  | 0x33 => decode33 f
  | 0x34 => decode34 f
  | 0x35 => decode35 f
  | 0x36 => decode36 f
  | 0x37 => decode37 f
  | 0x50 => decode50 f
  | 0x51 => decode51 f
  | 0x52 => decode52 f
  | 0x53 => decode53 f
  | 0x54 => decode54 f
  | 0x55 => decode55 f
  | 0x56 => decode56 f
  | 0x58 => decode58 f
  | 0x59 => decode59 f
  | 0x5A => decode5A f
  | 0x5B => decode5B f
  | 0x5C => decode5C f
  | 0x60 => decode60 f
  | 0x61 => decode61 f
  | 0x62 => decode62 f
  | 0x63 => decode63 f
  | 0x64 => decode64 f
  | 0x65 => decode65 f
  | 0x66 => decode66 f
  | 0x67 => decode67 f
  | 0x68 => decode68 f
  | 0x69 => decode69 f
  | 0x6A => decode6A f
  | 0x6C => decode6C f
  | 0x6D => decode6D f
  | 0x6E => decode6E f
  | 0x6F => decode6F f
  | 0x70 => decode70 f
  | 0x72 => decode72 f
  | 0x73 => decode73 f
  | 0x74 => decode74 f
  | 0x75 => decode75 f
  | 0x76 => decode76 f
  | 0x78 => .ok (decodeHint w f)
  | 0x79 => .ok (decodeHint w f)
  | 0x7A => .ok (decodeHint w f)
  | 0x7B => .ok (decodeHint w f)
  | 0x7C => .ok (decodeHint w f)
  | 0x7D => .ok (decodeHint w f)
  | 0x7E => .ok (decodeHint w f)
  | 0x7F => .ok (decodeHint w f)
  | _ => .error .unassignedMajor

/-- A word's instruction by its fields alone; bit 63 is P (R55). -/
def parse (w : DWord) : Except DecodeError Instr :=
  if w.getLsbD 63 then pairDecode w else decodeFull w (Fields.unpack w)

/-- The instruction of a word, or why it has none: its fields, then R67, R68, R75 and the operand limits (R79). -/
def decode (w : DWord) : Except DecodeError Instr :=
  match parse w with
  | .ok i => if i.wf then .ok i else .error .illFormed
  | .error e => .error e

/-- The instruction word of eight little-endian bytes (R55). -/
def wordOfBytes : List Byte → Except DecodeError DWord
  | b0 :: b1 :: b2 :: b3 :: b4 :: b5 :: b6 :: b7 :: _ => .ok (b7 ++ b6 ++ b5 ++ b4 ++ b3 ++ b2 ++ b1 ++ b0)
  | _ => .error .truncated

/-- Decoding on any bytes: the instruction and the bytes that follow it. -/
def decodeBytes (bs : List Byte) : Except DecodeError (Instr × List Byte) :=
  match wordOfBytes bs with
  | .ok w =>
    match decode w with
    | .ok i => .ok (i, bs.drop 8)
    | .error e => .error e
  | .error e => .error e

/-- The eight bytes of a word as they stand in memory (R55). -/
def bytesOfWord (w : DWord) : List Byte :=
  [w.extractLsb' 0 8, w.extractLsb' 8 8, w.extractLsb' 16 8, w.extractLsb' 24 8,
   w.extractLsb' 32 8, w.extractLsb' 40 8, w.extractLsb' 48 8, w.extractLsb' 56 8]

/-! ### The encoder (R59 to R83) -/

/-- The fields of an instruction that has a full word outside the hint region; none for the others. -/
def Instr.fields : Instr → Option Fields
  | .mov d a g => some (.mk 0x00 d.code a.code 0 0 0 0 0 g.hold.code g.pmCode g.pnCode)
  | .movImm d imm g => some (.mk 0x00 d.code 0 (imm.extractLsb' 16 8) (imm.extractLsb' 8 8) (imm.extractLsb' 0 8) 1 0 g.hold.code g.pmCode g.pnCode)
  | .iadd m d a b g => some (.mk 0x01 d.code a.code b.code 0 0 0 (codeSat3 m) g.hold.code g.pmCode g.pnCode)
  | .iaddImm m d a imm g => some (.mk 0x01 d.code a.code (imm.extractLsb' 16 8) (imm.extractLsb' 8 8) (imm.extractLsb' 0 8) 1 (codeSat3 m) g.hold.code g.pmCode g.pnCode)
  | .isub m d a b g => some (.mk 0x02 d.code a.code b.code 0 0 0 (codeSat3 m) g.hold.code g.pmCode g.pnCode)
  | .isubImm m d a imm g => some (.mk 0x02 d.code a.code (imm.extractLsb' 16 8) (imm.extractLsb' 8 8) (imm.extractLsb' 0 8) 1 (codeSat3 m) g.hold.code g.pmCode g.pnCode)
  | .iand d a b g => some (.mk 0x03 d.code a.code b.code 0 0 0 0 g.hold.code g.pmCode g.pnCode)
  | .iandImm d a imm g => some (.mk 0x03 d.code a.code (imm.extractLsb' 16 8) (imm.extractLsb' 8 8) (imm.extractLsb' 0 8) 1 0 g.hold.code g.pmCode g.pnCode)
  | .ior d a b g => some (.mk 0x04 d.code a.code b.code 0 0 0 0 g.hold.code g.pmCode g.pnCode)
  | .iorImm d a imm g => some (.mk 0x04 d.code a.code (imm.extractLsb' 16 8) (imm.extractLsb' 8 8) (imm.extractLsb' 0 8) 1 0 g.hold.code g.pmCode g.pnCode)
  | .ixor d a b g => some (.mk 0x05 d.code a.code b.code 0 0 0 0 g.hold.code g.pmCode g.pnCode)
  | .ixorImm d a imm g => some (.mk 0x05 d.code a.code (imm.extractLsb' 16 8) (imm.extractLsb' 8 8) (imm.extractLsb' 0 8) 1 0 g.hold.code g.pmCode g.pnCode)
  | .shl d a b g => some (.mk 0x06 d.code a.code b.code 0 0 0 0 g.hold.code g.pmCode g.pnCode)
  | .shlImm d a imm g => some (.mk 0x06 d.code a.code (imm.extractLsb' 16 8) (imm.extractLsb' 8 8) (imm.extractLsb' 0 8) 1 0 g.hold.code g.pmCode g.pnCode)
  | .shr d a b g => some (.mk 0x07 d.code a.code b.code 0 0 0 0 g.hold.code g.pmCode g.pnCode)
  | .shrImm d a imm g => some (.mk 0x07 d.code a.code (imm.extractLsb' 16 8) (imm.extractLsb' 8 8) (imm.extractLsb' 0 8) 1 0 g.hold.code g.pmCode g.pnCode)
  | .sar d a b g => some (.mk 0x08 d.code a.code b.code 0 0 0 0 g.hold.code g.pmCode g.pnCode)
  | .sarImm d a imm g => some (.mk 0x08 d.code a.code (imm.extractLsb' 16 8) (imm.extractLsb' 8 8) (imm.extractLsb' 0 8) 1 0 g.hold.code g.pmCode g.pnCode)
  | .imin u d a b g => some (.mk 0x09 d.code a.code b.code 0 0 0 (codeUns u) g.hold.code g.pmCode g.pnCode)
  | .iminImm u d a imm g => some (.mk 0x09 d.code a.code (imm.extractLsb' 16 8) (imm.extractLsb' 8 8) (imm.extractLsb' 0 8) 1 (codeUns u) g.hold.code g.pmCode g.pnCode)
  | .imax u d a b g => some (.mk 0x0A d.code a.code b.code 0 0 0 (codeUns u) g.hold.code g.pmCode g.pnCode)
  | .imaxImm u d a imm g => some (.mk 0x0A d.code a.code (imm.extractLsb' 16 8) (imm.extractLsb' 8 8) (imm.extractLsb' 0 8) 1 (codeUns u) g.hold.code g.pmCode g.pnCode)
  | .imul m d a b g => some (.mk 0x0B d.code a.code b.code 0 0 0 (codeSat3 m) g.hold.code g.pmCode g.pnCode)
  | .imulImm m d a imm g => some (.mk 0x0B d.code a.code (imm.extractLsb' 16 8) (imm.extractLsb' 8 8) (imm.extractLsb' 0 8) 1 (codeSat3 m) g.hold.code g.pmCode g.pnCode)
  | .fadd r d a b g => some (.mk 0x0C d.code a.code b.code 0 0 0 (codeRnd r) g.hold.code g.pmCode g.pnCode)
  | .faddImm r d a imm g => some (.mk 0x0C d.code a.code (imm.extractLsb' 16 8) (imm.extractLsb' 8 8) (imm.extractLsb' 0 8) 1 (codeRnd r) g.hold.code g.pmCode g.pnCode)
  | .fmul r d a b g => some (.mk 0x0D d.code a.code b.code 0 0 0 (codeRnd r) g.hold.code g.pmCode g.pnCode)
  | .fmulImm r d a imm g => some (.mk 0x0D d.code a.code (imm.extractLsb' 16 8) (imm.extractLsb' 8 8) (imm.extractLsb' 0 8) 1 (codeRnd r) g.hold.code g.pmCode g.pnCode)
  | .fmin d a b g => some (.mk 0x0E d.code a.code b.code 0 0 0 0 g.hold.code g.pmCode g.pnCode)
  | .fminImm d a imm g => some (.mk 0x0E d.code a.code (imm.extractLsb' 16 8) (imm.extractLsb' 8 8) (imm.extractLsb' 0 8) 1 0 g.hold.code g.pmCode g.pnCode)
  | .fmax d a b g => some (.mk 0x0F d.code a.code b.code 0 0 0 0 g.hold.code g.pmCode g.pnCode)
  | .fmaxImm d a imm g => some (.mk 0x0F d.code a.code (imm.extractLsb' 16 8) (imm.extractLsb' 8 8) (imm.extractLsb' 0 8) 1 0 g.hold.code g.pmCode g.pnCode)
  | .andn d a b g => some (.mk 0x10 d.code a.code b.code 0 0 0 0 g.hold.code g.pmCode g.pnCode)
  | .inot d a g => some (.mk 0x10 d.code a.code 0 0 0 1 0 g.hold.code g.pmCode g.pnCode)
  | .rotl d a b g => some (.mk 0x10 d.code a.code b.code 0 0 2 0 g.hold.code g.pmCode g.pnCode)
  | .shf left d a b c g => some (.mk 0x10 d.code a.code b.code c.code 0 3 (codeFlag left) g.hold.code g.pmCode g.pnCode)
  | .imulh d a b g => some (.mk 0x10 d.code a.code b.code 0 0 4 0 g.hold.code g.pmCode g.pnCode)
  | .imulhu d a b g => some (.mk 0x10 d.code a.code b.code 0 0 5 0 g.hold.code g.pmCode g.pnCode)
  | .imad sat d a b c g => some (.mk 0x10 d.code a.code b.code c.code 0 6 (codeFlag sat) g.hold.code g.pmCode g.pnCode)
  | .iabs sat d a g => some (.mk 0x10 d.code a.code 0 0 0 7 (codeFlag sat) g.hold.code g.pmCode g.pnCode)
  | .ineg sat d a g => some (.mk 0x10 d.code a.code 0 0 0 8 (codeFlag sat) g.hold.code g.pmCode g.pnCode)
  | .sel d a b c g => some (.mk 0x10 d.code a.code b.code c.code 0 9 0 g.hold.code g.pmCode g.pnCode)
  | .bysel d a b c g => some (.mk 0x10 d.code a.code b.code c.code 0 10 0 g.hold.code g.pmCode g.pnCode)
  | .clz d a g => some (.mk 0x10 d.code a.code 0 0 0 11 0 g.hold.code g.pmCode g.pnCode)
  | .popc d a g => some (.mk 0x10 d.code a.code 0 0 0 12 0 g.hold.code g.pmCode g.pnCode)
  | .brev d a g => some (.mk 0x10 d.code a.code 0 0 0 13 0 g.hold.code g.pmCode g.pnCode)
  | .bfe sg d a b g => some (.mk 0x10 d.code a.code b.code 0 0 14 (codeFlag sg) g.hold.code g.pmCode g.pnCode)
  | .bfi d a b c g => some (.mk 0x10 d.code a.code b.code c.code 0 15 0 g.hold.code g.pmCode g.pnCode)
  | .movw d imm g => some (.mk 0x11 d.code (imm.extractLsb' 24 8) (imm.extractLsb' 16 8) (imm.extractLsb' 8 8) (imm.extractLsb' 0 8) 0 0 g.hold.code g.pmCode g.pnCode)
  | .movx d imm g => some (.mk 0x11 d.code (imm.extractLsb' 24 8) (imm.extractLsb' 16 8) (imm.extractLsb' 8 8) (imm.extractLsb' 0 8) 1 0 g.hold.code g.pmCode g.pnCode)
  | .iset cond u d a b g => some (.mk 0x12 (maskCode d) a.code b.code 0 0 cond.code (codeMupd u) g.hold.code g.pmCode g.pnCode)
  | .mand d a b g => some (.mk 0x14 (maskCode d) (maskCode a) (maskCode b) 0 0 0 0 g.hold.code g.pmCode g.pnCode)
  | .mor d a b g => some (.mk 0x14 (maskCode d) (maskCode a) (maskCode b) 0 0 1 0 g.hold.code g.pmCode g.pnCode)
  | .mxor d a b g => some (.mk 0x14 (maskCode d) (maskCode a) (maskCode b) 0 0 2 0 g.hold.code g.pmCode g.pnCode)
  | .mnot d a g => some (.mk 0x14 (maskCode d) (maskCode a) 0 0 0 3 0 g.hold.code g.pmCode g.pnCode)
  | .mmov d a g => some (.mk 0x14 (maskCode d) a.code 0 0 0 4 0 g.hold.code g.pmCode g.pnCode)
  | .mget d a g => some (.mk 0x14 d.code (maskCode a) 0 0 0 5 0 g.hold.code g.pmCode g.pnCode)
  | .mpop d a g => some (.mk 0x14 d.code (maskCode a) 0 0 0 6 0 g.hold.code g.pmCode g.pnCode)
  | .mffs d a g => some (.mk 0x14 d.code (maskCode a) 0 0 0 7 0 g.hold.code g.pmCode g.pnCode)
  | .shape d a g => some (.mk 0x15 d.code a.code 0 0 0 0 0 g.hold.code g.pmCode g.pnCode)
  | .lxch op d a b c g => some (.mk 0x20 d.code a.code b.code c.code 0 op.code 0 g.hold.code g.pmCode g.pnCode)
  | .lpred op inv d a g => some (.mk 0x21 d.code a.code 0 0 0 op.code (codeFlag inv) g.hold.code g.pmCode g.pnCode)
  | .scan op ty d a g => some (.mk 0x22 d.code a.code 0 0 0 op.code (codeScanTy ty) g.hold.code g.pmCode g.pnCode)
  | .rdux op u d a g => some (.mk 0x23 d.code a.code 0 0 0 op.code (codeUns u) g.hold.code g.pmCode g.pnCode)
  | .matchLanes d a g => some (.mk 0x24 d.code a.code 0 0 0 0 0 g.hold.code g.pmCode g.pnCode)
  | .fsub r d a b g => some (.mk 0x30 d.code a.code b.code 0 0 0 (codeRnd r) g.hold.code g.pmCode g.pnCode)
  | .ffma r d a b c g => some (.mk 0x30 d.code a.code b.code c.code 0 1 (codeRnd r) g.hold.code g.pmCode g.pnCode)
  | .fabs d a g => some (.mk 0x30 d.code a.code 0 0 0 2 0 g.hold.code g.pmCode g.pnCode)
  | .fneg d a g => some (.mk 0x30 d.code a.code 0 0 0 3 0 g.hold.code g.pmCode g.pnCode)
  | .fcps d a b g => some (.mk 0x30 d.code a.code b.code 0 0 4 0 g.hold.code g.pmCode g.pnCode)
  | .frnd r d a g => some (.mk 0x30 d.code a.code 0 0 0 5 (codeRnd r) g.hold.code g.pmCode g.pnCode)
  | .fclass d a g => some (.mk 0x30 d.code a.code 0 0 0 6 0 g.hold.code g.pmCode g.pnCode)
  | .fset cond u d a b g => some (.mk 0x31 (maskCode d) a.code b.code 0 0 cond.code (codeMupd u) g.hold.code g.pmCode g.pnCode)
  | .frcp d a g => some (.mk 0x32 d.code a.code 0 0 0 0 0 g.hold.code g.pmCode g.pnCode)
  | .frsq d a g => some (.mk 0x32 d.code a.code 0 0 0 1 0 g.hold.code g.pmCode g.pnCode)
  | .fsqrt d a g => some (.mk 0x32 d.code a.code 0 0 0 2 0 g.hold.code g.pmCode g.pnCode)
  | .fex2 d a g => some (.mk 0x32 d.code a.code 0 0 0 3 0 g.hold.code g.pmCode g.pnCode)
  | .flg2 d a g => some (.mk 0x32 d.code a.code 0 0 0 4 0 g.hold.code g.pmCode g.pnCode)
  | .ftanh d a g => some (.mk 0x32 d.code a.code 0 0 0 5 0 g.hold.code g.pmCode g.pnCode)
  | .fsin d a g => some (.mk 0x32 d.code a.code 0 0 0 6 0 g.hold.code g.pmCode g.pnCode)
  | .fcos d a g => some (.mk 0x32 d.code a.code 0 0 0 7 0 g.hold.code g.pmCode g.pnCode)
  | .hadd2 r d a b g => some (.mk 0x33 d.code a.code b.code 0 0 0 (codeRnd r) g.hold.code g.pmCode g.pnCode)
  | .hmul2 r d a b g => some (.mk 0x33 d.code a.code b.code 0 0 1 (codeRnd r) g.hold.code g.pmCode g.pnCode)
  | .hfma2 r d a b c g => some (.mk 0x33 d.code a.code b.code c.code 0 2 (codeRnd r) g.hold.code g.pmCode g.pnCode)
  | .hmax2 d a b g => some (.mk 0x33 d.code a.code b.code 0 0 3 0 g.hold.code g.pmCode g.pnCode)
  | .hmin2 d a b g => some (.mk 0x33 d.code a.code b.code 0 0 4 0 g.hold.code g.pmCode g.pnCode)
  | .cvtfi u r d a g => some (.mk 0x34 d.code a.code 0 0 0 0 (codeUrnd u r) g.hold.code g.pmCode g.pnCode)
  | .cvtif u r d a g => some (.mk 0x34 d.code a.code 0 0 0 1 (codeUrnd u r) g.hold.code g.pmCode g.pnCode)
  | .cvtfh r d a b g => some (.mk 0x34 d.code a.code b.code 0 0 2 (codeRnd r) g.hold.code g.pmCode g.pnCode)
  | .cvthf hi d a g => some (.mk 0x34 d.code a.code 0 0 0 3 (codeFlag hi) g.hold.code g.pmCode g.pnCode)
  | .cvtn8 byte nan e5 d a b g => some (.mk 0x34 d.code a.code b.code 0 0 4 (codeCvtn8 byte nan e5) g.hold.code g.pmCode g.pnCode)
  | .cvtf8 byte e5 d a g => some (.mk 0x34 d.code a.code 0 0 0 5 (codeCvtf8 byte e5) g.hold.code g.pmCode g.pnCode)
  | .qnt4 sf bsv d a b c nib g => some (.mk 0x35 d.code a.code b.code c.code (maskCode nib) 0 (codeQnt4 sf bsv) g.hold.code g.pmCode g.pnCode)
  | .dq4 sf d a b c nib g => some (.mk 0x35 d.code a.code b.code c.code (maskCode nib) 1 (codeDq4 sf) g.hold.code g.pmCode g.pnCode)
  | .scale bf tf d a b c g => some (.mk 0x35 d.code a.code b.code c.code 0 2 (codeScale bf tf) g.hold.code g.pmCode g.pnCode)
  | .selkLd a loc slot g => some (.mk 0x36 0 a.code loc.code slot.code 0 0 0 g.hold.code g.pmCode g.pnCode)
  | .selkRun loc geom g => some (.mk 0x36 0 loc.code geom.code 0 0 1 0 g.hold.code g.pmCode g.pnCode)
  | .selkRd mask d loc geom slot g => some (.mk 0x36 d.code loc.code geom.code slot.code 0 2 (codeFlag mask) g.hold.code g.pmCode g.pnCode)
  | .rngx cnt frac d a key c stream g => some (.mk 0x37 d.code a.code (pairCode key) c.code stream 0 (codeRngx cnt frac) g.hold.code g.pmCode g.pnCode)
  | .ld sz ord d base idx off g => some (.mk 0x50 d.code base.code idx.code (off.extractLsb' 8 8) (off.extractLsb' 0 8) sz.code (codeOrder ord) g.hold.code g.pmCode g.pnCode)
  | .st sz ord d base idx off g => some (.mk 0x51 d.code base.code idx.code (off.extractLsb' 8 8) (off.extractLsb' 0 8) sz.code (codeOrder ord) g.hold.code g.pmCode g.pnCode)
  | .ldu sz ord d base idx off g => some (.mk 0x52 d.code base.code idx.code (off.extractLsb' 8 8) (off.extractLsb' 0 8) sz.code (codeOrder ord) g.hold.code g.pmCode g.pnCode)
  | .atom op ord d base idx off g => some (.mk 0x53 d.code base.code idx.code (off.extractLsb' 8 8) (off.extractLsb' 0 8) op.code (codeOrder ord) g.hold.code g.pmCode g.pnCode)
  | .red op ord d base idx off g => some (.mk 0x54 d.code base.code idx.code (off.extractLsb' 8 8) (off.extractLsb' 0 8) op.code (codeOrder ord) g.hold.code g.pmCode g.pnCode)
  | .fence sc g => some (.mk 0x55 0 0 0 0 0 0 (codeFence sc) g.hold.code g.pmCode g.pnCode)
  | .pref base idx off g => some (.mk 0x56 0 base.code idx.code (off.extractLsb' 8 8) (off.extractLsb' 0 8) 0 0 g.hold.code g.pmCode g.pnCode)
  | .bra off g => some (.mk 0x58 0 (off.extractLsb' 24 8) (off.extractLsb' 16 8) (off.extractLsb' 8 8) (off.extractLsb' 0 8) 0 0 g.hold.code g.pmCode g.pnCode)
  | .bru k off g => some (.mk 0x58 k.code (off.extractLsb' 24 8) (off.extractLsb' 16 8) (off.extractLsb' 8 8) (off.extractLsb' 0 8) 1 0 g.hold.code g.pmCode g.pnCode)
  | .brd m off g => some (.mk 0x58 (maskCode m) (off.extractLsb' 24 8) (off.extractLsb' 16 8) (off.extractLsb' 8 8) (off.extractLsb' 0 8) 2 0 g.hold.code g.pmCode g.pnCode)
  | .call p off g => some (.mk 0x58 (pairCode p) (off.extractLsb' 24 8) (off.extractLsb' 16 8) (off.extractLsb' 8 8) (off.extractLsb' 0 8) 3 0 g.hold.code g.pmCode g.pnCode)
  | .ret p g => some (.mk 0x58 0 (pairCode p) 0 0 0 4 0 g.hold.code g.pmCode g.pnCode)
  | .brx p g => some (.mk 0x58 0 (pairCode p) 0 0 0 5 0 g.hold.code g.pmCode g.pnCode)
  | .exit g => some (.mk 0x58 0 0 0 0 0 6 0 g.hold.code g.pmCode g.pnCode)
  | .binit lane cluster loc arr bytes g => some (.mk 0x59 0 loc.code arr.code bytes.code 0 0 (codeBinit lane cluster) g.hold.code g.pmCode g.pnCode)
  | .bjoin loc g => some (.mk 0x59 0 loc.code 0 0 0 1 0 g.hold.code g.pmCode g.pnCode)
  | .barv d loc g => some (.mk 0x59 d.code loc.code 0 0 0 2 0 g.hold.code g.pmCode g.pnCode)
  | .barx d loc bytes g => some (.mk 0x59 d.code loc.code bytes.code 0 0 3 0 g.hold.code g.pmCode g.pnCode)
  | .bwait loc ph g => some (.mk 0x59 0 loc.code ph.code 0 0 4 0 g.hold.code g.pmCode g.pnCode)
  | .btest d loc ph g => some (.mk 0x59 d.code loc.code ph.code 0 0 5 0 g.hold.code g.pmCode g.pnCode)
  | .bwaitt d loc ph t g => some (.mk 0x59 d.code loc.code ph.code t.code 0 6 0 g.hold.code g.pmCode g.pnCode)
  | .bleave loc g => some (.mk 0x59 0 loc.code 0 0 0 7 0 g.hold.code g.pmCode g.pnCode)
  | .tbar g => some (.mk 0x5A 0 0 0 0 0 0 0 g.hold.code g.pmCode g.pnCode)
  | .cbar g => some (.mk 0x5A 0 0 0 0 0 1 0 g.hold.code g.pmCode g.pnCode)
  | .sleep a g => some (.mk 0x5A 0 a.code 0 0 0 2 0 g.hold.code g.pmCode g.pnCode)
  | .yield g => some (.mk 0x5A 0 0 0 0 0 3 0 g.hold.code g.pmCode g.pnCode)
  | .grow d n g => some (.mk 0x5B d.code 0 0 0 n 0 0 g.hold.code g.pmCode g.pnCode)
  | .shrink n g => some (.mk 0x5B 0 0 0 0 n 1 0 g.hold.code g.pmCode g.pnCode)
  | .fork p g => some (.mk 0x5C 0 (pairCode p) 0 0 0 0 0 g.hold.code g.pmCode g.pnCode)
  | .joinw d g => some (.mk 0x5C d.code 0 0 0 0 1 0 g.hold.code g.pmCode g.pnCode)
  | .spawn d idx cnt g => some (.mk 0x5C d.code idx.code cnt.code 0 0 2 0 g.hold.code g.pmCode g.pnCode)
  | .movs d sr g => some (.mk 0x74 d.code 0 0 0 sr 0 0 g.hold.code g.pmCode g.pnCode)
  | .movsw sr a g => some (.mk 0x74 0 a.code 0 0 sr 1 0 g.hold.code g.pmCode g.pnCode)
  | .trap code g => some (.mk 0x75 0 0 0 0 code 0 0 g.hold.code g.pmCode g.pnCode)
  | .sysc svc a b g => some (.mk 0x75 0 a.code b.code 0 svc 1 0 g.hold.code g.pmCode g.pnCode)
  | .eret g => some (.mk 0x75 0 0 0 0 0 2 0 g.hold.code g.pmCode g.pnCode)
  | .bkpt code g => some (.mk 0x75 0 0 0 0 code 3 0 g.hold.code g.pmCode g.pnCode)
  | .csave d p g => some (.mk 0x76 d.code (pairCode p) 0 0 0 0 0 g.hold.code g.pmCode g.pnCode)
  | .cload p g => some (.mk 0x76 0 (pairCode p) 0 0 0 1 0 g.hold.code g.pmCode g.pnCode)
  | .xferCopy x g => some (x.fields g 0x60 0)
  | .xferTranspose x g => some (x.fields g 0x60 1)
  | .xferRepack x g => some (x.fields g 0x60 2)
  | .xferQuant x g => some (x.fields g 0x60 3)
  | .xferDequant x g => some (x.fields g 0x60 4)
  | .xferGather x g => some (x.fields g 0x60 5)
  | .xferScatter x g => some (x.fields g 0x60 6)
  | .xferFill x g => some (x.fields g 0x60 7)
  | .xmcast x g => some (x.fields g 0x63 0)
  | .twaita trp sc d m g => some (.mk 0x61 d.code (pairOrZeroCode m) 0 0 0 0 (codeTscope trp sc) g.hold.code g.pmCode g.pnCode)
  | .twaitl trp sc d m g => some (.mk 0x61 d.code (pairOrZeroCode m) 0 0 0 1 (codeTscope trp sc) g.hold.code g.pmCode g.pnCode)
  | .tffr sc d m g => some (.mk 0x61 d.code (pairOrZeroCode m) 0 0 0 2 (codeScope sc) g.hold.code g.pmCode g.pnCode)
  | .tclr m g => some (.mk 0x61 0 (pairOrZeroCode m) 0 0 0 3 0 g.hold.code g.pmCode g.pnCode)
  | .xstat trp d tag g => some (.mk 0x61 d.code 0 0 0 (tagCode tag) 4 (codeFlag8 trp) g.hold.code g.pmCode g.pnCode)
  | .rfence rec g => some (.mk 0x62 0 (pairOrZeroCode rec) 0 0 0 0 0 g.hold.code g.pmCode g.pnCode)
  | .spfence loc len g => some (.mk 0x62 0 loc.code len.code 0 0 1 0 g.hold.code g.pmCode g.pnCode)
  | .mfmt role d loc g => some (.mk 0x64 d.code loc.code 0 0 0 0 (codeRole role) g.hold.code g.pmCode g.pnCode)
  | .mloop nan d o g => some (.mk 0x65 d.code (octCode o) 0 0 0 0 (codeFlag nan) g.hold.code g.pmCode g.pnCode)
  | .accz tm a g => some (.mk 0x66 0 a.code 0 0 0 0 (codeTmode tm) g.hold.code g.pmCode g.pnCode)
  | .accrd raw d a g => some (.mk 0x66 d.code a.code 0 0 0 1 (codeFlag raw) g.hold.code g.pmCode g.pnCode)
  | .accwr a b g => some (.mk 0x66 0 a.code b.code 0 0 2 0 g.hold.code g.pmCode g.pnCode)
  | .mwait trp d a g => some (.mk 0x66 d.code a.code 0 0 0 3 (codeFlag trp) g.hold.code g.pmCode g.pnCode)
  | .mstat d a g => some (.mk 0x66 d.code a.code 0 0 0 4 0 g.hold.code g.pmCode g.pnCode)
  | .mhad p sc d loc geom g => some (.mk 0x67 d.code loc.code geom.code 0 0 0 (codeMhad p sc) g.hold.code g.pmCode g.pnCode)
  | .tbld d o g => some (.mk 0x68 d.code (octCode o) 0 0 0 0 0 g.hold.code g.pmCode g.pnCode)
  | .tlook d o g => some (.mk 0x69 d.code (octCode o) 0 0 0 0 0 g.hold.code g.pmCode g.pnCode)
  | .tval d num g => some (.mk 0x6A d.code num.code 0 0 0 0 0 g.hold.code g.pmCode g.pnCode)
  | .tspill d num loc g => some (.mk 0x6A d.code num.code loc.code 0 0 1 0 g.hold.code g.pmCode g.pnCode)
  | .tfill d num g => some (.mk 0x6A d.code num.code 0 0 0 2 0 g.hold.code g.pmCode g.pnCode)
  | .tdrop num g => some (.mk 0x6A 0 num.code 0 0 0 3 0 g.hold.code g.pmCode g.pnCode)
  | .kvgath fetch bar o tag g => some (.mk 0x6C bar.code (octCode o) 0 0 (tagCode tag) 0 (codeFlag fetch) g.hold.code g.pmCode g.pnCode)
  | .kvapp o tag g => some (.mk 0x6D 0 (octCode o) 0 0 (tagCode tag) 0 0 g.hold.code g.pmCode g.pnCode)
  | .pgalloc d req idx tag g => some (.mk 0x6E d.code req.code idx.code 0 (tagCode tag) 0 0 g.hold.code g.pmCode g.pnCode)
  | .pgrefQ d page tag g => some (.mk 0x6E d.code page.code 0 0 (tagCode tag) 1 0 g.hold.code g.pmCode g.pnCode)
  | .pgrefQf d page tag g => some (.mk 0x6E d.code page.code 0 0 (tagCode tag) 1 3 g.hold.code g.pmCode g.pnCode)
  | .pgrefInc d page tag g => some (.mk 0x6E d.code page.code 0 0 (tagCode tag) 1 1 g.hold.code g.pmCode g.pnCode)
  | .pgrefDec d page tag g => some (.mk 0x6E d.code page.code 0 0 (tagCode tag) 1 2 g.hold.code g.pmCode g.pnCode)
  | .pgfetch page tag g => some (.mk 0x6E 0 page.code 0 0 (tagCode tag) 2 0 g.hold.code g.pmCode g.pnCode)
  | .btset d req idx page tag g => some (.mk 0x6E d.code req.code idx.code page.code (tagCode tag) 3 0 g.hold.code g.pmCode g.pnCode)
  | .btget d req idx tag g => some (.mk 0x6E d.code req.code idx.code 0 (tagCode tag) 4 0 g.hold.code g.pmCode g.pnCode)
  | .kvsend req dest rreq tag g => some (.mk 0x6E 0 req.code dest.code rreq.code (tagCode tag) 5 0 g.hold.code g.pmCode g.pnCode)
  | .pfxh d ids par mdl tag g => some (.mk 0x6F (pairCode d) ids.code (pairCode par) mdl.code (tagCode tag) 0 0 g.hold.code g.pmCode g.pnCode)
  | .pfxlook d key req idx tag g => some (.mk 0x6F d.code key.code req.code idx.code (tagCode tag) 1 0 g.hold.code g.pmCode g.pnCode)
  | .pfxins d key page tag g => some (.mk 0x6F d.code key.code page.code 0 (tagCode tag) 2 0 g.hold.code g.pmCode g.pnCode)
  | .pfxinsDel d page tag g => some (.mk 0x6F d.code 0 page.code 0 (tagCode tag) 2 1 g.hold.code g.pmCode g.pnCode)
  | .sqget d hd w g => some (.mk 0x70 d.code hd.code 0 0 (tagCode w) 0 0 g.hold.code g.pmCode g.pnCode)
  | .tokemit d hd loc cnt g => some (.mk 0x70 d.code hd.code loc.code cnt.code 0 1 0 g.hold.code g.pmCode g.pnCode)
  | .sqstop d hd reason g => some (.mk 0x70 d.code hd.code reason.code 0 0 2 0 g.hold.code g.pmCode g.pnCode)
  | .sqroll d hd n g => some (.mk 0x70 d.code hd.code n.code 0 0 3 0 g.hold.code g.pmCode g.pnCode)
  | .sqyield skip d hd g => some (.mk 0x70 d.code hd.code 0 0 0 4 (codeFlag skip) g.hold.code g.pmCode g.pnCode)
  | .nsend nm len dq src tag g => some (.mk 0x72 len.code dq.code (pairCode src) 0 (tagCode tag) 0 (codeNet nm) g.hold.code g.pmCode g.pnCode)
  | .nput rep nm len dest src raddr tag g => some (.mk 0x72 len.code dest.code (pairCode src) (pairCode raddr) (tagCode tag) 1 (codeNetrep rep nm) g.hold.code g.pmCode g.pnCode)
  | .nget rod len dest raddr dst tag g => some (.mk 0x72 len.code dest.code (pairCode raddr) (pairCode dst) (tagCode tag) 2 (codeFlag rod) g.hold.code g.pmCode g.pnCode)
  | .nred op blk tag g => some (.mk 0x73 0 blk.code 0 0 (tagCode tag) 0 (codeNred op) g.hold.code g.pmCode g.pnCode)
  | .npoll d q g => some (.mk 0x73 d.code q.code 0 0 0 1 0 g.hold.code g.pmCode g.pnCode)
  | .nrecv q dst mx tag g => some (.mk 0x73 0 q.code (pairCode dst) mx.code (tagCode tag) 2 0 g.hold.code g.pmCode g.pnCode)
  | .ntime hor d g => some (.mk 0x73 (pairCode d) 0 0 0 0 3 (codeFlag hor) g.hold.code g.pmCode g.pnCode)
  | .pairWord _ _ => none
  | .nop => none
  | .icpf _ _ => none
  | .hint _ => none
  | .splitMerge _ _ _ => none
  | .icacheMissFill _ _ _ => none
  | .yieldTimeout _ _ => none
  | .sleepExpire _ _ => none
  | .bwaittTimeout _ _ => none
  | .growGrant _ => none
  | .growDeadlockResolve _ => none
  | .syncOpEffect _ _ => none
  | .exitUnblock _ _ => none
  | .registerWriteLand _ => none
  | .forkSwapOut _ => none
  | .forkResume _ => none
  | .storeDrain _ => none
  | .l2LineEvict _ => none
  | .hostMemoryAccess _ _ _ _ => none
  | .engineLineRelease _ _ _ => none
  | .commandComplete _ => none
  | .traverseRefusalRetry _ _ _ _ => none
  | .loopStep _ _ => none
  | .tableBuild _ _ => none
  | .tlookStep _ _ => none
  | .loopComplete _ _ => none
  | .kvgathPageStep _ _ => none
  | .evictionComplete _ _ => none
  | .fetchComplete _ _ _ => none
  | .chartScrub _ _ _ => none
  | .chcfgReload _ _ => none
  | .blockTableRecord _ => none
  | .kvsendAck _ _ => none
  | .launch _ => none
  | .admitReq _ => none
  | .cancel _ => none
  | .model _ => none
  | .modeldel _ => none
  | .badcmd _ => none
  | .rtail _ _ _ => none
  | .ehead _ _ _ => none
  | .semaphoreRead _ _ _ => none
  | .semaphoreWrite _ _ _ => none
  | .hostLinkDown _ => none
  | .partk _ _ => none
  | .kChangeApply _ => none
  | .phalt _ _ => none
  | .partitionHalt _ => none
  | .shadowSwap _ => none
  | .haltSlowPath _ => none
  | .partitionResume _ => none
  | .gridDispatch _ => none
  | .leaseStage _ => none
  | .saveAreaAllocate _ => none
  | .holdAcquire _ => none
  | .clusterPlace _ => none
  | .teamStart _ => none
  | .workSteal _ => none
  | .teamSwapOut _ => none
  | .gridCompletion _ => none
  | .watchdogTrap _ => none
  | .watchdogEnd _ => none
  | .batchForm _ => none
  | .swappedReturn _ => none
  | .blockHandOver _ => none
  | .sramSoftError _ => none
  | .linkTraining _ _ => none
  | .mroute _ _ => none
  | .mqcfg _ _ _ => none
  | .sextantFrame _ _ _ => none
  | .sextantFrameSend _ => none
  | .orderedPacketArrival _ _ => none
  | .beacon _ _ => none
  | .beaconSend _ => none
  | .orderedEmit _ _ => none
  | .stallDeclare _ _ => none
  | .stallNotice _ => none
  | .messageDelivery _ => none
  | .putGetServe _ _ _ _ => none
  | .reductionContribution _ => none
  | .reductionCombine _ _ _ => none
  | .reductionAbandon _ _ _ _ => none
  | .reductionResult _ _ _ => none
  | .abandonNotice _ _ => none
  | .tlbinvc _ _ => none
  | .invalidationComplete => none
  | .memcfg _ _ => none
  | .memcfgChangeComplete => none
  | .nrseed _ _ => none
  | .keydata _ _ _ => none
  | .rowActivate _ _ _ => none
  | .reset _ => none
  | .attctl _ _ => none
  | .attestationReportDone => none
  | .governorInterval _ => none
  | .plimit _ _ => none
  | .pclkmax _ _ _ => none
  | .pwrctl _ _ => none
  | .partitionIdle _ => none
  | .partitionOff _ => none
  | .thermalHot _ _ => none
  | .thermtrip _ => none
  | .registerWrite _ _ _ _ => none
  | .illegalInstruction _ => none
  | .linkFailure _ => none
  | .retransmission _ _ => none
/-- The word of a pair (R72). -/
def pairEncode (p q : Slot) : DWord := 1#1 ++ p.bits ++ 0#1 ++ q.bits

/-- The word of an instruction; a machine event has none. -/
def encode : Instr → Option DWord
  | .pairWord p q => some (pairEncode p q)
  | .nop => some 0x7800000000000000
  | .icpf n off => some (Fields.pack
      (.mk 0x78 n (off.extractLsb' 24 8) (off.extractLsb' 16 8) (off.extractLsb' 8 8) (off.extractLsb' 0 8) 1 0 0 0 0))
  | .hint w => some w
  | i => i.fields.map Fields.pack

/-- What the decoder reads from an instruction whose bits are `w`; the bits above `nbits` are 0. -/
def decodeTableWord (nbits w : Nat) : Option Instr :=
  (decodeBytes (bytesOfWord (BitVec.ofNat 64 (w % 2 ^ nbits)))).toOption.map Prod.fst

end Sys2Proof
end

