-- ==== Sys2Proof/Machine/Operands.lean ====
section
/-! DEFINITION. Operands: which registers an instruction reads and writes (spec/02_encoding.md R64, R65), its guard
(R69), and how a lane reads a register of each class (R64, R177). -/

namespace Sys2Proof.Machine

/-- The even s register of a pair number (R128). -/
def pairLo (p : Fin 24) : Fin 48 := ⟨2 * p.val, by omega⟩

/-- The odd s register of a pair number (R128). -/
def pairHi (p : Fin 24) : Fin 48 := ⟨2 * p.val + 1, by omega⟩

/-- The first s register of an octet. -/
def octLo (o : Fin 6) : Fin 48 := ⟨8 * o.val, by omega⟩

/-- The registers of a pair field that may be zero (R308). -/
def pzRegs : Option (Fin 24) → List (Reg × Nat)
  | some p => [(.s (pairLo p), 2)]
  | none => []

end Sys2Proof.Machine

namespace Sys2Proof
open Machine

/-- The registers of XFER and XMCAST (R296). -/
def XArgs.regs (x : XArgs) : List (Reg × Nat) :=
  [(x.bar, 1), (.s (pairLo x.recp), 2), (.s (pairLo x.src), 2), (.s (pairLo x.dst), 2)]

/-- The registers of XFER.FILL, which has no source (R296). -/
def XArgs.regsFill (x : XArgs) : List (Reg × Nat) := [(x.bar, 1), (.s (pairLo x.recp), 2), (.s (pairLo x.dst), 2)]

/-- The guard that a word carries whether or not it decodes: that of a full word, always for a pair word (R59, R69, R74). -/
def wordGuard (w : DWord) : Guard :=
  if w.getLsbD 63 then { hold := .none, pm := 0, pn := false } else (Fields.unpack w).guard

/-- The registers of a slot. -/
def Slot.reads (p : Slot) : List (Reg × Nat) := p.srcs.map (fun r => (r, 1))

/-- The guard of words that carry none: every lane of the split participates (R69, R74, R78). -/
def Guard.always : Guard := { hold := .none, pm := 0, pn := false }

/-- The register groups an instruction reads: first register and count. -/
def Instr.reads : Instr → List (Reg × Nat)
  | .mov _ a _ => [(a,1)]
  | .movImm _ _ _ => []
  | .iadd _ _ a b _ => [(a,1), (b,1)]
  | .iaddImm _ _ a _ _ => [(a,1)]
  | .isub _ _ a b _ => [(a,1), (b,1)]
  | .isubImm _ _ a _ _ => [(a,1)]
  | .iand _ a b _ => [(a,1), (b,1)]
  | .iandImm _ a _ _ => [(a,1)]
  | .ior _ a b _ => [(a,1), (b,1)]
  | .iorImm _ a _ _ => [(a,1)]
  | .ixor _ a b _ => [(a,1), (b,1)]
  | .ixorImm _ a _ _ => [(a,1)]
  | .shl _ a b _ => [(a,1), (b,1)]
  | .shlImm _ a _ _ => [(a,1)]
  | .shr _ a b _ => [(a,1), (b,1)]
  | .shrImm _ a _ _ => [(a,1)]
  | .sar _ a b _ => [(a,1), (b,1)]
  | .sarImm _ a _ _ => [(a,1)]
  | .imin _ _ a b _ => [(a,1), (b,1)]
  | .iminImm _ _ a _ _ => [(a,1)]
  | .imax _ _ a b _ => [(a,1), (b,1)]
  | .imaxImm _ _ a _ _ => [(a,1)]
  | .imul _ _ a b _ => [(a,1), (b,1)]
  | .imulImm _ _ a _ _ => [(a,1)]
  | .fadd _ _ a b _ => [(a,1), (b,1)]
  | .faddImm _ _ a _ _ => [(a,1)]
  | .fmul _ _ a b _ => [(a,1), (b,1)]
  | .fmulImm _ _ a _ _ => [(a,1)]
  | .fmin _ a b _ => [(a,1), (b,1)]
  | .fminImm _ a _ _ => [(a,1)]
  | .fmax _ a b _ => [(a,1), (b,1)]
  | .fmaxImm _ a _ _ => [(a,1)]
  | .pairWord p q => p.reads ++ q.reads
  | .andn _ a b _ => [(a,1), (b,1)]
  | .inot _ a _ => [(a,1)]
  | .rotl _ a b _ => [(a,1), (b,1)]
  | .shf _ _ a b c _ => [(a,1), (b,1), (c,1)]
  | .imulh _ a b _ => [(a,1), (b,1)]
  | .imulhu _ a b _ => [(a,1), (b,1)]
  | .imad _ _ a b c _ => [(a,1), (b,1), (c,1)]
  | .iabs _ _ a _ => [(a,1)]
  | .ineg _ _ a _ => [(a,1)]
  | .sel _ a b c _ => [(a,1), (b,1), (c,1)]
  | .bysel _ a b c _ => [(a,1), (b,1), (c,1)]
  | .clz _ a _ => [(a,1)]
  | .popc _ a _ => [(a,1)]
  | .brev _ a _ => [(a,1)]
  | .bfe _ _ a b _ => [(a,1), (b,1)]
  | .bfi _ a b c _ => [(a,1), (b,1), (c,1)]
  | .movw _ _ _ => []
  | .movx _ _ _ => []
  | .iset _ _ _ a b _ => [(a,1), (b,1)]
  | .mand _ _ _ _ => []
  | .mor _ _ _ _ => []
  | .mxor _ _ _ _ => []
  | .mnot _ _ _ => []
  | .mmov _ a _ => [(a,1)]
  | .mget _ _ _ => []
  | .mpop _ _ _ => []
  | .mffs _ _ _ => []
  | .shape _ a _ => [(a,1)]
  | .lxch _ _ a b c _ => [(a,1), (b,1), (c,1)]
  | .lpred _ _ _ a _ => [(a,1)]
  | .scan _ _ _ a _ => [(a,1)]
  | .rdux _ _ _ a _ => [(a,1)]
  | .matchLanes _ a _ => [(a,1)]
  | .fsub _ _ a b _ => [(a,1), (b,1)]
  | .ffma _ _ a b c _ => [(a,1), (b,1), (c,1)]
  | .fabs _ a _ => [(a,1)]
  | .fneg _ a _ => [(a,1)]
  | .fcps _ a b _ => [(a,1), (b,1)]
  | .frnd _ _ a _ => [(a,1)]
  | .fclass _ a _ => [(a,1)]
  | .fset _ _ _ a b _ => [(a,1), (b,1)]
  | .frcp _ a _ => [(a,1)]
  | .frsq _ a _ => [(a,1)]
  | .fsqrt _ a _ => [(a,1)]
  | .fex2 _ a _ => [(a,1)]
  | .flg2 _ a _ => [(a,1)]
  | .ftanh _ a _ => [(a,1)]
  | .fsin _ a _ => [(a,1)]
  | .fcos _ a _ => [(a,1)]
  | .hadd2 _ _ a b _ => [(a,1), (b,1)]
  | .hmul2 _ _ a b _ => [(a,1), (b,1)]
  | .hfma2 _ _ a b c _ => [(a,1), (b,1), (c,1)]
  | .hmax2 _ a b _ => [(a,1), (b,1)]
  | .hmin2 _ a b _ => [(a,1), (b,1)]
  | .cvtfi _ _ _ a _ => [(a,1)]
  | .cvtif _ _ _ a _ => [(a,1)]
  | .cvtfh _ _ a b _ => [(a,1), (b,1)]
  | .cvthf _ _ a _ => [(a,1)]
  | .cvtn8 _ _ _ d a b _ => [(d,1),(a,1),(b,1)]
  | .cvtf8 _ _ _ a _ => [(a,1)]
  | .qnt4 _ _ d a b c _ _ => [(d,1),(a,1),(b,1),(c,1)]
  | .dq4 _ _ a b c _ _ => [(a,1), (b,1), (c,1)]
  | .scale _ tf _ a b c _ => (a,1) :: (b,1) :: (scaleC tf c).map (fun r => (r,1))
  | .selkLd a loc slot _ => [(a,1), (loc,1), (slot,1)]
  | .selkRun loc geom _ => [(loc,1), (geom,1)]
  | .selkRd _ _ loc geom slot _ => [(loc,1), (geom,1), (slot,1)]
  | .rngx _ _ _ a key c _ _ => [(a,1), (.s (pairLo key),2), (c,1)]
  | .ld _ _ _ base idx _ _ => [(base,2),(idx,1)]
  | .st sz _ d base idx _ _ => [(d,sz.regs),(base,2),(idx,1)]
  | .ldu _ _ _ base idx _ _ => [(base,2),(idx,1)]
  | .atom op _ d base idx _ _ => [(d,if op = .cas then 2 else 1),(base,2),(idx,1)]
  | .red _ _ d base idx _ _ => [(d,1),(base,2),(idx,1)]
  | .fence _ _ => []
  | .pref base idx _ _ => [(base,2),(idx,1)]
  | .bra _ _ => []
  | .bru k _ _ => [(k,1)]
  | .brd _ _ _ => []
  | .call p _ _ => [(.s (pairLo p),2)]
  | .ret p _ => [(.s (pairLo p),2)]
  | .brx p _ => [(.s (pairLo p),2)]
  | .exit _ => []
  | .nop => []
  | .icpf _ _ => []
  | .hint _ => []
  | .binit _ _ loc arr bytes _ => [(loc,1), (arr,1), (bytes,1)]
  | .bjoin loc _ => [(loc,1)]
  | .barv _ loc _ => [(loc,1)]
  | .barx _ loc bytes _ => [(loc,1), (bytes,1)]
  | .bwait loc ph _ => [(loc,1), (ph,1)]
  | .btest _ loc ph _ => [(loc,1), (ph,1)]
  | .bwaitt _ loc ph t _ => [(loc,1), (ph,1), (t,1)]
  | .bleave loc _ => [(loc,1)]
  | .tbar _ => []
  | .cbar _ => []
  | .sleep a _ => [(a,1)]
  | .yield _ => []
  | .grow _ _ _ => []
  | .shrink _ _ => []
  | .fork p _ => [(.s (pairLo p),2)]
  | .joinw _ _ => []
  | .spawn _ idx cnt _ => [(idx,1), (cnt,1)]
  | .movs _ _ _ => []
  | .movsw _ a _ => [(a,1)]
  | .trap _ _ => []
  | .sysc _ a b _ => [(a,1), (b,1)]
  | .eret _ => []
  | .bkpt _ _ => []
  | .csave _ p _ => [(.s (pairLo p),2)]
  | .cload p _ => [(.s (pairLo p),2)]
  | .xferCopy x _ => x.regs
  | .xferTranspose x _ => x.regs
  | .xferRepack x _ => x.regs
  | .xferQuant x _ => x.regs
  | .xferDequant x _ => x.regs
  | .xferGather x _ => x.regs
  | .xferScatter x _ => x.regs
  | .xferFill x _ => x.regsFill
  | .xmcast x _ => x.regs
  | .twaita _ _ _ m _ => pzRegs m
  | .twaitl _ _ _ m _ => pzRegs m
  | .tffr _ _ m _ => pzRegs m
  | .tclr m _ => pzRegs m
  | .xstat _ _ _ _ => []
  | .rfence rec _ => pzRegs rec
  | .spfence loc len _ => [(loc,1), (len,1)]
  | .mfmt _ _ loc _ => [(loc,1)]
  | .mloop _ _ o _ => [(.s (octLo o),8)]
  | .accz _ a _ => [(a,1)]
  | .accrd _ _ a _ => [(a,1)]
  | .accwr a b _ => [(a,1), (b,1)]
  | .mwait _ _ a _ => [(a,1)]
  | .mstat _ a _ => [(a,1)]
  | .mhad _ _ _ loc geom _ => [(loc,1), (geom,1)]
  | .tbld _ o _ => [(.s (octLo o),8)]
  | .tlook _ o _ => [(.s (octLo o),8)]
  | .tval _ num _ => [(num,1)]
  | .tspill _ num loc _ => [(num,1), (loc,1)]
  | .tfill _ num _ => [(num,1)]
  | .tdrop num _ => [(num,1)]
  | .kvgath _ bar o _ _ => [(bar,1),(.s (octLo o),8)]
  | .kvapp o _ _ => [(.s (octLo o),8)]
  | .pgalloc _ req idx _ _ => [(req,1), (idx,1)]
  | .pgrefQ _ page _ _ => [(page,1)]
  | .pgrefQf _ page _ _ => [(page,1)]
  | .pgrefInc _ page _ _ => [(page,1)]
  | .pgrefDec _ page _ _ => [(page,1)]
  | .pgfetch page _ _ => [(page,1)]
  | .btset _ req idx page _ _ => [(req,1), (idx,1), (page,1)]
  | .btget _ req idx _ _ => [(req,1), (idx,1)]
  | .kvsend req dest rreq _ _ => [(req,1), (dest,1), (rreq,1)]
  | .pfxh _ ids par mdl _ _ => [(ids,1), (.s (pairLo par),2), (mdl,1)]
  | .pfxlook _ key req idx _ _ => [(key,1), (req,1), (idx,1)]
  | .pfxins _ key page _ _ => [(key,1), (page,1)]
  | .pfxinsDel _ page _ _ => [(page,1)]
  | .sqget _ hd _ _ => [(hd,1)]
  | .tokemit _ hd loc cnt _ => [(hd,1), (loc,1), (cnt,1)]
  | .sqstop _ hd reason _ => [(hd,1), (reason,1)]
  | .sqroll _ hd n _ => [(hd,1), (n,1)]
  | .sqyield _ _ hd _ => [(hd,1)]
  | .nsend _ len dq src _ _ => [(len,1),(dq,1),(.s (pairLo src),2)]
  | .nput _ _ len dest src raddr _ _ => [(len,1),(dest,1),(.s (pairLo src),2),(.s (pairLo raddr),2)]
  | .nget _ len dest raddr dst _ _ => [(len,1),(dest,1),(.s (pairLo raddr),2),(.s (pairLo dst),2)]
  | .nred _ blk _ _ => [(blk,1)]
  | .npoll _ q _ => [(q,1)]
  | .nrecv q dst mx _ _ => [(q,1), (.s (pairLo dst),2), (mx,1)]
  | .ntime _ _ _ => []
  | .splitMerge _ _ _ => []
  | .icacheMissFill _ _ _ => []
  | .yieldTimeout _ _ => []
  | .sleepExpire _ _ => []
  | .bwaittTimeout _ _ => []
  | .growGrant _ => []
  | .growDeadlockResolve _ => []
  | .syncOpEffect _ _ => []
  | .exitUnblock _ _ => []
  | .registerWriteLand _ => []
  | .forkSwapOut _ => []
  | .forkResume _ => []
  | .storeDrain _ => []
  | .l2LineEvict _ => []
  | .hostMemoryAccess _ _ _ _ => []
  | .engineLineRelease _ _ _ => []
  | .commandComplete _ => []
  | .traverseRefusalRetry _ _ _ _ => []
  | .loopStep _ _ => []
  | .tableBuild _ _ => []
  | .tlookStep _ _ => []
  | .loopComplete _ _ => []
  | .kvgathPageStep _ _ => []
  | .evictionComplete _ _ => []
  | .fetchComplete _ _ _ => []
  | .chartScrub _ _ _ => []
  | .chcfgReload _ _ => []
  | .blockTableRecord _ => []
  | .kvsendAck _ _ => []
  | .launch _ => []
  | .admitReq _ => []
  | .cancel _ => []
  | .model _ => []
  | .modeldel _ => []
  | .badcmd _ => []
  | .rtail _ _ _ => []
  | .ehead _ _ _ => []
  | .semaphoreRead _ _ _ => []
  | .semaphoreWrite _ _ _ => []
  | .hostLinkDown _ => []
  | .partk _ _ => []
  | .kChangeApply _ => []
  | .phalt _ _ => []
  | .partitionHalt _ => []
  | .shadowSwap _ => []
  | .haltSlowPath _ => []
  | .partitionResume _ => []
  | .gridDispatch _ => []
  | .leaseStage _ => []
  | .saveAreaAllocate _ => []
  | .holdAcquire _ => []
  | .clusterPlace _ => []
  | .teamStart _ => []
  | .workSteal _ => []
  | .teamSwapOut _ => []
  | .gridCompletion _ => []
  | .watchdogTrap _ => []
  | .watchdogEnd _ => []
  | .batchForm _ => []
  | .swappedReturn _ => []
  | .blockHandOver _ => []
  | .sramSoftError _ => []
  | .linkTraining _ _ => []
  | .mroute _ _ => []
  | .mqcfg _ _ _ => []
  | .sextantFrame _ _ _ => []
  | .sextantFrameSend _ => []
  | .orderedPacketArrival _ _ => []
  | .beacon _ _ => []
  | .beaconSend _ => []
  | .orderedEmit _ _ => []
  | .stallDeclare _ _ => []
  | .stallNotice _ => []
  | .messageDelivery _ => []
  | .putGetServe _ _ _ _ => []
  | .reductionContribution _ => []
  | .reductionCombine _ _ _ => []
  | .reductionAbandon _ _ _ _ => []
  | .reductionResult _ _ _ => []
  | .abandonNotice _ _ => []
  | .tlbinvc _ _ => []
  | .invalidationComplete => []
  | .memcfg _ _ => []
  | .memcfgChangeComplete => []
  | .nrseed _ _ => []
  | .keydata _ _ _ => []
  | .rowActivate _ _ _ => []
  | .reset _ => []
  | .attctl _ _ => []
  | .attestationReportDone => []
  | .governorInterval _ => []
  | .plimit _ _ => []
  | .pclkmax _ _ _ => []
  | .pwrctl _ _ => []
  | .partitionIdle _ => []
  | .partitionOff _ => []
  | .thermalHot _ _ => []
  | .thermtrip _ => []
  | .registerWrite _ _ _ _ => []
  | .illegalInstruction _ => []
  | .linkFailure _ => []
  | .retransmission _ _ => []

/-- The register groups an instruction writes: first register and count. -/
def Instr.writes : Instr → List (Reg × Nat)
  | .mov d _ _ => [(d,1)]
  | .movImm d _ _ => [(d,1)]
  | .iadd _ d _ _ _ => [(d,1)]
  | .iaddImm _ d _ _ _ => [(d,1)]
  | .isub _ d _ _ _ => [(d,1)]
  | .isubImm _ d _ _ _ => [(d,1)]
  | .iand d _ _ _ => [(d,1)]
  | .iandImm d _ _ _ => [(d,1)]
  | .ior d _ _ _ => [(d,1)]
  | .iorImm d _ _ _ => [(d,1)]
  | .ixor d _ _ _ => [(d,1)]
  | .ixorImm d _ _ _ => [(d,1)]
  | .shl d _ _ _ => [(d,1)]
  | .shlImm d _ _ _ => [(d,1)]
  | .shr d _ _ _ => [(d,1)]
  | .shrImm d _ _ _ => [(d,1)]
  | .sar d _ _ _ => [(d,1)]
  | .sarImm d _ _ _ => [(d,1)]
  | .imin _ d _ _ _ => [(d,1)]
  | .iminImm _ d _ _ _ => [(d,1)]
  | .imax _ d _ _ _ => [(d,1)]
  | .imaxImm _ d _ _ _ => [(d,1)]
  | .imul _ d _ _ _ => [(d,1)]
  | .imulImm _ d _ _ _ => [(d,1)]
  | .fadd _ d _ _ _ => [(d,1)]
  | .faddImm _ d _ _ _ => [(d,1)]
  | .fmul _ d _ _ _ => [(d,1)]
  | .fmulImm _ d _ _ _ => [(d,1)]
  | .fmin d _ _ _ => [(d,1)]
  | .fminImm d _ _ _ => [(d,1)]
  | .fmax d _ _ _ => [(d,1)]
  | .fmaxImm d _ _ _ => [(d,1)]
  | .pairWord p q => [(p.d,1),(q.d,1)]
  | .andn d _ _ _ => [(d,1)]
  | .inot d _ _ => [(d,1)]
  | .rotl d _ _ _ => [(d,1)]
  | .shf _ d _ _ _ _ => [(d,1)]
  | .imulh d _ _ _ => [(d,1)]
  | .imulhu d _ _ _ => [(d,1)]
  | .imad _ d _ _ _ _ => [(d,1)]
  | .iabs _ d _ _ => [(d,1)]
  | .ineg _ d _ _ => [(d,1)]
  | .sel d _ _ _ _ => [(d,1)]
  | .bysel d _ _ _ _ => [(d,1)]
  | .clz d _ _ => [(d,1)]
  | .popc d _ _ => [(d,1)]
  | .brev d _ _ => [(d,1)]
  | .bfe _ d _ _ _ => [(d,1)]
  | .bfi d _ _ _ _ => [(d,1)]
  | .movw d _ _ => [(d,1)]
  | .movx d _ _ => [(d,1)]
  | .iset _ _ _ _ _ _ => []
  | .mand _ _ _ _ => []
  | .mor _ _ _ _ => []
  | .mxor _ _ _ _ => []
  | .mnot _ _ _ => []
  | .mmov _ _ _ => []
  | .mget d _ _ => [(d,1)]
  | .mpop d _ _ => [(d,1)]
  | .mffs d _ _ => [(d,1)]
  | .shape d _ _ => [(d,1)]
  | .lxch _ d _ _ _ _ => [(d,1)]
  | .lpred _ _ d _ _ => [(d,1)]
  | .scan _ _ d _ _ => [(d,1)]
  | .rdux _ _ d _ _ => [(d,1)]
  | .matchLanes d _ _ => [(d,1)]
  | .fsub _ d _ _ _ => [(d,1)]
  | .ffma _ d _ _ _ _ => [(d,1)]
  | .fabs d _ _ => [(d,1)]
  | .fneg d _ _ => [(d,1)]
  | .fcps d _ _ _ => [(d,1)]
  | .frnd _ d _ _ => [(d,1)]
  | .fclass d _ _ => [(d,1)]
  | .fset _ _ _ _ _ _ => []
  | .frcp d _ _ => [(d,1)]
  | .frsq d _ _ => [(d,1)]
  | .fsqrt d _ _ => [(d,1)]
  | .fex2 d _ _ => [(d,1)]
  | .flg2 d _ _ => [(d,1)]
  | .ftanh d _ _ => [(d,1)]
  | .fsin d _ _ => [(d,1)]
  | .fcos d _ _ => [(d,1)]
  | .hadd2 _ d _ _ _ => [(d,1)]
  | .hmul2 _ d _ _ _ => [(d,1)]
  | .hfma2 _ d _ _ _ _ => [(d,1)]
  | .hmax2 d _ _ _ => [(d,1)]
  | .hmin2 d _ _ _ => [(d,1)]
  | .cvtfi _ _ d _ _ => [(d,1)]
  | .cvtif _ _ d _ _ => [(d,1)]
  | .cvtfh _ d _ _ _ => [(d,1)]
  | .cvthf _ d _ _ => [(d,1)]
  | .cvtn8 _ _ _ d _ _ _ => [(d,1)]
  | .cvtf8 _ _ d _ _ => [(d,1)]
  | .qnt4 _ _ d _ _ _ _ _ => [(d,1)]
  | .dq4 _ d _ _ _ _ _ => [(d,1)]
  | .scale _ _ d _ _ _ _ => [(d,1)]
  | .selkLd _ _ _ _ => []
  | .selkRun _ _ _ => []
  | .selkRd _ d _ _ _ _ => [(d,1)]
  | .rngx cnt _ d _ _ _ _ _ => [(d,cnt.num)]
  | .ld sz _ d _ _ _ _ => [(d,sz.regs)]
  | .st _ _ _ _ _ _ _ => []
  | .ldu sz _ d _ _ _ _ => [(d,sz.regs)]
  | .atom _ _ d _ _ _ _ => [(d,1)]
  | .red _ _ _ _ _ _ _ => []
  | .fence _ _ => []
  | .pref _ _ _ _ => []
  | .bra _ _ => []
  | .bru _ _ _ => []
  | .brd _ _ _ => []
  | .call p _ _ => [(.s (pairLo p),2)]
  | .ret _ _ => []
  | .brx _ _ => []
  | .exit _ => []
  | .nop => []
  | .icpf _ _ => []
  | .hint _ => []
  | .binit _ _ _ _ _ _ => []
  | .bjoin _ _ => []
  | .barv d _ _ => [(d,1)]
  | .barx d _ _ _ => [(d,1)]
  | .bwait _ _ _ => []
  | .btest d _ _ _ => [(d,1)]
  | .bwaitt d _ _ _ _ => [(d,1)]
  | .bleave _ _ => []
  | .tbar _ => []
  | .cbar _ => []
  | .sleep _ _ => []
  | .yield _ => []
  | .grow d _ _ => [(d,1)]
  | .shrink _ _ => []
  | .fork _ _ => []
  | .joinw d _ => [(d,1)]
  | .spawn d _ _ _ => [(d,1)]
  | .movs d _ _ => [(d,1)]
  | .movsw _ _ _ => []
  | .trap _ _ => []
  | .sysc _ _ _ _ => []
  | .eret _ => []
  | .bkpt _ _ => []
  | .csave d _ _ => [(d,1)]
  | .cload _ _ => []
  | .xferCopy _ _ => []
  | .xferTranspose _ _ => []
  | .xferRepack _ _ => []
  | .xferQuant _ _ => []
  | .xferDequant _ _ => []
  | .xferGather _ _ => []
  | .xferScatter _ _ => []
  | .xferFill _ _ => []
  | .xmcast _ _ => []
  | .twaita _ _ d _ _ => [(d,1)]
  | .twaitl _ _ d _ _ => [(d,1)]
  | .tffr _ d _ _ => [(d,1)]
  | .tclr _ _ => []
  | .xstat _ d _ _ => [(d,1)]
  | .rfence _ _ => []
  | .spfence _ _ _ => []
  | .mfmt _ d _ _ => [(d,1)]
  | .mloop _ d _ _ => [(d,1)]
  | .accz _ _ _ => []
  | .accrd _ d _ _ => [(d,1)]
  | .accwr _ _ _ => []
  | .mwait _ d _ _ => [(d,1)]
  | .mstat d _ _ => [(d,1)]
  | .mhad _ _ d _ _ _ => [(d,1)]
  | .tbld d _ _ => [(d,1)]
  | .tlook d _ _ => [(d,1)]
  | .tval d _ _ => [(d,1)]
  | .tspill d _ _ _ => [(d,1)]
  | .tfill d _ _ => [(d,1)]
  | .tdrop _ _ => []
  | .kvgath _ _ _ _ _ => []
  | .kvapp _ _ _ => []
  | .pgalloc d _ _ _ _ => [(d,1)]
  | .pgrefQ d _ _ _ => [(d,1)]
  | .pgrefQf d _ _ _ => [(d,1)]
  | .pgrefInc d _ _ _ => [(d,1)]
  | .pgrefDec d _ _ _ => [(d,1)]
  | .pgfetch _ _ _ => []
  | .btset d _ _ _ _ _ => [(d,1)]
  | .btget d _ _ _ _ => [(d,1)]
  | .kvsend _ _ _ _ _ => []
  | .pfxh d _ _ _ _ _ => [(.s (pairLo d),2)]
  | .pfxlook d _ _ _ _ _ => [(d,1)]
  | .pfxins d _ _ _ _ => [(d,1)]
  | .pfxinsDel d _ _ _ => [(d,1)]
  | .sqget d _ _ _ => [(d,1)]
  | .tokemit d _ _ _ _ => [(d,1)]
  | .sqstop d _ _ _ => [(d,1)]
  | .sqroll d _ _ _ => [(d,1)]
  | .sqyield _ d _ _ => [(d,1)]
  | .nsend _ _ _ _ _ _ => []
  | .nput _ _ _ _ _ _ _ _ => []
  | .nget _ _ _ _ _ _ _ => []
  | .nred _ _ _ _ => []
  | .npoll d _ _ => [(d,1)]
  | .nrecv _ _ _ _ _ => []
  | .ntime _ d _ => [(.s (pairLo d),2)]
  | .splitMerge _ _ _ => []
  | .icacheMissFill _ _ _ => []
  | .yieldTimeout _ _ => []
  | .sleepExpire _ _ => []
  | .bwaittTimeout _ _ => []
  | .growGrant _ => []
  | .growDeadlockResolve _ => []
  | .syncOpEffect _ _ => []
  | .exitUnblock _ _ => []
  | .registerWriteLand _ => []
  | .forkSwapOut _ => []
  | .forkResume _ => []
  | .storeDrain _ => []
  | .l2LineEvict _ => []
  | .hostMemoryAccess _ _ _ _ => []
  | .engineLineRelease _ _ _ => []
  | .commandComplete _ => []
  | .traverseRefusalRetry _ _ _ _ => []
  | .loopStep _ _ => []
  | .tableBuild _ _ => []
  | .tlookStep _ _ => []
  | .loopComplete _ _ => []
  | .kvgathPageStep _ _ => []
  | .evictionComplete _ _ => []
  | .fetchComplete _ _ _ => []
  | .chartScrub _ _ _ => []
  | .chcfgReload _ _ => []
  | .blockTableRecord _ => []
  | .kvsendAck _ _ => []
  | .launch _ => []
  | .admitReq _ => []
  | .cancel _ => []
  | .model _ => []
  | .modeldel _ => []
  | .badcmd _ => []
  | .rtail _ _ _ => []
  | .ehead _ _ _ => []
  | .semaphoreRead _ _ _ => []
  | .semaphoreWrite _ _ _ => []
  | .hostLinkDown _ => []
  | .partk _ _ => []
  | .kChangeApply _ => []
  | .phalt _ _ => []
  | .partitionHalt _ => []
  | .shadowSwap _ => []
  | .haltSlowPath _ => []
  | .partitionResume _ => []
  | .gridDispatch _ => []
  | .leaseStage _ => []
  | .saveAreaAllocate _ => []
  | .holdAcquire _ => []
  | .clusterPlace _ => []
  | .teamStart _ => []
  | .workSteal _ => []
  | .teamSwapOut _ => []
  | .gridCompletion _ => []
  | .watchdogTrap _ => []
  | .watchdogEnd _ => []
  | .batchForm _ => []
  | .swappedReturn _ => []
  | .blockHandOver _ => []
  | .sramSoftError _ => []
  | .linkTraining _ _ => []
  | .mroute _ _ => []
  | .mqcfg _ _ _ => []
  | .sextantFrame _ _ _ => []
  | .sextantFrameSend _ => []
  | .orderedPacketArrival _ _ => []
  | .beacon _ _ => []
  | .beaconSend _ => []
  | .orderedEmit _ _ => []
  | .stallDeclare _ _ => []
  | .stallNotice _ => []
  | .messageDelivery _ => []
  | .putGetServe _ _ _ _ => []
  | .reductionContribution _ => []
  | .reductionCombine _ _ _ => []
  | .reductionAbandon _ _ _ _ => []
  | .reductionResult _ _ _ => []
  | .abandonNotice _ _ => []
  | .tlbinvc _ _ => []
  | .invalidationComplete => []
  | .memcfg _ _ => []
  | .memcfgChangeComplete => []
  | .nrseed _ _ => []
  | .keydata _ _ _ => []
  | .rowActivate _ _ _ => []
  | .reset _ => []
  | .attctl _ _ => []
  | .attestationReportDone => []
  | .governorInterval _ => []
  | .plimit _ _ => []
  | .pclkmax _ _ _ => []
  | .pwrctl _ _ => []
  | .partitionIdle _ => []
  | .partitionOff _ => []
  | .thermalHot _ _ => []
  | .thermtrip _ => []
  | .registerWrite _ _ _ _ => []
  | .illegalInstruction _ => []
  | .linkFailure _ => []
  | .retransmission _ _ => []

/-- HOLD and the predicate of an instruction (R59, R69). -/
def Instr.guard : Instr → Guard
  | .mov _ _ g => g
  | .movImm _ _ g => g
  | .iadd _ _ _ _ g => g
  | .iaddImm _ _ _ _ g => g
  | .isub _ _ _ _ g => g
  | .isubImm _ _ _ _ g => g
  | .iand _ _ _ g => g
  | .iandImm _ _ _ g => g
  | .ior _ _ _ g => g
  | .iorImm _ _ _ g => g
  | .ixor _ _ _ g => g
  | .ixorImm _ _ _ g => g
  | .shl _ _ _ g => g
  | .shlImm _ _ _ g => g
  | .shr _ _ _ g => g
  | .shrImm _ _ _ g => g
  | .sar _ _ _ g => g
  | .sarImm _ _ _ g => g
  | .imin _ _ _ _ g => g
  | .iminImm _ _ _ _ g => g
  | .imax _ _ _ _ g => g
  | .imaxImm _ _ _ _ g => g
  | .imul _ _ _ _ g => g
  | .imulImm _ _ _ _ g => g
  | .fadd _ _ _ _ g => g
  | .faddImm _ _ _ _ g => g
  | .fmul _ _ _ _ g => g
  | .fmulImm _ _ _ _ g => g
  | .fmin _ _ _ g => g
  | .fminImm _ _ _ g => g
  | .fmax _ _ _ g => g
  | .fmaxImm _ _ _ g => g
  | .pairWord _ _ => Guard.always
  | .andn _ _ _ g => g
  | .inot _ _ g => g
  | .rotl _ _ _ g => g
  | .shf _ _ _ _ _ g => g
  | .imulh _ _ _ g => g
  | .imulhu _ _ _ g => g
  | .imad _ _ _ _ _ g => g
  | .iabs _ _ _ g => g
  | .ineg _ _ _ g => g
  | .sel _ _ _ _ g => g
  | .bysel _ _ _ _ g => g
  | .clz _ _ g => g
  | .popc _ _ g => g
  | .brev _ _ g => g
  | .bfe _ _ _ _ g => g
  | .bfi _ _ _ _ g => g
  | .movw _ _ g => g
  | .movx _ _ g => g
  | .iset _ _ _ _ _ g => g
  | .mand _ _ _ g => g
  | .mor _ _ _ g => g
  | .mxor _ _ _ g => g
  | .mnot _ _ g => g
  | .mmov _ _ g => g
  | .mget _ _ g => g
  | .mpop _ _ g => g
  | .mffs _ _ g => g
  | .shape _ _ g => g
  | .lxch _ _ _ _ _ g => g
  | .lpred _ _ _ _ g => g
  | .scan _ _ _ _ g => g
  | .rdux _ _ _ _ g => g
  | .matchLanes _ _ g => g
  | .fsub _ _ _ _ g => g
  | .ffma _ _ _ _ _ g => g
  | .fabs _ _ g => g
  | .fneg _ _ g => g
  | .fcps _ _ _ g => g
  | .frnd _ _ _ g => g
  | .fclass _ _ g => g
  | .fset _ _ _ _ _ g => g
  | .frcp _ _ g => g
  | .frsq _ _ g => g
  | .fsqrt _ _ g => g
  | .fex2 _ _ g => g
  | .flg2 _ _ g => g
  | .ftanh _ _ g => g
  | .fsin _ _ g => g
  | .fcos _ _ g => g
  | .hadd2 _ _ _ _ g => g
  | .hmul2 _ _ _ _ g => g
  | .hfma2 _ _ _ _ _ g => g
  | .hmax2 _ _ _ g => g
  | .hmin2 _ _ _ g => g
  | .cvtfi _ _ _ _ g => g
  | .cvtif _ _ _ _ g => g
  | .cvtfh _ _ _ _ g => g
  | .cvthf _ _ _ g => g
  | .cvtn8 _ _ _ _ _ _ g => g
  | .cvtf8 _ _ _ _ g => g
  | .qnt4 _ _ _ _ _ _ _ g => g
  | .dq4 _ _ _ _ _ _ g => g
  | .scale _ _ _ _ _ _ g => g
  | .selkLd _ _ _ g => g
  | .selkRun _ _ g => g
  | .selkRd _ _ _ _ _ g => g
  | .rngx _ _ _ _ _ _ _ g => g
  | .ld _ _ _ _ _ _ g => g
  | .st _ _ _ _ _ _ g => g
  | .ldu _ _ _ _ _ _ g => g
  | .atom _ _ _ _ _ _ g => g
  | .red _ _ _ _ _ _ g => g
  | .fence _ g => g
  | .pref _ _ _ g => g
  | .bra _ g => g
  | .bru _ _ g => g
  | .brd _ _ g => g
  | .call _ _ g => g
  | .ret _ g => g
  | .brx _ g => g
  | .exit g => g
  | .nop => Guard.always
  | .icpf _ _ => Guard.always
  | .hint _ => Guard.always
  | .binit _ _ _ _ _ g => g
  | .bjoin _ g => g
  | .barv _ _ g => g
  | .barx _ _ _ g => g
  | .bwait _ _ g => g
  | .btest _ _ _ g => g
  | .bwaitt _ _ _ _ g => g
  | .bleave _ g => g
  | .tbar g => g
  | .cbar g => g
  | .sleep _ g => g
  | .yield g => g
  | .grow _ _ g => g
  | .shrink _ g => g
  | .fork _ g => g
  | .joinw _ g => g
  | .spawn _ _ _ g => g
  | .movs _ _ g => g
  | .movsw _ _ g => g
  | .trap _ g => g
  | .sysc _ _ _ g => g
  | .eret g => g
  | .bkpt _ g => g
  | .csave _ _ g => g
  | .cload _ g => g
  | .xferCopy _ g => g
  | .xferTranspose _ g => g
  | .xferRepack _ g => g
  | .xferQuant _ g => g
  | .xferDequant _ g => g
  | .xferGather _ g => g
  | .xferScatter _ g => g
  | .xferFill _ g => g
  | .xmcast _ g => g
  | .twaita _ _ _ _ g => g
  | .twaitl _ _ _ _ g => g
  | .tffr _ _ _ g => g
  | .tclr _ g => g
  | .xstat _ _ _ g => g
  | .rfence _ g => g
  | .spfence _ _ g => g
  | .mfmt _ _ _ g => g
  | .mloop _ _ _ g => g
  | .accz _ _ g => g
  | .accrd _ _ _ g => g
  | .accwr _ _ g => g
  | .mwait _ _ _ g => g
  | .mstat _ _ g => g
  | .mhad _ _ _ _ _ g => g
  | .tbld _ _ g => g
  | .tlook _ _ g => g
  | .tval _ _ g => g
  | .tspill _ _ _ g => g
  | .tfill _ _ g => g
  | .tdrop _ g => g
  | .kvgath _ _ _ _ g => g
  | .kvapp _ _ g => g
  | .pgalloc _ _ _ _ g => g
  | .pgrefQ _ _ _ g => g
  | .pgrefQf _ _ _ g => g
  | .pgrefInc _ _ _ g => g
  | .pgrefDec _ _ _ g => g
  | .pgfetch _ _ g => g
  | .btset _ _ _ _ _ g => g
  | .btget _ _ _ _ g => g
  | .kvsend _ _ _ _ g => g
  | .pfxh _ _ _ _ _ g => g
  | .pfxlook _ _ _ _ _ g => g
  | .pfxins _ _ _ _ g => g
  | .pfxinsDel _ _ _ g => g
  | .sqget _ _ _ g => g
  | .tokemit _ _ _ _ g => g
  | .sqstop _ _ _ g => g
  | .sqroll _ _ _ g => g
  | .sqyield _ _ _ g => g
  | .nsend _ _ _ _ _ g => g
  | .nput _ _ _ _ _ _ _ g => g
  | .nget _ _ _ _ _ _ g => g
  | .nred _ _ _ g => g
  | .npoll _ _ g => g
  | .nrecv _ _ _ _ g => g
  | .ntime _ _ g => g
  | .splitMerge _ _ _ => Guard.always
  | .icacheMissFill _ _ _ => Guard.always
  | .yieldTimeout _ _ => Guard.always
  | .sleepExpire _ _ => Guard.always
  | .bwaittTimeout _ _ => Guard.always
  | .growGrant _ => Guard.always
  | .growDeadlockResolve _ => Guard.always
  | .syncOpEffect _ _ => Guard.always
  | .exitUnblock _ _ => Guard.always
  | .registerWriteLand _ => Guard.always
  | .forkSwapOut _ => Guard.always
  | .forkResume _ => Guard.always
  | .storeDrain _ => Guard.always
  | .l2LineEvict _ => Guard.always
  | .hostMemoryAccess _ _ _ _ => Guard.always
  | .engineLineRelease _ _ _ => Guard.always
  | .commandComplete _ => Guard.always
  | .traverseRefusalRetry _ _ _ _ => Guard.always
  | .loopStep _ _ => Guard.always
  | .tableBuild _ _ => Guard.always
  | .tlookStep _ _ => Guard.always
  | .loopComplete _ _ => Guard.always
  | .kvgathPageStep _ _ => Guard.always
  | .evictionComplete _ _ => Guard.always
  | .fetchComplete _ _ _ => Guard.always
  | .chartScrub _ _ _ => Guard.always
  | .chcfgReload _ _ => Guard.always
  | .blockTableRecord _ => Guard.always
  | .kvsendAck _ _ => Guard.always
  | .launch _ => Guard.always
  | .admitReq _ => Guard.always
  | .cancel _ => Guard.always
  | .model _ => Guard.always
  | .modeldel _ => Guard.always
  | .badcmd _ => Guard.always
  | .rtail _ _ _ => Guard.always
  | .ehead _ _ _ => Guard.always
  | .semaphoreRead _ _ _ => Guard.always
  | .semaphoreWrite _ _ _ => Guard.always
  | .hostLinkDown _ => Guard.always
  | .partk _ _ => Guard.always
  | .kChangeApply _ => Guard.always
  | .phalt _ _ => Guard.always
  | .partitionHalt _ => Guard.always
  | .shadowSwap _ => Guard.always
  | .haltSlowPath _ => Guard.always
  | .partitionResume _ => Guard.always
  | .gridDispatch _ => Guard.always
  | .leaseStage _ => Guard.always
  | .saveAreaAllocate _ => Guard.always
  | .holdAcquire _ => Guard.always
  | .clusterPlace _ => Guard.always
  | .teamStart _ => Guard.always
  | .workSteal _ => Guard.always
  | .teamSwapOut _ => Guard.always
  | .gridCompletion _ => Guard.always
  | .watchdogTrap _ => Guard.always
  | .watchdogEnd _ => Guard.always
  | .batchForm _ => Guard.always
  | .swappedReturn _ => Guard.always
  | .blockHandOver _ => Guard.always
  | .sramSoftError _ => Guard.always
  | .linkTraining _ _ => Guard.always
  | .mroute _ _ => Guard.always
  | .mqcfg _ _ _ => Guard.always
  | .sextantFrame _ _ _ => Guard.always
  | .sextantFrameSend _ => Guard.always
  | .orderedPacketArrival _ _ => Guard.always
  | .beacon _ _ => Guard.always
  | .beaconSend _ => Guard.always
  | .orderedEmit _ _ => Guard.always
  | .stallDeclare _ _ => Guard.always
  | .stallNotice _ => Guard.always
  | .messageDelivery _ => Guard.always
  | .putGetServe _ _ _ _ => Guard.always
  | .reductionContribution _ => Guard.always
  | .reductionCombine _ _ _ => Guard.always
  | .reductionAbandon _ _ _ _ => Guard.always
  | .reductionResult _ _ _ => Guard.always
  | .abandonNotice _ _ => Guard.always
  | .tlbinvc _ _ => Guard.always
  | .invalidationComplete => Guard.always
  | .memcfg _ _ => Guard.always
  | .memcfgChangeComplete => Guard.always
  | .nrseed _ _ => Guard.always
  | .keydata _ _ _ => Guard.always
  | .rowActivate _ _ _ => Guard.always
  | .reset _ => Guard.always
  | .attctl _ _ => Guard.always
  | .attestationReportDone => Guard.always
  | .governorInterval _ => Guard.always
  | .plimit _ _ => Guard.always
  | .pclkmax _ _ _ => Guard.always
  | .pwrctl _ _ => Guard.always
  | .partitionIdle _ => Guard.always
  | .partitionOff _ => Guard.always
  | .thermalHot _ _ => Guard.always
  | .thermtrip _ => Guard.always
  | .registerWrite _ _ _ _ => Guard.always
  | .illegalInstruction _ => Guard.always
  | .linkFailure _ => Guard.always
  | .retransmission _ _ => Guard.always

/-- Field codes of a register group (R64). -/
def regCodes : Reg × Nat → List Nat
  | (.zero, _) => []
  | (r, n) => (List.range n).map (fun k => r.code.toNat + k)

/-- A v register group that runs past an allotment (R65). -/
def pastAllotment (vallot : Nat) : Reg × Nat → Bool
  | (.v k, n) => decide (vallot < k.val + n)
  | _ => false

/-- R65: some register read or written lies beyond the allotment. -/
def Instr.rangeBad (i : Instr) (vallot : Nat) : Bool :=
  (i.reads ++ i.writes).any (pastAllotment vallot)

/-- The registers the scoreboard checks before issue (R105). -/
def Instr.regSet (i : Instr) : List Nat := (i.reads ++ i.writes).flatMap regCodes

end Sys2Proof

namespace Sys2Proof.Machine

/-- Lanes as a list by lane number. -/
def lanesOf (f : Nat → Word) : Lanes := (List.range 32).map f

/-- The value of lane `l`. -/
def laneOf (ls : Lanes) (l : Nat) : Word := ls.getD l 0

/-- The value lane `l` reads from a register, given the group's registers and the team's h registers (R64). -/
def readReg (g : Group) (h : Map Word) (r : Reg) (l : Nat) : Word :=
  match r with
  | .v n => laneOf (g.v.getD n.val []) l
  | .s n => g.s.getD n.val 0
  | .h n => h.getD n.val 0
  | .x n => let bs := g.x.getD n.val (0, 0); bs.1 + BitVec.ofNat 32 l * bs.2
  | .zero => 0

/-- The mask register m`n`; m0 reads as all ones (R66). -/
def readMask (g : Group) (n : Fin 8) : Word := if n = 0 then 0xFFFFFFFF else g.m.getD n.val 0

/-- The 64-bit value of an s register pair (R128). -/
def readPair (g : Group) (p : Fin 24) : DWord := g.s.getD (pairHi p).val 0 ++ g.s.getD (pairLo p).val 0

/-- The next register of the same class, for pairs and groups of registers. -/
def regAfter (r : Reg) (k : Nat) : Reg := Reg.ofCode (BitVec.ofNat 8 (r.code.toNat + k))

/-- The register `k` after the first of a group; a group at zero reads zero throughout (R219). -/
def regIn (r : Reg) (k : Nat) : Reg :=
  match r with
  | .zero => .zero
  | _ => regAfter r k

/-- Lanes that participate: the split's mask and the predicate (R69). -/
def activeMask (g : Group) (mask : Word) (gd : Guard) : Word :=
  let p := readMask g gd.pm
  mask &&& (if gd.pn then ~~~p else p)

/-- Whether bit `l` of a lane mask is 1. -/
def laneIn (m : Word) (l : Nat) : Bool := m.getLsbD l

/-- The lanes of a mask, ascending. -/
def lanesIn (m : Word) : List Nat := (List.range 32).filter (laneIn m)

/-- A mask from a predicate on lanes. -/
def maskOfLanes (p : Nat → Bool) : Word :=
  BitVec.ofNat 32 ((List.range 32).foldl (fun acc l => if p l then acc + 2 ^ l else acc) 0)

/-- The number of lanes of a mask. -/
def popMask (m : Word) : Nat := (lanesIn m).length

end Sys2Proof.Machine
end

