-- ==== Sys2Proof/Machine/Ops.lean ====
section
/-! DEFINITION. The named operations every meaning is built from: looking up and changing groups, teams and cores;
keys of logical time (spec/01_machine.md R35, R36); register writes (spec/02_encoding.md R64 to R71); retiring (R58,
R167); the race trap (spec/04_loadstore.md R211); taking a trap and returning from one (spec/03_sequencer.md R156 to
R160); and `issue`, the prelude of every instruction (R79, R105). -/

namespace Sys2Proof.Machine

/-! ### Lookups -/

/-- A core (R44). -/
def State.core (s : State) (c : Nat) : Core := s.cores.getD c Core.reset

/-- A changed core. -/
def State.modCore (s : State) (c : Nat) (f : Core → Core) : State :=
  { s with cores := s.cores.put Core.reset c (f (s.core c)) }

/-- A changed group. -/
def State.modGroup (s : State) (g : Nat) (f : Group → Group) : State :=
  { s with groups := s.groups.modify g f }

/-- A changed team. -/
def State.modTeam (s : State) (t : Nat) (f : Team → Team) : State :=
  { s with teams := s.teams.modify t f }

/-- A changed cluster. -/
def State.modCluster (s : State) (c : Nat) (f : Cluster → Cluster) : State :=
  { s with clusters := s.clusters.modify c f }

/-- A changed grid. -/
def State.modGrid (s : State) (g : Nat) (f : Grid → Grid) : State :=
  { s with grids := s.grids.modify g f }

/-- A group's split changed. -/
def State.modSplit (s : State) (g slot : Nat) (f : Split → Split) : State :=
  s.modGroup g (fun x => { x with splits := x.splits.modify slot f })

/-- The next free value number taken (assumption log 3). -/
def State.bump (s : State) : State := { s with fresh := s.fresh + 1 }

/-- Lanes of a group's splits and of their stacks (R112). -/
def Split.lanes (sp : Split) : Word := sp.stack.foldl (fun m e => m ||| e.2) sp.mask

/-- The live mask of a group (R112). -/
def Group.live (g : Group) : Word := g.splits.foldl (fun m e => m ||| e.2.lanes) 0

/-- A group that holds its place: neither DRAINING nor ENDED (R172). -/
def Group.alive (g : Group) : Bool :=
  match g.st with
  | .draining => false
  | .ended => false
  | _ => true

/-- Groups of a team: number and group. -/
def State.teamGroups (s : State) (t : Nat) : List (Nat × Group) := s.groups.filter (fun e => e.2.team = t)

/-- Teams of a cluster. -/
def State.clusterTeams (s : State) (c : Nat) : List (Nat × Team) := s.teams.filter (fun e => e.2.cluster = c)

/-- Groups of a cluster. -/
def State.clusterGroups (s : State) (c : Nat) : List (Nat × Group) :=
  s.groups.filter (fun e => (s.clusterTeams c).any (fun t => t.1 = e.2.team))

/-! ### Keys (00 R4, R5; R35, R36, R171) -/

/-- Lexicographic order of keys. -/
def keyLt (a b : Key) : Bool := decide (a.1 < b.1) || (decide (a.1 = b.1) && decide (a.2 < b.2))

/-- The later of two keys. -/
def keyMax (a b : Key) : Key := if keyLt a b then b else a

/-- The current key of a group (R35). -/
def Group.key (g : Group) : Key := (g.ltime.toNat, g.ggid.toNat)

/-- What a split's wait contributes while it is blocked for a releasing event of R169: none when it is not so blocked,
else the keys it contributes (R171). -/
def Wait.contrib (gid : Nat) : Wait → Option (List Key)
  | .phase _ _ _ (.some d) => some [(d, gid)]
  | .phase _ _ _ .none => some []
  | .tbar => some []
  | .cbar => some []
  | .fork _ => some []
  | .released k => some [k]
  | .expired k => some [k]
  | _ => Option.none

/-- A split that waits on tags: while a receive or a reduction among them waits for its message it is blocked for a
releasing event that does not exist yet, then for one with the message's key (R36, R504); else it holds the group's key
live (assumption log 40). -/
def State.tagWait (s : State) (g : Group) (live : DWord) : Option (List Key) :=
  let ts := ((List.range 64).filter (fun t => live.getLsbD t)).filterMap (fun t => (s.core g.core).tags.find? t)
  if ts.any (fun t => decide (t.st = .pending) && (s.cmds.find? t.cmd).any (fun c => !c.keyed)) then some []
  else
    let k := ts.foldl (fun k t => keyMax k t.key) g.key
    if k = g.key then none else some [k]

/-- What a split's wait contributes (R171, R504). -/
def State.waitKeys (s : State) (g : Group) (w : Wait) : Option (List Key) :=
  match w with
  | .tags live => s.tagWait g live
  | w => w.contrib g.ggid.toNat

/-- The keys a group holds live (R36, R171). -/
def State.groupKeys (s : State) (g : Group) : List Key :=
  match g.st with
  | .draining => []
  | .ended => []
  | .resident =>
    let cs := g.splits.map (fun e => s.waitKeys g e.2.wait)
    if !cs.isEmpty && cs.all Option.isSome then cs.flatMap (fun o => o.getD []) else [g.key]
  | _ => [g.key]

/-- The ASID of a group's grid. -/
def State.asidOf (s : State) (g : Group) : Nat :=
  match s.teams.find? g.team with
  | some t => (match s.grids.find? t.grid with
    | some gr => gr.asid
    | none => 0)
  | none => 0

/-- A group runs in Reckoning mode (R49). -/
def State.reckonOf (s : State) (g : Group) : Bool :=
  (s.teams.find? g.team).any (fun t => (s.grids.find? t.grid).any (fun (gr : Grid) => gr.record.reckon))

/-- A word that a group could not read, as a trap frame reports it (R159; assumption log 3). -/
def State.unread (s : State) (g : Group) : DWord :=
  if s.reckonOf g then Config.keyed g.key.1 g.key.2 1 ++ Config.keyed g.key.1 g.key.2 0 else Config.freeDWord s.fresh

/-- The live keys of a domain: its groups and its commands in flight (R36, R170). -/
def State.liveKeys (s : State) (cl : Nat) : List Key :=
  (s.clusterGroups cl).flatMap (fun e => s.groupKeys e.2) ++
    (s.cmds.filter (fun e => e.2.cluster = cl && e.2.keyed)).map (fun e => e.2.key)

/-- A key with no smaller live key in its domain (R36). -/
def State.smallest (s : State) (cl : Nat) (k : Key) : Bool := (s.liveKeys cl).all (fun j => !keyLt j k)

/-! ### The issuing instruction -/

/-- What an instruction sees as it issues: its place, its word, and the records before it. -/
structure Ctx where
  gid : Nat
  slot : Nat
  word : DWord
  grp : Group
  sp : Split
  team : Team
  cl : Cluster
  grid : Grid
  act : Word
deriving DecidableEq, Repr

/-- The context of a split at a word with a guard. -/
def State.ctxAt (s : State) (gid slot : Nat) (word : DWord) (gd : Guard) : Option Ctx :=
  match s.groups.find? gid with
  | none => none
  | some g =>
    match g.splits.find? slot, s.teams.find? g.team with
    | some sp, some t =>
      match s.clusters.find? t.cluster, s.grids.find? t.grid with
      | some cl, some gr =>
        some { gid := gid, slot := slot, word := word, grp := g, sp := sp, team := t, cl := cl, grid := gr,
               act := activeMask g sp.mask gd }
      | _, _ => none
    | _, _ => none

/-- The context of the split that issues `i` now. -/
def State.ctx? (s : State) (i : Instr) : Option Ctx :=
  match s.cur with
  | none => none
  | some loc => s.ctxAt loc.grp loc.slot loc.word i.guard

/-- Reckoning mode (R49). -/
def Ctx.reckon (c : Ctx) : Bool := c.grid.record.reckon

/-- The value lane `l` reads (R64). -/
def Ctx.rd (c : Ctx) (r : Reg) (l : Nat) : Word := readReg c.grp c.team.h r l

/-- The value of a uniform source. -/
def Ctx.uni (c : Ctx) (r : Reg) : Word := c.rd r 0

/-- The lowest participating lane. -/
def Ctx.lowLane (c : Ctx) : Nat := (lanesIn c.act).headD 0

/-! ### Register writes (R64 to R70) -/

/-- A v register written in the lanes of a mask; the others keep their values (R70). -/
def writeV (g : Group) (n : Nat) (act : Word) (f : Nat → Word) : Group :=
  let old := g.v.getD n []
  { g with v := g.v.put (lanesOf (fun _ => 0)) n (lanesOf (fun l => if laneIn act l then f l else laneOf old l)) }

/-- A result written to a register by its class: v in the participating lanes; s and h the uniform value; x the base
and stride of an affine one; zero discards (R65, R67, R118, R230). -/
def writeRegAt (gid team : Nat) (act : Word) (d : Reg) (f : Nat → Word) (s : State) : State :=
  match d with
  | .v n => s.modGroup gid (fun g => writeV g n.val act f)
  | .s n => s.modGroup gid (fun g => { g with s := g.s.put 0 n.val (f 0) })
  | .h n => s.modTeam team (fun t => { t with h := t.h.put 0 n.val (f 0) })
  | .x n => s.modGroup gid (fun g => { g with x := g.x.put (0, 0) n.val (f 0, f 1 - f 0) })
  | .zero => s

/-- A result of the issuing instruction. -/
def writeReg (c : Ctx) (d : Reg) (f : Nat → Word) (s : State) : State := writeRegAt c.gid c.grp.team c.act d f s

/-- A uniform result. -/
def writeUni (c : Ctx) (d : Reg) (w : Word) (s : State) : State := writeReg c d (fun _ => w) s

/-- A mask register written; m0 discards (R66). -/
def writeMask (c : Ctx) (d : Fin 8) (w : Word) (s : State) : State :=
  if d = 0 then s else s.modGroup c.gid (fun g => { g with m := g.m.put 0 d.val w })

/-- A 64-bit value written to an s register pair. -/
def writePair (c : Ctx) (p : Fin 24) (v : DWord) (s : State) : State :=
  writeUni c (.s (pairHi p)) (v.extractLsb' 32 32) (writeUni c (.s (pairLo p)) (v.extractLsb' 0 32) s)

/-! ### Retiring (R58, R109, R167) -/

/-- A split that YIELDed becomes eligible again (R109). -/
def Split.rouse (sp : Split) : Split := if sp.wait = .yield then { sp with wait := .none } else sp

/-- The splits of a group that YIELDed, but for one of them, become eligible again when its sequencer issues another
instruction (R109). -/
def Group.rouse (g : Group) (core seq : Nat) (but : Option Nat) : Group :=
  if g.core = core ∧ g.seq = seq then
    { g with splits := g.splits.map (fun x => (x.1, if but = some x.1 then x.2 else x.2.rouse)) }
  else g

/-- A sequencer has issued an instruction of a split: it is the one of its group chosen last (R106), and the sequencer's other
splits that YIELDed become eligible again (R109). -/
def State.issued (s : State) (core seq gid slot : Nat) : State :=
  { s with groups := s.groups.map (fun e =>
      (e.1, if e.1 = gid then { e.2.rouse core seq (some slot) with lastSlot := some slot } else e.2.rouse core seq none)) }

/-- LTIME after a retirement of `n` instructions, or of an operation that observed an event (R35, R167). -/
def nextLtime (reckon : Bool) (icnt ltime : DWord) (n : Nat) (obs : Option Key) : DWord :=
  if reckon then
    match obs with
    | some k => BitVec.ofNat 64 (max ltime.toNat k.1 + 1)
    | none => ltime + BitVec.ofNat 64 n
  else icnt + BitVec.ofNat 64 n

/-- The counters of a retirement (R58, R167). -/
def Group.count (g : Group) (reckon : Bool) (n : Nat) (obs : Option Key) : Group :=
  { g with icnt := g.icnt + BitVec.ofNat 64 n, ltime := nextLtime reckon g.icnt g.ltime n obs }

/-- A split goes on at `pc` and waits for nothing; `n` instructions of its group retire. -/
def State.retireAt (s : State) (gid slot : Nat) (reckon : Bool) (n : Nat) (obs : Option Key) (pc : DWord) : State :=
  (s.modGroup gid (fun g => g.count reckon n obs)).modSplit gid slot (fun sp => { sp with pc := pc, wait := .none })

/-- The issuing split goes on at `pc` and waits for nothing; `n` instructions retire. -/
def retireTo (c : Ctx) (n : Nat) (obs : Option Key) (pc : DWord) (s : State) : State :=
  (s.retireAt c.gid c.slot c.reckon n obs pc).issued c.grp.core c.grp.seq c.gid c.slot

/-- The event key a released wait observes (R167). -/
def Ctx.observed (c : Ctx) : Option Key :=
  match c.sp.wait with
  | .released k => some k
  | .expired k => some k
  | _ => none

/-- The instruction retires and the split goes on at the next word. -/
def retire (c : Ctx) (s : State) : State := retireTo c 1 c.observed (c.sp.pc + 8) s

/-- The split blocks at its instruction, which executes again when the wait has ended (R162). -/
def block (c : Ctx) (w : Wait) (s : State) : State :=
  (s.modSplit c.gid c.slot (fun sp => { sp with wait := w })).issued c.grp.core c.grp.seq c.gid c.slot

/-- The marks of almanac tables of a cluster's teams that have no key yet are marks at this key (R379). -/
def State.keyMarks (s : State) (cl : Nat) (k : Key) : State :=
  if s.teams.any (fun t => t.2.tables.any (fun e => e.2.marked)) then
    { s with teams := s.teams.map (fun t => (t.1, if t.2.cluster = cl then
        { t.2 with tables := t.2.tables.map (fun e => (e.1, if e.2.marked then
            { e.2 with marked := false, staleAt := some (match e.2.staleAt with
              | some j => if keyLt k j then k else j
              | none => k) } else e.2)) } else t.2)) }
  else s

/-- What an instruction of a Reckoning group marks, it marks at its key (R379). -/
def Ctx.marks (c : Ctx) (s : State) : State := if c.reckon then s.keyMarks c.team.cluster c.grp.key else s

/-! ### Draining and ending (R103, R104, R122, R157) -/

/-- SPADB of a team's grid (R93). -/
def State.spadb (s : State) (t : Team) : Nat :=
  match s.grids.find? t.grid with
  | some g => g.record.spadb
  | none => 0

/-- All groups of a team are ENDED (R104). -/
def State.teamEnded (s : State) (t : Nat) : Bool := (s.teamGroups t).all (fun e => e.2.st = .ended)

/-- Whether a team's grid runs in Reckoning mode (R49). -/
def State.teamReckon (s : State) (t : Team) : Bool :=
  match s.grids.find? t.grid with
  | some g => g.record.reckon
  | none => false

/-- Something of a group is on its way still: a store, or a register write. -/
def Group.trails (g : Group) : Bool := !g.fifo.isEmpty || !g.pend.isEmpty

/-- Something of a team is on its way still: a command, or something of its groups. -/
def State.teamTrails (s : State) (t : Nat) : Bool :=
  s.cmds.any (fun e => e.2.team = t) || (s.teamGroups t).any (fun e => e.2.trails)

/-- The record of a team that has ended leaves once nothing of it is on its way. -/
def State.dropTeam (s : State) (t : Nat) : State :=
  if (s.teams.find? t).any (fun tm => tm.ended) && !s.teamTrails t then
    { s with teams := s.teams.erase t, groups := s.groups.filter (fun e => e.2.team ≠ t) }
  else s

/-- R104: a team whose groups are all ENDED ends: its SPAD, its h registers, its tables and its reserve are freed. -/
def State.endTeam (s : State) (t : Nat) : State :=
  match s.teams.find? t with
  | none => s
  | some tm =>
    let s := if !tm.ended && s.teamEnded t then
        (s.modCore tm.core (fun c =>
          { c with poolFree := c.poolFree + tm.reserve,
                   phaseKey := c.phaseKey.filter (fun e => decide (e.1 < tm.spadBase) || decide (tm.spadBase + s.spadb tm ≤ e.1)) })).modTeam
          t (fun tm => { tm with ended := true, reserve := 0 })
      else s
    s.dropTeam t

/-- R122: released registers drain until no write is pending to them; those that SHRINK, EXIT or a swap-out released then
return to the pool. -/
def State.freeReleased (s : State) (gid : Nat) (g : Group) : State :=
  if (g.releasing = 0 && g.returning = 0) || g.pend.any (fun p => decide (g.vallot ≤ p.reg) && decide (p.reg < 176)) then s
  else
    (s.modCore g.core (fun c => { c with poolFree := c.poolFree + g.releasing })).modGroup gid
      (fun g => { g with releasing := 0, returning := 0 })

/-- R122, R103: released registers drain, and a DRAINING group becomes ENDED once every pending register write has landed;
its stores leave its FIFO as before. -/
def State.settle (s : State) (gid : Nat) : State :=
  match s.groups.find? gid with
  | none => s
  | some g =>
    let s := s.freeReleased gid g
    if g.st = .draining && g.pend.isEmpty then
      let s := s.modCore g.core (fun c => { c with poolFree := c.poolFree + g.vallot / 8 })
      (s.modGroup gid (fun g => { g with st := .ended })).endTeam g.team
    else if g.st = .ended then s.dropTeam g.team
    else s

/-- What the end of its grid makes of a group (R103, R157): one in its handler is ENDED, and its registers drain; one whose
context is away is ENDED; any other stops and drains. -/
def Group.stop (g : Group) : Group :=
  match g.st with
  | .handler => { g with st := .ended, splits := [], releasing := g.releasing + g.vallot / 8, vallot := 0 }
  | .swapped => { g with st := .ended, splits := [] }
  | .ended => g
  | _ => { g with st := .draining, splits := [] }

/-- A group stops with its grid (R157). -/
def State.stopGroup (s : State) (gid : Nat) : State :=
  let s := (s.modGroup gid Group.stop).settle gid
  match s.groups.find? gid with
  | some g => if g.st = .ended then s.endTeam g.team else s
  | none => s

/-- R157: a grid ends; its groups stop, and their registers drain. -/
def State.endGrid (s : State) (gr : Nat) (e : GridEnd) : State :=
  let s := s.modGrid gr (fun g => { g with ending := match g.ending with | none => some e | some x => some x })
  let mine := Map.keys (s.groups.filter (fun x => (Map.find? s.teams x.2.team).any (fun t => t.grid = gr)))
  mine.foldl State.stopGroup s

/-! ### Traps (R156 to R159) -/

/-- What a trap reports in its frame (R159). -/
structure Trap where
  cause : Nat
  sub : Nat := 0
  lanes : Word := 0
  addr : DWord := 0
  other : Word := 0
  status : Nat := 0
deriving DecidableEq, Repr

/-- Where ERET resumes by default: EPC, or EPC + 8 for causes 0x17 and 0x18 (R159). -/
def Trap.resume (t : Trap) (epc : DWord) : DWord := if t.cause = 0x17 ∨ t.cause = 0x18 then epc + 8 else epc

/-- The trap frame: 128 bytes at offset 0 of the save slot (R159). -/
def frameBytes (t : Trap) (epc : DWord) (mask : Word) (word ltime icnt : DWord) : List Byte :=
  leBytes 1 t.cause ++ leBytes 1 t.sub ++ List.replicate 6 0 ++
  leBytes 8 epc.toNat ++ leBytes 8 (t.resume epc).toNat ++ leBytes 8 t.addr.toNat ++
  leBytes 4 mask.toNat ++ leBytes 4 t.lanes.toNat ++ leBytes 4 t.other.toNat ++ List.replicate 4 0 ++
  leBytes 8 word.toNat ++ leBytes 8 ltime.toNat ++ leBytes 8 icnt.toNat ++ leBytes 8 t.status ++ List.replicate 48 0

/-- Bytes that a core writes on a group's behalf in the device's own arenas, under the key of the grid's ASID
(assumption log 11). -/
def State.arenaStore (s : State) (asid pa : Nat) (bs : List Byte) : State :=
  (s.touch (s.asidTag asid) pa bs.length).physStore pa bs

/-- The group enters its handler: INTRAP, the other splits suspended, the trapping split at TRAPENTRY (R156). -/
def Group.enter (g : Group) (slot : Nat) (mask : Word) (entry : DWord) : Group :=
  { g with
    intrap := true, st := .handler, trapSlot := slot, trapMask := mask,
    splits := g.splits.map (fun e =>
      if e.1 = slot then (e.1, { e.2 with pc := entry, wait := .none }) else (e.1, { e.2 with suspended := true })) }

/-- How a grid that a trap ends is reported (R157, R429, R436). -/
def trapEnd (cause sub : Nat) (intrap : Bool) (ggid : Word) (epc : DWord) : GridEnd :=
  { status := if cause = 5 then 3 else if cause = 0x19 then 5 else 4, ggid := ggid,
    cause := if intrap then 0 else cause + 256 * sub, epc := if intrap then 0 else epc }

/-- The walk behind a lease violation (R182, R508). -/
def State.lostAt (s : State) (asid : Nat) (t : Trap) : State :=
  if t.cause = 5 ∧ bits t.addr.toNat 56 8 = 0 then s.lostWalk asid t.addr.toNat else s

/-- Taking a trap at a split: the frame is written unless INTRAP is set; then the handler starts, or the grid ends
when there is none, in a handler, or on a lease violation (R156, R157). -/
def takeTrapAt (gid slot : Nat) (g : Group) (sp : Split) (team : Team) (grid : Grid) (word : DWord) (t : Trap)
    (s : State) : State :=
  let s := s.lostAt grid.asid t
  let s := if g.intrap then s else
    s.arenaStore grid.asid g.saveSlot (frameBytes t sp.pc sp.mask word g.ltime g.icnt)
  let s := s.issued g.core g.seq gid slot
  if g.intrap ∨ grid.record.trapEntry = 0 ∨ t.cause = 5 then
    s.endGrid team.grid (trapEnd t.cause t.sub g.intrap g.ggid sp.pc)
  else s.modGroup gid (fun g => g.enter slot sp.mask grid.record.trapEntry)

/-- The issuing instruction traps: it has no effect of its own (R156). -/
def takeTrap (c : Ctx) (t : Trap) (s : State) : State :=
  takeTrapAt c.gid c.slot c.grp c.sp c.team c.grid c.word t s

/-- A trap with a cause, at the participating lanes. -/
def trap (c : Ctx) (cause : Nat) (s : State) : State := takeTrap c { cause := cause, lanes := c.act } s

/-- An owed trap is taken: it is owed no more (R24, R213, R425). -/
def takeOwed (c : Ctx) (o : Owed) (s : State) : State :=
  takeTrap c { cause := 0x06, sub := o.sub, lanes := c.act, addr := o.addr, other := o.other, status := o.status }
    (s.modGroup c.gid (fun g => { g with owed := g.owed.erase o }))

/-! ### The race trap (R210 to R214) -/

/-- Accesses that count as writes (R211). -/
def AccessKind.isWrite : AccessKind → Bool
  | .read => false
  | .source _ => false
  | _ => true

/-- Two kinds that never conflict: two ATOMs, two REDs of one FN among ADD.I32, ADD.N8E4, ADD.N8E5 (R211). -/
def kindsAgree : AccessKind → AccessKind → Bool
  | .atom, .atom => true
  | .red a, .red b => a == b && (a == 0 || a == 3 || a == 4)
  | _, _ => false

/-- Whether an earlier access conflicts with a new one (R211, R212). -/
def Access.conflicts (a : Access) (loc : RaceLoc) (ggid : Word) (k : AccessKind) : Bool :=
  decide (a.loc = loc) && (a.kind.isWrite || k.isWrite) && !kindsAgree a.kind k &&
    (a.ggid != ggid || match a.kind with | .source _ => true | _ => false)

/-- An earlier group that conflicts with a new access of a domain, if any; of several any one, which is open (R213; assumption
log 3). -/
def Cluster.race (cl : Cluster) (loc : RaceLoc) (ggid : Word) (k : AccessKind) : Option Word :=
  match ((cl.accesses.filter (fun a => a.conflicts loc ggid k)).map (fun a => a.ggid)).dedup with
  | [] => none
  | [w] => some w
  | w :: ws => some ((w :: ws).getD (Config.earlier cl.epoch cl.accesses.length % (ws.length + 1)) w)

/-- Lanes of a group end at a key in Reckoning mode: their number is kept while a live key precedes it (R172). -/
def State.noteExit (s : State) (cl : Nat) (k : Key) (lanes : Nat) (last : Bool) : State :=
  let live := s.liveKeys cl
  s.modCluster cl (fun c =>
    { c with exits := (c.exits ++ [(k, lanes, last)]).filter (fun e => live.any (fun j => keyLt j e.1)) })

/-- Accesses recorded in the domain's epoch. -/
def State.record (s : State) (cl : Nat) (as : List Access) : State :=
  s.modCluster cl (fun c => { c with accesses := c.accesses ++ as.filter (fun a => !c.accesses.contains a) })

/-- The epoch of a domain advances: its metadata is cleared, but for the sources of commands in flight (R172, R212). -/
def State.advanceEpoch (s : State) (cl : Nat) : State :=
  s.modCluster cl (fun c =>
    { c with epoch := c.epoch + 1,
             accesses := c.accesses.filter (fun a => match a.kind with | .source _ => true | _ => false) })

/-- The h registers an instruction reads and writes, as locations of the race trap (R134, R246). -/
def hAccesses (team : Nat) (ggid : Word) (i : Instr) : List Access :=
  let of := fun (k : AccessKind) (e : Reg × Nat) =>
    match e.1 with
    | .h n => (List.range e.2).map (fun j => Access.mk (.hreg team (n.val + j)) ggid k)
    | _ => []
  i.reads.flatMap (of .read) ++ i.writes.flatMap (of .write)

/-- A conflict among some new accesses and a domain's earlier ones. -/
def firstRace (cl : Cluster) (as : List Access) : Option Word :=
  (as.filterMap (fun a => cl.race a.loc a.ggid a.kind)).head?

/-! ### The prelude of every instruction (R70, R79, R105) -/

/-- Special registers MOVS reads as synchronising operations: TAGSLO and TAGSHI (R155). -/
def isTagsReg (sr : BitVec 8) : Bool := sr == 0x12#8 || sr == 0x13#8

/-- Privileged uses (R79, R155, R160). -/
def privilegedUse (i : Instr) (c : Ctx) : Bool :=
  match i with
  | .eret _ => !c.grp.intrap
  | .movsw sr _ _ => sr == 0x40#8 && !c.grid.record.maint
  | _ => false

/-- A MOVSW to a register that is not to be written: its word alone says so, so it traps with no lane participating too
(R71, R155). -/
def deniedWrite (i : Instr) : Bool :=
  match i with
  | .movsw sr _ _ => sr != 0x14#8 && sr != 0x40#8
  | _ => false

/-- The key at which a synchronising operation takes effect: the group's own, or that of the event it observes (R36, R167). -/
def Ctx.effectKey (c : Ctx) (s : State) : Key :=
  match c.observed, c.sp.wait with
  | some k, _ => k
  | none, .tags live => ((s.tagWait c.grp live).bind List.head?).getD c.grp.key
  | none, _ => c.grp.key

/-- The split has begun to wait for an event. -/
def Ctx.waiting (c : Ctx) : Bool :=
  match c.sp.wait with
  | .tags _ => true
  | _ => c.observed.isSome

/-- The field code of an h register (R64). -/
def isHCode (r : Nat) : Bool := decide (0xE0 ≤ r) && decide (r < 0xF0)

/-- The scoreboard: a register read or written has a pending write of the group, or, an h register, of any group of its
team (R105, R132). -/
def State.scoreboardBusy (s : State) (i : Instr) (g : Group) : Bool :=
  g.pend.any (fun p => i.regSet.contains p.reg) ||
    (i.regSet.any isHCode && (s.teamGroups g.team).any (fun e => e.2.pend.any (fun p => isHCode p.reg && i.regSet.contains p.reg)))

/-- The issuing instruction has taken effect in a state: it has retired, or its split has begun to wait. A trap, and an
instruction that stalls at issue, have not. -/
def Ctx.moved (c : Ctx) (t : State) : Bool :=
  match t.groups.find? c.gid with
  | none => false
  | some g => g.icnt != c.grp.icnt || (g.splits.find? c.slot).any (fun sp => sp.wait != c.sp.wait && sp.wait != .none && sp.wait != .stalled)

/-- The instruction executes again because its wait has ended (R162). -/
def Ctx.resumed (c : Ctx) : Bool :=
  match c.sp.wait with
  | .released _ => true
  | .expired _ => true
  | .broken => true
  | .tags _ => true
  | _ => false

/-- What the accesses to h registers add to an instruction's effect in Reckoning mode: once the effect's own checks pass
(R79), a conflict traps in its place, and otherwise the accesses are recorded with it (R134, R213). An instruction whose wait
has ended made them as it began to wait (R162). -/
def withRegs (hs : List Access) (c : Ctx) (s : State) (k : Ctx → State → State) : State :=
  if c.resumed then k c s
  else
    let t := k c (s.record c.team.cluster hs)
    if hs.isEmpty then t
    else if c.moved t then
      match firstRace c.cl hs with
      | some o => takeTrap c { cause := 0x06, lanes := c.act, other := o } s
      | none => t
    else k c s

/-- What happens as an instruction issues, before its own effect: a register with a pending write holds it back
(R105); then R79's privileged and range traps; with no participating lane it retires without effect (R70), but for a
write its word alone denies; in Reckoning mode a synchronising operation waits for its key (R36), and the h registers it
names are checked with its effect (R134). -/
def prelude (i : Instr) (sync : Bool) (c : Ctx) (s : State) (k : Ctx → State → State) : State :=
  if s.scoreboardBusy i c.grp then s
  else if privilegedUse i c then trap c 0x1A s
  else if i.rangeBad c.grp.vallot then trap c 0x02 s
  else if c.act = 0 then (if deniedWrite i then trap c 0x0E s else retire c s)
  else if c.reckon then
    if sync && !s.smallest c.team.cluster (c.effectKey s) then
      (if c.waiting then s else block c .key s)
    else withRegs (hAccesses c.grp.team c.grp.ggid i) c s k
  else k c s

/-- An instruction issues: its prelude, then its own effect. -/
def issueAs (sync : Bool) (i : Instr) (s : State) (k : Ctx → State → State) : Host.Outcome State Fault Refusal :=
  match s.ctx? i with
  | none => .fault .noIssuer
  | some c => .next (prelude i sync c s k)

/-- An instruction that is no synchronising operation. -/
def issue (i : Instr) (s : State) (k : Ctx → State → State) : Host.Outcome State Fault Refusal := issueAs false i s k

/-- A synchronising operation (R168 and the rules like it). -/
def issueSync (i : Instr) (s : State) (k : Ctx → State → State) : Host.Outcome State Fault Refusal := issueAs true i s k

/-- A lane-wise or uniform result computed from the sources: written to D, then the instruction retires. -/
def issueResult (i : Instr) (d : Reg) (s : State) (f : Ctx → Nat → Word) : Host.Outcome State Fault Refusal :=
  issue i s (fun c s => retire c (writeReg c d (f c) s))

/-- Registers get a pending write that has its value and lands later (R122). -/
def addPend (gid : Nat) (regs : List Nat) (s : State) : State :=
  s.modGroup gid (fun g => { g with pend := g.pend ++ regs.map (fun r => { reg := r, ready := true }) })

/-- A result of the lane operations, which comes back from the crossbar as a pending write (R122, R228). -/
def issueLanes (i : Instr) (d : Reg) (s : State) (f : Ctx → Nat → Word) : Host.Outcome State Fault Refusal :=
  issue i s (fun c s => retire c (addPend c.gid (regCodes (d, 1)) (writeReg c d (f c) s)))

end Sys2Proof.Machine
end

