-- ==== Sys2Proof/Machine/Access.lean ====
section
/-! DEFINITION. How groups reach memory (spec/04_loadstore.md R176 to R200, R210 to R214, R224): address forms and
apertures, the accessible set, the checks in their order, the store FIFO, ownership, and single accesses of a place. -/

namespace Sys2Proof.Machine

/-! ### Addresses (R176 to R182) -/

/-- base(l) of R177. -/
def Ctx.baseAt (c : Ctx) (base : Reg) (l : Nat) : DWord :=
  match base with
  | .zero => 0
  | _ => c.rd (regAfter base 1) l ++ c.rd base l

/-- The address of lane `l` (R176). -/
def Ctx.addrAt (c : Ctx) (base idx : Reg) (off : BitVec 16) (l : Nat) : DWord :=
  c.baseAt base l + (c.rd idx l).signExtend 64 + off.signExtend 64

/-- The team a member number names for an issuing team: 15 and its own number name itself (R136, R180). -/
def State.memberTeam (s : State) (t : Team) (member : Nat) : Option Team :=
  if member = 15 ∨ member = t.member then some t
  else if member < 12 then ((s.clusterTeams t.cluster).find? (fun e => e.2.member = member && !e.2.ended)).map Prod.snd
  else none

/-- Where an address leads before translation (R178). -/
inductive VPlace where
  /-- A global virtual address. -/
  | glob (va : Nat)
  /-- A byte of a core's SPAD; `held` while the team there is swapped out (R226). -/
  | spad (core off : Nat) (held : Bool)
  /-- Byte o of lane l's stack in a region (R181). -/
  | stack (region l o : Nat)
deriving DecidableEq, Repr

/-- The aperture of an address and its checks: none is trap 0x03 (R178, R180, R181). Engines and lane-less accesses
name no stack. -/
def State.aperture (s : State) (t : Team) (stack : Option (Nat × Nat)) (addr : DWord) (size : Nat) : Option VPlace :=
  let a := addr.toNat
  match bits a 56 8 with
  | 0x00 => some (.glob (bits a 0 56))
  | 0xFE =>
    if bits a 28 28 = 0 ∧ bits a 21 3 = 0 then
      match s.memberTeam t (bits a 24 4) with
      | some m => if bits a 0 21 + size ≤ s.spadb m then some (.spad m.core (m.spadBase + bits a 0 21) m.swapped) else none
      | none => none
    else none
  | 0xFD =>
    match stack with
    | some (region, l) => if bits a 13 43 = 0 then some (.stack region l (bits a 0 13)) else none
    | none => none
  | _ => none

/-- Ranges of the accessible set: first byte, bytes, writable (R182). -/
def Grid.ranges (g : Grid) : List (Nat × Nat × Bool) :=
  g.leases.map (fun r => (r.1, r.2, true)) ++ g.saves.map (fun r => (r.1, r.2, true)) ++
    g.reads.map (fun r => (r.1, r.2, false)) ++ [(g.recAddr.toNat, 256, false), (g.record.entryTab.toNat, 8 * g.record.entryCnt, false),
     (g.record.paramPtr.toNat, 4096, false)]

/-- Whether an access falls wholly inside the accessible set (R182). -/
def Grid.inSet (g : Grid) (va n : Nat) (write : Bool) : Bool :=
  (List.range n).all (fun k => g.ranges.any (fun r => inRange (va + k) r.1 r.2.1 && (!write || r.2.2)))

/-- The physical address of an access inside the set: a pinned translation (R526), an arena address (assumption log
11), else one that is kept or the page tables (R522, R524). -/
def State.resolve (s : State) (g : Grid) (va n : Nat) (need : Need) : Option Nat :=
  let write := match need with | .write => true | .atomic => true | _ => false
  if g.inSet va n write then
    match g.pins.find? (va / 65536) with
    | some p => some (p.pa + va % 65536)
    | none =>
      if g.saves.any (fun r => inRange va r.1 r.2) then some va
      else s.mapped g.asid need va
  else none

/-- The physical bytes of a place found by `aperture`, lowest first; none is a lease violation (R181, R182). -/
def State.places (s : State) (g : Grid) (v : VPlace) (n : Nat) (need : Need) : Option (List Place) :=
  match v with
  | .glob va => (s.resolve g va n need).map (fun pa => (List.range n).map (fun k => (.global, pa + k)))
  | .spad core off _ => some ((List.range n).map (fun k => (.spad core, off + k)))
  | .stack region l o => some ((List.range n).map (fun k =>
      (.global, region + (o + k) / 4 * 128 + 4 * l + (o + k) % 4)))

/-- The walker sets A before an access to a page that no lease pins (R523). -/
def State.markRead (s : State) (g : Grid) (v : VPlace) : State :=
  match v with
  | .glob va =>
    if (g.pins.find? (va / 65536)).isSome ∨ g.saves.any (fun r => inRange va r.1 r.2) then s
    else s.markMapped g.asid .read va
  | _ => s

/-! ### Ownership (R30, R31) -/

/-- The unit a place lies in: a 128-byte line, or a 32-byte sector (R30). -/
def unitOf (p : Place) : Place :=
  match p.1 with
  | .global => (.global, p.2 / 128)
  | sp => (sp, p.2 / 32)

/-- Some engine owns the unit of a place (R31). -/
def State.owned (s : State) (p : Place) : Bool := s.cmds.any (fun e => e.2.owns (unitOf p))

/-- An access that waits for engines makes the L2 directory recall the global lines among its places (R31). -/
def State.callUnits (s : State) (ps : List Place) : State :=
  let us := (ps.map unitOf).dedup.filter (fun u => u.1 == .global)
  if s.cmds.any (fun e => us.any (fun u => e.2.owns u && !e.2.recalled.contains u)) then
    { s with cmds := s.cmds.map (fun (e : Nat × Cmd) => (e.1, { e.2 with
        recalled := e.2.recalled ++ us.filter (fun u => e.2.owns u && !e.2.recalled.contains u) })) }
  else s

/-! ### Single accesses of a place -/

/-- A byte at a place. -/
def State.byteAt (s : State) (p : Place) : Byte :=
  match p.1 with
  | .global => (s.physBytes p.2 1).headD 0
  | .spad c => (s.core c).spad.byte p.2
  | .wbuf c => (s.core c).wbuf.byte p.2

/-- The tables of a core's teams that watch a range become STALE (R365, R367). -/
def staleTables (sp : Space) (lo hi : Nat) (ts : Map Table) : Map Table :=
  ts.map (fun e =>
    if e.2.watch.any (fun w => w.1 = sp && decide (w.2.1 < hi) && decide (lo < w.2.2)) then
      match e.2.st with
      | .free => e
      | .stale => (e.1, { e.2 with marked := true })
      | _ => (e.1, { e.2 with st := .stale, marked := true, staleAt := none })
    else e)

/-- Every table that watches a byte of [lo, hi) of a space is marked (R365). -/
def State.markStale (s : State) (sp : Space) (lo hi : Nat) : State :=
  if s.teams.any (fun t => !t.2.tables.isEmpty) then
    { s with teams := s.teams.map (fun t => (t.1, { t.2 with tables := staleTables sp lo hi t.2.tables })) }
  else s

/-- Pinned pages whose frame a write touches are noted as written (R526). -/
def State.markWritten (s : State) (pa : Nat) : State :=
  if s.grids.any (fun g => g.2.pins.any (fun p => p.2.pa / 65536 = pa / 65536 && !p.2.written)) then
    { s with grids := s.grids.map (fun g => (g.1, { g.2 with pins := g.2.pins.map (fun p =>
        if p.2.pa / 65536 = pa / 65536 then (p.1, { p.2 with written := true }) else p) })) }
  else s

/-- While commands are in flight, the value a byte had is kept for those that may still read it (R34). -/
def State.logByte (s : State) (p : Place) : State :=
  if s.cmds.isEmpty then s else { s with undo := s.undo ++ [{ place := p, old := s.byteAt p, almanac := false }] }

/-- One byte stored at a place, with everything a write performs: overwritten sources (R34), shadows (R194), stale tables
(R365), written pages (R526). -/
def State.putByte (s : State) (p : Place) (b : Byte) : State :=
  let s := s.logByte p
  match p.1 with
  | .global => (s.markWritten p.2).physStore p.2 [b]
  | .spad c => (s.modCore c (fun k => { k with spad := k.spad.store p.2 b })).markStale (.spad c) p.2 (p.2 + 1)
  | .wbuf c => (s.modCore c (fun k => { k with wbuf := k.wbuf.store p.2 b })).markStale (.wbuf c) p.2 (p.2 + 1)

/-- Bytes stored at their places, in order. -/
def State.putBytes (s : State) (ps : List (Place × Byte)) : State := ps.foldl (fun s e => s.putByte e.1 e.2) s

/-- Atomic line buffers of other cores give a line up, and their Compass counters go up (R189, R190). -/
def compassIndex (line : Nat) : Nat := (line % 1024) ^^^ (line / 1024 % 1024)

/-- A line recalled from every core's atomic line buffer but one (R189, R190). -/
def State.recall (s : State) (keep : Option Nat) (line : Nat) : State :=
  if s.cores.any (fun e => some e.1 != keep && e.2.alb.contains line) then
    { s with cores := s.cores.map (fun e =>
        if some e.1 ≠ keep ∧ e.2.alb.contains line then
          (e.1, { e.2 with alb := e.2.alb.erase line,
                           compass := e.2.compass.put 0 (compassIndex line)
                             (min 3 (e.2.compass.getD (compassIndex line) 0 + 1)) })
        else e) }
  else s

/-- A line that a core uses comes first in its atomic line buffer, when it is there (R189). -/
def State.useLine (s : State) (keep : Option Nat) (line : Nat) : State :=
  match keep with
  | some c =>
    if (s.core c).alb.contains line then s.modCore c (fun k => { k with alb := line :: k.alb.erase line }) else s
  | none => s

/-- What an access to a place does besides its value: keys, tier cache, absent addresses, atomic line buffers (R189,
R508, R514, R518). -/
def State.touchPlace (s : State) (keep : Option Nat) (tag : Nat) (p : Place) : State :=
  match p.1 with
  | .global => ((s.recall keep (p.2 / 128)).useLine keep (p.2 / 128)).touchLine tag (p.2 / 128)
  | _ => s

/-- The touches of an access, one a unit. -/
def State.touchPlaces (s : State) (keep : Option Nat) (tag : Nat) (ps : List Place) : State :=
  (ps.map unitOf).dedup.foldl (fun s u =>
    match u.1 with
    | .global => s.touchPlace keep tag (.global, u.2 * 128)
    | _ => s) s

/-! ### What a core sees (R199, R201, R203 to R207) -/

/-- Bytes of a unit of a space (R30). -/
def unitBytes : Space → Nat
  | .global => 128
  | _ => 32

/-- A core stops following a unit outside it: its groups go on seeing it as it is now (R206; assumption log 7). -/
def State.lag (s : State) (core : Nat) (u : Place) : State :=
  let own := match u.1 with
    | .global => false
    | .spad c => c == core
    | .wbuf _ => true
  if own || (s.core core).views.any (fun v => v.unit = u) then s
  else
    let w := unitBytes u.1
    let v : View := { unit := u, bytes := (List.range w).map (fun i => s.byteAt (u.1, u.2 * w + i)), since := s.fresh, writers := [] }
    { s.modCore core (fun k => { k with views := k.views ++ [v] }) with fresh := s.fresh + 1 }

/-- The writes to a unit become visible to a core's groups (R206). -/
def State.see (s : State) (core : Nat) (u : Place) : State :=
  if (s.core core).views.any (fun v => v.unit = u) then
    s.modCore core (fun k => { k with views := k.views.filter (fun v => v.unit ≠ u) })
  else s

/-- A core writes some places: it sees their units as they are, and the others that do not yet know of it (R199, R201, R206). -/
def State.performed (s : State) (core : Nat) (ps : List Place) : State :=
  if s.cores.all (fun e => e.2.views.isEmpty) then s
  else
    let us := (ps.map unitOf).dedup
    { s with cores := s.cores.map (fun e =>
        (e.1, { e.2 with views :=
          if e.1 = core then e.2.views.filter (fun v => !us.contains v.unit)
          else e.2.views.map (fun v => if us.contains v.unit then { v with writers := core :: v.writers } else v) })) }

/-- Every core sees a unit as it is. -/
def State.seeUnit (s : State) (u : Place) : State :=
  if s.cores.all (fun e => e.2.views.isEmpty) then s
  else { s with cores := s.cores.map (fun e => (e.1, { e.2 with views := e.2.views.filter (fun v => v.unit ≠ u) })) }

/-- Everything that has performed is visible to the groups of some cores. -/
def State.seeAll (s : State) (cores : List Nat) : State :=
  if s.cores.all (fun e => e.2.views.isEmpty) then s
  else { s with cores := s.cores.map (fun e => if cores.contains e.1 then (e.1, { e.2 with views := [] }) else e) }

/-- Cores of a cluster. -/
def State.clusterCores (s : State) (cl : Nat) : List Nat := ((s.clusterTeams cl).map (fun e => e.2.core)).dedup

/-- An acquire of a core at a scope (R203, R205, R207): at GROUP and TEAM scope nothing outside the core is meant; at CLUSTER
scope a unit may stay unseen only while no core of the cluster has written it or seen it; beyond, everything is seen. -/
def State.acquire (s : State) (core cl : Nat) : Scope → State
  | .group => s
  | .team => s
  | .cluster =>
    let cs := s.clusterCores cl
    if (s.core core).views.isEmpty then s
    else s.modCore core (fun k => { k with views := k.views.filter (fun v =>
      v.writers.all (fun w => !cs.contains w) && cs.all (fun c => c == core || (s.core c).views.any (fun x =>
        x.unit = v.unit && decide (x.since ≤ v.since)))) })
  | _ => s.seeAll [core]

/-- The acquire of an ordered access (R205). -/
def Ctx.acquire (c : Ctx) (ord : Order) (s : State) : State :=
  match ord with
  | .plain => s
  | .ordered sc => s.acquire c.grp.core c.team.cluster sc

/-- A byte as the groups of a core see it (R199, R206). -/
def State.seenByte (s : State) (core : Nat) (p : Place) : Byte :=
  match (s.core core).views.find? (fun v => v.unit = unitOf p) with
  | some v => v.bytes.getD (p.2 % unitBytes p.1) 0
  | none => s.byteAt p

/-! ### The store FIFO (R188) -/

/-- The byte a FIFO entry holds for a place: the last one written there (R184). -/
def StoreEntry.byte? (e : StoreEntry) (p : Place) : Option Byte :=
  (e.bytes.reverse.find? (fun x => x.1 = p)).map Prod.snd

/-- The byte a group's load reads: from its youngest FIFO entry that holds it, else from memory (R188). -/
def State.loadByte (s : State) (fifo : List StoreEntry) (p : Place) : Byte :=
  match fifo.reverse.findSome? (fun e => e.byte? p) with
  | some b => b
  | none => s.byteAt p

/-- The little-endian value a group's load reads at places. -/
def State.loadNat (s : State) (fifo : List StoreEntry) (ps : List Place) : Nat := leNat (ps.map (s.loadByte fifo))

/-- The little-endian value that LD or LDU of a core's group reads at places: its own stores first, then what the core sees
(R188, R206). -/
def State.seenNat (s : State) (core : Nat) (fifo : List StoreEntry) (ps : List Place) : Nat :=
  leNat (ps.map (fun p => match fifo.reverse.findSome? (fun e => e.byte? p) with
    | some b => b
    | none => s.seenByte core p))

/-- The FIFO of a group has room for a ST (R188). -/
def fifoRoom (g : Group) : Bool := decide (g.fifo.length < 16)

/-! ### The checks of R224 -/

/-- One row of R224 over the participating lanes: the trap with every failing lane, at the lowest one's address. -/
def rowTrap (act : Word) (addr : Nat → DWord) (cause : Nat) (bad : Nat → Bool) : Option Trap :=
  match (lanesIn act).filter bad with
  | [] => none
  | l :: _ => some { cause := cause, lanes := maskOfLanes (fun k => laneIn act k && bad k), addr := addr l }

/-- The first trap of a list of rows. -/
def firstTrap : List (Option Trap) → Option Trap
  | [] => none
  | some t :: _ => some t
  | none :: rs => firstTrap rs

/-- The stack of a lane of the issuing group (R181). -/
def Ctx.stackOf (c : Ctx) (l : Nat) : Option (Nat × Nat) := some (c.grp.stackBase, l)

/-- Rows 4 to 6 of R224 for accesses of `size` bytes at each lane's address; `noStack` for ATOM and RED, `noSpad` for
RED FN 2 to 4. -/
def accessTrap (c : Ctx) (s : State) (act : Word) (addr : Nat → DWord) (size : Nat) (need : Need)
    (noStack noSpad : Bool) : Option Trap :=
  let place := fun l => s.aperture c.team (if noStack then none else c.stackOf l) (addr l) size
  firstTrap
    [rowTrap act addr 0x03 (fun l => match place l with
      | none => true
      | some (.spad _ _ _) => noSpad
      | _ => false),
     rowTrap act addr 0x04 (fun l => (addr l).toNat % size != 0),
     rowTrap act addr 0x05 (fun l => match place l with
      | some v => (s.places c.grid v size need).isNone
      | none => true)]

/-- The places of lane `l`'s access, once `accessTrap` has passed. -/
def lanePlaces (c : Ctx) (s : State) (addr : Nat → DWord) (size : Nat) (need : Need) (l : Nat) : List Place :=
  match s.aperture c.team (c.stackOf l) (addr l) size with
  | some v => (s.places c.grid v size need).getD []
  | none => []

/-- An access to the SPAD of a team that is swapped out waits for its return (R226). -/
def laneHeld (c : Ctx) (s : State) (addr : Nat → DWord) (size : Nat) (l : Nat) : Bool :=
  match s.aperture c.team (c.stackOf l) (addr l) size with
  | some (.spad _ _ h) => h
  | _ => false

/-- A stack access is not checked for races (R210). -/
def laneChecked (c : Ctx) (s : State) (addr : Nat → DWord) (size : Nat) (l : Nat) : Bool :=
  match s.aperture c.team (c.stackOf l) (addr l) size with
  | some (.stack _ _ _) => false
  | _ => true

/-- The accesses of one lane, for the race trap (R210, R211). -/
def laneAccesses (c : Ctx) (s : State) (addr : Nat → DWord) (size : Nat) (need : Need) (k : AccessKind) (l : Nat) :
    List Access :=
  if c.reckon && laneChecked c s addr size l then
    (lanePlaces c s addr size need l).map (fun p => Access.mk (.byte p) c.grp.ggid k)
  else []

/-- New race metadata has to be spilled, and the arena has no size or is full (R214). -/
def noArena (ms : MemSys) : Bool := ms.arenaSpills && (ms.rmdSize == 0 || ms.arenaFull)

/-- A global byte that has no metadata yet in a domain (R214). -/
def Cluster.bare (cl : Cluster) (loc : RaceLoc) : Bool :=
  match loc with
  | .byte (.global, _) => !cl.accesses.any (fun x => x.loc = loc)
  | _ => false

/-- The global bytes among accesses need metadata; when the arena cannot take a spill, an access to a byte that has
none traps with SUBCODE 4 (R214). -/
def arenaTrap (c : Ctx) (s : State) (as : List Access) : Bool := noArena s.ms && as.any (fun a => c.cl.bare a.loc)

/-- Row 7 of R224: the race trap over the participating lanes (R213, R214). -/
def raceTrap (c : Ctx) (s : State) (act : Word) (addr : Nat → DWord) (as : Nat → List Access) : Option Trap :=
  let bad := fun l => (firstRace c.cl (as l)).isSome
  match (lanesIn act).filter bad with
  | l :: _ =>
    let hit := (as l).findIdx (fun a => (c.cl.race a.loc a.ggid a.kind).isSome)
    some { cause := 0x06, lanes := maskOfLanes (fun k => laneIn act k && bad k),
           addr := addr l + BitVec.ofNat 64 hit, other := (firstRace c.cl (as l)).getD 0 }
  | [] =>
    match (lanesIn act).filter (fun l => arenaTrap c s (as l)) with
    | l :: _ => some { cause := 0x06, sub := 4, lanes := maskOfLanes (fun k => laneIn act k && arenaTrap c s (as k)),
                       addr := addr l }
    | [] => none

/-- The key tag of a group's accesses (R517). -/
def Ctx.tag (c : Ctx) (s : State) : Nat := s.asidTag c.grid.asid

/-- What an access of the participating lanes does besides its values: in Reckoning mode it is recorded, the walker sets A,
and its lines are touched. -/
def accessed (c : Ctx) (s : State) (act : Word) (addr : Nat → DWord) (size : Nat) (need : Need) (k : AccessKind) : State :=
  let ps := (lanesIn act).flatMap (lanePlaces c s addr size need)
  let s' := if c.reckon then s.record c.team.cluster ((lanesIn act).flatMap (laneAccesses c s addr size need k)) else s
  let s' := (lanesIn act).foldl (fun s l =>
    match s.aperture c.team (c.stackOf l) (addr l) size with
    | some v => s.markRead c.grid v
    | none => s) s'
  let s' := match need with
    | .atomic => s'.performed c.grp.core ps
    | _ => s'
  s'.touchPlaces (some c.grp.core) (c.tag s') ps

/-- A memory access of the participating lanes: R224's rows 4 to 7 in order; then it waits while an engine owns a unit
of it (when `waits`) or a team is swapped out; then it proceeds, its accesses recorded and its lines touched. -/
def access (c : Ctx) (s : State) (act : Word) (addr : Nat → DWord) (size : Nat) (need : Need) (k : AccessKind)
    (noStack noSpad waits : Bool) (go : State → State) : State :=
  match accessTrap c s act addr size need noStack noSpad with
  | some t => takeTrap c t s
  | none =>
    match raceTrap c s act addr (laneAccesses c s addr size need k) with
    | some t => takeTrap c t s
    | none =>
      let ps := (lanesIn act).flatMap (lanePlaces c s addr size need)
      if (lanesIn act).any (laneHeld c s addr size) then s
      else if waits && ps.any s.owned then s.callUnits ps
      else go (accessed c s act addr size need k)

/-- A ST enters the group's FIFO (R188). -/
def pushStore (gid : Nat) (bytes : List (Place × Byte)) (s : State) : State :=
  s.modGroup gid (fun g => { g with fifo := g.fifo ++ [{ bytes := bytes, key := g.key }] })

/-- A management counter goes up by one and saturates (R544). -/
def State.countMgmt (s : State) (k : Nat) : State :=
  let v := s.pkg.counters.getD k 0
  { s with pkg := { s.pkg with counters := s.pkg.counters.put 0 k (if v = BitVec.allOnes 64 then v else v + 1) } }

/-! ### Accesses that no lane makes -/

/-- The race trap of an access that no lane makes: all participating lanes, at the address of the first conflicting byte
(R213, R214). -/
def raceOnce (c : Ctx) (s : State) (as : List Access) (addr : Place → DWord) : Option Trap :=
  match as.find? (fun a => (c.cl.race a.loc a.ggid a.kind).isSome) with
  | some a =>
    some { cause := 0x06, lanes := c.act, other := (c.cl.race a.loc a.ggid a.kind).getD 0,
           addr := match a.loc with
             | .byte p => addr p
             | .hreg _ _ => 0 }
  | none => if arenaTrap c s as then some { cause := 0x06, sub := 4, lanes := c.act } else none

/-- The places of a range of global virtual addresses, line by line, when each is in the accessible set. -/
def State.spanGlobal (s : State) (g : Grid) (va n : Nat) (need : Need) : Option (List Place) :=
  ((List.range ((va + n - 1) / 128 + 1 - va / 128)).mapM (fun k =>
    let lo := max va ((va / 128 + k) * 128)
    let hi := min (va + n) ((va / 128 + k + 1) * 128)
    (s.resolve g lo (hi - lo) need).map (fun pa => (List.range (hi - lo)).map (fun j => ((.global, pa + j) : Place)))
    )).map List.flatten

/-- The places of `n` bytes from a generic address of no stack, with R224's rows 4 to 6. -/
def spanPlaces (c : Ctx) (s : State) (addr : DWord) (n align : Nat) (need : Need) : Except Trap (List Place) :=
  let bad := fun (k : Nat) => (.error { cause := k, lanes := c.act, addr := addr } : Except Trap (List Place))
  match s.aperture c.team none addr n with
  | none => bad 0x03
  | some v =>
    if addr.toNat % align ≠ 0 then bad 0x04
    else
      match v with
      | .glob va =>
        (match s.spanGlobal c.grid va n need with
        | some ps => .ok ps
        | none => bad 0x05)
      | v =>
        match s.places c.grid v n need with
        | some ps => .ok ps
        | none => bad 0x05

/-- The team whose SPAD an address names is swapped out (R226). -/
def spanHeld (c : Ctx) (s : State) (addr : DWord) (n : Nat) : Bool :=
  match s.aperture c.team none addr n with
  | some (.spad _ _ h) => h
  | _ => false

/-- The accesses of places that no lane makes, for the race trap. -/
def placeAccesses (c : Ctx) (ps : List Place) (k : AccessKind) : List Access :=
  if c.reckon then ps.map (fun p => Access.mk (.byte p) c.grp.ggid k) else []

/-- What an access that no lane makes does besides its values. -/
def spanAccessed (c : Ctx) (s : State) (ps : List Place) (k : AccessKind) : State :=
  let s' := if c.reckon then s.record c.team.cluster (placeAccesses c ps k) else s
  let s' := if k.isWrite then s'.performed c.grp.core ps else s'
  s'.touchPlaces (some c.grp.core) (c.tag s') ps

/-- The walker sets A before a read of `n` bytes, at most 64 KiB, of pages that no lease pins (R523). -/
def spanMarks (c : Ctx) (s : State) (addr : DWord) (n : Nat) : State :=
  match s.aperture c.team none addr 1 with
  | some (.glob va) => (s.markRead c.grid (.glob va)).markRead c.grid (.glob (va + n - 1))
  | _ => s

/-- An access of places that no lane makes: the race trap, the wait for engines and for a team swapped out, then the
access, recorded and touched. -/
def spanAccess (c : Ctx) (s : State) (addr : DWord) (ps : List Place) (k : AccessKind) (waits : Bool)
    (go : State → State) : State :=
  match raceOnce c s (placeAccesses c ps k) (fun p => addr + BitVec.ofNat 64 (ps.idxOf p)) with
  | some t => takeTrap c t s
  | none =>
    if spanHeld c s addr 1 then s
    else if waits && ps.any s.owned then s.callUnits ps
    else go (spanAccessed c s ps k)

/-! ### Locators (R136) -/

/-- The team whose SPAD a locator names: items 1 and 2 of R136, for offset bits below `align` zero; `own` where only the
own core is allowed. -/
def locateTeam (c : Ctx) (s : State) (w : Word) (align : Nat) (own : Bool) : Except Trap Team :=
  let n := w.toNat
  let bad := fun (k : Nat) => (.error { cause := k, lanes := c.act } : Except Trap Team)
  if bits n 28 4 ≠ 0 ∨ bits n 21 3 ≠ 0 then bad 0x03
  else
    match s.memberTeam c.team (bits n 24 4) with
    | none => bad 0x03
    | some m =>
      if own ∧ m.member ≠ c.team.member then bad 0x03
      else if bits n 0 21 % align ≠ 0 then bad 0x04
      else .ok m

/-- A locator's SPAD place: the checks of R136 in order, with an extent of `size` bytes. -/
def locate (c : Ctx) (s : State) (w : Word) (size align : Nat) (own : Bool) : Except Trap (Nat × Nat) :=
  match locateTeam c s w align own with
  | .error t => .error t
  | .ok m =>
    if s.spadb m < bits w.toNat 0 21 + size then .error { cause := 0x03, lanes := c.act }
    else .ok (m.core, m.spadBase + bits w.toNat 0 21)

end Sys2Proof.Machine
end

