-- ==== Sys2Proof/Machine/Flags.lean ====
section
/-! DEFINITION. Conditions and mask updates, the machine's flags: ISET and FSET conditions (spec/05_integer_lane.md
R238, spec/06_float.md R264) and how a mask register takes them (R76). -/

namespace Sys2Proof.Machine

/-- ISET conditions (R238). -/
def icond (c : ICond) (a b : Word) : Bool :=
  match c with
  | .eq => a == b
  | .ne => a != b
  | .lt => a.slt b
  | .le => a.sle b
  | .gt => b.slt a
  | .ge => b.sle a
  | .ltu => a.ult b
  | .leu => a.ule b
  | .gtu => b.ult a
  | .geu => b.ule a

/-- FSET conditions: an ordered comparison of two values, with −0 equal to +0; the conditions with U also hold when
either is a NaN, the ordered ones do not (R258, R264). -/
def fcond (c : FCond) (a b : Word) : Bool :=
  let x := fval a
  let y := fval b
  let un := x.isNan || y.isNan
  let k := cmpF x y
  match c with
  | .eq => !un && decide (k = 0)
  | .ne => !un && decide (k ≠ 0)
  | .lt => !un && decide (k < 0)
  | .le => !un && decide (k ≤ 0)
  | .gt => !un && decide (0 < k)
  | .ge => !un && decide (0 ≤ k)
  | .ord => !un
  | .uno => un
  | .equ => un || decide (k = 0)
  | .neu => un || decide (k ≠ 0)
  | .ltu => un || decide (k < 0)
  | .leu => un || decide (k ≤ 0)
  | .gtu => un || decide (0 < k)
  | .geu => un || decide (0 ≤ k)

/-- One bit of a mask under an update (R76, R238). -/
def updBit (u : MaskUpd) (old c : Bool) : Bool :=
  match u with
  | .replace => c
  | .and => old && c
  | .or => old || c

/-- A mask updated in the participating lanes; the other bits keep their values (R238). -/
def updMask (u : MaskUpd) (old act : Word) (cond : Nat → Bool) : Word :=
  BitVec.ofNat 32 ((List.range 32).foldl (fun acc l =>
    if (if act.getLsbD l then updBit u (old.getLsbD l) (cond l) else old.getLsbD l) then acc + 2 ^ l else acc) 0)

end Sys2Proof.Machine
end

