-- ==== Sys2Proof/Machine/Arith.lean ====
section
/-! DEFINITION. Integer arithmetic of a lane (spec/05_integer_lane.md R229 to R236) and what a pair slot computes
(spec/02_encoding.md R73). -/

namespace Sys2Proof.Machine

/-- sat_s32 (R232). -/
def satS32 (x : Int) : Word :=
  if x < -2147483648 then 0x80000000 else if 2147483647 < x then 0x7FFFFFFF else BitVec.ofInt 32 x

/-- sat_u32 (R232). -/
def satU32 (x : Int) : Word :=
  if x < 0 then 0 else if 4294967295 < x then 0xFFFFFFFF else BitVec.ofInt 32 x

/-- An exact operation on integers, narrowed under a mode (R232, R234). -/
def narrow (m : SatMode) (op : Int → Int → Int) (a b : Word) : Word :=
  match m with
  | .wrap => BitVec.ofInt 32 (op a.toInt b.toInt)
  | .sat => satS32 (op a.toInt b.toInt)
  | .usat => satU32 (op (a.toNat : Int) (b.toNat : Int))

/-- IADD (R234). -/
def iadd32 (m : SatMode) (a b : Word) : Word := narrow m (· + ·) a b

/-- ISUB (R234). -/
def isub32 (m : SatMode) (a b : Word) : Word := narrow m (· - ·) a b

/-- IMUL (R234). -/
def imul32 (m : SatMode) (a b : Word) : Word := narrow m (· * ·) a b

/-- SHL (R234). -/
def shl32 (a b : Word) : Word := a <<< (b.toNat % 32)

/-- SHR (R234). -/
def shr32 (a b : Word) : Word := a >>> (b.toNat % 32)

/-- SAR (R234). -/
def sar32 (a b : Word) : Word := a.sshiftRight (b.toNat % 32)

/-- IMIN (R234). -/
def imin32 (u : Bool) (a b : Word) : Word := if (if u then b.ult a else b.slt a) then b else a

/-- IMAX (R234). -/
def imax32 (u : Bool) (a b : Word) : Word := if (if u then a.ult b else a.slt b) then b else a

/-- An integer immediate, sign-extended (R62). -/
def immInt (i : BitVec 24) : Word := i.signExtend 32

/-- A float immediate: bits 31:8 of an FP32 value (R62). -/
def immFloat (i : BitVec 24) : Word := i ++ 0#8

/-- ROTL (R235). -/
def rotl32 (a b : Word) : Word := a.rotateLeft (b.toNat % 32)

/-- Funnel shift (R236). -/
def shf32 (left : Bool) (a b c : Word) : Word :=
  let t : DWord := b ++ a
  let n := c.toNat % 32
  if left then (t <<< n).extractLsb' 32 32 else (t >>> n).extractLsb' 0 32

/-- IMULH (R235). -/
def imulh32 (a b : Word) : Word := BitVec.ofInt 32 (a.toInt * b.toInt / 4294967296)

/-- IMULHU (R235). -/
def imulhu32 (a b : Word) : Word := BitVec.ofNat 32 (a.toNat * b.toNat / 4294967296)

/-- IMAD (R235). -/
def imad32 (sat : Bool) (a b c : Word) : Word :=
  let x := a.toInt * b.toInt + c.toInt
  if sat then satS32 x else BitVec.ofInt 32 x

/-- IABS (R235). -/
def iabs32 (sat : Bool) (a : Word) : Word :=
  let x : Int := (a.toInt.natAbs : Int)
  if sat then satS32 x else BitVec.ofInt 32 x

/-- INEG (R235). -/
def ineg32 (sat : Bool) (a : Word) : Word := if sat then satS32 (-a.toInt) else -a

/-- SEL (R235). -/
def sel32 (a b c : Word) : Word := if c = 0 then b else a

/-- Byte `i` of a word. -/
def byteOf (w : Word) (i : Nat) : BitVec 8 := w.extractLsb' (8 * i) 8

/-- One byte of BYSEL (R236). -/
def byselByte (a b c : Word) (i : Nat) : BitVec 8 :=
  if c.getLsbD (12 + i) then byteOf c 2
  else
    let k := (c.extractLsb' (3 * i) 3).toNat
    if k < 4 then byteOf a k else byteOf b (k - 4)

/-- BYSEL (R236). -/
def bysel32 (a b c : Word) : Word := byselByte a b c 3 ++ byselByte a b c 2 ++ byselByte a b c 1 ++ byselByte a b c 0

/-- CLZ (R235). -/
def clz32 (a : Word) : Word := if a = 0 then 32 else BitVec.ofNat 32 (31 - a.toNat.log2)

/-- Set bits of a word. -/
def popNat (a : Word) : Nat := ((List.range 32).filter (fun i => a.getLsbD i)).length

/-- POPC (R235). -/
def popc32 (a : Word) : Word := BitVec.ofNat 32 (popNat a)

/-- BREV (R235). -/
def brev32 (a : Word) : Word := a.reverse

/-- BFE (R236). -/
def bfe32 (sg : Bool) (a b : Word) : Word :=
  let pos := (byteOf b 0).toNat
  let len := min (byteOf b 1).toNat 32
  let e : Int := if sg then a.toInt else (a.toNat : Int)
  if len = 0 then 0
  else
    let f := (e / 2 ^ pos) % 2 ^ len
    if sg && decide (2 ^ (len - 1) ≤ f) then BitVec.ofInt 32 (f - 2 ^ len) else BitVec.ofInt 32 f

/-- BFI (R236). -/
def bfi32 (a b c : Word) : Word :=
  let pos := (byteOf c 0).toNat
  let len := min (byteOf c 1).toNat 32
  let m : Word := BitVec.ofNat 32 ((2 ^ len - 1) * 2 ^ pos)
  (a &&& ~~~m) ||| (BitVec.ofNat 32 (b.toNat * 2 ^ pos) &&& m)

/-- The operation of a pair slot on D and its second source (R73). -/
def pairOp (op : PairOp) (d b : Word) : Word :=
  match op with
  | .mov => b
  | .iadd => iadd32 .wrap d b
  | .isub => isub32 .wrap d b
  | .and => d &&& b
  | .or => d ||| b
  | .xor => d ^^^ b
  | .shl => shl32 d b
  | .shr => shr32 d b
  | .sar => sar32 d b
  | .imin => imin32 false d b
  | .imax => imax32 false d b
  | .imul => imul32 .wrap d b
  | .fadd => fadd32 .rn d b
  | .fmul => fmul32 .rn d b
  | .fmin => fmin32 d b
  | .fmax => fmax32 d b

/-- Float operations of pair slots take IMM15 as bits 31:17 (R73). -/
def PairOp.isFloat : PairOp → Bool
  | .fadd => true
  | .fmul => true
  | .fmin => true
  | .fmax => true
  | _ => false

/-- A slot's immediate (R73). -/
def imm15 (op : PairOp) (i : BitVec 15) : Word := if PairOp.isFloat op then i ++ 0#17 else i.signExtend 32

end Sys2Proof.Machine
end

