-- ==== Sys2Proof/Machine/Integer.lean ====
section
/-! DEFINITION. Meanings of the integer instructions: opcodes 0x00 to 0x0B, pair words, 0x10 and 0x11
(spec/05_integer_lane.md R233 to R237; spec/02_encoding.md R72 to R74). -/

namespace Sys2Proof.Machine

/-- What an instruction's meaning answers. -/
abbrev Result := Host.Outcome State Fault Refusal

/-- MOV with a register source (R234). -/
def execMov (d a : Reg) (g : Guard) (s : State) : Result := issueResult (.mov d a g) d s (fun c l => c.rd a l)

/-- MOV with an immediate source (R62, R234). -/
def execMovImm (d : Reg) (imm : BitVec 24) (g : Guard) (s : State) : Result :=
  issueResult (.movImm d imm g) d s (fun _ _ => immInt imm)

/-- IADD with a register source (R234). -/
def execIadd (m : SatMode) (d a b : Reg) (g : Guard) (s : State) : Result :=
  issueResult (.iadd m d a b g) d s (fun c l => iadd32 m (c.rd a l) (c.rd b l))

/-- IADD with an immediate source (R62, R234). -/
def execIaddImm (m : SatMode) (d a : Reg) (imm : BitVec 24) (g : Guard) (s : State) : Result :=
  issueResult (.iaddImm m d a imm g) d s (fun c l => iadd32 m (c.rd a l) (immInt imm))

/-- ISUB with a register source (R234). -/
def execIsub (m : SatMode) (d a b : Reg) (g : Guard) (s : State) : Result :=
  issueResult (.isub m d a b g) d s (fun c l => isub32 m (c.rd a l) (c.rd b l))

/-- ISUB with an immediate source (R62, R234). -/
def execIsubImm (m : SatMode) (d a : Reg) (imm : BitVec 24) (g : Guard) (s : State) : Result :=
  issueResult (.isubImm m d a imm g) d s (fun c l => isub32 m (c.rd a l) (immInt imm))

/-- AND with a register source (R234). -/
def execIand (d a b : Reg) (g : Guard) (s : State) : Result :=
  issueResult (.iand d a b g) d s (fun c l => (· &&& ·) (c.rd a l) (c.rd b l))

/-- AND with an immediate source (R62, R234). -/
def execIandImm (d a : Reg) (imm : BitVec 24) (g : Guard) (s : State) : Result :=
  issueResult (.iandImm d a imm g) d s (fun c l => (· &&& ·) (c.rd a l) (immInt imm))

/-- OR with a register source (R234). -/
def execIor (d a b : Reg) (g : Guard) (s : State) : Result :=
  issueResult (.ior d a b g) d s (fun c l => (· ||| ·) (c.rd a l) (c.rd b l))

/-- OR with an immediate source (R62, R234). -/
def execIorImm (d a : Reg) (imm : BitVec 24) (g : Guard) (s : State) : Result :=
  issueResult (.iorImm d a imm g) d s (fun c l => (· ||| ·) (c.rd a l) (immInt imm))

/-- XOR with a register source (R234). -/
def execIxor (d a b : Reg) (g : Guard) (s : State) : Result :=
  issueResult (.ixor d a b g) d s (fun c l => (· ^^^ ·) (c.rd a l) (c.rd b l))

/-- XOR with an immediate source (R62, R234). -/
def execIxorImm (d a : Reg) (imm : BitVec 24) (g : Guard) (s : State) : Result :=
  issueResult (.ixorImm d a imm g) d s (fun c l => (· ^^^ ·) (c.rd a l) (immInt imm))

/-- SHL with a register source (R234). -/
def execShl (d a b : Reg) (g : Guard) (s : State) : Result :=
  issueResult (.shl d a b g) d s (fun c l => shl32 (c.rd a l) (c.rd b l))

/-- SHL with an immediate source (R62, R234). -/
def execShlImm (d a : Reg) (imm : BitVec 24) (g : Guard) (s : State) : Result :=
  issueResult (.shlImm d a imm g) d s (fun c l => shl32 (c.rd a l) (immInt imm))

/-- SHR with a register source (R234). -/
def execShr (d a b : Reg) (g : Guard) (s : State) : Result :=
  issueResult (.shr d a b g) d s (fun c l => shr32 (c.rd a l) (c.rd b l))

/-- SHR with an immediate source (R62, R234). -/
def execShrImm (d a : Reg) (imm : BitVec 24) (g : Guard) (s : State) : Result :=
  issueResult (.shrImm d a imm g) d s (fun c l => shr32 (c.rd a l) (immInt imm))

/-- SAR with a register source (R234). -/
def execSar (d a b : Reg) (g : Guard) (s : State) : Result :=
  issueResult (.sar d a b g) d s (fun c l => sar32 (c.rd a l) (c.rd b l))

/-- SAR with an immediate source (R62, R234). -/
def execSarImm (d a : Reg) (imm : BitVec 24) (g : Guard) (s : State) : Result :=
  issueResult (.sarImm d a imm g) d s (fun c l => sar32 (c.rd a l) (immInt imm))

/-- IMIN with a register source (R234). -/
def execImin (u : Bool) (d a b : Reg) (g : Guard) (s : State) : Result :=
  issueResult (.imin u d a b g) d s (fun c l => imin32 u (c.rd a l) (c.rd b l))

/-- IMIN with an immediate source (R62, R234). -/
def execIminImm (u : Bool) (d a : Reg) (imm : BitVec 24) (g : Guard) (s : State) : Result :=
  issueResult (.iminImm u d a imm g) d s (fun c l => imin32 u (c.rd a l) (immInt imm))

/-- IMAX with a register source (R234). -/
def execImax (u : Bool) (d a b : Reg) (g : Guard) (s : State) : Result :=
  issueResult (.imax u d a b g) d s (fun c l => imax32 u (c.rd a l) (c.rd b l))

/-- IMAX with an immediate source (R62, R234). -/
def execImaxImm (u : Bool) (d a : Reg) (imm : BitVec 24) (g : Guard) (s : State) : Result :=
  issueResult (.imaxImm u d a imm g) d s (fun c l => imax32 u (c.rd a l) (immInt imm))

/-- IMUL with a register source (R234). -/
def execImul (m : SatMode) (d a b : Reg) (g : Guard) (s : State) : Result :=
  issueResult (.imul m d a b g) d s (fun c l => imul32 m (c.rd a l) (c.rd b l))

/-- IMUL with an immediate source (R62, R234). -/
def execImulImm (m : SatMode) (d a : Reg) (imm : BitVec 24) (g : Guard) (s : State) : Result :=
  issueResult (.imulImm m d a imm g) d s (fun c l => imul32 m (c.rd a l) (immInt imm))

/-- The value a slot's second source gives a lane (R72, R73). -/
def slotSrc (c : Ctx) (p : Slot) (l : Nat) : Word :=
  match p.src with
  | .reg a => c.rd a l
  | .imm i => imm15 p.op i

/-- What a slot computes in a lane (R73). -/
def slotVal (c : Ctx) (p : Slot) (l : Nat) : Word := pairOp p.op (c.rd p.d l) (slotSrc c p l)

/-- A pair word: both slots read before either writes; it retires as two instructions (R58, R74). -/
def execPairWord (p q : Slot) (s : State) : Result :=
  issue (.pairWord p q) s (fun c s =>
    retireTo c 2 c.observed (c.sp.pc + 8) (writeReg c q.d (slotVal c q) (writeReg c p.d (slotVal c p) s)))

/-- ANDN (R235). -/
def execAndn (d a b : Reg) (g : Guard) (s : State) : Result :=
  issueResult (.andn d a b g) d s (fun c l => c.rd a l &&& ~~~(c.rd b l))

/-- NOT (R235). -/
def execInot (d a : Reg) (g : Guard) (s : State) : Result :=
  issueResult (.inot d a g) d s (fun c l => ~~~(c.rd a l))

/-- ROTL (R235). -/
def execRotl (d a b : Reg) (g : Guard) (s : State) : Result :=
  issueResult (.rotl d a b g) d s (fun c l => rotl32 (c.rd a l) (c.rd b l))

/-- SHF (R236). -/
def execShf (left : Bool) (d a b e : Reg) (g : Guard) (s : State) : Result :=
  issueResult (.shf left d a b e g) d s (fun c l => shf32 left (c.rd a l) (c.rd b l) (c.rd e l))

/-- IMULH (R235). -/
def execImulh (d a b : Reg) (g : Guard) (s : State) : Result :=
  issueResult (.imulh d a b g) d s (fun c l => imulh32 (c.rd a l) (c.rd b l))

/-- IMULHU (R235). -/
def execImulhu (d a b : Reg) (g : Guard) (s : State) : Result :=
  issueResult (.imulhu d a b g) d s (fun c l => imulhu32 (c.rd a l) (c.rd b l))

/-- IMAD (R235). -/
def execImad (sat : Bool) (d a b e : Reg) (g : Guard) (s : State) : Result :=
  issueResult (.imad sat d a b e g) d s (fun c l => imad32 sat (c.rd a l) (c.rd b l) (c.rd e l))

/-- IABS (R235). -/
def execIabs (sat : Bool) (d a : Reg) (g : Guard) (s : State) : Result :=
  issueResult (.iabs sat d a g) d s (fun c l => iabs32 sat (c.rd a l))

/-- INEG (R235). -/
def execIneg (sat : Bool) (d a : Reg) (g : Guard) (s : State) : Result :=
  issueResult (.ineg sat d a g) d s (fun c l => ineg32 sat (c.rd a l))

/-- SEL (R235). -/
def execSel (d a b e : Reg) (g : Guard) (s : State) : Result :=
  issueResult (.sel d a b e g) d s (fun c l => sel32 (c.rd a l) (c.rd b l) (c.rd e l))

/-- BYSEL (R236). -/
def execBysel (d a b e : Reg) (g : Guard) (s : State) : Result :=
  issueResult (.bysel d a b e g) d s (fun c l => bysel32 (c.rd a l) (c.rd b l) (c.rd e l))

/-- CLZ (R235). -/
def execClz (d a : Reg) (g : Guard) (s : State) : Result :=
  issueResult (.clz d a g) d s (fun c l => clz32 (c.rd a l))

/-- POPC (R235). -/
def execPopc (d a : Reg) (g : Guard) (s : State) : Result :=
  issueResult (.popc d a g) d s (fun c l => popc32 (c.rd a l))

/-- BREV (R235). -/
def execBrev (d a : Reg) (g : Guard) (s : State) : Result :=
  issueResult (.brev d a g) d s (fun c l => brev32 (c.rd a l))

/-- BFE (R236). -/
def execBfe (sg : Bool) (d a b : Reg) (g : Guard) (s : State) : Result :=
  issueResult (.bfe sg d a b g) d s (fun c l => bfe32 sg (c.rd a l) (c.rd b l))

/-- BFI (R236). -/
def execBfi (d a b e : Reg) (g : Guard) (s : State) : Result :=
  issueResult (.bfi d a b e g) d s (fun c l => bfi32 (c.rd a l) (c.rd b l) (c.rd e l))

/-- MOVW: a uniform 32-bit immediate (R237). -/
def execMovw (d : Reg) (imm : BitVec 32) (g : Guard) (s : State) : Result :=
  issueResult (.movw d imm g) d s (fun _ _ => imm)

/-- MOVX: an affine result, base in bits 15:0 and stride in bits 31:16, each sign-extended (R237). -/
def execMovx (d : Reg) (imm : BitVec 32) (g : Guard) (s : State) : Result :=
  issueResult (.movx d imm g) d s (fun _ l =>
    (imm.extractLsb' 0 16).signExtend 32 + BitVec.ofNat 32 l * (imm.extractLsb' 16 16).signExtend 32)

end Sys2Proof.Machine
end

