-- ==== Sys2Proof/Machine/Barrier.lean ====
section
/-! DEFINITION. Barrier objects (spec/03_sequencer.md R135 to R143): arrivals, engine byte counts, completion, waits, and
the meanings of BINIT, BJOIN, BARV, BARX, BWAIT, BTEST, BWAITT, BLEAVE and BWAITT_TIMEOUT; the race epoch (R172). -/

namespace Sys2Proof.Machine

/-- A barrier object as its 16 bytes read (R135). -/
structure BarObj where
  expBytes : Nat
  pendBytes : Int
  expArr : Nat
  pendArr : Nat
  phase : Bool
  unit : Bool
  scope : Bool
  broken : Bool
  /-- Bits 103:96 and 127:108, which no instruction but BINIT changes. -/
  low : Nat
  high : Nat
deriving DecidableEq, Repr

/-- The object held in 128 bits (R135). -/
def BarObj.ofNat (n : Nat) : BarObj where
  expBytes := bits n 0 32
  pendBytes := (BitVec.ofNat 32 (bits n 32 32)).toInt
  expArr := bits n 64 16
  pendArr := bits n 80 16
  phase := bit n 104
  unit := bit n 105
  scope := bit n 106
  broken := bit n 107
  low := bits n 96 8
  high := bits n 108 20

/-- The 128 bits that hold an object (R135). -/
def BarObj.toNat (o : BarObj) : Nat :=
  o.expBytes % 2 ^ 32 + (BitVec.ofInt 32 o.pendBytes).toNat * 2 ^ 32 + o.expArr % 2 ^ 16 * 2 ^ 64 +
    o.pendArr % 2 ^ 16 * 2 ^ 80 + o.low % 2 ^ 8 * 2 ^ 96 + b2n o.phase * 2 ^ 104 + b2n o.unit * 2 ^ 105 +
    b2n o.scope * 2 ^ 106 + b2n o.broken * 2 ^ 107 + o.high % 2 ^ 20 * 2 ^ 108

/-- The object at an offset of a core's SPAD. -/
def State.obj (s : State) (core off : Nat) : BarObj := BarObj.ofNat ((s.core core).spad.nat off 16)

/-- The whole object written at once, and seen as it is by every core (R135). -/
def State.putObj (s : State) (core off : Nat) (o : BarObj) : State :=
  (s.seeUnit (unitOf (.spad core, off))).putBytes ((List.range 16).zip (leBytes 16 o.toNat) |>.map (fun e => ((.spad core, off + e.1), e.2)))

/-! ### Waits on an object (R137, R138) -/

/-- Whether a wait is one on an object. -/
def Wait.isOn (core off : Nat) : Wait → Bool
  | .phase c o _ _ => c == core && o == off
  | _ => false

/-- Every wait on an object becomes another wait. -/
def State.releaseWaits (s : State) (core off : Nat) (w : Wait) : State :=
  { s with groups := s.groups.map (fun e => (e.1, { e.2 with splits := e.2.splits.map (fun x =>
      if x.2.wait.isOn core off then (x.1, { x.2 with wait := w }) else x) })) }

/-- complete(o) on the object alone (R137). -/
def BarObj.complete (o : BarObj) : BarObj :=
  { o with phase := !o.phase, pendArr := o.expArr, pendBytes := (BitVec.ofNat 32 o.expBytes).toInt }

/-- Live groups, or live lanes, of a domain as of a key: those live now, and those whose EXIT took effect at a larger one
(R172). -/
def State.liveCount (s : State) (cl : Nat) (unit : Bool) (k : Key) : Nat :=
  let gs := (s.clusterGroups cl).filter (fun e => e.2.alive)
  let late := ((s.clusters.find? cl).map (fun c => c.exits.filter (fun e => keyLt k e.1))).getD []
  if unit then (gs.map (fun e => popMask e.2.live)).sum + (late.map (fun e => e.2.1)).sum
  else gs.length + (late.filter (fun e => e.2.2)).length

/-- A phase of an object completes with the event key `k`: its waits are released, and the race epoch of the domain
advances when EXPARR equals the domain's live count (R137, R169, R172). What came before the arrivals is visible in the cluster
from then on (R142). -/
def State.phaseDone (s : State) (cl core off : Nat) (o : BarObj) (reckon : Bool) (k : Key) : State :=
  let s := s.modCore core (fun c => { c with phaseKey := c.phaseKey.set off k })
  let s := (s.releaseWaits core off (.released k)).seeAll (s.clusterCores cl)
  if reckon ∧ o.expArr = s.liveCount cl o.unit k then s.advanceEpoch cl else s

/-- An arrival of `n` units with `b` bytes, EXPARR lowered by `lower` in the same update; none where it cannot be made.
The Bool says that the phase completed (R137, R143). -/
def BarObj.arrive (o : BarObj) (n b lower : Nat) : Option (BarObj × Bool) :=
  let nb : Int := o.pendBytes + b
  if o.broken ∨ o.pendArr = 0 ∨ o.pendArr < n ∨ 2 ^ 31 - 1 < nb ∨ (o.pendArr = n ∧ nb < 0) ∨ o.expArr < lower then none
  else
    let o1 := { o with pendArr := o.pendArr - n, pendBytes := nb, expArr := o.expArr - lower }
    if o1.pendArr = 0 ∧ nb = 0 then some (o1.complete, true) else some (o1, false)

/-- An engine counts `b` bytes on an object, at the command's key (R138, R170). PENDBYTES wraps modulo 2^32, and an object
that rests with EXPARR 0 completes a phase once its reloaded bytes are counted: the model's choices (assumption log 36). -/
def State.countBytes (s : State) (cl core off b : Nat) (reckon : Bool) (k : Key) : State :=
  let o := s.obj core off
  let nb : Int := (BitVec.ofInt 32 (o.pendBytes - b)).toInt
  let o1 := { o with pendBytes := nb }
  if o.pendArr = 0 ∧ nb = 0 then (s.putObj core off o1.complete).phaseDone cl core off o1 reckon k
  else if o.pendArr = 0 ∧ nb < 0 then
    (s.putObj core off { o1 with broken := true }).releaseWaits core off .broken
  else s.putObj core off o1

/-! ### Membership (R139) -/

/-- The number of the entry that holds an object. -/
def Group.memberAt (g : Group) (core off : Nat) : Option Nat :=
  (List.find? (fun e => e.2.core = core && e.2.off = off) g.members).map Prod.fst

/-- An arrival on a member object is recorded (R139). -/
def Group.noteArrival (g : Group) (core off : Nat) (p : Bool) : Group :=
  match g.memberAt core off with
  | some e => { g with members := g.members.modify e (fun m => { m with arrived := true, aphase := p }) }
  | none => g

/-- The lowest free entry of a membership set. -/
def Group.freeMember (g : Group) : Option Nat := (List.range 8).find? (fun e => (g.members.find? e).isNone)

/-! ### The meanings (R140 to R143) -/

/-- The team whose SPAD a locator names is swapped out (R226). -/
def objectHeld (c : Ctx) (s : State) (loc : Reg) : Bool :=
  match s.memberTeam c.team (bits (c.uni loc).toNat 24 4) with
  | some m => m.swapped
  | none => false

/-- A barrier instruction's object: the locator's checks (R136), then the wait while the team there is swapped out or an
engine owns the object's sector (R31, R226). -/
def barrierAt (c : Ctx) (s : State) (loc : Reg) (k : Nat → Nat → State) : State :=
  match locate c s (c.uni loc) 16 16 false with
  | .error t => takeTrap c t s
  | .ok p =>
    if objectHeld c s loc || s.owned (.spad p.1, p.2) then s else k p.1 p.2

/-- The count of an arrival: groups, or participating lanes (R141). -/
def arriveUnits (c : Ctx) (o : BarObj) : Nat := if o.unit then popMask c.act else 1

/-- An arrival by the issuing group: trap 0x0F where it cannot be made, else `k` on the phase arrived in. It waits for
the group's FIFO, being a release (R142, R204). -/
def arriveAs (c : Ctx) (s : State) (core off n b lower : Nat) (k : Bool → State → State) : State :=
  let o := s.obj core off
  match o.arrive n b lower with
  | none => trap c 0x0F s
  | some (o1, done) =>
    if ¬c.grp.fifo.isEmpty then s
    else
      let s := s.putObj core off o1
      let s := if done then s.phaseDone c.team.cluster core off o1 c.reckon c.grp.key else s
      k o.phase (s.modGroup c.gid (fun g => g.noteArrival core off o.phase))

/-- BINIT (R141, R142): the whole object at once, in store order after the group's older stores. -/
def execBinit (lane cluster : Bool) (loc arr bytes : Reg) (g : Guard) (s : State) : Result :=
  issueSync (.binit lane cluster loc arr bytes g) s (fun c s =>
    barrierAt c s loc (fun core off =>
      let a := (c.uni arr).toNat
      let b := (c.uni bytes).toNat
      if a = 0 ∨ 65535 < a ∨ 2 ^ 31 ≤ b then trap c 0x0F s
      else if ¬c.grp.fifo.isEmpty then s
      else
        let o : BarObj := { expBytes := b, pendBytes := b, expArr := a, pendArr := a, phase := false, unit := lane,
                            scope := cluster, broken := false, low := 0, high := 0 }
        retire c ((s.putObj core off o).modCore core (fun k => { k with phaseKey := k.phaseKey.erase off }))))

/-- BJOIN (R139, R141). -/
def execBjoin (loc : Reg) (g : Guard) (s : State) : Result :=
  issueSync (.bjoin loc g) s (fun c s =>
    barrierAt c s loc (fun core off =>
      if (s.obj core off).broken then trap c 0x0F s
      else if (c.grp.memberAt core off).isSome then retire c s
      else
        match c.grp.freeMember with
        | none => trap c 0x0F s
        | some e => retire c (s.modGroup c.gid (fun g =>
            let m : Member := { core := core, off := off, locator := c.uni loc, arrived := false, aphase := false,
                                lanes := popMask g.live }
            { g with members := Map.set g.members e m }))))

/-- BARV (R141). -/
def execBarv (d loc : Reg) (g : Guard) (s : State) : Result :=
  issueSync (.barv d loc g) s (fun c s =>
    barrierAt c s loc (fun core off =>
      arriveAs c s core off (arriveUnits c (s.obj core off)) 0 0 (fun p s =>
        retire c (writeUni c d (BitVec.ofNat 32 (b2n p)) s))))

/-- BARX (R141). -/
def execBarx (d loc bytes : Reg) (g : Guard) (s : State) : Result :=
  issueSync (.barx d loc bytes g) s (fun c s =>
    barrierAt c s loc (fun core off =>
      let b := (c.uni bytes).toNat
      if 2 ^ 31 ≤ b then trap c 0x0F s
      else arriveAs c s core off (arriveUnits c (s.obj core off)) b 0 (fun p s =>
        retire c (writeUni c d (BitVec.ofNat 32 (b2n p)) s))))

/-- The event a wait observes when the phase it names has completed already (R169). -/
def phaseObserved (c : Ctx) (s : State) (core off : Nat) : Option Key :=
  if c.reckon then (s.core core).phaseKey.find? off else none

/-- A wait retires: its own result, then the next word, the event observed (R167). -/
def retireObs (c : Ctx) (obs : Option Key) (s : State) : State := retireTo c 1 obs (c.sp.pc + 8) s

/-- BWAIT, BWAITT and the retirement of both: a released wait retires with `yes`, an expired one with `no`, one released
by BROKEN traps 0x0F as it retires (R138, R141); otherwise the object is looked at, and the split blocks. -/
def waitPhase (c : Ctx) (s : State) (loc ph : Reg) (deadline : Option Nat) (yes no : State → State) : State :=
  match c.sp.wait with
  | .released k => retireObs c (some k) (yes s)
  | .expired k => retireObs c (some k) (no s)
  | .broken => trap c 0x0F s
  | _ =>
    barrierAt c s loc (fun core off =>
      let o := s.obj core off
      if o.broken then trap c 0x0F s
      else
        let p := (c.uni ph).getLsbD 0
        if o.phase ≠ p then retireObs c (phaseObserved c s core off) (yes s)
        else block c (.phase core off p deadline) s)

/-- BWAIT (R141). -/
def execBwait (loc ph : Reg) (g : Guard) (s : State) : Result :=
  issueSync (.bwait loc ph g) s (fun c s => waitPhase c s loc ph none id id)

/-- BWAITT (R141, R169). -/
def execBwaitt (d loc ph t : Reg) (g : Guard) (s : State) : Result :=
  issueSync (.bwaitt d loc ph t g) s (fun c s =>
    waitPhase c s loc ph (some (c.grp.ltime.toNat + (c.uni t).toNat)) (writeUni c d 1) (writeUni c d 0))

/-- BTEST (R141). -/
def execBtest (d loc ph : Reg) (g : Guard) (s : State) : Result :=
  issueSync (.btest d loc ph g) s (fun c s =>
    barrierAt c s loc (fun core off =>
      let o := s.obj core off
      if o.broken then trap c 0x0F s
      else if o.phase ≠ (c.uni ph).getLsbD 0 then retireObs c (phaseObserved c s core off) (writeUni c d 1 s)
      else retire c (writeUni c d 0 s)))

/-- The object after BLEAVE by an entry: none where it traps. The Bool says that the phase completed (R141, R143). -/
def leaveObj (o : BarObj) (m : Member) : Option (BarObj × Bool) :=
  let n := if o.unit then m.lanes else 1
  if o.broken ∨ o.expArr < n then none
  else if m.arrived ∧ m.aphase = o.phase then some ({ o with expArr := o.expArr - n }, false)
  else o.arrive n 0 n

/-- BLEAVE (R141, R143). -/
def execBleave (loc : Reg) (g : Guard) (s : State) : Result :=
  issueSync (.bleave loc g) s (fun c s =>
    barrierAt c s loc (fun core off =>
      match c.grp.memberAt core off with
      | none => trap c 0x0F s
      | some e =>
        match c.grp.members.find? e with
        | none => trap c 0x0F s
        | some m =>
          match leaveObj (s.obj core off) m with
          | none => trap c 0x0F s
          | some (o1, done) =>
            if ¬c.grp.fifo.isEmpty then s
            else
              let s := s.putObj core off o1
              let s := if done then s.phaseDone c.team.cluster core off o1 c.reckon c.grp.key else s
              retire c (s.modGroup c.gid (fun g => { g with members := g.members.erase e }))))

/-- The implicit BLEAVE of EXIT by one entry: where it cannot be made, the object becomes BROKEN (R130). -/
def implicitLeave (cl : Nat) (reckon : Bool) (k : Key) (m : Member) (s : State) : State :=
  let o := s.obj m.core m.off
  match leaveObj o m with
  | some (o1, done) =>
    let s := s.putObj m.core m.off o1
    if done then s.phaseDone cl m.core m.off o1 reckon k else s
  | none => (s.putObj m.core m.off { o with broken := true }).releaseWaits m.core m.off .broken

/-- BWAITT_TIMEOUT (R141, R169): a BWAITT's time runs out; in Reckoning mode, when its timeout key is the smallest. -/
def execBwaittTimeout (grp slot : Nat) (s : State) : Result :=
  .next (match s.ctxAt grp slot 0 Guard.always with
  | none => s
  | some c =>
    match c.sp.wait with
    | .phase _ _ _ (some t) =>
      let k : Key := (t, c.grp.ggid.toNat)
      if c.reckon && !s.smallest c.team.cluster k then s
      else s.modSplit grp slot (fun sp => { sp with wait := .expired k })
    | _ => s)

end Sys2Proof.Machine
end

