-- ==== Sys2Proof/Machine/Engine.lean ====
section
/-! DEFINITION. What every asynchronous engine command shares (spec/01_machine.md R22 to R34): how it sees addresses and
reads its sources, its acceptance, the release of a unit, and its completion (spec/07_traverse.md R292 to R295). -/

namespace Sys2Proof.Machine

/-! ### Addresses as a command sees them -/

/-- The members of the issuing cluster, the issuing team first as 15 (R136, R180). -/
def viewOf (c : Ctx) (s : State) : List MemberView :=
  { member := 15, core := c.team.core, base := c.team.spadBase, spadb := s.spadb c.team } ::
    ((s.clusterTeams c.team.cluster).filter (fun e => !e.2.ended)).map (fun e =>
      { member := e.2.member, core := e.2.core, base := e.2.spadBase, spadb := s.spadb e.2 })

/-- A member of a view. -/
def memberIn (view : List MemberView) (n : Nat) : Option MemberView := view.find? (fun m => m.member = n)

/-- The aperture of an address, of `n` bytes, that a command names: global or SPAD, never a stack (R178, R181, R297). -/
def viewPlace (view : List MemberView) (addr : DWord) (n : Nat) : Option VPlace :=
  let a := addr.toNat
  match bits a 56 8 with
  | 0x00 => if bits a 0 56 + n ≤ 2 ^ 56 then some (.glob (bits a 0 56)) else none
  | 0xFE =>
    if bits a 28 28 = 0 ∧ bits a 21 3 = 0 then
      match memberIn view (bits a 24 4) with
      | some m => if bits a 0 21 + n ≤ m.spadb then some (.spad m.core (m.base + bits a 0 21) false) else none
      | none => none
    else none
  | _ => none

/-- Places and lengths of addresses that a command touches: the lowest address and how far they reach from it (R298). -/
def rangeOf (es : List (DWord × Nat)) : Option (Nat × Nat) :=
  match (es.map (fun e => e.1.toNat)).min?, (es.map (fun e => e.1.toNat + e.2)).max? with
  | some lo, some hi => some (lo, hi - lo)
  | _, _ => none

/-- The places of `n` bytes that a command names: none outside the accessible set of its grid (R182, R304). -/
def State.cmdPlaces (s : State) (grid : Nat) (view : List MemberView) (addr : DWord) (n : Nat) (need : Need) :
    Option (List Place) :=
  match viewPlace view addr n, s.grids.find? grid with
  | some (.glob va), some g => s.spanGlobal g va n need
  | some v, some g => s.places g v n need
  | _, _ => none

/-- A command names the SPAD of a team that is swapped out; it waits at issue for the team's return (R226). -/
def State.namesAway (s : State) (t : Team) (addr : DWord) (n : Nat) : Bool :=
  match s.aperture t none addr n with
  | some (.spad _ _ h) => h
  | _ => false

/-! ### Source bytes (R34) -/

/-- A space as a number. -/
def spaceCode : Space → Nat
  | .global => 0
  | .spad c => 2 * c + 1
  | .wbuf c => 2 * c + 2

/-- A place as a command's program names it: by cluster member where it is SPAD (R52, R54). -/
def Cmd.logical (cmd : Cmd) (p : Place) : Nat × Nat :=
  match p.1 with
  | .global => (0, p.2)
  | .wbuf _ => (1, p.2)
  | .spad c =>
    (match cmd.view.find? (fun m => m.core = c && decide (m.base ≤ p.2) && decide (p.2 < m.base + m.spadb)) with
    | some m => (2 + m.member, p.2 - m.base)
    | none => (2, p.2))

/-- The free pick for an overwritten source byte (R34); in Reckoning mode one that no run changes (R54). -/
def Cmd.takesNew (cmd : Cmd) (id : Nat) (p : Place) : Bool :=
  if cmd.reckon then Config.pickKeyed cmd.key.1 cmd.key.2 (cmd.logical p).1 (cmd.logical p).2
  else Config.pick id (spaceCode p.1) p.2

/-- A value that the manual leaves open to a command, by number: a free one, and in Reckoning mode one that no run changes
(R54; assumption log 3). -/
def State.openOf (s : State) (cmd : Cmd) (i : Nat) : Word :=
  if cmd.reckon then Config.keyed cmd.key.1 cmd.key.2 i else Config.freeWord (s.fresh + i)

/-- The overwritings of a byte that a command may look behind (R34): an Almanac command follows every write of the Almanac
engine since its acceptance, for those are of earlier commands in ACC order (R322). -/
def State.overwritten (s : State) (cmd : Cmd) (p : Place) : List Overwrite :=
  let es := (s.undo.drop cmd.mark).filter (fun e => e.place = p)
  if cmd.work.isAlmanac then (es.reverse.takeWhile (fun e => !e.almanac)).reverse else es

/-- A source byte of a command: the byte as it stands, or the one it was before it was overwritten in flight when the free
pick says so (R34). -/
def State.sourceByte (s : State) (id : Nat) (cmd : Cmd) (p : Place) : Byte :=
  match s.overwritten cmd p with
  | [] => s.byteAt p
  | e :: _ => if cmd.takesNew id p then s.byteAt p else e.old

/-- A little-endian source number of a command: none outside the accessible set. -/
def State.sourceNat (s : State) (id : Nat) (cmd : Cmd) (addr : DWord) (n : Nat) : Option Nat :=
  (s.cmdPlaces cmd.grid cmd.view addr n .read).map (fun ps => leNat (ps.map (s.sourceByte id cmd)))

/-! ### Ownership (R30, R33) -/

/-- Some command that took ownership earlier owns the unit (R33). -/
def State.ownedBefore (s : State) (id : Nat) (u : Place) : Bool :=
  let mine := ((s.cmds.find? id).map Cmd.grant).getD id
  s.cmds.any (fun e => decide (e.1 ≠ id) && decide (e.2.grant < mine) && e.2.owns u)

/-- A command takes ownership of units now, at a moment after its acceptance (R30, R33). -/
def State.takeUnits (s : State) (id : Nat) (owned : List (Space × Nat × Nat)) : State :=
  { s with uid := s.uid + 1, cmds := s.cmds.modify id (fun c => { c with owned := owned, grant := s.uid + 1 }) }

/-- One unit taken out of ownership ranges. -/
def dropUnit (u : Place) (rs : List (Space × Nat × Nat)) : List (Space × Nat × Nat) :=
  rs.flatMap (fun r =>
    if r.1 = u.1 ∧ r.2.1 ≤ u.2 ∧ u.2 < r.2.2 then
      (if r.2.1 < u.2 then [(r.1, r.2.1, u.2)] else []) ++ (if u.2 + 1 < r.2.2 then [(r.1, u.2 + 1, r.2.2)] else [])
    else [r])

/-- Units as ownership ranges of one. -/
def unitRanges (us : List Place) : List (Space × Nat × Nat) := us.dedup.map (fun u => (u.1, u.2, u.2 + 1))

/-! ### Writes of an engine -/

/-- A core's WBUF region before a write into it: zeroed when another ASID's tag holds it, and tagged (R320). -/
def State.takeWbuf (s : State) (core off asid team : Nat) : State :=
  let r := off / 65536
  let mine := ((s.core core).wbufTag.find? r).any (fun t => t.1 = asid)
  let s := if mine then s else s.markStale (.wbuf core) (65536 * r) (65536 * (r + 1))
  s.modCore core (fun k =>
    { k with wbuf := if mine then k.wbuf else k.wbuf.filter (fun e => e.1 / 65536 ≠ r)
             wbufTag := k.wbufTag.set r (asid, team) })

/-- The team whose SPAD holds a place, and the place's generation region in it (R312). -/
def State.genOf (s : State) (p : Place) : Option (Nat × Nat) :=
  match p.1 with
  | .spad c =>
    (List.find? (fun (e : Nat × Team) => e.2.core = c && !e.2.swapped && decide (e.2.spadBase ≤ p.2) &&
      decide (p.2 < e.2.spadBase + s.spadb e.2)) s.teams).map (fun e => (e.1, (p.2 - e.2.spadBase) / 4096))
  | _ => none

/-- The generation regions of some places (R312). -/
def State.regionsAt (s : State) (ps : List Place) : List (Nat × Nat) :=
  ((ps.map unitOf).dedup.filterMap (fun u => match u.1 with
    | .spad _ => s.genOf (u.1, u.2 * 32)
    | _ => none)).dedup

/-- Bytes an engine writes for a command, at their places: the regions they lie in are noted (R338), writes of the Almanac
engine are told apart (R322), and what they mark STALE is marked at the command's key (R379). -/
def State.engineWrite (s : State) (id : Nat) (cmd : Cmd) (ws : List (Place × Byte)) : State :=
  let ps := ws.map Prod.fst
  let s := ps.foldl (fun s p =>
    match p.1 with
    | .wbuf c => s.takeWbuf c p.2 cmd.asid cmd.team
    | _ => s) s
  let n := s.undo.length
  let s := ((s.performed cmd.core ps).touchPlaces none (s.asidTag cmd.asid) ps).putBytes ws
  let rs := s.regionsAt ps
  let s := { s with
    undo := if cmd.work.isAlmanac then s.undo.take n ++ (s.undo.drop n).map (fun e => { e with almanac := true }) else s.undo
    cmds := s.cmds.modify id (fun c => { c with regions := c.regions ++ rs.filter (fun r => !c.regions.contains r) }) }
  if cmd.reckon then s.keyMarks cmd.cluster cmd.key else s

/-- Masked writes brought together, place by place, over the bytes that stand there (R303). -/
def State.mergeBytes (s : State) (ws : List (Place × Byte × Byte)) : List (Place × Byte) :=
  (ws.map Prod.fst).dedup.map (fun p =>
    (p, ws.foldl (fun b w => if w.1 = p then (b &&& ~~~w.2.1) ||| (w.2.2 &&& w.2.1) else b) (s.byteAt p)))

/-- The member whose object counts the bytes written at a place: the one on the place's core for a multicast, else the
issuing team (R26, R307). -/
def Cmd.objectFor (cmd : Cmd) (multicast : Bool) (p : Place) : Option (Nat × Nat) :=
  match cmd.bar with
  | none => none
  | some off =>
    let core := match p.1 with
      | .spad c => c
      | .wbuf c => c
      | .global => cmd.core
    let m := if multicast then cmd.view.find? (fun m => m.core = core) else memberIn cmd.view 15
    m.map (fun m => (m.core, m.base + off))

/-- Bytes are counted on an object: at once, or in Reckoning mode when the command completes, at its key (R27, R170). -/
def State.countFor (s : State) (id : Nat) (cmd : Cmd) (obj : Option (Nat × Nat)) (n : Nat) : State :=
  match obj with
  | none => s
  | some (core, off) =>
    if n = 0 then s
    else if cmd.reckon then
      { s with cmds := s.cmds.modify id (fun c => { c with uncounted := c.uncounted ++ [(core, off, n)] }) }
    else s.countBytes cmd.cluster core off n false cmd.key

/-- A unit is written, released and its bytes counted (R27). -/
def State.releaseUnit (s : State) (id : Nat) (cmd : Cmd) (multicast : Bool) (u : Place) (ws : List (Place × Byte)) :
    State :=
  let s := s.engineWrite id cmd ws
  let s := { s with cmds := s.cmds.modify id (fun c => { c with owned := dropUnit u c.owned }) }
  s.countFor id cmd (cmd.objectFor multicast u) ws.length

/-! ### Acceptance and completion -/

/-- State and status of a tag that no command has named (R292, R293). -/
def Tag.idle : Tag := { st := .idle, status := 3, cmd := 0, team := 0, key := (0, 0) }

/-- A tag of a core (R292). -/
def State.tag (s : State) (core t : Nat) : Tag := (s.core core).tags.getD t Tag.idle

/-- A tag changed. -/
def State.putTag (s : State) (core t : Nat) (v : Tag) : State :=
  s.modCore core (fun k => { k with tags := k.tags.put Tag.idle t v })

/-- A command that names this tag can be accepted (R22, R292). -/
def State.tagFree (s : State) (core t : Nat) : Bool := (s.tag core t).st != .pending

/-- A command is accepted: its tag is PENDING, its units are owned, and atomic line buffers give lines of them up (R22,
R30, R198). -/
def State.accept (s : State) (c : Ctx) (tag bar : Option Nat) (view : List MemberView) (owned : List (Space × Nat × Nat))
    (work : Work) : State :=
  let id := s.uid + 1
  let cmd : Cmd :=
    { core := c.grp.core, grp := c.gid, team := c.grp.team, cluster := c.team.cluster, grid := c.team.grid,
      asid := c.grid.asid, ggid := c.grp.ggid, reckon := c.reckon, key := c.grp.key, keyed := true, tag := tag, bar := bar,
      view := view, act := c.act, owned := owned, recalled := [], grant := id, regions := [], mark := s.undo.length, uncounted := [], work := work }
  let s := { s with uid := id, cmds := s.cmds.set id cmd }
  let s := match tag with
    | some t => s.putTag c.grp.core t
        { st := .pending, status := 2, cmd := id, team := c.grp.team, key := c.grp.key }
    | none => s
  s.cores.foldl (fun s e => e.2.alb.foldl (fun s line => if cmd.owns (.global, line) then s.recall none line else s) s) s

/-- A race found on an engine access: the issuing group owes the trap, until it waits on the command or exits (R213). -/
def State.owe (s : State) (id : Nat) (cmd : Cmd) (sub : Nat) (addr : DWord) (other : Word) (status : Nat) : State :=
  let o : Owed := { sub := sub, addr := addr, other := other, cmd := id, status := status,
                    loop := cmd.work.loopId }
  s.modGroup cmd.grp (fun g => { g with owed := g.owed ++ [o] })

/-- A place that the race trap checks: no typed buffer (R210). -/
def checkedPlace (p : Place) : Bool :=
  match p.1 with
  | .wbuf _ => false
  | _ => true

/-- The source reads of a command become reads of its group in the epoch in which it completes (R212). -/
def Cluster.settleReads (cl : Cluster) (id : Nat) (ggid : Word) : Cluster :=
  let mine := cl.accesses.filter (fun a => a.kind = AccessKind.source id)
  let rest := cl.accesses.filter (fun a => a.kind ≠ AccessKind.source id)
  { cl with accesses := rest ++ (mine.map (fun a => Access.mk a.loc ggid .read)).filter (fun a => !rest.contains a) }

/-- The conflicting access of a list with the lowest address, with the group it conflicts with (R213). -/
def lowestRace (cl : Cluster) (ggid : Word) (k : AccessKind) (ps : List (Place × DWord)) : Option (DWord × Word) :=
  ps.foldl (fun best p =>
    match cl.race (.byte p.1) ggid k with
    | none => best
    | some o =>
      (match best with
      | some b => if p.2.toNat < b.1.toNat then some (p.2, o) else best
      | none => some (p.2, o))) none

/-- The race check of engine accesses, recorded for the issuing group; its own source reads do not count against it, and typed
buffers are not checked (R210, R212, R213). A byte whose metadata the arena cannot take is owed as SUBCODE 4 (R214). -/
def State.engineAccess (s : State) (id : Nat) (cmd : Cmd) (k : AccessKind) (ps : List (Place × DWord)) : State :=
  if cmd.reckon then
    match s.clusters.find? cmd.cluster with
    | none => s
    | some cl =>
      let others := { cl with accesses := cl.accesses.filter (fun a => a.kind ≠ AccessKind.source id) }
      let ps := ps.filter (fun (p : Place × DWord) => checkedPlace p.1)
      let s := match lowestRace others cmd.ggid k ps with
        | some r => s.owe id cmd 0 r.1 r.2 0
        | none =>
          match ps.find? (fun (p : Place × DWord) => noArena s.ms && cl.bare (.byte p.1)) with
          | some p => s.owe id cmd 4 p.2 0 0
          | none => s
      s.record cmd.cluster (ps.map (fun p => Access.mk (.byte p.1) cmd.ggid k))
  else s

/-- The source reads of a command, in force until it completes (R212). -/
def State.sourceAccess (s : State) (id : Nat) (ps : List (Place × DWord)) : State :=
  match s.cmds.find? id with
  | some cmd => s.engineAccess id cmd (.source id) ps
  | none => s

/-- A 4 KiB generation region of a team's SPAD: its counter goes up by 1, modulo 2^32, and the operand cache's copies of
it go (R312, R338, R339). -/
def State.bumpGen (s : State) (team region : Nat) : State :=
  match s.teams.find? team with
  | none => s
  | some t =>
    (s.modTeam team (fun t => { t with gens := t.gens.put 0 region ((t.gens.getD region 0 + 1) % 2 ^ 32) })).modCore t.core
      (fun k => { k with opCache := k.opCache.filter (fun e => decide (e.1 ≠ team) || decide (e.2.1 / 32 ≠ region)) })

/-- A command completes with a status word: Reckoning counts first, then every unit it still owns is released unwritten,
its tag is READY, and it is gone (R27, R28, R170, R292); what it has written is visible on its core from then on (R29). `written` are the bytes it wrote, for the race trap;
the generation counters of the regions it wrote go up (R338). -/
def State.complete (s : State) (id : Nat) (cmd : Cmd) (status : Word) (written : List (Place × DWord)) : State :=
  let s := cmd.uncounted.foldl (fun s u => s.countBytes cmd.cluster u.1 u.2.1 u.2.2 cmd.reckon cmd.key) s
  let s := s.engineAccess id cmd .write written
  let s := (((s.cmds.find? id).map Cmd.regions).getD []).foldl (fun s g => s.bumpGen g.1 g.2) s
  let s := s.modCluster cmd.cluster (fun c => c.settleReads id cmd.ggid)
  let s := match cmd.tag with
    | some t =>
      let g := s.tag cmd.core t
      if g.cmd = id then s.putTag cmd.core t { g with st := .ready, status := status } else s
    | none => s
  let s := s.modCore cmd.core (fun k => { k with accQ := k.accQ.filter (fun q => q ≠ id), views := [] })
  let cmds := s.cmds.erase id
  ({ s with cmds := cmds, undo := if cmds.isEmpty then [] else s.undo }).dropTeam cmd.team

/-- A status word: COUNT and CODE (R293). -/
def statusWord (count code : Nat) : Word := BitVec.ofNat 32 (count % 2 ^ 24 * 256 + code)

/-- In Reckoning mode a completion takes effect at the command's key (R170). -/
def State.completable (s : State) (cmd : Cmd) : Bool := !cmd.reckon || s.smallest cmd.cluster cmd.key

/-- ACC order goes on past a command: a loop that has stopped or run to its end, or a transfer that has written every unit;
only its completion is left (R321, R353). -/
def Cmd.passed (cmd : Cmd) : Bool :=
  match cmd.work with
  | .loop l => l.done.isSome
  | .xfer _ => cmd.owned.isEmpty
  | _ => false

/-- ACC order has come to a command: every earlier one is past (R321). -/
def State.accFirst (s : State) (core id : Nat) : Bool :=
  let q := (s.core core).accQ
  q.contains id && (q.takeWhile (fun j => j != id)).all (fun j => (s.cmds.find? j).all Cmd.passed)

/-- A loop that a halt stops at a step boundary (R354, R356): not a TLOOK whose step has decided on spills. -/
def Cmd.stops (cmd : Cmd) : Bool :=
  match cmd.work with
  | .loop l => (l.op == .mloop || l.op == .tlook) && l.done.isNone && l.decided.isNone
  | _ => false

/-- The grid of a command has ended (R304). -/
def State.gridOver (s : State) (cmd : Cmd) : Bool :=
  match s.grids.find? cmd.grid with
  | some g => g.ending.isSome
  | none => true

/-- A lease violation found by an engine ends the grid, with no handler and no frame (R157, R304). -/
def State.engineLease (s : State) (cmd : Cmd) : State :=
  s.endGrid cmd.grid { status := 3, ggid := cmd.ggid, cause := 0x05, epc := 0 }

/-! ### ACC elements (R317 to R320) -/

/-- Where element (m, n) of a tile is held. -/
def accIndex (t m n : Nat) : Nat := t * 16384 + m * 128 + n

/-- A tile's mode (R318). -/
def Core.mode (k : Core) (t : Nat) : TileMode := k.accMode.getD t .f32

/-- A tile is tagged with an ASID (R320). -/
def Core.tileOf (k : Core) (t asid : Nat) : Bool := (k.accTag.find? t).any (fun x => x.1 = asid)

/-- An element as a reader of an ASID sees it: zero in a tile of another ASID; through the hi tile of a pair the rounded
sum, unless `raw` (R319, R320). -/
def Core.accRead (k : Core) (asid t m n : Nat) (raw : Bool) : Word :=
  if ¬k.tileOf t asid then 0
  else
    let w := k.acc.getD (accIndex t m n) 0
    if k.mode t = .x2 ∧ t % 2 = 0 ∧ ¬raw then
      match fval w with
      | .fin _ _ _ => fadd32 .rn w (k.acc.getD (accIndex (t + 1) m n) 0)
      | _ => w
    else w

end Sys2Proof.Machine
end

