-- ==== Sys2Proof/Machine/Transform.lean ====
section
/-! DEFINITION. Shape records and the transforms of the Traverse engine (spec/07_traverse.md R287 to R303): which
element goes where, and what it becomes. -/

namespace Sys2Proof.Machine

/-! ### Shape records (R287 to R290) -/

/-- A signed 40-bit field (R288). -/
def signed40 (n : Nat) : Int := (BitVec.ofNat 40 n).toInt

/-- A dimension descriptor of 16 bytes (R288). -/
def parseDim (n : Nat) : Dim where
  tile := bits n 0 16
  valid := bits n 16 16
  padlo := bits n 32 16
  sstride := signed40 (bits n 48 40)
  dstride := signed40 (bits n 88 40)

/-- A record of 192 bytes as a number (R287); the dimensions in use come first. -/
def parseShape (n : Nat) : Shape where
  version := bits n 0 8
  stype := bits n 8 4
  dtype := bits n 12 4
  ndim := bits n 16 3
  swz := bits n 24 2
  padval := bits n 32 32
  idxAddr := BitVec.ofNat 64 (bits n 64 64)
  idxLim := bits n 128 32
  dims := (List.range (min 6 (bits n 16 3))).map (fun d => parseDim (bits n (256 + 128 * d) 128))
  scaleAddr := BitVec.ofNat 64 (bits n 1024 64)
  specAddr := BitVec.ofNat 64 (bits n 1088 64)
  tscale := BitVec.ofNat 32 (bits n 1152 32)
  sfmt := bits n 1184 4
  blk := bits n 1188 2
  usebsv := bit n 1190
  ovf := bit n 1191
  tsen := bit n 1192
  scomp := bit n 1193

/-- Bits of an element type that a shape record may name; 0 for the others (R83). -/
def typeBits (t : Nat) : Nat :=
  match t with
  | 0x0 | 0x1 | 0x2 => 32
  | 0x3 | 0xB | 0xC => 16
  | 0x4 | 0x5 | 0x7 | 0x8 => 8
  | 0x6 | 0x9 | 0xA => 4
  | _ => 0

/-- Bytes of an element, 1 for a 4-bit type (R298). -/
def typeBytes (t : Nat) : Nat := max 1 (typeBits t / 8)

/-- N4, INT4 and UINT4. -/
def isFour (t : Nat) : Bool := typeBits t == 4

/-- QUANT and DEQUANT (R299). -/
def isQuant (fn : Nat) : Bool := fn == 3 || fn == 4

/-- Block length (R287). -/
def Shape.blockLen (r : Shape) : Nat := 8 * 2 ^ r.blk

/-- The extents (R288). -/
def Shape.tiles (r : Shape) : List Nat := r.dims.map (fun d => d.tile)

/-- A dimension of a record. -/
def Shape.dim (r : Shape) (d : Nat) : Dim :=
  r.dims.getD d { tile := 1, valid := 0, padlo := 0, sstride := 0, dstride := 0 }

/-- The type rule of a transform (R299). -/
def typesOk (fn : Nat) (r : Shape) : Bool :=
  let t0 := (r.dim 0).tile
  let eq := r.stype == r.dtype && decide (0 < typeBits r.stype)
  match fn with
  | 1 => eq && decide (8 ≤ typeBits r.stype) && decide (2 ≤ r.ndim)
  | 2 => eq && isFour r.stype && t0 % 32 == 0
  | 3 => (r.stype == 2 || r.stype == 3) && (r.dtype == 4 || r.dtype == 5 || r.dtype == 6) && t0 % r.blockLen == 0
  | 4 => (r.stype == 4 || r.stype == 5 || r.stype == 6) && (r.dtype == 2 || r.dtype == 3) && t0 % r.blockLen == 0
  | 5 => eq && decide (2 ≤ r.ndim)
  | 6 => eq && decide (2 ≤ r.ndim)
  | _ => eq

/-- A positive finite FP32 pattern. -/
def positiveFinite (w : Word) : Bool :=
  match fval w with
  | .fin neg m _ => !neg && decide (0 < m)
  | _ => false

/-- Stride rules of one side (R290): multiples of the element size, or 0 in dimension 0 of a 4-bit type. -/
def stridesOk (t : Nat) (tile0 : Nat) (strides : List Int) : Bool :=
  if isFour t then strides.headD 0 == 0 && tile0 % 2 == 0
  else strides.all (fun x => x % (typeBytes t : Int) == 0)

/-- R290, with the type rules of R299, the .SACC rule of R297 and the SCOMP rule of R300. -/
def recordOk (fn : Nat) (sacc dstGlobal : Bool) (r : Shape) : Bool :=
  r.version == 1 && decide (1 ≤ r.ndim) && decide (r.ndim ≤ 6) &&
  r.dims.all (fun d => decide (1 ≤ d.tile)) &&
  typesOk fn r && (!sacc || r.stype == 2) &&
  (if fn = 7 then !isFour r.stype || decide ((r.dim 0).sstride = 0)
    else stridesOk r.stype (r.dim 0).tile (r.dims.map (fun d => d.sstride))) &&
  stridesOk r.dtype (r.dim 0).tile (r.dims.map (fun d => d.dstride)) &&
  r.swz != 3 && (r.swz == 0 || !dstGlobal) &&
  r.blk != 3 && (!isQuant fn || r.sfmt == 4 || r.sfmt == 5) &&
  (!(isQuant fn && r.tsen) || positiveFinite r.tscale) &&
  !(fn == 3 && r.scomp && (r.scaleAddr == 0 || r.usebsv)) &&
  decide (r.tiles.prod * typeBits r.dtype ≤ 8 * 16777216)

/-! ### Coordinates and addresses (R289) -/

/-- All coordinates in tile order, c0 fastest (R289). -/
def coords : List Nat → List (List Nat)
  | [] => [[]]
  | t :: ts => (coords ts).flatMap (fun rest => (List.range t).map (fun x => x :: rest))

/-- A coordinate is padding (R289). -/
def isPad (r : Shape) (c : List Nat) : Bool :=
  (c.zip r.dims).any (fun e => decide (e.1 < e.2.padlo) || decide (e.2.valid ≤ e.1))

/-- Sum of c_d × stride_d. -/
def dotStride (c : List Nat) (strides : List Int) : Int := ((c.zip strides).map (fun e => (e.1 : Int) * e.2)).sum

/-- Offset and nibble of a coordinate: addr8 or addr4 (R289). -/
def relOff (t : Nat) (c : List Nat) (strides : List Int) : Int × Nat :=
  if isFour t then ((c.headD 0 / 2 : Nat) + dotStride c.tail strides.tail, c.headD 0 % 2) else (dotStride c strides, 0)

/-- Offset and nibble of REPACK's destination (R299). -/
def repackOff (c : List Nat) (strides : List Int) : Int × Nat :=
  let k := c.headD 0 % 32
  ((16 * (c.headD 0 / 32) + k % 16 : Nat) + dotStride c.tail strides.tail, k / 16)

/-- The first two coordinates exchanged (R299). -/
def swap01 : List Nat → List Nat
  | a :: b :: cs => b :: a :: cs
  | c => c

/-- The destination swizzle on a SPAD or WBUF offset (R289). -/
def swizzle (swz : Nat) (a : DWord) : DWord :=
  match swz with
  | 1 => a ^^^ (((a >>> 7) &&& 7) <<< 4)
  | 2 => a ^^^ (((a >>> 7) &&& 3) <<< 5)
  | _ => a

/-- One element of a transform: its coordinate and row, whether it is padding, and offsets and nibbles of its source and
destination. -/
structure Elem where
  c : List Nat
  row : Nat
  pad : Bool
  src : Int × Nat
  dst : Int × Nat
deriving DecidableEq, Repr

/-- The strides of the source and of the destination. -/
def Shape.ss (r : Shape) : List Int := r.dims.map (fun d => d.sstride)

/-- The strides of the destination. -/
def Shape.ds (r : Shape) : List Int := r.dims.map (fun d => d.dstride)

/-- The last dimension (R302). -/
def Shape.last (r : Shape) : Nat := r.ndim - 1

/-- A whole row is padding (R302). -/
def rowPad (r : Shape) (row : Nat) : Bool :=
  let d := r.dim r.last
  decide (row < d.padlo) || decide (d.valid ≤ row)

/-- The row at which a gather or scatter stops on an index, if any (R302). -/
def stopRow (r : Shape) (idx : List Nat) : Option Nat :=
  (List.range (r.dim r.last).tile).find? (fun k => !rowPad r k && decide (r.idxLim ≤ idx.getD k 0))

/-- The element of a coordinate (R289, R299, R302). -/
def elemAt (fn : Nat) (r : Shape) (idx : List Nat) (c : List Nat) : Elem :=
  let row := c.getD r.last 0
  let pad := isPad r c
  let at' := if rowPad r row then c else c.set r.last (idx.getD row 0)
  { c := c, row := if fn = 5 ∨ fn = 6 then row else 0, pad := pad || fn == 7,
    src := relOff r.stype (if fn = 5 then at' else c) r.ss,
    dst := match fn with
      | 1 => relOff r.dtype (swap01 c) r.ds
      | 2 => repackOff c r.ds
      | 6 => relOff r.dtype at' r.ds
      | _ => relOff r.dtype c r.ds }

/-- The elements a command handles, in tile order: those before the row it stops at (R299, R302). -/
def elemsOf (fn : Nat) (r : Shape) (idx : List Nat) : List Elem :=
  let all := (coords r.tiles).map (elemAt fn r idx)
  if fn = 5 ∨ fn = 6 then
    match stopRow r idx with
    | some k => all.filter (fun e => decide (e.row < k))
    | none => all
  else all

/-! ### Values (R299 to R301) -/

/-- Padding as a source element (R289). -/
def padElem (r : Shape) : Nat := r.padval % 2 ^ typeBits r.stype

/-- The value of a source element of a float type (R249, R251). -/
def floatElem (t v : Nat) (bsv : Byte) : FVal :=
  match t with
  | 2 => fval (BitVec.ofNat 32 v)
  | 3 => fvalBf (BitVec.ofNat 16 v)
  | 4 => fvalE4 (BitVec.ofNat 8 v)
  | 5 => fvalE5 (BitVec.ofNat 8 v)
  | _ => fvalN4 (BitVec.ofNat 4 v) bsv

/-- A block scale byte's value (R300). -/
def planeScale (sfmt : Nat) (b : Byte) : FVal := if sfmt = 5 then fvalE5 b else fvalE4 b

/-- t of R300. -/
def Shape.tval (r : Shape) : FVal := if r.tsen then fval r.tscale else oneF

/-- The narrow format of a destination type (R300). -/
def narrowOf (t : Nat) : Narrow :=
  match t with
  | 4 => .e4
  | 5 => .e5
  | _ => .n4

/-- The magnitude of a value. -/
def FVal.abs : FVal → FVal
  | .fin _ m e => .fin false m e
  | .inf _ => .inf false
  | .nan => .nan

/-- M of R300. -/
def quantMax (t : Nat) : FVal :=
  match t with
  | 4 => .fin false 480 0
  | 5 => .fin false 57344 0
  | _ => .fin false 6 0

/-- The code of the block scale that SCOMP = 1 chooses for a block's elements (R300). -/
def autoScale (r : Shape) (xs : List FVal) : Nat :=
  let amax := xs.foldl (fun a x => if x.isNan then a else if cmpF a x.abs < 0 then x.abs else a) (.fin false 0 0)
  let top := if r.sfmt = 5 then 0x7B else 0x7F
  let fits := fun code => decide (cmpF amax (mulF (quantMax r.dtype)
    (mulF r.tval (planeScale r.sfmt (BitVec.ofNat 8 code)))) ≤ 0)
  (((List.range top).map (· + 1)).find? fits).getD top

/-- A dequantised element (R301). -/
def dequant (r : Shape) (v : Nat) (bs : FVal) (bsv : Byte) : Nat :=
  let x := mulF (mulF r.tval bs) (floatElem r.stype v bsv)
  if r.dtype = 2 then (toF32 .rn x).toNat else (toBf16 .rn x).toNat

/-- Row number ρ of R300. -/
def rowNumber (c tiles : List Nat) : Nat :=
  ((c.tail.zip tiles.tail).foldl (fun (a : Nat × Nat) e => (a.1 + e.1 * a.2, a.2 * e.2)) (0, 1)).1

/-- Place of a coordinate's block in the planes (R300). -/
def planePos (r : Shape) (c : List Nat) : Nat :=
  rowNumber c r.tiles * ((r.dim 0).tile / r.blockLen) + c.headD 0 / r.blockLen

/-- The coordinates of a coordinate's block (R300). -/
def blockCoords (r : Shape) (c : List Nat) : List (List Nat) :=
  let b := c.headD 0 / r.blockLen
  (List.range r.blockLen).map (fun k => (b * r.blockLen + k) :: c.tail)

/-- All blocks, by the coordinate of their first element. -/
def blockHeads (r : Shape) : List (List Nat) := (coords r.tiles).filter (fun c => c.headD 0 % r.blockLen == 0)

end Sys2Proof.Machine
end

