-- ==== Sys2Proof/Machine/AlmanacMath.lean ====
section
/-! DEFINITION. Arithmetic and operands of the Almanac engine: format blocks (spec/08_almanac_direct.md R323 to R325),
step sums (R329 to R331), accumulation (R318 to R320, R331), sparsity (R335 to R337), the down-converter (R332 to R334)
and the Hadamard transform (R352). -/

namespace Sys2Proof.Machine

/-! ### Format blocks (R323, R324) -/

/-- A format block's fields (R323). -/
structure Fmt where
  version : Nat
  etype : Nat
  sfmt : Nat
  blk : Nat
  tsfmt : Nat
  rebuild : Bool
  autospill : Bool
  pspace : Bool
  tscale : Nat
  pitch : Nat
  scaleOff : Nat
  specOff : Nat
  spitch : Nat
deriving DecidableEq, Repr

/-- A format block read from its 32 bytes (R323). -/
def parseFmt (bs : List Byte) : Fmt :=
  let n := leNat bs
  { version := bits n 0 8, etype := bits n 8 4, sfmt := bits n 12 4, blk := bits n 16 2, tsfmt := bits n 18 2,
    rebuild := bit n 20, autospill := bit n 21, pspace := bit n 22, tscale := bits n 32 32, pitch := bits n 64 32,
    scaleOff := bits n 96 32, specOff := bits n 128 32, spitch := bits n 160 32 }

/-- The operand roles (R324, R369). -/
inductive Role where
  | a | aacc | b | activation | codebook | code
deriving DecidableEq, Repr

/-- Element types a role accepts (R324, R369). -/
def Role.accepts : Role → Nat → Bool
  | .a, t => t == 3 || t == 4 || t == 5 || t == 7
  | .aacc, t => t == 3 || t == 4 || t == 5
  | .b, t => t == 3 || t == 4 || t == 5 || t == 6 || t == 7 || t == 9
  | .activation, t => t == 3 || t == 4 || t == 5
  | .codebook, t => t == 3 || t == 4 || t == 5
  | .code, t => t == 6 || t == 10 || t == 8

/-- N8E4, N8E5 and N4. -/
def isNarrow (t : Nat) : Bool := t == 4 || t == 5 || t == 6

/-- Tensor scale (R323): 1.0, BF16 or FP32. -/
def Fmt.tval (f : Fmt) : FVal :=
  match f.tsfmt with
  | 0 => oneF
  | 1 => fvalBf (BitVec.ofNat 16 f.tscale)
  | _ => fval (BitVec.ofNat 32 f.tscale)

/-- A value that is positive and finite. -/
def FVal.positive : FVal → Bool
  | .fin neg m _ => !neg && decide (0 < m)
  | _ => false

/-- A block is valid for a role (R324, R369). -/
def Fmt.ok (f : Fmt) (r : Role) : Bool :=
  f.version == 1 && r.accepts f.etype && f.tsfmt != 3 &&
  (f.blk == 3 || f.sfmt == 4 || f.sfmt == 5) && (f.tsfmt == 0 || f.tval.positive) &&
  (r == .code || ((f.blk == 3 && f.tsfmt == 0) || isNarrow f.etype)) &&
  (r != .codebook || (f.blk == 3 && f.tsfmt == 0))

/-- Block length BL (R323); 8 positions make a step where there are no blocks (R373). -/
def Fmt.bl (f : Fmt) : Nat := 8 * 2 ^ f.blk

/-- Bytes of an element; 4-bit types count as 1. -/
def Fmt.es (f : Fmt) : Nat := typeBytes f.etype

/-! ### Step sums (R329) -/

/-- floor(log2) of a magnitude. -/
def topBit (m : Nat) (e : Int) : Int := (Nat.log2 m : Int) + e

/-- The largest exponent of the nonzero terms of a sum. -/
def maxTop (ps : List FVal) : Option Int :=
  ps.foldl (fun b p => match p with
    | .fin _ m e => if m = 0 then b else some (match b with
      | some x => max x (topBit m e)
      | none => topBit m e)
    | _ => b) none

/-- A term truncated toward zero, in units of 2^lo. -/
def truncTo (lo : Int) : FVal → Int
  | .fin neg m e =>
    let q := if lo ≤ e then m * 2 ^ (e - lo).toNat else m / 2 ^ (lo - e).toNat
    if neg then -(q : Int) else q
  | _ => 0

/-- A term is an infinity of a sign. -/
def isInf (neg : Bool) : FVal → Bool
  | .inf n => n == neg
  | _ => false

/-- The window sum of R329, not rounded, with its NaN, infinity and zero cases. -/
def windowSum (ps : List FVal) : FVal :=
  if ps.any FVal.isNan then .nan
  else if ps.any (isInf false) && ps.any (isInf true) then .nan
  else if ps.any (isInf false) then .inf false
  else if ps.any (isInf true) then .inf true
  else
    match maxTop ps with
    | none => .fin (ps.all FVal.neg) 0 0
    | some e =>
      let lo := e - 95
      let t := (ps.map (truncTo lo)).sum
      .fin (decide (t < 0)) t.natAbs lo

/-- The step value of R329: the window sum rounded once. -/
def stepValue (ps : List FVal) : Word := toF32 .rn (windowSum ps)

/-! ### Accumulation (R331) -/

/-- An FP32 value that is infinite or NaN. -/
def notFinite (w : Word) : Bool :=
  match fval w with
  | .fin _ _ _ => false
  | _ => true

/-- twosum_add of R331. -/
def twosumAdd (hi lo x : Word) : Word × Word :=
  let t := fadd32 .rn hi x
  if notFinite t then (t, 0)
  else
    let bp := fsub32 .rn t hi
    let e := fadd32 .rn (fsub32 .rn hi (fsub32 .rn t bp)) (fsub32 .rn x bp)
    let l := fadd32 .rn lo e
    let h2 := fadd32 .rn t l
    (h2, fsub32 .rn l (fsub32 .rn h2 t))

/-- sat_s32 of a sum, and whether it saturated (R331). -/
def satAdd (a : Word) (x : Int) : Word × Bool :=
  let v := a.toInt + x
  if v < -2147483648 then (0x80000000, true)
  else if 2147483647 < v then (0x7FFFFFFF, true)
  else (BitVec.ofInt 32 v, false)

/-- A step's contribution to an element: a float, or an exact integer (R329, R330). -/
inductive StepVal where
  | f (w : Word)
  | i (v : Int)
deriving DecidableEq, Repr

/-- The tiles of a tile: both of an FP32X2 pair (R318). -/
def Core.pairOf (k : Core) (t : Nat) : List Nat := if k.mode t = .x2 then [t / 2 * 2, t / 2 * 2 + 1] else [t]

/-- Every element of a tile set to zero (R320). -/
def Core.zeroTile (k : Core) (t : Nat) : Core := { k with acc := k.acc.filter (fun e => decide (e.1 / 16384 ≠ t)) }

/-- A write into a tile by an ASID and team: a tile of another ASID is zeroed first; then it is tagged (R320). -/
def Core.takeTile (k : Core) (t asid team : Nat) : Core :=
  (k.pairOf t).foldl (fun k t =>
    let k := if k.tileOf t asid then k else k.zeroTile t
    { k with accTag := k.accTag.set t (asid, team) }) k

/-- One element of a tile updated by a step (R331), and whether it saturated. -/
def Core.accAdd (k : Core) (t m n : Nat) (x : StepVal) : Core × Bool :=
  let i := accIndex t m n
  let old := k.acc.getD i 0
  match x, k.mode t with
  | .i v, _ =>
    let r := satAdd old v
    ({ k with acc := k.acc.put 0 i r.1 }, r.2)
  | .f w, .x2 =>
    let j := accIndex (t + 1) m n
    let r := twosumAdd old (k.acc.getD j 0) w
    ({ k with acc := (k.acc.put 0 i r.1).put 0 j r.2 }, false)
  | .f w, _ => ({ k with acc := k.acc.put 0 i (fadd32 .rn old w) }, false)

/-- A tile updated by a step: rows, columns, and the value at each (R331). -/
def Core.accStep (k : Core) (t rows cols : Nat) (x : Nat → Nat → StepVal) : Core × Bool :=
  (List.range rows).foldl (fun r m => (List.range cols).foldl (fun r n =>
    let u := r.1.accAdd t m n (x m n)
    (u.1, r.2 || u.2)) r) (k, false)

/-! ### What a loop reads (R325, R327) -/

/-- A value number `a` that the manual leaves open to a loop's step (assumption log 3). -/
def State.openStep (s : State) (cmd : Cmd) (a : Nat) : Word :=
  s.openOf cmd ((match cmd.work with
    | .loop l => l.progress * 2 ^ 33
    | _ => 0) + a)

/-- A byte that lies outside what a loop may read, at a step between the two that are checked: open. -/
def State.openByte (s : State) (cmd : Cmd) (a : Nat) : Byte := (s.openStep cmd a).extractLsb' 0 8

/-- A SPAD byte of the issuing team, by offset (R34). -/
def State.loopSpad (s : State) (id : Nat) (cmd : Cmd) (off : Nat) : Byte :=
  match memberIn cmd.view 15 with
  | some m => if off < m.spadb then s.sourceByte id cmd (.spad m.core, m.base + off) else s.openByte cmd off
  | none => s.openByte cmd off

/-- A WBUF byte of the issuing core; 0 from a region that another ASID's tag holds (R320). -/
def State.loopWbuf (s : State) (id : Nat) (cmd : Cmd) (a : Nat) : Byte :=
  if 2097152 ≤ a then s.openByte cmd a
  else if ((s.core cmd.core).wbufTag.find? (a / 65536)).any (fun t => t.1 = cmd.asid) then
    s.sourceByte id cmd (.wbuf cmd.core, a)
  else 0

/-- A plane byte (R325). -/
def State.planeAt (s : State) (id : Nat) (cmd : Cmd) (f : Fmt) (a : Nat) : Byte :=
  if f.pspace then s.loopWbuf id cmd a else s.loopSpad id cmd a

/-- bs of an operand row and a block number (R325). -/
def State.blockBs (s : State) (id : Nat) (cmd : Cmd) (f : Fmt) (row blk : Nat) : FVal :=
  if f.blk = 3 then oneF else planeScale f.sfmt (s.planeAt id cmd f (f.scaleOff + row * f.spitch + blk))

/-- The BSV of an operand row and a block number (R325). -/
def State.blockSpec (s : State) (id : Nat) (cmd : Cmd) (f : Fmt) (row blk : Nat) : Byte :=
  if f.blk = 3 ∨ f.specOff = 0xFFFFFFFF then 0 else s.planeAt id cmd f (f.specOff + row * f.spitch + blk)

/-- A float element's value (R329). -/
def State.scaledElem (s : State) (id : Nat) (cmd : Cmd) (f : Fmt) (row κ v : Nat) : FVal :=
  mulF (mulF f.tval (s.blockBs id cmd f row (κ / f.bl)))
    (floatElem f.etype v (if f.etype = 6 then s.blockSpec id cmd f row (κ / f.bl) else 0))

/-- A signed integer element (R330). -/
def intElem (t v : Nat) : Int := if t = 9 then (BitVec.ofNat 4 v).toInt else (BitVec.ofNat 8 v).toInt

/-- A base address after `s` increments (R327). -/
def stepAddr (base inc : Word) (s : Nat) : Nat := (base + BitVec.ofNat 32 s * inc).toNat

/-! ### The control word of MLOOP (R341) -/

/-- Word `i` of a loop's octet. -/
def Loop.w (l : Loop) (i : Nat) : Word := l.octet.getD i 0

/-- STEPS, TILE, ASRC, SPARSE and ZERO (R341). -/
def Loop.steps (l : Loop) : Nat := bits (l.w (if l.op = .tlook then 3 else 6)).toNat 0 16

/-- TILE (R341, R372). -/
def Loop.tile (l : Loop) : Nat := bits (l.w (if l.op = .tlook then 3 else 6)).toNat 16 7

/-- ZERO (R341, R372). -/
def Loop.zero (l : Loop) : Bool := bit (l.w (if l.op = .tlook then 3 else 6)).toNat 28

/-- ASRC (R341). -/
def Loop.asrc (l : Loop) : Nat := bits (l.w 6).toNat 24 2

/-- SPARSE (R341). -/
def Loop.sparse (l : Loop) : Nat := bits (l.w 6).toNat 26 2

/-! ### A of a step -/

/-- SPAD offset of element (m, k) of A in step s (R327). -/
def Loop.aOff (l : Loop) (f : Fmt) (s m k : Nat) : Nat :=
  let a := stepAddr (l.w 0) (l.w 1) s
  if l.asrc = 1 then a + k * f.pitch + m * f.es else a + m * f.pitch + k * f.es

/-- A byte of A: a cached copy of its line or SPAD, by a free choice for each line (R339); in Reckoning mode SPAD. -/
def State.aByte (s : State) (id : Nat) (cmd : Cmd) (off : Nat) : Byte :=
  let copy := if cmd.reckon then none
    else (s.core cmd.core).opCache.find? (fun e => e.1 = cmd.team && e.2.1 = off / 128)
  match copy with
  | some e => if Config.freeBool (s.fresh + off / 128) then e.2.2.getD (off % 128) 0 else s.loopSpad id cmd off
  | none => s.loopSpad id cmd off

/-- A raw element of A in SPAD. -/
def State.aRaw (s : State) (id : Nat) (cmd : Cmd) (l : Loop) (f : Fmt) (st m k : Nat) : Nat :=
  leNat ((List.range f.es).map (fun j => s.aByte id cmd (l.aOff f st m k + j)))

/-- The down-converter (R332): an ACC element as a code of the A block's type, and whether the conversion overflowed
(R333). -/
def downConvert (f : Fmt) (nan : Bool) (ts : FVal) (x : FVal) : Nat × Bool :=
  if f.etype = 3 then
    let c := toBf16 .rn x
    (c.toNat, match x, fvalBf c with
      | .fin _ _ _, .inf _ => true
      | _, _ => false)
  else
    (quantise x ts (narrowOf f.etype) nan false 0, match x with
      | .fin _ _ _ => ts.positive && decide (0 < cmpF x.abs (mulF (quantMax f.etype) ts))
      | _ => false)

/-- An ACC address that a step may read: R332, R334. -/
def aAccOk (k : Core) (dest : List Nat) (a : Nat) : Bool :=
  decide (a < 8388608) && bits a 0 2 == 0 && bits a 9 7 == 0 && bits a 2 7 % 32 == 0 &&
    !dest.contains (a / 65536) && k.mode (a / 65536) != .i32

/-- Element (m, k) of A taken from ACC (R332), with the SAT flag. -/
def State.aFromAcc (s : State) (cmd : Cmd) (id : Nat) (l : Loop) (f : Fmt) (st m k : Nat) : FVal × Bool :=
  let core := s.core cmd.core
  let a := stepAddr (l.w 0) (l.w 1) st
  if aAccOk core (core.pairOf l.tile) a then
    let x := fval (core.accRead cmd.asid (a / 65536) m (bits a 2 7 + k) false)
    let ts := mulF f.tval (s.blockBs id cmd f m ((32 * st + k) / f.bl))
    let c := downConvert f (bit l.mod 0) ts x
    (mulF ts (floatElem f.etype c.1 0), c.2)
  else (fval (s.openStep cmd (a + 128 * m + k)), false)

/-! ### B of a step -/

/-- Metadata of column n in step s: kept element j and its position (R335), and whether the column breaks R337. -/
def State.columnMeta (s : State) (id : Nat) (cmd : Cmd) (l : Loop) (st n : Nat) : List (Nat × Nat) × Bool :=
  let mt := stepAddr (l.w 4) (l.w 5) st
  let size := if l.sparse = 1 then 4 else 8
  let w := leNat ((List.range size).map (fun j => s.loopWbuf id cmd (mt + size * n + j)))
  if l.sparse = 1 then
    ((List.range 16).map (fun j => (j, 4 * (j / 2) + bits w (4 * (j / 2) + 2 * (j % 2)) 2)),
     (List.range 8).any (fun i => bits w (4 * i) 2 == bits w (4 * i + 2) 2))
  else
    ((List.range 16).map (fun j => (j, 8 * (j / 4) + bits w (12 * (j / 4) + 3 * (j % 4)) 3)),
     bits w 48 16 != 0 || (List.range 4).any (fun i =>
       !((List.range 4).map (fun h => bits w (12 * i + 3 * h) 3)).Nodup))

/-- A raw element of B held for position k: none at a pruned position (R327, R336). -/
def State.bRaw (s : State) (id : Nat) (cmd : Cmd) (l : Loop) (f : Fmt) (kept : List (Nat × Nat)) (st n k : Nat) :
    Option Nat :=
  let b := stepAddr (l.w 2) (l.w 3) st
  let at' := fun (a : Nat) => leNat ((List.range f.es).map (fun j => s.loopWbuf id cmd (a + j)))
  if l.sparse = 0 then
    if isFour f.etype then some (at' (b + 16 * n + k % 16) / 16 ^ (k / 16) % 16)
    else some (at' (b + n * 32 * f.es + k * f.es))
  else (kept.find? (fun e => e.2 = k)).map (fun e => at' (b + n * 16 * f.es + e.1 * f.es))

/-- The step value of element (m, n) in step s of an MLOOP, from the rows and columns already read (R329, R330, R336). -/
def mloopCell (int : Bool) (arow : List (FVal × Int)) (bcol : List (FVal × Int)) : StepVal :=
  if int then .i ((arow.zip bcol).map (fun e => e.1.2 * e.2.2)).sum
  else .f (stepValue ((arow.zip bcol).map (fun e => mulF e.1.1 e.2.1)))

/-- Row m of A in a step, as values, and whether a conversion overflowed. -/
def State.aRow (s : State) (id : Nat) (cmd : Cmd) (l : Loop) (st m : Nat) : List (FVal × Int) × Bool :=
  let f := parseFmt l.fa
  if l.asrc = 2 then
    let xs := (List.range 32).map (fun k => s.aFromAcc cmd id l f st m k)
    (xs.map (fun x => (x.1, (0 : Int))), xs.any Prod.snd)
  else
    ((List.range 32).map (fun k =>
      let v := s.aRaw id cmd l f st m k
      if f.etype = 7 then ((.nan, intElem 7 v) : FVal × Int) else (s.scaledElem id cmd f m (32 * st + k) v, 0)), false)

/-- Column n of B in a step, as values, expanded where it is sparse (R336). -/
def State.bCol (s : State) (id : Nat) (cmd : Cmd) (l : Loop) (st n : Nat) : List (FVal × Int) :=
  let f := parseFmt l.fb
  let kept := if l.sparse = 0 then [] else (s.columnMeta id cmd l st n).1
  (List.range 32).map (fun k =>
    match s.bRaw id cmd l f kept st n k with
    | none => (.fin false 0 0, 0)
    | some v =>
      if f.etype = 7 ∨ f.etype = 9 then (.nan, intElem f.etype v) else (s.scaledElem id cmd f n (32 * st + k) v, 0))

/-- SPAD lines of A that a step reads (R338). -/
def Loop.aLines (l : Loop) (f : Fmt) (st : Nat) : List Nat :=
  if l.asrc = 2 then []
  else
    let runs := if l.asrc = 1 then (List.range 32).map (fun k => (l.aOff f st 0 k, 128 * f.es))
      else (List.range 128).map (fun m => (l.aOff f st m 0, 32 * f.es))
    (runs.flatMap (fun r => (List.range ((r.1 + r.2 - 1) / 128 + 1 - r.1 / 128)).map (fun j => r.1 / 128 + j))).dedup

/-! ### The Hadamard transform (R352) -/

/-- One stage: the sums and differences at distance h. -/
def hadStage (h : Nat) (x : List Word) : List Word :=
  (List.range x.length).map (fun i =>
    let a := x.getD i 0
    if i % (2 * h) < h then fadd32 .rn a (x.getD (i + h) 0) else fsub32 .rn (x.getD (i - h) 0) a)

/-- The stages at h = 1, 2, 4, … up to P. -/
def hadStages : Nat → Nat → List Word → List Word
  | 0, _, x => x
  | n + 1, h, x => hadStages n (2 * h) (hadStage h x)

/-- A block transformed and scaled (R352). -/
def hadamard (stages : Nat) (scale : Word) (x : List Word) : List Word :=
  (hadStages stages 1 x).map (fun w => fmul32 .rn w scale)

end Sys2Proof.Machine
end

