-- ==== Sys2Proof/Machine/Tags.lean ====
section
/-! DEFINITION. Meanings of the tag instructions TWAITA, TWAITL, TFFR, TCLR, XSTAT and of RFENCE and SPFENCE
(spec/07_traverse.md R292 to R295, R308 to R313). -/

namespace Sys2Proof.Machine

/-- The trap cause of a fault status code: none for a code that is no fault (R294, R295, R408, R496). -/
def statusCause (code : Nat) : Option Nat :=
  match code with
  | 0x10 | 0x11 | 0x12 | 0x13 => some 0x12
  | 0x40 => some 0x13
  | 0x41 | 0x42 => some 0x14
  | 0x43 | 0x44 | 0x45 | 0x46 | 0x4A | 0x4C => some 0x12
  | 0x4D => some 0x06
  | 0x80 | 0x81 | 0x82 | 0x86 | 0x88 => some 0x12
  | 0x83 | 0x89 => some 0x15
  | 0x84 | 0x85 => some 0x16
  | _ => none

/-- CODE of a status word (R293). -/
def statusCode (w : Word) : Nat := w.toNat % 256

/-- The trap of a status word under .TRAP (R295, R425). -/
def statusTrap (c : Ctx) (w : Word) : Option Trap :=
  (statusCause (statusCode w)).map (fun k =>
    { cause := k, sub := if statusCode w = 0x4D then 3 else 0, lanes := c.act, status := w.toNat })

/-- The tags of a mask operand, ascending (R308). -/
def maskTags (c : Ctx) (m : Option (Fin 24)) : List Nat :=
  match m with
  | some p => (List.range 64).filter (fun t => (readPair c.grp p).getLsbD t)
  | none => []

/-- A trap that the issuing group owes for the command last accepted on some of these tags (R24, R213, R425). -/
def owedOn (c : Ctx) (s : State) (tags : List Nat) : Option Owed :=
  c.grp.owed.find? (fun o => tags.any (fun t => (s.tag c.grp.core t).cmd = o.cmd))

/-- The event a tag instruction observes in Reckoning mode: the completions on its tags, each with its command's key (R167,
R313, R504). -/
def seenKey (c : Ctx) (s : State) (seen : List Nat) : Option Key :=
  if c.reckon ∧ ¬seen.isEmpty then some (seen.foldl (fun k t => keyMax k (s.tag c.grp.core t).key) (0, 0)) else none

/-- A tag as of the issuer's key: in Reckoning mode a completion of a greater key has not taken effect (R313). -/
def tagAsOf (c : Ctx) (s : State) (t : Nat) : Tag :=
  let g := s.tag c.grp.core t
  if c.reckon ∧ g.st = .ready ∧ keyLt c.grp.key g.key then { g with st := .pending, status := 2 } else g

/-- A wait or status instruction returns: an owed trap of a command it observes comes first, then the fault of a status
word under .TRAP, else its result is written and it retires (R24, R295, R309). -/
def observe (c : Ctx) (d : Reg) (seen : List Nat) (fault : Option Word) (w : Word) (s : State) : State :=
  match owedOn c s seen with
  | some o => takeOwed c o s
  | none =>
    match fault.bind (statusTrap c) with
    | some t => takeTrap c t s
    | none => retireTo c 1 (seenKey c s seen) (c.sp.pc + 8) (writeUni c d w s)

/-- The tags among some in a state. -/
def tagsIn (c : Ctx) (s : State) (st : TagState) (tags : List Nat) : List Nat :=
  tags.filter (fun t => (s.tag c.grp.core t).st = st)

/-- Tags as a register operand pair holds them. -/
def tagMask (tags : List Nat) : DWord := tags.foldl (fun m t => m ||| (1#64 <<< t)) 0

/-- The live tags of a wait: those it fixed as it first issued, else those of its mask that are PENDING or READY now
(R309, R313). -/
def liveTags (c : Ctx) (s : State) (ts : List Nat) : List Nat :=
  match c.sp.wait with
  | .tags live => (List.range 64).filter (fun t => live.getLsbD t)
  | _ => ts.filter (fun t => (s.tag c.grp.core t).st != .idle)

/-- A wait on tags stays at its instruction, with its live tags fixed. -/
def waitTags (c : Ctx) (live : List Nat) (s : State) : State :=
  if c.sp.wait = .tags (tagMask live) then s else block c (.tags (tagMask live)) s

/-- TWAITA (R309): it waits for a tag of LIVE, as it first issued, and returns the lowest READY tag of its mask; in Reckoning mode it takes the lowest live tag and waits for that one (R313). -/
def execTwaita (trp : Bool) (sc : Scope) (d : Reg) (m : Option (Fin 24)) (g : Guard) (s : State) : Result :=
  issueSync (.twaita trp sc d m g) s (fun c s =>
    let live := if c.reckon then (liveTags c s (maskTags c m)).take 1 else liveTags c s (maskTags c m)
    if live.isEmpty then retire c (writeUni c d 64 s)
    else
      match tagsIn c s .ready live with
      | [] => waitTags c live s
      | r :: _ =>
        let t := if c.reckon then r else ((tagsIn c s .ready (maskTags c m)).head?).getD r
        observe c d [t] (if trp then some (s.tag c.grp.core t).status else none) (BitVec.ofNat 32 t) s)

/-- TWAITL (R309): it waits until every tag of LIVE, as it first issued, is READY (assumption log 36). -/
def execTwaitl (trp : Bool) (sc : Scope) (d : Reg) (m : Option (Fin 24)) (g : Guard) (s : State) : Result :=
  issueSync (.twaitl trp sc d m g) s (fun c s =>
    let live := liveTags c s (maskTags c m)
    if tagsIn c s .ready live = live then
      match (tagsIn c s .ready live).find? (fun t => statusCode (s.tag c.grp.core t).status ≠ 0) with
      | some t => observe c d live (if trp then some (s.tag c.grp.core t).status else none) (BitVec.ofNat 32 t) s
      | none => observe c d live none 64 s
    else waitTags c live s)

/-- TFFR (R309); in Reckoning mode it waits for the lowest live tag (R313). -/
def execTffr (sc : Scope) (d : Reg) (m : Option (Fin 24)) (g : Guard) (s : State) : Result :=
  issueSync (.tffr sc d m g) s (fun c s =>
    let live := (liveTags c s (maskTags c m)).take 1
    if c.reckon ∧ ¬(tagsIn c s .pending live).isEmpty then waitTags c live s
    else
      match tagsIn c s .ready (if c.reckon then live else maskTags c m) with
      | [] => retire c (writeUni c d 64 s)
      | t :: _ => observe c d [t] none (BitVec.ofNat 32 t) s)

/-- TCLR (R309): READY tags become IDLE. -/
def execTclr (m : Option (Fin 24)) (g : Guard) (s : State) : Result :=
  issueSync (.tclr m g) s (fun c s =>
    retire c (((maskTags c m).filter (fun t => (tagAsOf c s t).st = .ready)).foldl (fun s t => s.putTag c.grp.core t Tag.idle) s))

/-- XSTAT (R309): the status word of a tag; it never waits. -/
def execXstat (trp : Bool) (d : Reg) (tag : Fin 64) (g : Guard) (s : State) : Result :=
  issueSync (.xstat trp d tag g) s (fun c s =>
    let w := (tagAsOf c s tag.val).status
    observe c d (if tagAsOf c s tag.val = s.tag c.grp.core tag.val then [tag.val] else []) (if trp then some w else none) w s)

/-- RFENCE (R311): records leave the core's record cache once the group's stores have drained. -/
def execRfence (recp : Option (Fin 24)) (g : Guard) (s : State) : Result :=
  issue (.rfence recp g) s (fun c s =>
    if c.grp.fifo.isEmpty then
      let kept := fun (e : Nat × Nat × List Byte) => recp.any (fun p =>
        decide (e.1 ≠ c.grid.asid) || decide (e.2.1 ≠ (readPair c.grp p).toNat))
      retire c (s.modCore c.grp.core (fun k => { k with recCache := k.recCache.filter kept }))
    else s)

/-- The generation regions of a team SPAD that a range overlaps (R312). -/
def genRegions (off len : Nat) : List Nat :=
  if len = 0 then [] else (List.range ((off + len - 1) / 4096 + 1 - off / 4096)).map (fun k => off / 4096 + k)

/-- SPFENCE (R312, R365). -/
def execSpfence (loc : Reg) (len : Reg) (g : Guard) (s : State) : Result :=
  issue (.spfence loc len g) s (fun c s =>
    let n := (c.uni len).toNat
    match locate c s (c.uni loc) n 1 true with
    | .error t => takeTrap c t s
    | .ok p =>
      if c.grp.fifo.isEmpty then
        let s := (genRegions (p.2 - c.team.spadBase) n).foldl (fun s r => s.bumpGen c.grp.team r) s
        retire c (if n = 0 then s else c.marks (s.markStale (.spad p.1) p.2 (p.2 + n)))
      else s)

end Sys2Proof.Machine
end

