-- ==== Sys2Proof/Machine/Almanac.lean ====
section
/-! DEFINITION. The Almanac engine's direct path and its common parts (spec/08_almanac_direct.md): the ACC order (R321),
loops and their completion (R344 to R347), MFMT, MLOOP, ACCZ, ACCRD, ACCWR, MWAIT, MSTAT, MHAD, and LOOP_STEP and
LOOP_COMPLETE. Commands whose ACC-order work is short do it as soon as they are first in ACC order (assumption log 14). -/

namespace Sys2Proof.Machine

/-! ### Loops of a group (R344) -/

/-- Age of a loop id: 0 is the youngest (R347). -/
def Group.loopAge (g : Group) (id : Nat) : Nat := (g.aloop.toNat + 65536 - 1 - id % 65536 + 65536) % 65536

/-- Loops of a group in flight (R344). -/
def State.loopsOf (s : State) (gid : Nat) : List (Nat × Loop) :=
  s.cmds.filterMap (fun e => if e.2.grp = gid then (match e.2.work with
    | .loop l => some (e.1, l)
    | _ => none) else none)

/-- A ninth loop stalls at issue (R344). -/
def State.loopRoom (s : State) (gid : Nat) : Bool := decide ((s.loopsOf gid).length < 8)

/-- A loop's status merged into ASTAT: the first CODE that is not OK stands, and flags are ORed (R344). -/
def mergeStatus (astat w : Word) : Word :=
  let code := if statusCode astat ≠ 0 then astat &&& 0xFFFF00FF else w &&& 0xFFFF00FF
  code ||| ((astat ||| w) &&& 0x00000300)

/-- Statuses merged in age order, up to the first loop that has not finished (R344). -/
def mergeLoops : List (Nat × Option Word) → Word → Word × List (Nat × Option Word)
  | (_, some w) :: ls, a => mergeLoops ls (mergeStatus a w)
  | ls, a => (a, ls)

/-- The loops of a group, oldest first. -/
def Group.byAge (g : Group) : List (Nat × Option Word) :=
  List.mergeSort g.loops (fun a b => decide (g.loopAge b.1 ≤ g.loopAge a.1))

/-- The oldest finished loops of a group merged into ASTAT (R344). -/
def Group.mergeDone (g : Group) : Group :=
  let r := mergeLoops g.byAge g.astat
  { g with astat := r.1, loops := r.2.foldl (fun m e => m.set e.1 e.2) [] }

/-- A loop's status word (R345). -/
def Loop.status (l : Loop) : Word :=
  let d := l.done.getD (0, 0)
  BitVec.ofNat 32 (d.2 % 65536 * 65536 + b2n l.iovf * 512 + b2n l.sat * 256 + d.1)

/-! ### Acceptance -/

/-- An Almanac command enters the ACC order (R316, R321). -/
def State.submit (s : State) (c : Ctx) (owned : List (Space × Nat × Nat)) (work : Work) : State :=
  let s := s.accept c none none (viewOf c s) owned work
  let id := s.uid
  s.modCore c.grp.core (fun k => { k with accQ := k.accQ ++ [id] })

/-- A loop is accepted: its id goes to D, ALOOP goes up, and it enters the ACC order (R343, R344). The instruction
retires. -/
def acceptLoop (c : Ctx) (d : Reg) (owned : List (Space × Nat × Nat)) (l : Loop) (s : State) : State :=
  let s := s.submit c owned (.loop l)
  let s := s.modGroup c.gid (fun g => { g with aloop := g.aloop + 1, loops := g.loops.set l.id.toNat none })
  writeUni c d (BitVec.ofNat 32 l.id.toNat) s

/-- A changed command. -/
def State.modCmd (s : State) (id : Nat) (f : Cmd → Cmd) : State := { s with cmds := s.cmds.modify id f }

/-- A loop changed. -/
def State.setLoop (s : State) (id : Nat) (l : Loop) : State := s.modCmd id (fun k => { k with work := .loop l })

/-- Registers wait for a command in ACC order (R122, R350, R376). -/
def holdRegs (gid : Nat) (regs : List Nat) (s : State) : State :=
  s.modGroup gid (fun g => { g with pend := g.pend ++ regs.map (fun r => { reg := r, ready := false }) })

/-- A register that waited gets its value, which lands later (R122). -/
def giveReg (cmd : Cmd) (d : Reg) (f : Nat → Word) (s : State) : State :=
  (writeRegAt cmd.grp cmd.team cmd.act d f s).modGroup cmd.grp (fun g =>
    { g with pend := g.pend.map (fun p => if regCodes (d, 1) = [p.reg] then { p with ready := true } else p) })

/-- A register that waited gets its value, which has then landed (R409). -/
def landReg (cmd : Cmd) (d : Reg) (f : Nat → Word) (s : State) : State :=
  ((writeRegAt cmd.grp cmd.team cmd.act d f s).modGroup cmd.grp (fun g =>
    { g with pend := g.pend.filter (fun p => regCodes (d, 1) ≠ [p.reg] || p.ready) })).settle cmd.grp

/-! ### Work done at the head of the ACC order (R350) -/

/-- ACCZ's effect (R350): modes, zeros, tags; a partner outside the range becomes FP32 and keeps its bits. -/
def Core.applyAccz (k : Core) (mode : TileMode) (first count asid team : Nat) : Core :=
  let ts := (List.range count).map (fun j => first + j)
  let partner := fun (t : Nat) => if t % 2 = 0 then t + 1 else t - 1
  let k := ts.foldl (fun k t =>
    if k.mode t = .x2 ∧ ¬ts.contains (partner t) then { k with accMode := k.accMode.put .f32 (partner t) .f32 } else k) k
  ts.foldl (fun k t =>
    let k := k.zeroTile t
    { k with accMode := k.accMode.put .f32 t mode, accTag := k.accTag.set t (asid, team) }) k

/-- ACCWR's effect (R350). -/
def Core.applyAccwr (k : Core) (addr : Nat) (act : Word) (vals : Lanes) (asid team : Nat) : Core :=
  let t := addr / 65536 % 128
  let k := k.takeTile t asid team
  (lanesIn act).foldl (fun k l =>
    let i := accIndex t (bits addr 9 7) (bits addr 2 7 + l)
    let k := { k with acc := k.acc.put 0 i (laneOf vals l) }
    if k.mode t = .x2 ∧ t % 2 = 0 then
      { k with acc := k.acc.put 0 (accIndex (t + 1) (bits addr 9 7) (bits addr 2 7 + l)) 0 }
    else k) k

/-- The mode a tile has once every command in ACC order has worked (R318, R328). -/
def State.modeAt (s : State) (core t : Nat) : TileMode :=
  ((s.core core).accQ.foldl (fun (k : Core) id => match (s.cmds.find? id).map Cmd.work with
    | some (.accz mode first count) => k.applyAccz mode first count 0 0
    | _ => k) { Core.reset with accMode := (s.core core).accMode }).mode t

/-! ### MFMT (R326) -/

/-- The role MFMT names. -/
def roleOf : FmtRole → Role
  | .a => .a
  | .aacc => .aacc
  | .b => .b

/-- The generic address that a SPAD place of the issuing team is reported at (R178). -/
def ownSpad (c : Ctx) (off : Nat) : DWord := BitVec.ofNat 64 (0xFE * 2 ^ 56 + 0x0F000000 + (off - c.team.spadBase))

/-- MFMT (R326): the block as a plain load of the group reads it, checked for the role. -/
def execMfmt (role : FmtRole) (d : Reg) (loc : Reg) (g : Guard) (s : State) : Result :=
  issue (.mfmt role d loc g) s (fun c s =>
    match locate c s (c.uni loc) 32 32 true with
    | .error t => takeTrap c t s
    | .ok p =>
      let ps : List Place := (List.range 32).map (fun k => (.spad p.1, p.2 + k))
      spanAccess c s (ownSpad c p.2) ps .read true (fun u =>
        let bs := ps.map (u.loadByte c.grp.fifo)
        if (parseFmt bs).ok (roleOf role) then retire c (writeUni c d (BitVec.ofNat 32 (leNat (bs.take 4))) u)
        else trap c 0x0B s))

/-! ### MLOOP (R340 to R343) -/

/-- The octet of a group (R341). -/
def octetOf (c : Ctx) (o : Fin 6) : List Word := (List.range 8).map (fun j => c.grp.s.getD (8 * o.val + j) 0)

/-- Bytes of the issuing team's SPAD, by offset, as they stand. -/
def spadBytes (c : Ctx) (s : State) (off n : Nat) : List Byte := (s.core c.team.core).spad.bytes (c.team.spadBase + off) n

/-- Pairings and tile modes of R328. -/
def pairingOk (ea eb : Nat) (mode : TileMode) : Bool :=
  if ea = 3 then eb == 3 && mode != .i32
  else if ea = 7 then (eb == 7 || eb == 9) && mode == .i32
  else (eb == 4 || eb == 5 || eb == 6) && mode != .i32

/-- Ends of the plane bytes of an operand of `rows` rows whose last block number is `blk` (R325). -/
def planesEnd (f : Fmt) (rows blk : Nat) : Nat :=
  if f.blk = 3 then 0
  else
    let n := (rows - 1) * f.spitch + blk + 1
    if f.etype = 6 ∧ f.specOff ≠ 0xFFFFFFFF then max (f.scaleOff + n) (f.specOff + n) else f.scaleOff + n

/-- Where the planes of a block end: WBUF's or the team SPAD's. -/
def Fmt.planeLimit (f : Fmt) (spadb : Nat) : Nat := if f.pspace then 2097152 else spadb

/-- R342's fifth check on one step. -/
def mloopExtent (c : Ctx) (s : State) (l : Loop) (fa fb : Fmt) (dest : List Nat) (st : Nat) : Bool :=
  let spadb := s.spadb c.team
  let a := stepAddr (l.w 0) (l.w 1) st
  let b := stepAddr (l.w 2) (l.w 3) st
  let mt := stepAddr (l.w 4) (l.w 5) st
  let aOk := if l.asrc = 2 then
      decide (a < 8388608) && bits a 0 2 == 0 && bits a 9 7 == 0 && bits a 2 7 % 32 == 0 &&
        !dest.contains (a / 65536) && s.modeAt c.grp.core (a / 65536) != .i32
    else decide (a < 2097152) && decide (l.aOff fa st 127 31 + fa.es ≤ spadb)
  let bBytes := if isFour fb.etype then 2048 else if l.sparse = 0 then 4096 * fb.es else 2048 * fb.es
  aOk && decide (b + bBytes ≤ 2097152) &&
    (l.sparse == 0 || decide (mt + (if l.sparse = 1 then 512 else 1024) ≤ 2097152)) &&
    decide (planesEnd fa 128 ((32 * st + 31) / fa.bl) ≤ fa.planeLimit spadb) &&
    decide (planesEnd fb 128 ((32 * st + 31) / fb.bl) ≤ fb.planeLimit spadb)

/-- The checks of R342, in order: the cause of the first that fails. -/
def mloopCheck (c : Ctx) (s : State) (l : Loop) : Option Nat :=
  let ctl := (l.w 6).toNat
  let fa := parseFmt l.fa
  let fb := parseFmt l.fb
  let mode := s.modeAt c.grp.core l.tile
  let dest := if mode = .x2 then [l.tile, l.tile + 1] else [l.tile]
  let es := if l.asrc = 2 then 4 else fa.es
  let mal := if l.sparse = 1 then 4 else 8
  if l.steps = 0 ∨ l.asrc = 3 ∨ l.sparse = 3 ∨ bits ctl 29 3 ≠ 0 ∨ bit ctl 23 then some 0x0B
  else if s.spadb c.team < 32 * bits (l.w 7).toNat 0 16 + 32 ∨ s.spadb c.team < 32 * bits (l.w 7).toNat 16 16 + 32 then
    some 0x03
  else if ¬fa.ok (if l.asrc = 2 then .aacc else .a) ∨ ¬fb.ok .b ∨ ¬pairingOk fa.etype fb.etype mode ∨
      (l.sparse ≠ 0 ∧ isFour fb.etype) then some 0x0B
  else if (l.w 0).toNat % es ≠ 0 ∨ (l.w 1).toNat % es ≠ 0 ∨ (l.asrc ≠ 2 ∧ fa.pitch % es ≠ 0) ∨
      (l.w 2).toNat % 16 ≠ 0 ∨ (l.w 3).toNat % 16 ≠ 0 ∨
      (l.sparse ≠ 0 ∧ ((l.w 4).toNat % mal ≠ 0 ∨ (l.w 5).toNat % mal ≠ 0)) then some 0x04
  else if (mode = .x2 ∧ l.tile % 2 = 1) ∨ ¬mloopExtent c s l fa fb dest 0 ∨ ¬mloopExtent c s l fa fb dest (l.steps - 1) then
    some 0x03
  else none

/-- SPAD offsets of the issuing team as places with the addresses they are reported at. -/
def spadPlaces (c : Ctx) (offs : List Nat) : List (Place × DWord) :=
  offs.map (fun o => ((.spad c.team.core, c.team.spadBase + o), ownSpad c (c.team.spadBase + o)))

/-- Offsets of a run of bytes. -/
def runOf (off n : Nat) : List Nat := (List.range n).map (fun k => off + k)

/-- Offsets of the SPAD plane bytes that a loop reads of an operand, blocks 0 to `blk` of each row (R325, R353). -/
def planeOffsets (f : Fmt) (rows blk : Nat) : List Nat :=
  if f.pspace ∨ f.blk = 3 then []
  else
    let plane := fun (off : Nat) => (List.range rows).flatMap (fun m => runOf (off + m * f.spitch) (blk + 1))
    plane f.scaleOff ++ (if f.etype = 6 ∧ f.specOff ≠ 0xFFFFFFFF then plane f.specOff else [])

/-- The SPAD bytes that an MLOOP reads, as source reads (R353). -/
def mloopSources (l : Loop) : List Nat :=
  let fa := parseFmt l.fa
  let fb := parseFmt l.fb
  let last := 32 * l.steps - 1
  runOf (32 * bits (l.w 7).toNat 0 16) 32 ++ runOf (32 * bits (l.w 7).toNat 16 16) 32 ++
  planeOffsets fa 128 (last / fa.bl) ++ planeOffsets fb 128 (last / fb.bl) ++
  (if l.asrc = 2 then [] else (List.range l.steps).flatMap (fun st => (l.aLines fa st).flatMap (fun n =>
    (runOf (128 * n) 128).filter (fun o =>
      (List.range (if l.asrc = 1 then 32 else 128)).any (fun r =>
        let a := if l.asrc = 1 then l.aOff fa st 0 r else l.aOff fa st r 0
        decide (a ≤ o) && decide (o < a + (if l.asrc = 1 then 128 else 32) * fa.es))))))

/-- MLOOP issues (R340 to R343). -/
def startMloop (nan : Bool) (d : Reg) (o : Fin 6) (c : Ctx) (s : State) : State :=
  let oct := octetOf c o
  let w7 := (oct.getD 7 0).toNat
  let l : Loop :=
    { op := .mloop, id := c.grp.aloop, octet := oct, fa := spadBytes c s (32 * bits w7 0 16) 32,
      fb := spadBytes c s (32 * bits w7 16 16) 32, mod := b2n nan, progress := 0, sat := false, iovf := false,
      done := none, victims := [], pendTabs := [], decided := none }
  if ¬c.grp.fifo.isEmpty ∨ ¬s.loopRoom c.gid then s
  else
    match mloopCheck c s l with
    | some k => trap c k s
    | none =>
      let s := acceptLoop c d [] l s
      retire c (if c.reckon then s.sourceAccess s.uid (spadPlaces c (mloopSources l)) else s)

/-- MLOOP (R340). -/
def execMloop (nan : Bool) (d : Reg) (o : Fin 6) (g : Guard) (s : State) : Result :=
  issueSync (.mloop nan d o g) s (startMloop nan d o)

/-! ### MHAD (R351, R352) -/

/-- P, and its stages. -/
def hadStageCount : HadP → Nat
  | .p16 => 4
  | .p32 => 5
  | .p64 => 6

/-- MOD of MHAD (R351). -/
def hadMod (p : HadP) (sc : HadScale) : Nat :=
  (hadStageCount p - 4) + 4 * (match sc with
    | .s1 => 0
    | .s4 => 1
    | .s8 => 2)

/-- Geometry of MHAD: ROWS, NBLK and PITCH (R351). -/
def hadGeom (w : Word) : Nat × Nat × Nat := (bits w.toNat 0 12 + 1, bits w.toNat 12 8 + 1, bits w.toNat 20 12 * 16)

/-- MHAD (R351, R352). -/
def execMhad (p : HadP) (sc : HadScale) (d : Reg) (loc : Reg) (geom : Reg) (g : Guard) (s : State) : Result :=
  issueSync (.mhad p sc d loc geom g) s (fun c s =>
    let q := hadGeom (c.uni geom)
    let width := 4 * 2 ^ hadStageCount p * q.2.1
    if ¬c.grp.fifo.isEmpty ∨ ¬s.loopRoom c.gid then s
    else if q.2.2 = 0 ∨ q.2.2 < width then trap c 0x0B s
    else
      match locate c s (c.uni loc) ((q.1 - 1) * q.2.2 + width) 16 true with
      | .error t => takeTrap c t s
      | .ok place =>
        let off := place.2 - c.team.spadBase
        let l : Loop :=
          { op := .mhad, id := c.grp.aloop, octet := [BitVec.ofNat 32 off, c.uni geom], fa := [], fb := [],
            mod := hadMod p sc, progress := 0, sat := false, iovf := false, done := none, victims := [], pendTabs := [], decided := none }
        let rows := (List.range q.1).map (fun r => (off + r * q.2.2, width))
        let owned := rows.map (fun r => ((.spad place.1, (c.team.spadBase + r.1) / 32,
          (c.team.spadBase + r.1 + r.2 - 1) / 32 + 1) : Space × Nat × Nat))
        let s := acceptLoop c d owned l s
        retire c (if c.reckon then s.sourceAccess s.uid (spadPlaces c (rows.flatMap (fun r => runOf r.1 r.2))) else s))

/-! ### ACCZ, ACCRD, ACCWR (R349, R350) -/

/-- A command whose ACC-order work is done at once, first in order: it is gone (R321). -/
def State.finishAcc (s : State) (id : Nat) (cmd : Cmd) (written : List (Place × DWord)) : State :=
  s.complete id cmd 0 written

/-- ACCZ, ACCRD or ACCWR does its work (R350). -/
def State.doAcc (s : State) (id : Nat) (cmd : Cmd) : Work → State
  | .accz mode first count =>
    (s.modCore cmd.core (fun k => k.applyAccz mode first count cmd.asid cmd.team)).finishAcc id cmd []
  | .accrd raw d addr =>
    let k := s.core cmd.core
    (giveReg cmd d (fun l => k.accRead cmd.asid (addr / 65536) (bits addr 9 7) (bits addr 2 7 + l) raw) s).finishAcc
      id cmd []
  | .accwr addr act vals =>
    (s.modCore cmd.core (fun k => k.applyAccwr addr act vals cmd.asid cmd.team)).finishAcc id cmd []
  | _ => s

/-! ### MWAIT and MSTAT (R347) -/

/-- The trap of an Almanac status word under .TRAP (R346). -/
def almanacCause (w : Word) : Option Nat :=
  match statusCode w with
  | 0x20 => some 0x0A
  | 0x21 => some 0x07
  | 0x22 => some 0x08
  | 0x23 => some 0x09
  | _ => if w.getLsbD 8 then some 0x0D else if w.getLsbD 9 then some 0x0C else none

/-- TLOOKs of a group that an MWAIT covers are pending no more (R371). -/
def State.coverLooks (s : State) (c : Ctx) (k : Nat) : State :=
  { s with teams := s.teams.map (fun e => (e.1, { e.2 with tables := e.2.tables.map (fun t =>
    (t.1, { t.2 with looks := t.2.looks.filter (fun x => !(x.1 == c.gid && decide (k ≤ c.grp.loopAge x.2))) })) })) }

/-- MWAIT (R347): it waits for the loop and every older one, then takes ASTAT. -/
def execMwait (trp : Bool) (d : Reg) (a : Reg) (g : Guard) (s : State) : Result :=
  issueSync (.mwait trp d a g) s (fun c s =>
    let k := c.grp.loopAge (c.uni a).toNat
    if k ≤ 7 ∧ c.grp.loops.any (fun e => decide (k ≤ c.grp.loopAge e.1)) then s
    else
      match c.grp.owed.find? (fun o => o.loop.any (fun i => decide (k ≤ c.grp.loopAge i))) with
      | some o => takeOwed c o s
      | none =>
        let w := c.grp.astat
        match (if trp then almanacCause w else none) with
        | some cause => takeTrap c { cause := cause, lanes := c.act, status := w.toNat } s
        | none => retire c (writeUni c d w ((s.coverLooks c k).modGroup c.gid (fun g => { g with astat := 0 }))))

/-- MSTAT (R347): the progress of a loop in flight, else ASTAT; it never waits. -/
def execMstat (d : Reg) (a : Reg) (g : Guard) (s : State) : Result :=
  issueSync (.mstat d a g) s (fun c s =>
    let id := (c.uni a).toNat % 65536
    match c.grp.owed.find? (fun o => o.loop = some id) with
    | some o => takeOwed c o s
    | none =>
      match (if c.grp.loopAge id ≤ 7 then (s.loopsOf c.gid).find? (fun e => e.2.id.toNat = id) else none) with
      | some e => retire c (writeUni c d (BitVec.ofNat 32 (e.2.progress % 65536 * 65536 + 2)) s)
      | none => retire c (writeUni c d c.grp.astat s))

/-! ### Steps of MLOOP and MHAD (R343, R352, R354) -/

/-- The destination tile set to zero before step 0 (R343, R375). -/
def Core.zeroFirst (k : Core) (l : Loop) (asid team : Nat) : Core :=
  if l.progress = 0 ∧ l.zero then ((k.pairOf l.tile).foldl Core.zeroTile k).takeTile l.tile asid team else k

/-- Lines of A enter the operand cache as they stand (R338). -/
def State.cacheLines (s : State) (cmd : Cmd) (lines : List Nat) : State :=
  match memberIn cmd.view 15 with
  | none => s
  | some m =>
    let spad := (s.core cmd.core).spad
    let fresh := (lines.filter (fun n => decide (128 * n < m.spadb))).map (fun n =>
      ((cmd.team, n, spad.bytes (m.base + 128 * n) 128) : Nat × Nat × List Byte))
    s.modCore cmd.core (fun k =>
      { k with opCache := (fresh.filter (fun e => !k.opCache.any (fun x => x.1 == e.1 && x.2.1 == e.2.1)) ++
          k.opCache).take 1024 })

/-- One step of an MLOOP (R343): zero first, the metadata check (R337), then every element of the tile. -/
def State.mloopStep (s : State) (id : Nat) (cmd : Cmd) (l : Loop) : State :=
  let s := s.modCore cmd.core (fun k => k.zeroFirst l cmd.asid cmd.team)
  let st := l.progress
  if l.sparse ≠ 0 ∧ (List.range 128).any (fun n => (s.columnMeta id cmd l st n).2) then
    s.setLoop id { l with done := some (0x20, st) }
  else
    let rows := (List.range 128).map (fun m => s.aRow id cmd l st m)
    let cols := (List.range 128).map (fun n => s.bCol id cmd l st n)
    let int := (parseFmt l.fa).etype == 7
    let k0 := (s.core cmd.core).takeTile l.tile cmd.asid cmd.team
    let r := k0.accStep l.tile 128 128 (fun m n => mloopCell int ((rows.getD m ([], false)).1) (cols.getD n []))
    let l1 : Loop := { l with progress := st + 1, sat := l.sat || rows.any Prod.snd, iovf := l.iovf || r.2
                              done := if st + 1 = l.steps then some (0, 0) else none }
    let s1 := (s.modCore cmd.core (fun _ => r.1)).setLoop id l1
    let s2 := if cmd.reckon then s1 else s1.cacheLines cmd (l.aLines (parseFmt l.fa) st)
    { s2 with fresh := s2.fresh + 2 ^ 33 }

/-- The words of a row that an MHAD step writes (R352). -/
def State.hadRow (s : State) (id : Nat) (cmd : Cmd) (l : Loop) (base core : Nat) : List (Place × Byte) :=
  let q := hadGeom (l.w 1)
  let stages := l.mod % 4 + 4
  let scale : Word := if l.mod / 4 = 0 then 0x3F800000 else if l.mod / 4 = 1 then 0x3E800000 else 0x3E000000
  let row := base + (l.w 0).toNat + l.progress * q.2.2
  (List.range q.2.1).flatMap (fun j =>
    let at' := fun (i : Nat) => row + 4 * (j * 2 ^ stages + i)
    let x := (List.range (2 ^ stages)).map (fun i =>
      BitVec.ofNat 32 (leNat ((List.range 4).map (fun b => s.sourceByte id cmd (.spad core, at' i + b)))))
    ((hadamard stages scale x).zipIdx.flatMap (fun e =>
      (leBytes 4 e.1.toNat).zipIdx.map (fun b => (((.spad core, at' e.2 + b.2) : Place), b.1)))))

/-- One step of an MHAD: a row, whose sectors that no later row shares are released (R27, R352; assumption log 14). -/
def State.mhadStep (s : State) (id : Nat) (cmd : Cmd) (l : Loop) : State :=
  match memberIn cmd.view 15 with
  | none => s
  | some m =>
    let q := hadGeom (l.w 1)
    let ws := s.hadRow id cmd l m.base m.core
    let us := (ws.map (fun w => unitOf w.1)).dedup
    if us.any (s.ownedBefore id) then s
    else
      let last := l.progress + 1 = q.1
      let next := (m.base + (l.w 0).toNat + (l.progress + 1) * q.2.2) / 32
      let s := s.engineWrite id cmd ws
      let s := us.foldl (fun s u => if last ∨ u.2 < next then s.modCmd id (fun k => { k with owned := dropUnit u k.owned }) else s) s
      s.setLoop id { l with progress := l.progress + 1, done := if last then some (0, 0) else none }

/-- Two loops that touch nothing in common: MLOOPs from SPAD into different tile pairs (R321). -/
def apart (a b : Work) : Bool :=
  match a, b with
  | .loop x, .loop y => x.op == .mloop && y.op == .mloop && x.asrc != 2 && y.asrc != 2 && x.tile / 2 != y.tile / 2
  | _, _ => false

/-- The command at a place of a core's ACC order, when every earlier one is finished or touches nothing it touches. -/
def State.accTurn (s : State) (core idx : Nat) : Option (Nat × Cmd) :=
  let q := (s.core core).accQ
  match q[idx]? with
  | none => none
  | some id =>
    match s.cmds.find? id with
    | none => none
    | some cmd =>
      if (q.take idx).all (fun j => (s.cmds.find? j).any (fun e => e.passed || apart e.work cmd.work)) then some (id, cmd) else none

/-- A halted core's loops run no step, unless a command that the halt lets complete stands behind them in ACC order (R173,
R354, R356, R380; assumption log 35). -/
def State.stopped (s : State) (core : Nat) : Bool :=
  (s.core core).halted && (s.core core).accQ.all (fun j => (s.cmds.find? j).all (fun e => e.stops || e.passed))

/-- LOOP_STEP (R343, R352): one step of an MLOOP or MHAD whose turn it is in ACC order. -/
def execLoopStep (core idx : Nat) (s : State) : Result :=
  .next (match s.accTurn core idx with
  | some (id, cmd) =>
    (match cmd.work with
    | .loop l =>
      if l.done.isSome then s
      else
        match l.op with
        | .mloop => if s.stopped core then s else s.mloopStep id cmd l
        | .mhad => s.mhadStep id cmd l
        | _ => s
    | _ => s)
  | none => s)

/-- The places an MHAD has written (R338). -/
def hadPlaces (cmd : Cmd) (l : Loop) : List (Place × DWord) :=
  match memberIn cmd.view 15 with
  | none => []
  | some m =>
    let q := hadGeom (l.w 1)
    let width := 4 * 2 ^ (l.mod % 4 + 4) * q.2.1
    (List.range q.1).flatMap (fun r => (runOf ((l.w 0).toNat + r * q.2.2) width).map (fun o =>
      (((.spad m.core, m.base + o) : Place), BitVec.ofNat 64 (0xFE * 2 ^ 56 + 0x0F000000 + o))))

/-- A loop completes: its status is merged into ASTAT in age order (R343, R344). -/
def State.completeLoop (s : State) (id : Nat) (cmd : Cmd) (l : Loop) (written : List (Place × DWord)) : State :=
  let s := s.complete id cmd 0 written
  s.modGroup cmd.grp (fun g => ({ g with loops := g.loops.set l.id.toNat (some l.status) }).mergeDone)

end Sys2Proof.Machine
end

