-- ==== Sys2Proof/Machine/ChartPages.lean ====
section
/-! DEFINITION. Pages as the Chart engines keep them (spec/10_chart.md R383 to R403): pools, frames, headers and their
copies in memory, reference counts, pins, eviction and fetch. -/

namespace Sys2Proof.Machine

/-! ### Chart engines, pools and page numbers (R383, R384) -/

/-- A die's Chart engine. -/
def State.chart (s : State) (die : Nat) : Chart := s.charts.getD die Chart.reset

/-- A changed Chart engine. -/
def State.modChart (s : State) (die : Nat) (f : Chart → Chart) : State :=
  { s with charts := s.charts.put Chart.reset die (f (s.chart die)) }

/-- A pool of a die. -/
def State.pool (s : State) (die p : Nat) : Pool := (s.chart die).pools.getD p Pool.empty

/-- A changed pool. -/
def State.modPool (s : State) (die p : Nat) (f : Pool → Pool) : State :=
  s.modChart die (fun k => { k with pools := k.pools.put Pool.empty p (f (s.pool die p)) })

/-- null names no page (R383). -/
def nullPage : Word := 0xFFFFFFFF

/-- A page number (R383). -/
def pageNumber (die pool idx : Nat) : Nat := die * 2 ^ 31 + pool * 2 ^ 27 + idx

/-- Die, pool and index of a page number (R383). -/
def pageDie (n : Nat) : Nat := bits n 31 1
def pagePool (n : Nat) : Nat := bits n 27 4
def pageIdx (n : Nat) : Nat := bits n 0 27

/-- The next CSEQ of a die (R390). -/
def State.takeSeq (s : State) (die : Nat) : State × Word :=
  (s.modChart die (fun k => { k with cseq := k.cseq + 1 }), (s.chart die).cseq)

/-- Pages of a pool. -/
def State.poolPages (s : State) (die pool : Nat) : List (Nat × Page) :=
  s.pages.filter (fun e => pageDie e.1 = die && pagePool e.1 = pool)

/-! ### Headers (R387, R389) -/

/-- Payload bytes of a page (R399). -/
def Page.bytes (p : Page) : Nat := 2 * p.tok * p.rowb

/-- Address of a page's payload in the capacity area (R384). -/
def Pool.capAddr (k : Pool) (idx : Nat) : Nat := k.capBase + idx * k.frameB

/-- Address of a frame (R384). -/
def Pool.frameAddr (k : Pool) (f : Nat) : Nat := k.frameBase + f * k.frameB

/-- STATE (R389). -/
def stateCode : PageState → Nat
  | .resident => 1
  | .evicting => 2
  | .capacity => 3
  | .fetching => 4
  | .quarantined => 5

/-- TIERLOC (R389): in QUARANTINED the frame it still holds, else its capacity-tier address (assumption log 30). -/
def Page.tierLoc (p : Page) (cap : Nat) : Nat :=
  match p.st, p.frame with
  | .capacity, _ => cap
  | .fetching, _ => cap
  | _, some f => f
  | _, none => cap

/-- The low 64 bits of a header, which PGREF reads (R389). -/
def Page.low (p : Page) : Nat :=
  stateCode p.st + b2n p.inserted * 8 + p.lowerr * 16 + p.holds % 256 * 256 + p.refcnt * 65536 +
  (p.fill * 8 + p.pins % 256 * 4096 + p.asid * 1048576) * 2 ^ 32

/-- The 64-byte header (R389). -/
def Page.header (p : Page) (cap : Nat) : List Byte :=
  leBytes 8 p.low ++ leBytes 2 0 ++ leBytes 2 p.xref ++ leBytes 2 p.owner ++ leBytes 2 p.model ++
  leBytes 4 p.lastUse.toNat ++ leBytes 4 p.parent ++ leBytes 8 p.phash.toNat ++ leBytes 8 (p.tierLoc cap) ++
  List.replicate 24 0

/-- The planes as a header slot stores them (R387). -/
def Page.planes (p : Page) : List Byte :=
  (List.range 512).map (fun i => p.scales.getD i 0) ++
  (List.range 256).flatMap (fun i => leBytes 4 (p.ids.getD i 0).toNat) ++ List.replicate 448 0

/-- Bytes that Chart stores for a page, under the key of its ASID (R517). -/
def State.chartStore (s : State) (asid pa : Nat) (bs : List Byte) : State :=
  (s.touchPlaces none (s.asidTag asid) ((List.range bs.length).map (fun k => ((.global, pa + k) : Place)))).physStore pa bs

/-- Both copies of a part of a page's header slot (R387, R402). -/
def State.slotStore (s : State) (n asid off : Nat) (bs : List Byte) : State :=
  let base := (s.pool (pageDie n) (pagePool n)).hdrBase + 4096 * pageIdx n + off
  (s.chartStore asid base bs).chartStore asid (base + 2048) bs

/-- A page's header changed, in its slot too (R389). -/
def State.modPage (s : State) (n : Nat) (f : Page → Page) : State :=
  match s.pages.find? n with
  | none => s
  | some p =>
    let p := f p
    let cap := (s.pool (pageDie n) (pagePool n)).capAddr (pageIdx n)
    ({ s with pages := s.pages.set n p }).slotStore n p.asid 0 (p.header cap)

/-- A page's planes changed, in its slot too (R386, R387). -/
def State.modPlanes (s : State) (n : Nat) (f : Page → Page) : State :=
  let s := s.modPage n f
  match s.pages.find? n with
  | some p => s.slotStore n p.asid 0x40 p.planes
  | none => s

/-- A page is live in an ASID: not null, outside its pool, FREE or foreign (R408). -/
def State.livePage (s : State) (n asid : Nat) : Option Page := (s.pages.find? n).filter (fun p => p.asid = asid)

/-! ### Frames (R384, R399, R400) -/

/-- Free frames of a pool. -/
def Pool.free (k : Pool) : Nat := k.frames - k.used.length - k.retired.length

/-- The lowest free frame of a pool (R399): among the first used + retired + 1 frames there is one. -/
def Pool.lowest (k : Pool) : Option Nat :=
  (List.range (min k.frames (k.used.length + k.retired.length + 1))).find?
    (fun f => !k.used.contains f && !k.retired.contains f)

/-- Frames a newcomer may take: those that waiters do not take first (R400). -/
def Pool.spare (k : Pool) : Nat := k.free - k.waiters.length

/-- A pool takes a frame. -/
def Pool.take (k : Pool) (f : Nat) : Pool := { k with used := f :: k.used }

/-- Free frames go to the fetches at the head of the waiters (R400); a waiting allocation takes its own when its command
goes on. -/
def State.serve (s : State) (die pool : Nat) : Nat → State
  | 0 => s
  | fuel + 1 =>
    let k := s.pool die pool
    match k.waiters, k.lowest with
    | .fetch n :: ws, some f =>
      ((s.modPool die pool (fun k => { k.take f with waiters := ws })).modPage n (fun p => { p with frame := some f })).serve
        die pool fuel
    | _, _ => s

/-- Free frames are given out. -/
def State.serveWaiters (s : State) (die pool : Nat) : State := s.serve die pool (s.pool die pool).waiters.length

/-- A frame comes back to its pool (R391, R399). -/
def State.giveFrame (s : State) (die pool f : Nat) : State :=
  (s.modPool die pool (fun k => { k with used := k.used.erase f })).serveWaiters die pool

/-- The frame of a page that becomes FREE: back to the pool; that of a QUARANTINED page is retired when a byte of it fails
when read back, which is open (R391; assumption log 3). -/
def State.dropFrame (s : State) (n : Nat) (p : Page) : State :=
  let die := pageDie n
  let pool := pagePool n
  match p.frame with
  | none => s
  | some f =>
    if p.st = .quarantined then
      let bad := Config.freeBool s.fresh
      let s := s.bump
      if bad then
        (s.modPool die pool (fun k => { k with used := k.used.erase f, retired := f :: k.retired })).countMgmt 2
      else s.giveFrame die pool f
    else s.giveFrame die pool f

/-- No eviction and no fetch of the page runs. -/
def PageState.still : PageState → Bool
  | .evicting => false
  | .fetching => false
  | _ => true

/-- A page with no reference and no pin, that is not moving, becomes FREE (R391). -/
def State.settlePage (s : State) (n : Nat) : State :=
  match s.pages.find? n with
  | none => s
  | some p =>
    if p.refcnt = 0 ∧ p.pins = 0 ∧ p.st.still then
      let s := if p.holds = 0 then s else
          { s with grids := s.grids.map (fun e => (e.1, { e.2 with holds := e.2.holds.filter (fun x => x ≠ n) })) }
      (({ s with pages := s.pages.erase n }).slotStore n p.asid 0 (List.replicate 2048 0)).dropFrame n p
    else s

/-! ### Eviction (R398, R399) -/

/-- A page is older than another of its die: by CSEQ − LASTUSE, ties to the lowest index (R390, R399). -/
def older (cseq : Word) (a b : Nat × Page) : Bool :=
  let x := (cseq - a.2.lastUse).toNat
  let y := (cseq - b.2.lastUse).toNat
  decide (y < x) || (x == y && decide (a.1 < b.1))

/-- The next victim of a pool (R398, R399). -/
def State.victim (s : State) (die pool : Nat) : Option Nat :=
  let cs := (s.poolPages die pool).filter (fun e => decide (e.2.st = .resident) && e.2.pins == 0 && e.2.holds == 0)
  (cs.foldl (fun best e =>
    match best with
    | none => some e
    | some b => if older (s.chart die).cseq e b then some e else some b) none).map Prod.fst

/-- The target of R399 is met: free frames and frames under eviction against LOW and the waiters. -/
def State.targetMet (s : State) (die pool : Nat) : Bool :=
  let k := s.pool die pool
  let moving := ((s.poolPages die pool).filter (fun e => e.2.st = .evicting)).length
  decide (k.low + k.waiters.length ≤ k.free + moving)

/-- Victims chosen one at a time (R399); `short` is set while none qualifies. -/
def State.evict (s : State) (die pool : Nat) : Nat → State
  | 0 => s
  | fuel + 1 =>
    if s.targetMet die pool then s.modPool die pool (fun k => { k with short := false })
    else
      match s.victim die pool with
      | none => s.modPool die pool (fun k => { k with short := true })
      | some n => (s.modPage n (fun p => { p with st := .evicting })).evict die pool fuel

/-- R399 after an allocation. -/
def State.runEvict (s : State) (die pool : Nat) : State := s.evict die pool ((s.poolPages die pool).length + 1)

/-- A pin or a hold of a page has ended (R391, R399). -/
def State.unhold (s : State) (n : Nat) : State :=
  let s := s.settlePage n
  if (s.pool (pageDie n) (pagePool n)).short then s.runEvict (pageDie n) (pagePool n) else s

/-- A page pinned (R398). -/
def State.pin (s : State) (n : Nat) : State := s.modPage n (fun p => { p with pins := p.pins + 1 })

/-- A pin of a page ends. -/
def State.unpin (s : State) (n : Nat) : State := (s.modPage n (fun p => { p with pins := p.pins - 1 })).unhold n

/-- Payload copied within physical memory under the key of the page's ASID. -/
def State.copyPayload (s : State) (asid src dst n : Nat) : State :=
  let tag := s.asidTag asid
  let s := s.touchPlaces none tag ((List.range n).map (fun k => ((.global, src + k) : Place)))
  s.chartStore asid dst (s.physBytes src n)

/-- A victim's payload is in the capacity area and its frame is free (R391, R399). -/
def State.finishEviction (s : State) (n : Nat) : State :=
  match s.pages.find? n with
  | none => s
  | some p =>
    match p.st, p.frame with
    | .evicting, some f =>
      let k := s.pool (pageDie n) (pagePool n)
      let s := s.copyPayload p.asid (k.frameAddr f) (k.capAddr (pageIdx n)) p.bytes
      ((s.modPage n (fun p => { p with st := .capacity, frame := none })).giveFrame (pageDie n) (pagePool n) f).settlePage n
    | _, _ => s

/-! ### Fetch (R400) -/

/-- A fetch of a CAPACITY page starts, for a command with this CSEQ on the page's die. -/
def State.startFetch (s : State) (n : Nat) (seq : Word) : State :=
  let die := pageDie n
  let pool := pagePool n
  match s.pages.find? n with
  | none => s
  | some p =>
    if p.st = .capacity then
      let k := s.pool die pool
      let s := s.modPage n (fun p => { p with st := .fetching, pins := p.pins + 1, fetchSeq := seq })
      match (if k.spare = 0 then none else k.lowest) with
      | some f => (s.modPool die pool (fun k => k.take f)).modPage n (fun p => { p with frame := some f })
      | none => (s.modPool die pool (fun k => { k with waiters := k.waiters ++ [.fetch n] })).runEvict die pool
    else s

/-- The payload is back in its frame: RESIDENT (R400). -/
def State.finishFetch (s : State) (n : Nat) : State :=
  match s.pages.find? n with
  | none => s
  | some p =>
    match p.st, p.frame with
    | .fetching, some f =>
      let k := s.pool (pageDie n) (pagePool n)
      let s := s.copyPayload p.asid (k.capAddr (pageIdx n)) (k.frameAddr f) p.bytes
      (s.modPage n (fun p => { p with st := .resident, lastUse := p.fetchSeq })).unpin n
    | _, _ => s

/-! ### Block tables and references (R395, R396) -/

/-- The entry of a request's block table. -/
def State.entry (s : State) (h e : Nat) : Option Nat := (s.requests.find? h).bind (fun r => r.bt.find? e)

/-- An entry written, in memory too; nothing else changes (R395). -/
def State.putEntry (s : State) (h e : Nat) (n : Option Nat) : State :=
  match s.requests.find? h with
  | none => s
  | some r =>
    let bt := match n with
      | some n => r.bt.set e n
      | none => r.bt.erase e
    let s := { s with requests := s.requests.set h { r with bt := bt } }
    let pa := r.btBase + 4 * e
    (s.touchPlaces none 0 [(.global, pa)]).physStore pa (leBytes 4 (n.getD nullPage.toNat))

/-- A reference of a page dropped (R391, R396). -/
def State.decRef (s : State) (n : Nat) : State := (s.modPage n (fun p => { p with refcnt := p.refcnt - 1 })).settlePage n

/-- A page, or null, installed in an entry (R396): none on overflow; nothing changes when it is there already. -/
def State.install (s : State) (h e : Nat) (n : Option Nat) : Option State :=
  let old := s.entry h e
  if old = n then some s
  else if (n.bind (fun n => s.pages.find? n)).any (fun p => decide (65535 ≤ p.refcnt)) then none
  else
    let s := match n with
      | some n => s.modPage n (fun p => { p with refcnt := p.refcnt + 1 })
      | none => s
    let s := s.putEntry h e n
    some (match old with
      | some o => s.decRef o
      | none => s)

/-- Every entry of a request's block table set to null (R396). -/
def State.clearTable (s : State) (h : Nat) : State :=
  match s.requests.find? h with
  | none => s
  | some r => r.bt.foldl (fun s e => (s.install h e.1 none).getD s) s

/-! ### Allocation (R399, R420) -/

/-- A free header of a pool: which one is open (assumption log 3), as long as one is free. -/
def State.freeHeader (s : State) (die pool : Nat) : Option Nat :=
  let k := s.pool die pool
  let is := (s.poolPages die pool).map (fun e => pageIdx e.1)
  let pick := (Config.freeWord s.fresh).toNat % max k.pages 1
  if k.pages ≠ 0 ∧ ¬is.contains pick then some pick
  else (List.range (min k.pages (is.length + 1))).find? (fun i => !is.contains i)

/-- Free headers of a pool. -/
def State.freeHeaders (s : State) (die pool : Nat) : Nat := (s.pool die pool).pages - (s.poolPages die pool).length

/-- A page allocated for a request: RESIDENT, REFCNT 0 until it is installed, its frame the lowest free one (R391, R420). -/
def State.allocPage (s : State) (die pool h asid model parent tok rowb kv : Nat) (seq : Word) (pins : Nat) :
    Option (State × Nat) :=
  match s.freeHeader die pool, (s.pool die pool).lowest with
  | some i, some f =>
    let n := pageNumber die pool i
    let p : Page :=
      { st := .resident, inserted := false, lowerr := 0, holds := 0, refcnt := 0, fill := 0, pins := pins, asid := asid,
        xref := 0, owner := h, model := model, lastUse := seq, parent := parent, phash := 0, tok := tok, rowb := rowb,
        kvtype := kv, scales := [], ids := [], frame := some f, fetchSeq := 0 }
    let s := ({ s.bump with pages := s.pages.set n p }).modPool die pool (fun k => k.take f)
    some (s.modPlanes n id, n)
  | _, _ => none

/-! ### Errors (R402, R403) -/

/-- Bits of an element and how many of them, from bit 0 on, only parity protects (R403). -/
def kvBits (kvtype : Nat) : Nat × Nat := if kvtype = 3 then (16, 4) else if kvtype = 5 then (8, 1) else (8, 2)

/-- What flipped bits of a payload amount to (R403): sectors corrected, parity errors of 8 elements, and whether some sector
has more than one bit wrong in its SEC-DED part. -/
def flipReport (kvtype : Nat) (bits : List Nat) : Nat × Nat × Bool :=
  let q := kvBits kvtype
  let low := fun (b : Nat) => decide (b % q.1 < q.2)
  let count := fun (w : Nat) (bs : List Nat) => (bs.map (· / w)).dedup.map (fun k => (bs.filter (fun b => b / w = k)).length)
  let secs := count 256 (bits.dedup.filter (fun b => !low b))
  let pars := count (8 * q.1) (bits.dedup.filter low)
  ((secs.filter (fun n => n = 1)).length, (pars.filter (fun n => n % 2 = 1)).length, secs.any (fun n => decide (1 < n)))

/-- Where a page's payload is: its frame, or its copy in the capacity area while that is the one that counts (R389). -/
def State.payloadAt (s : State) (n : Nat) (p : Page) : Nat :=
  let k := s.pool (pageDie n) (pagePool n)
  match p.st, p.frame with
  | .capacity, _ => k.capAddr (pageIdx n)
  | .fetching, _ => k.capAddr (pageIdx n)
  | _, some f => k.frameAddr f
  | _, none => k.capAddr (pageIdx n)

/-- Bits of bytes flipped. -/
def flipBits (bits : List Nat) (bs : List Byte) : List Byte :=
  bs.zipIdx.map (fun e => bits.foldl (fun b i => if i / 8 = e.2 then b ^^^ BitVec.ofNat 8 (2 ^ (i % 8)) else b) e.1)

/-- What an error in a page does to its data, its header, the counters and its slot; true when it is uncorrectable. Bits of the
SEC-DED part are corrected, low-order bits stay as they are stored; a header slot of which one copy decodes is made whole. -/
def State.payloadError (s : State) (n : Nat) (e : PageError) : State × Bool :=
  match e, s.pages.find? n with
  | .flips (b :: bs), some p =>
    let r := flipReport p.kvtype (b :: bs)
    if r.2.2 || (decide (0 < r.2.1) && (s.chart (pageDie n)).lowStrict) then (s, true)
    else
      let q := kvBits p.kvtype
      let low := (b :: bs).dedup.filter (fun i => decide (i % q.1 < q.2) && decide (i < 8 * p.bytes))
      let a := s.payloadAt n p
      let s := if low.isEmpty then s else s.chartStore p.asid a (flipBits low (s.physBytes a p.bytes))
      let s := if r.2.1 = 0 then s else s.modPage n (fun p => { p with lowerr := min 15 (p.lowerr + r.2.1) })
      let s := (List.range r.1).foldl (fun s _ => s.countMgmt 3) s
      ((List.range r.2.1).foldl (fun s _ => s.countMgmt 4) s, false)
  | .header a b, some _ => (if a = b then s else s.modPlanes n id, a && b)
  | _, _ => (s, false)

/-- An engine reads some pages, in order: their flipped bits are open (R403; assumption log 3). The first page with an
uncorrectable error, if any. -/
def State.readPages : List Nat → State → State × Option Nat
  | [], s => (s, none)
  | n :: ns, s =>
    let e := s.bump.payloadError n (.flips (Config.flips s.fresh))
    if e.2 then (e.1, some n) else State.readPages ns e.1

end Sys2Proof.Machine
end

