-- ==== Sys2Proof/Machine/HelmBase.lean ====
section
/-! DEFINITION. What Helm's operations share (spec/11_helm.md R430 to R443): memory by virtual address in an ASID, queues
and events, partitions (spec/01_machine.md R12, R14), live requests and how they end, and pages that become QUARANTINED
(spec/10_chart.md R404). -/

namespace Sys2Proof.Machine

/-! ### Memory by virtual address in an ASID (R519, R522; assumption log 31) -/

/-- Physical addresses of a range in an ASID: none where a line has no leaf that permits the access. -/
def State.vaSpan (s : State) (asid va n : Nat) (need : Need) : Option (List Nat) :=
  ((List.range ((va + n - 1) / 128 + 1 - va / 128)).mapM (fun k =>
    let lo := max va ((va / 128 + k) * 128)
    let hi := min (va + n) ((va / 128 + k + 1) * 128)
    (s.translate asid need lo).map (fun pa => (List.range (hi - lo)).map (fun j => pa + j)))).map List.flatten

/-- A and D set for a range (R523). -/
def State.markSpan (s : State) (asid va n : Nat) (dirty : Bool) : State :=
  ((List.range n).map (fun k => (va + k) / 65536)).dedup.foldl (fun s u => s.markLeaf asid dirty (max va (u * 65536))) s

/-- Bytes read in an ASID, if the translation permits it. -/
def State.readVa (s : State) (asid va n : Nat) : State × Option (List Byte) :=
  match s.vaSpan asid va n .read with
  | none => (s.lostWalk asid va, none)
  | some pas =>
    let s := (s.markSpan asid va n false).touchPlaces none (s.asidTag asid) (pas.map (fun a => ((.global, a) : Place)))
    (s, some (pas.flatMap (fun a => s.physBytes a 1)))

/-- A little-endian number read in an ASID. -/
def State.natVa (s : State) (asid va n : Nat) : State × Option Nat :=
  let r := s.readVa asid va n
  (r.1, r.2.map leNat)

/-- Bytes written in an ASID; nothing is written where the translation does not permit it. -/
def State.writeVa (s : State) (asid va : Nat) (bs : List Byte) : State :=
  match s.vaSpan asid va bs.length .write with
  | none => s.lostWalk asid va
  | some pas =>
    let ps := pas.map (fun a => ((.global, a) : Place))
    ((s.markSpan asid va bs.length true).touchPlaces none (s.asidTag asid) ps).putBytes (ps.zip bs)

/-- A 64-bit counter in an ASID goes up by a value (R95): nothing where its address is 0, misaligned or not writable
(R429). -/
def State.addCounter (s : State) (asid : Nat) (addr add : DWord) : State :=
  if addr = 0 ∨ addr.toNat % 8 ≠ 0 then s
  else
    match s.vaSpan asid addr.toNat 8 .write with
    | none => s
    | some pas =>
      let s := s.touchPlaces none (s.asidTag asid) (pas.map (fun a => ((.global, a) : Place)))
      s.writeVa asid addr.toNat (leBytes 8 (leNat (pas.flatMap (fun a => s.physBytes a 1)) + add.toNat))

/-- Bytes read at a physical address without a key: rings (R433). -/
def State.readPhys (s : State) (pa n : Nat) : State × List Byte :=
  let s := s.touchPlaces none 0 ((List.range n).map (fun k => ((.global, pa + k) : Place)))
  (s, s.physBytes pa n)

/-- Bytes written at a physical address without a key. -/
def State.writePhys (s : State) (pa : Nat) (bs : List Byte) : State :=
  let ps := (List.range bs.length).map (fun k => ((.global, pa + k) : Place))
  (s.touchPlaces none 0 ps).putBytes (ps.zip bs)

/-! ### Queues and events (R433, R436, R437) -/

/-- Helm changed. -/
def State.modHelm (s : State) (f : Helm → Helm) : State := { s with helm := f s.helm }

/-- A queue. -/
def State.queue (s : State) (q : Nat) : Queue := s.helm.queues.getD q Queue.reset

/-- A queue changed. -/
def State.modQueue (s : State) (q : Nat) (f : Queue → Queue) : State :=
  s.modHelm (fun h => { h with queues := h.queues.put Queue.reset q (f (s.queue q)) })

/-- The event ring has room (R437). -/
def Queue.room (k : Queue) : Bool := decide ((k.etail - k.ehead).toNat < 2 ^ k.elog)

/-- Events that a queue holds are written while the ring has room; a request that waited for its own becomes FREE (R437,
R442). -/
def State.flushFor (s : State) (q : Nat) : Nat → State
  | 0 => s
  | fuel + 1 =>
    let k := s.queue q
    match k.held with
    | [] => s
    | e :: es =>
      if k.room then
        let s := s.writePhys (k.ebase.toNat + 32 * (k.etail.toNat % 2 ^ k.elog)) e.bytes
        let s := s.modQueue q (fun k => { k with etail := k.etail + 1, held := es })
        let s := match e.frees with
          | some h => { s with requests := s.requests.erase h }
          | none => s
        s.flushFor q fuel
      else s

/-- Held events of a queue, as far as the ring has room. -/
def State.flush (s : State) (q : Nat) : State := s.flushFor q (s.queue q).held.length

/-- An event's bytes (R436). -/
def eventBytes (code status : Nat) (id : Nat) (vala valb cookie : DWord) : List Byte :=
  leBytes 1 code ++ leBytes 1 status ++ leBytes 2 0 ++ leBytes 4 id ++ leBytes 8 vala.toNat ++ leBytes 8 valb.toNat ++
  leBytes 8 cookie.toNat

/-- An event posted to a queue (R437); a queue that is not in use has no event ring (assumption log 31). -/
def State.post (s : State) (q : Nat) (bytes : List Byte) (frees : Option Nat) : State :=
  if (s.queue q).en then
    (s.modQueue q (fun k => { k with held := k.held ++ [{ bytes := bytes, frees := frees }] })).flush q
  else
    match frees with
    | some h => { s with requests := s.requests.erase h }
    | none => s

/-- An event with fields that the spec states no value of: those are free (R436; assumption log 3). -/
def State.postOpen (s : State) (q code : Nat) (status id : Option Nat) (vala valb : Option DWord) (cookie : DWord) : State :=
  let bytes := eventBytes code ((status.getD (Config.freeWord s.fresh).toNat) % 256)
    ((id.getD (Config.freeWord (s.fresh + 1)).toNat) % 2 ^ 32) (vala.getD (Config.freeDWord (s.fresh + 2)))
    (valb.getD (Config.freeDWord (s.fresh + 3))) cookie
  ({ s with fresh := s.fresh + 4 }).post q bytes none

/-! ### Partitions (R12, R14, R430, R458) -/

/-- k in force on a die (R12). -/
def State.k (s : State) (die : Nat) : Nat := s.helm.k.getD die 0

/-- k requested for a die (R430). -/
def State.kWant (s : State) (die : Nat) : Nat := s.helm.want.getD die 0

/-- The partition of a core, as PHALT numbers them (R12, R458). -/
def State.partOf (s : State) (core : Nat) : Nat := 2 * (core / 48) + b2n (decide (s.k (core / 48) ≤ core % 8))

/-- A core whose column is being moved (R14). -/
def State.moving (s : State) (core : Nat) : Bool :=
  let k := s.k (core / 48)
  let w := s.kWant (core / 48)
  decide (min k w ≤ core % 8) && decide (core % 8 < max k w)

/-- A partition has cores (R12). -/
def State.partExists (s : State) (p : Nat) : Bool := if p % 2 = 0 then decide (0 < s.k (p / 2)) else decide (s.k (p / 2) < 8)

/-- Cores of a partition, ascending. -/
def State.partCores (s : State) (p : Nat) : List Nat :=
  ((List.range 48).map (fun c => p / 2 * 48 + c)).filter (fun c => s.partOf c = p)

/-- A partition's Helm state. -/
def State.part (s : State) (p : Nat) : Part := s.helm.parts.getD p Part.reset

/-- A partition changed. -/
def State.modPart (s : State) (p : Nat) (f : Part → Part) : State :=
  s.modHelm (fun h => { h with parts := h.parts.put Part.reset p (f (s.part p)) })

/-- Cores on which Helm may place work: neither halted nor moving (R14, R458), of a partition. -/
def State.placeable (s : State) (p : Nat) : List Nat :=
  if (s.part p).halt = .run then (s.partCores p).filter (fun c => !s.moving c && !(s.core c).halted) else []

/-! ### Requests (R440 to R443) -/

/-- States in which a request is live (R442). -/
def ReqState.live : ReqState → Bool
  | .done => false
  | .failed => false
  | _ => true

/-- STATE (R442). -/
def ReqState.code : ReqState → Nat
  | .queued => 1
  | .prefill => 2
  | .handoff => 3
  | .decode => 4
  | .swapped => 5
  | .remote => 6
  | .done => 7
  | .failed => 8

/-- A model of the package. -/
def State.model? (s : State) (n : Nat) : Option Model := s.models.find? n

/-- The live request that a handle names for an ASID (R408, R440). -/
def State.liveReq (s : State) (h asid : Nat) : Option Request :=
  (s.requests.find? h).filter (fun r => r.st.live && (s.model? r.model).any (fun m => m.asid = asid))

/-- A request changed. -/
def State.modReq (s : State) (h : Nat) (f : Request → Request) : State := { s with requests := s.requests.modify h f }

/-- The first code other than Live stays (R443). -/
def Request.mark (r : Request) (code : Word) : Request := if r.status = 0 then { r with status := code } else r

/-- REQEND or TOKENS of a request; STATUS holds the code of R443, and VALB all of it (R436). -/
def Request.event (r : Request) (h code : Nat) : List Byte :=
  eventBytes code (r.status.toNat % 256) h (BitVec.ofNat 64 r.gen) (r.status.zeroExtend 64) r.cookie

/-- A request enters DONE, FAILED or an exporting REMOTE: its block table is set to null, and REQEND is posted; it is FREE
once the event is written (R442, R449). -/
def State.endReq (s : State) (h : Nat) (st : ReqState) : State :=
  let s := (s.modReq h (fun r => { r with st := st, ending := true })).clearTable h
  match s.requests.find? h with
  | some r => s.post r.evq (r.event h 5) (some h)
  | none => s

/-- CANCEL and every failure: CANCELPEND and STATUS at once; the request is FAILED at its step's end, or at once outside a
step (R442, R443). -/
def State.failReq (s : State) (h : Nat) (code : Word) : State :=
  match s.requests.find? h with
  | none => s
  | some r =>
    if r.st.live ∧ ¬r.ending then
      let s := s.modReq h (fun r => { r.mark code with cancel := true })
      if r.inStep.isSome then s else s.endReq h .failed
    else s

/-! ### Quarantine (R404) -/

/-- An uncorrectable error: the page is QUARANTINED, its move is over, and every request that names it fails with 0x11
(R391, R404). -/
def State.quarantine (s : State) (n : Nat) : State :=
  match s.pages.find? n with
  | none => s
  | some p =>
    if p.st = .quarantined then s
    else
      let s := s.modPage n (fun q => { q with st := .quarantined })
      let s := if p.st = .fetching then
          (s.modPool (pageDie n) (pagePool n) (fun k => { k with waiters := k.waiters.filter (fun w => w ≠ .fetch n) })).unpin n
        else s
      let hs := (s.requests.filter (fun e => e.2.bt.any (fun b => b.2 = n))).map Prod.fst
      (hs.foldl (fun s h => s.failReq h 0x11) s).settlePage n

/-! ### Grids -/

/-- Grids that have not completed, of a queue (R433). -/
def State.queueGrids (s : State) (q : Nat) : List (Nat × Grid) := s.grids.filter (fun e => e.2.queue = q)

end Sys2Proof.Machine
end

