-- ==== Sys2Proof/Machine/Tables.lean ====
section
/-! DEFINITION. The Almanac engine's lookup path (spec/09_almanac_lookup.md): almanac tables, TBLD, TLOOK, TVAL, TSPILL,
TFILL, TDROP; ACCZ, ACCRD and ACCWR; and TABLE_BUILD, TLOOK_STEP and LOOP_COMPLETE. -/

namespace Sys2Proof.Machine

/-! ### Tables (R358, R361, R362, R365) -/

/-- Word `i` of the octet of a table (R362). -/
def Table.w (t : Table) (i : Nat) : Nat := (t.octet.getD i 0).toNat

/-- ROWS (R368). -/
def Table.rows (t : Table) : Nat := bits (t.w 3) 0 7 + 1

/-- NENT (R368). -/
def Table.nent (t : Table) : Nat := bits (t.w 3) 8 8 + 1

/-- g (R368). -/
def Table.g (t : Table) : Nat := 2 ^ bits (t.w 3) 16 2

/-- NPOS (R368). -/
def Table.npos (t : Table) : Nat := bits (t.w 4) 0 13

/-- Entries of a table. -/
def Table.count (t : Table) : Nat := t.rows * t.npos * t.nent

/-- Chunks a table takes (R361). -/
def Table.need (t : Table) : Nat := (t.count * 4 + 1023) / 1024

/-- The spill offset, if any (R368, R377). -/
def Table.spill (t : Table) : Option Nat := if t.w 6 = 0xFFFFFFFF then none else some (t.w 6)

/-- The state of a table as a command sees it: in Reckoning mode, as of its key (R379). -/
def Table.asOf (t : Table) (reckon : Bool) (k : Key) : TabState :=
  if reckon && t.st == .stale && !t.marked && t.staleAt.any (fun j => keyLt k j) then
    (if t.chunks = 0 then .spilled else .valid)
  else t.st

/-- A table in a new state, unless a mark of a later key has made it STALE (R379). -/
def Table.become (t : Table) (reckon : Bool) (k : Key) (st : TabState) : Table :=
  if t.asOf reckon k = t.st then { t with st := st } else t

/-- Bits 31:0 of the descriptor of a table in a state, with LOST = 0 (R362). -/
def Table.low (t : Table) (st : TabState) : Word :=
  BitVec.ofNat 32 (t.chunks * 2097152 + b2n t.codebook * 8 + (match st with
    | .free => 0
    | .valid => 1
    | .stale => 2
    | .spilled => 3))

/-- Source ranges by team SPAD offset or WBUF offset: whether in WBUF, first byte, end (R365). -/
def Table.sources (t : Table) : List (Bool × Nat × Nat) :=
  let f := parseFmt t.afb
  let nk := t.npos * t.g
  [(false, t.w 0, t.w 0 + (t.rows - 1) * f.pitch + nk * f.es)] ++
  (if f.blk = 3 then [] else
    [(f.pspace, f.scaleOff, f.scaleOff + (t.rows - 1) * f.spitch + (nk - 1) / f.bl + 1)]) ++
  (if t.codebook then [(true, t.w 2, t.w 2 + t.nent * t.g * (parseFmt t.cbfb).es)] else [])

/-- The watched ranges of a table on a core whose SPAD holds its team at a base (R365). -/
def Table.watchAt (t : Table) (core base : Nat) : List (Space × Nat × Nat) :=
  t.sources.map (fun r => if r.1 then (.wbuf core, r.2.1, r.2.2) else (.spad core, base + r.2.1, base + r.2.2))

/-- A table of a team. -/
def State.table (s : State) (team num : Nat) : Option Table :=
  (s.teams.find? team).bind (fun t => t.tables.find? num)

/-- A changed table. -/
def State.modTable (s : State) (team num : Nat) (f : Table → Table) : State :=
  s.modTeam team (fun t => { t with tables := t.tables.modify num f })

/-- Values of a row of activations (R358). -/
def State.activations (s : State) (id : Nat) (cmd : Cmd) (t : Table) (m : Nat) : List FVal :=
  let f := parseFmt t.afb
  (List.range (t.npos * t.g)).map (fun k =>
    s.scaledElem id cmd f m k (leNat ((List.range f.es).map (fun j => s.loopSpad id cmd (t.w 0 + m * f.pitch + k * f.es + j)))))

/-- Codebook elements C(c, j), in order (R358). -/
def State.codebook (s : State) (id : Nat) (cmd : Cmd) (t : Table) : List FVal :=
  let f := parseFmt t.cbfb
  (List.range (t.nent * t.g)).map (fun k =>
    floatElem f.etype (leNat ((List.range f.es).map (fun j => s.loopWbuf id cmd (t.w 2 + k * f.es + j)))) 0)

/-- An entry T(m, p, c) from the activations of its row (R358). -/
def Table.entry (t : Table) (acts book : List FVal) (p c : Nat) : Word :=
  let a := fun (k : Nat) => acts.getD k (.fin false 0 0)
  if t.codebook then
    stepValue ((List.range t.g).map (fun j => mulF (a (p * t.g + j)) (book.getD (c * t.g + j) (.fin false 0 0))))
  else if c = 8 then toF32 .rn (a p)
  else toF32 .rn (mulF (a p) (fvalN4 (BitVec.ofNat 4 c) 0))

/-- Every entry of a table computed from its sources, by (m × NPOS + p) × NENT + c (R358, R377). -/
def State.buildTable (s : State) (id : Nat) (cmd : Cmd) (t : Table) : Map Word :=
  let book := if t.codebook then s.codebook id cmd t else []
  let rows := (List.range t.rows).map (fun m => s.activations id cmd t m)
  ((List.range t.count).map (fun i =>
    (i, t.entry (rows.getD (i / (t.npos * t.nent)) []) book (i / t.nent % t.npos) (i % t.nent)))).filter
      (fun e => e.2 ≠ 0)

/-- Entries rebuilt from the sources as they stand (R367, R375). -/
def State.rebuildTable (s : State) (id : Nat) (cmd : Cmd) (t : Table) : Map Word :=
  s.buildTable id { cmd with mark := s.undo.length } t

/-- Entries as they are used: rebuilt where a halt or swap discarded them (R367). -/
def State.liveEntries (s : State) (id : Nat) (cmd : Cmd) (t : Table) : Map Word :=
  if t.lost then s.rebuildTable id cmd t else t.entries

/-! ### Capacity and spilling (R361, R371, R377) -/

/-- Chunks reserved on a core (R361). -/
def State.chunksUsed (s : State) (core : Nat) : Nat :=
  ((s.teams.filter (fun e => e.2.core = core && !e.2.swapped && !e.2.ended)).map (fun e =>
    (e.2.tables.map (fun t => t.2.chunks)).sum)).sum

/-- Descriptors in use on a core (R361). -/
def State.descriptorsUsed (s : State) (core : Nat) : Nat :=
  ((s.teams.filter (fun e => e.2.core = core && !e.2.swapped && !e.2.ended)).map (fun e => e.2.tables.length)).sum

/-- The shortest leading part of some tables whose chunks bring the free ones to the need (R371). -/
def victimsFor (need : Nat) : Nat → List (Nat × Nat) → Option (List Nat)
  | free, ts =>
    if need ≤ free then some []
    else
      match ts with
      | [] => none
      | (n, k) :: rest => (victimsFor need (free + k) rest).map (fun v => n :: v)

/-- Tables of a team named by a pending TLOOK (R371). -/
def State.pendingTables (s : State) (team : Nat) : List Nat :=
  match s.teams.find? team with
  | none => []
  | some t => Map.keys (t.tables.filter (fun e => !e.2.looks.isEmpty))

/-- R371: the tables to spill so that `need` chunks are free; none where it cannot be done. -/
def State.makeRoom (s : State) (core team need : Nat) (auto : Bool) (skip : Nat) (pend : List Nat) (reckon : Bool)
    (key : Key) : Option (List Nat) :=
  let free := 1024 - s.chunksUsed core
  if need ≤ free then some []
  else if auto then
    match s.teams.find? team with
    | none => none
    | some t => victimsFor need free ((t.tables.filter (fun e =>
        e.2.asOf reckon key = .valid && e.2.spill.isSome && e.1 != skip && !pend.contains e.1)).map (fun e => (e.1, e.2.chunks)))
  else none

/-- Tables become SPILLED and give up their chunks (R367, R371). -/
def State.markSpilled (s : State) (team : Nat) (vs : List Nat) (reckon : Bool) (key : Key) : State :=
  vs.foldl (fun s n => s.modTable team n (fun t => { t.become reckon key .spilled with chunks := 0 })) s

/-- The places of a table's spill area. -/
def State.spillPlaces (s : State) (cmd : Cmd) (num : Nat) : List Place :=
  match s.table cmd.team num, memberIn cmd.view 15 with
  | some t, some m =>
    (match t.spill with
    | some off => (runOf off (4 * t.count)).map (fun o => (.spad m.core, m.base + o))
    | none => [])
  | _, _ => []

/-- Some spill area is still owned by an earlier command (R33). -/
def State.spillBlocked (s : State) (id : Nat) (cmd : Cmd) (vs : List Nat) : Bool :=
  vs.any (fun n => (s.spillPlaces cmd n).any (fun p => s.ownedBefore id (unitOf p)))

/-- The entries of tables written to their spill areas (R377). -/
def State.writeSpills (s : State) (id : Nat) (cmd : Cmd) (vs : List Nat) : State :=
  vs.foldl (fun s n =>
    match s.table cmd.team n with
    | none => s
    | some t =>
      let es := s.liveEntries id cmd t
      let ws := (s.spillPlaces cmd n).zip ((List.range t.count).flatMap (fun i => leBytes 4 (es.getD i 0).toNat))
      (s.modTable cmd.team n (fun t => { t with lost := false, entries := [] })).engineWrite id cmd ws) s

/-- Places with the addresses they are reported at. -/
def reported (cmd : Cmd) (ps : List Place) : List (Place × DWord) :=
  let base := ((memberIn cmd.view 15).map MemberView.base).getD 0
  ps.map (fun p => (p, BitVec.ofNat 64 (0xFE * 2 ^ 56 + 0x0F000000 + (p.2 - base))))

/-- The spill areas of tables, as written places. -/
def State.spilledPlaces (s : State) (cmd : Cmd) (vs : List Nat) : List (Place × DWord) :=
  reported cmd (vs.flatMap (s.spillPlaces cmd))

/-- Ownership ranges of places. -/
def ownedOf (ps : List Place) : List (Space × Nat × Nat) := unitRanges (ps.map unitOf)

/-- SPAD parts of a table's source ranges, as offsets (R379). -/
def Table.sourceOffsets (t : Table) : List Nat :=
  (t.sources.filter (fun r => !r.1)).flatMap (fun r => runOf r.2.1 (r.2.2 - r.2.1))

/-- The source reads of tables of a team that a command rebuilds before it spills them (R371, R379). -/
def State.rebuildReads (s : State) (id : Nat) (cmd : Cmd) (vs : List Nat) : State :=
  match memberIn cmd.view 15 with
  | none => s
  | some m =>
    s.sourceAccess id (reported cmd ((vs.flatMap (fun n => match s.table cmd.team n with
      | some t => if t.lost then t.sourceOffsets else []
      | none => [])).map (fun o => ((.spad m.core, m.base + o) : Place))))

/-- A command takes ownership of the spill areas of tables at its acceptance, and reads the sources of those it has to
rebuild (R30, R371, R379). -/
def State.ownSpills (s : State) (id : Nat) (vs : List Nat) : State :=
  match s.cmds.find? id with
  | some cmd =>
    (s.modCmd id (fun k => { k with owned := k.owned ++ ownedOf (vs.flatMap (s.spillPlaces cmd)) })).rebuildReads id cmd vs
  | none => s

/-- A command that changes tables waits at issue until every earlier command on tables has left the ACC order
(assumption log 14). -/
def State.tablesQuiet (s : State) (core : Nat) : Bool :=
  (s.core core).accQ.all (fun id => match (s.cmds.find? id).map Cmd.work with
    | some (.loop l) => l.op == .mloop || l.op == .mhad
    | some (.tval _ _) => false
    | some (.tspill _ _ _ _) => false
    | some (.tfill _ _ _ _ _) => false
    | _ => true)

/-! ### Work in ACC order (R321, R350, R377) -/

/-- TSPILL's and TFILL's work: spilled tables are written, a filled one is read from its spill area (R377). -/
def State.doTable (s : State) (id : Nat) (cmd : Cmd) : Work → Option State
  | .tval num d =>
    some ((giveReg cmd d (fun _ => match s.table cmd.team num with
      | some t => t.low (t.asOf cmd.reckon cmd.key)
      | none => 0) s).finishAcc id cmd [])
  | .tspill num writes d res =>
    let vs := if writes then [num] else []
    if s.spillBlocked id cmd vs then none
    else
      let s := s.writeSpills id cmd vs
      some ((giveReg cmd d (fun _ => res) s).finishAcc id cmd (s.spilledPlaces cmd vs))
  | .tfill num fills vs d res =>
    if s.spillBlocked id cmd vs then none
    else
      let s := s.writeSpills id cmd vs
      let bs := (s.spillPlaces cmd num).map (s.sourceByte id cmd)
      let s1 := if fills then s.modTable cmd.team num (fun t =>
          { t with entries := ((List.range t.count).map (fun i =>
              (i, BitVec.ofNat 32 (leNat ((bs.drop (4 * i)).take 4))))).filter (fun e => e.2 ≠ 0) })
        else s
      some ((giveReg cmd d (fun _ => res) s1).finishAcc id cmd (s1.spilledPlaces cmd vs))
  | _ => none

/-- The commands that come first in a core's ACC order and do their work at once do it, in order (R321; assumption log
14). -/
def State.drainAcc : Nat → Nat → State → State
  | 0, _, s => s
  | n + 1, core, s =>
    match (s.core core).accQ.find? (fun j => (s.cmds.find? j).any (fun e => !e.passed)) with
    | none => s
    | some id =>
      match s.cmds.find? id with
      | none => s
      | some cmd =>
        match cmd.work with
        | .accz _ _ _ => State.drainAcc n core (s.doAcc id cmd cmd.work)
        | .accrd _ _ _ => State.drainAcc n core (s.doAcc id cmd cmd.work)
        | .accwr _ _ _ => State.drainAcc n core (s.doAcc id cmd cmd.work)
        | _ =>
          match s.doTable id cmd cmd.work with
          | some s => State.drainAcc n core s
          | none => s

/-- The commands at the head of a core's ACC order work. -/
def State.drain (s : State) (core : Nat) : State := s.drainAcc (s.core core).accQ.length core

/-! ### ACCZ, ACCRD, ACCWR (R349, R350) -/

/-- Bounds and alignment of an ACC address (R317, R350). -/
def accAddrTrap (a : Nat) : Option Nat :=
  if 8388608 ≤ a then some 0x03 else if a % 128 ≠ 0 then some 0x04 else none

/-- ACCZ (R350). -/
def execAccz (tm : TileMode) (a : Reg) (g : Guard) (s : State) : Result :=
  issueSync (.accz tm a g) s (fun c s =>
    let v := (c.uni a).toNat
    let t := bits v 0 7
    let n := bits v 8 8
    if bit v 7 ∨ bits v 16 16 ≠ 0 ∨ n = 0 ∨ 128 < t + n ∨ (tm = .x2 ∧ (t % 2 = 1 ∨ n % 2 = 1)) then trap c 0x03 s
    else (retire c (s.submit c [] (.accz tm t n))).drain c.grp.core)

/-- ACCRD (R350). -/
def execAccrd (raw : Bool) (d : Reg) (a : Reg) (g : Guard) (s : State) : Result :=
  issueSync (.accrd raw d a g) s (fun c s =>
    let v := (c.uni a).toNat
    match accAddrTrap v with
    | some k => trap c k s
    | none => (retire c (holdRegs c.gid (regCodes (d, 1)) (s.submit c [] (.accrd raw d v)))).drain c.grp.core)

/-- ACCWR (R350). -/
def execAccwr (a : Reg) (b : Reg) (g : Guard) (s : State) : Result :=
  issueSync (.accwr a b g) s (fun c s =>
    let v := (c.uni a).toNat
    match accAddrTrap v with
    | some k => trap c k s
    | none => (retire c (s.submit c [] (.accwr v c.act (lanesOf (c.rd b))))).drain c.grp.core)

/-! ### TBLD (R368 to R371) -/

/-- The table an octet and its format blocks describe. -/
def tableOf (oct : List Word) (afb cbfb : List Byte) (book : Bool) : Table :=
  { st := .valid, codebook := book, lost := false, chunks := 0, octet := oct, afb := afb, cbfb := cbfb, entries := [],
    watch := [], looks := [], marked := false, staleAt := none }

/-- The checks of R370, in order: the cause of the first that fails. -/
def tbldCheck (c : Ctx) (s : State) (t : Table) : Option Nat :=
  let spadb := s.spadb c.team
  let fa := parseFmt t.afb
  let fc := parseFmt t.cbfb
  if bits (t.w 0) 21 11 ≠ 0 ∨ bit (t.w 3) 7 ∨ bits (t.w 3) 18 14 ≠ 0 ∨ bits (t.w 4) 13 19 ≠ 0 ∨ bits (t.w 5) 6 26 ≠ 0 ∨
      t.w 7 ≠ 0 ∨ t.npos = 0 ∨ 4096 < t.npos ∨ (¬t.codebook ∧ (t.g ≠ 1 ∨ t.nent ≠ 16)) then some 0x0B
  else if spadb < 32 * bits (t.w 1) 0 16 + 32 ∨ (t.codebook ∧ spadb < 32 * bits (t.w 1) 16 16 + 32) then some 0x03
  else if ¬fa.ok .activation ∨ (t.codebook ∧ ¬fc.ok .codebook) then some 0x0B
  else if t.w 0 % fa.es ≠ 0 ∨ fa.pitch % fa.es ≠ 0 ∨ (t.spill.isSome ∧ t.w 6 % 128 ≠ 0) then some 0x04
  else if t.sources.any (fun r => decide ((if r.1 then 2097152 else spadb) < r.2.2)) ∨
      (t.spill.isSome ∧ spadb < t.w 6 + 4 * t.count) then some 0x03
  else none

/-- TBLD issues (R370, R371): the old table of the number is released, room is made, and the build enters the ACC
order. -/
def startTbld (d : Reg) (o : Fin 6) (c : Ctx) (s : State) : State :=
  let oct := octetOf c o
  let w1 := (oct.getD 1 0).toNat
  let book := bits w1 16 16 != 0xFFFF
  let t := tableOf oct (spadBytes c s (32 * bits w1 0 16) 32)
    (if book then spadBytes c s (32 * bits w1 16 16) 32 else List.replicate 32 0xFF) book
  if ¬c.grp.fifo.isEmpty ∨ ¬s.loopRoom c.gid ∨ ¬s.tablesQuiet c.grp.core then s
  else
    match tbldCheck c s t with
    | some k => trap c k s
    | none =>
      let num := bits (t.w 5) 0 6
      let s := s.modTeam c.grp.team (fun x => { x with tables := x.tables.erase num })
      let room := if 256 ≤ s.descriptorsUsed c.grp.core then none
        else s.makeRoom c.grp.core c.grp.team t.need (parseFmt t.afb).autospill num (s.pendingTables c.grp.team) c.reckon
          c.grp.key
      let l : Loop :=
        { op := .tbld, id := c.grp.aloop, octet := oct, fa := t.afb, fb := t.cbfb, mod := 0, progress := 0, sat := false,
          iovf := false, done := if room.isNone then some (0x23, 0) else none, victims := room.getD [], pendTabs := [], decided := none }
      let s := s.markSpilled c.grp.team (room.getD []) c.reckon c.grp.key
      let t := { t with chunks := t.need, watch := t.watchAt c.team.core c.team.spadBase }
      let s := if room.isSome then s.modTeam c.grp.team (fun x => { x with tables := x.tables.set num t }) else s
      let s := acceptLoop c d [] l s
      let id := s.uid
      let s := s.ownSpills id (room.getD [])
      retire c (if c.reckon ∧ room.isSome then s.sourceAccess id (spadPlaces c t.sourceOffsets) else s)

/-- TBLD (R368). -/
def execTbld (d : Reg) (o : Fin 6) (g : Guard) (s : State) : Result := issueSync (.tbld d o g) s (startTbld d o)

/-- TABLE_BUILD (R370): the build of a TBLD whose turn it is in ACC order, after the spills it decided on. -/
def execTableBuild (core idx : Nat) (s : State) : Result :=
  .next (match s.accTurn core idx with
  | some (id, cmd) =>
    (match cmd.work with
    | .loop l =>
      if l.op = .tbld ∧ l.done.isNone ∧ ¬s.spillBlocked id cmd l.victims then
        let s := s.writeSpills id cmd l.victims
        let num := bits (l.w 5).toNat 0 6
        let s := match s.table cmd.team num with
          | some t => s.modTable cmd.team num (fun x => { x with entries := s.buildTable id cmd t })
          | none => s
        { s.setLoop id { l with done := some (0, 0) } with fresh := s.fresh + 2 ^ 33 }
      else s
    | _ => s)
  | none => s)

/-! ### TLOOK (R372 to R375) -/

/-- P, the codes of a step (R373). -/
def stepCodes (f : Fmt) (g : Nat) : Nat := if f.blk = 3 then 8 else f.bl / g

/-- Width of a code (R373). -/
def codeWidth (f : Fmt) : Nat := if f.etype = 8 then 8 else 4

/-- NCOL (R372). -/
def Loop.ncol (l : Loop) : Nat := bits (l.w 6).toNat 0 7 + 1

/-- P0 (R372). -/
def Loop.p0 (l : Loop) : Nat := bits (l.w 7).toNat 0 13

/-- CPITCH (R372). -/
def Loop.cpitch (l : Loop) : Nat := bits (l.w 2).toNat 0 16

/-- Byte address of column n's codes in step s (R373). -/
def Loop.codeAt (l : Loop) (st n : Nat) : Nat := (stepAddr (l.w 0) (l.w 1) st + n * l.cpitch) % 2 ^ 32

/-- R374's fourth check on one step. -/
def tlookExtent (spadb : Nat) (l : Loop) (f : Fmt) (p st : Nat) : Bool :=
  (List.range l.ncol).all (fun n => decide (l.codeAt st n + (p * codeWidth f + 7) / 8 ≤ 2097152)) &&
    decide (planesEnd f l.ncol (l.p0 / p + st) ≤ f.planeLimit spadb)

/-- The checks of R374, in order: the cause of the first that fails. -/
def tlookCheck (c : Ctx) (s : State) (l : Loop) : Option Nat :=
  let f := parseFmt l.fa
  let spadb := s.spadb c.team
  let mode := s.modeAt c.grp.core l.tile
  let ctl := (l.w 3).toNat
  if bits ctl 29 3 ≠ 0 ∨ bits ctl 23 5 ≠ 0 ∨ l.steps = 0 ∨ bits (l.w 2).toNat 16 16 ≠ 0 ∨ bits (l.w 4).toNat 6 26 ≠ 0 ∨
      bits (l.w 5).toNat 16 16 ≠ 0 ∨ bits (l.w 6).toNat 7 25 ≠ 0 ∨ bits (l.w 7).toNat 13 19 ≠ 0 then some 0x0B
  else if spadb < 32 * bits (l.w 5).toNat 0 16 + 32 then some 0x03
  else
    match s.table c.grp.team (bits (l.w 4).toNat 0 6) with
    | none => if ¬f.ok .code ∨ (f.blk = 3 ∧ l.p0 % 8 ≠ 0) ∨ mode = .i32 then some 0x0B else some 0x03
    | some t =>
      let p := stepCodes f t.g
      if ¬f.ok .code ∨ (f.etype = 6) = t.codebook ∨ l.p0 % p ≠ 0 ∨ mode = .i32 then some 0x0B
      else if t.npos < l.p0 + l.steps * p ∨ (mode = .x2 ∧ l.tile % 2 = 1) ∨ ¬tlookExtent spadb l f p 0 ∨
          ¬tlookExtent spadb l f p (l.steps - 1) then some 0x03
      else if l.cpitch * 8 < p * codeWidth f then some 0x0B
      else none

/-- TLOOK issues (R374, R375). -/
def startTlook (d : Reg) (o : Fin 6) (c : Ctx) (s : State) : State :=
  let oct := octetOf c o
  let num := bits (oct.getD 4 0).toNat 0 6
  let l : Loop :=
    { op := .tlook, id := c.grp.aloop, octet := oct, fa := spadBytes c s (32 * bits (oct.getD 5 0).toNat 0 16) 32, fb := [],
      mod := 0, progress := 0, sat := false, iovf := false, done := none, victims := [],
      pendTabs := s.pendingTables c.grp.team, decided := none }
  if ¬c.grp.fifo.isEmpty ∨ ¬s.loopRoom c.gid then s
  else
    match tlookCheck c s l with
    | some k => trap c k s
    | none =>
      let s := acceptLoop c d [] l s
      let id := s.uid
      let s := s.modTable c.grp.team num (fun t => { t with looks := t.looks ++ [(c.gid, l.id.toNat)] })
      retire c (if c.reckon then
        match s.table c.grp.team num with
        | some t => s.sourceAccess id (spadPlaces c t.sourceOffsets)
        | none => s
      else s)

/-- TLOOK (R372). -/
def execTlook (d : Reg) (o : Fin 6) (g : Guard) (s : State) : Result := issueSync (.tlook d o g) s (startTlook d o)

/-- What a step of a TLOOK does about its table, whose state it judges (R375). -/
inductive TabPlan where
  /-- Nothing: its entries are there. -/
  | go
  /-- Its entries are rebuilt, in the room it has. -/
  | build
  /-- Room is made by these spills, and then its entries are rebuilt or read from its spill area. -/
  | room (vs : List Nat)
  /-- The loop stops with this code. -/
  | stop (code : Nat)
deriving DecidableEq, Repr

/-- The judgement at the start of a step (R367, R375). -/
def State.judge (s : State) (cmd : Cmd) (l : Loop) (num : Nat) (t : Table) : TabPlan :=
  let make := if t.chunks = 0 then
      match s.makeRoom cmd.core cmd.team t.need (parseFmt t.afb).autospill num l.pendTabs cmd.reckon cmd.key with
      | none => .stop 0x23
      | some vs => .room vs
    else .build
  match t.asOf cmd.reckon cmd.key with
  | .valid => if t.lost then .build else .go
  | .free => .stop 0x21
  | .spilled => make
  | .stale => if (parseFmt l.fa).rebuild then make else .stop 0x21

/-- A table's entries as its spill area holds them (R377). -/
def State.spilledEntries (s : State) (cmd : Cmd) (num : Nat) (t : Table) : Map Word :=
  let bs := (s.spillPlaces cmd num).map s.byteAt
  ((List.range t.count).map (fun i => (i, BitVec.ofNat 32 (leNat ((bs.drop (4 * i)).take 4))))).filter (fun e => e.2 ≠ 0)

/-- A table of a TLOOK rebuilt: VALID, with its watch begun anew (R375). -/
def State.rebuilt (s : State) (id : Nat) (cmd : Cmd) (num : Nat) (t : Table) : State :=
  s.modTable cmd.team num (fun x => { x.become cmd.reckon cmd.key .valid with
    lost := false, entries := s.rebuildTable id cmd t
    staleAt := if x.asOf cmd.reckon cmd.key = x.st then none else x.staleAt })

/-- A step decides to make room: victims become SPILLED, the room is reserved, a SPILLED table becomes VALID, and the
victims' spill areas are owned from now on (R30, R371, R375). -/
def State.decideRoom (s : State) (id : Nat) (cmd : Cmd) (l : Loop) (num : Nat) (vs : List Nat) : State :=
  let fill := (s.table cmd.team num).any (fun t => t.asOf cmd.reckon cmd.key == .spilled)
  let s := s.markSpilled cmd.team vs cmd.reckon cmd.key
  let s := s.modTable cmd.team num (fun t =>
    { (if t.asOf cmd.reckon cmd.key = .spilled then t.become cmd.reckon cmd.key .valid else t) with chunks := t.need })
  let s := s.takeUnits id (ownedOf (vs.flatMap (s.spillPlaces cmd)))
  (s.rebuildReads id cmd vs).setLoop id { l with decided := some (fill, vs), victims := l.victims ++ vs }

/-- What a step decided is done once it owns the spill areas alone: spills, then the refill or the rebuild; a table that the
spills have marked STALE is judged again (R371, R375, R377). -/
def State.doRoom (s : State) (id : Nat) (cmd : Cmd) (l : Loop) (num : Nat) (fill : Bool) (vs : List Nat) :
    State :=
  let s := s.writeSpills id cmd vs
  let s := s.modCmd id (fun k => { k with owned := [] })
  let s := match s.table cmd.team num with
    | none => s
    | some t =>
      if fill then s.modTable cmd.team num (fun x => { x with lost := false, entries := s.spilledEntries cmd num t })
      else s.rebuilt id cmd num t
  s.setLoop id { l with decided := none }

/-- Code i of column n in step s (R373). -/
def State.codeOf (s : State) (id : Nat) (cmd : Cmd) (l : Loop) (f : Fmt) (st n i : Nat) : Nat :=
  let w := codeWidth f
  let a := l.codeAt st n
  (s.loopWbuf id cmd (a + i * w / 8)).toNat / 2 ^ (i * w % 8) % 2 ^ w

/-- The contribution of column n's block in step s to row m (R359): NaN, whatever the codes are, where the column's BSV
byte is (R360). -/
def State.lookCell (s : State) (id : Nat) (cmd : Cmd) (l : Loop) (f : Fmt) (t : Table) (es : Map Word) (p st : Nat)
    (codes : List Nat) (m n : Nat) : StepVal :=
  let blk := l.p0 / p + st
  let bsv := if t.codebook then .fin false 0 0 else fvalE4 (s.blockSpec id cmd f n blk)
  let terms := codes.zipIdx.map (fun e =>
    let v := fval (es.getD ((m * t.npos + (l.p0 + st * p + e.2)) * t.nent + e.1) 0)
    if ¬t.codebook ∧ e.1 = 8 then mulF v bsv else v)
  .f (toF32 .rn (if bsv.isNan then .nan else mulF (mulF (windowSum terms) (s.blockBs id cmd f n blk)) f.tval))

/-- One step of a TLOOK on a table that is ready (R375). -/
def State.lookStep (s : State) (id : Nat) (cmd : Cmd) (l : Loop) (t : Table) : State :=
  let f := parseFmt l.fa
  let p := stepCodes f t.g
  let st := l.progress
  let codes := (List.range l.ncol).map (fun n => (List.range p).map (fun i => s.codeOf id cmd l f st n i))
  if codes.any (fun cs => cs.any (fun x => decide (t.nent ≤ x))) then s.setLoop id { l with done := some (0x22, st) }
  else
    let es := t.entries
    let k0 := (s.core cmd.core).takeTile l.tile cmd.asid cmd.team
    let r := k0.accStep l.tile t.rows l.ncol (fun m n => s.lookCell id cmd l f t es p st (codes.getD n []) m n)
    let l1 : Loop := { l with progress := st + 1, done := if st + 1 = l.steps then some (0, 0) else none }
    { (s.modCore cmd.core (fun _ => r.1)).setLoop id l1 with fresh := s.fresh + 2 ^ 33 }

/-- A step from the judgement on (R375). A table that is gone stops the loop as STALE. -/
def State.tlookFrom (s : State) (id : Nat) (cmd : Cmd) (l : Loop) (num : Nat) : State :=
  match s.table cmd.team num with
  | none => s.setLoop id { l with done := some (0x21, l.progress) }
  | some t =>
    match s.judge cmd l num t with
    | .stop code => s.setLoop id { l with done := some (code, l.progress) }
    | .room vs => s.decideRoom id cmd l num vs
    | .go => s.lookStep id cmd l t
    | .build =>
      let s := s.rebuilt id cmd num t
      s.lookStep id cmd l ((s.table cmd.team num).getD t)

/-- TLOOK_STEP (R375): one step of a TLOOK whose turn it is in ACC order, or the part of it up to its decision on spills. -/
def execTlookStep (core idx : Nat) (s : State) : Result :=
  .next (match s.accTurn core idx with
  | some (id, cmd) =>
    (match cmd.work with
    | .loop l =>
      if l.op = .tlook ∧ l.done.isNone ∧ ¬s.stopped core then
        let s := s.modCore cmd.core (fun k => k.zeroFirst l cmd.asid cmd.team)
        let num := bits (l.w 4).toNat 0 6
        match l.decided with
        | none => s.tlookFrom id cmd l num
        | some (fill, vs) =>
          if s.spillBlocked id cmd vs then s
          else
            let l' := { l with decided := none }
            (s.doRoom id cmd l num fill vs).tlookFrom id cmd l' num
      else s
    | _ => s)
  | none => s)

/-- LOOP_COMPLETE (R344): a loop that has stopped or run to its end completes, in Reckoning mode at its key (R353). -/
def execLoopComplete (core idx : Nat) (s : State) : Result :=
  .next (match s.accTurn core idx with
  | some (id, cmd) =>
    (match cmd.work with
    | .loop l =>
      if l.done.isSome ∧ s.completable cmd then
        let written := if l.op = .mhad then hadPlaces cmd l else s.spilledPlaces cmd l.victims
        (s.completeLoop id cmd l written).drain core
      else s
    | _ => s)
  | none => s)

/-! ### TVAL, TSPILL, TFILL, TDROP (R376 to R378) -/

/-- A table-number source with bits 31:6 that are not 0 (R376). -/
def badNum (w : Word) : Bool := decide (64 ≤ w.toNat)

/-- TVAL (R377). -/
def execTval (d : Reg) (num : Reg) (g : Guard) (s : State) : Result :=
  issueSync (.tval d num g) s (fun c s =>
    let n := c.uni num
    if badNum n then trap c 0x0B s
    else (retire c (holdRegs c.gid (regCodes (d, 1)) (s.submit c [] (.tval n.toNat d)))).drain c.grp.core)

/-- TSPILL (R377, R378). -/
def execTspill (d : Reg) (num : Reg) (loc : Reg) (g : Guard) (s : State) : Result :=
  issueSync (.tspill d num loc g) s (fun c s =>
    let n := (c.uni num).toNat
    if badNum (c.uni num) then trap c 0x0B s
    else if ¬c.grp.fifo.isEmpty ∨ ¬s.tablesQuiet c.grp.core then s
    else
      match s.table c.grp.team n with
      | none => trap c 0x03 s
      | some t =>
        match locate c s (c.uni loc) (4 * t.count) 128 true with
        | .error t => takeTrap c t s
        | .ok p =>
          let go := fun (writes : Bool) (owned : List (Space × Nat × Nat)) (res : Word) (s : State) =>
            holdRegs c.gid (regCodes (d, 1)) (s.submit c owned (.tspill n writes d res))
          let s := match t.asOf c.reckon c.grp.key with
            | .valid =>
              let off := BitVec.ofNat 32 (p.2 - c.team.spadBase)
              let s := s.modTable c.grp.team n (fun t =>
                { t.become c.reckon c.grp.key .spilled with chunks := 0, octet := t.octet.set 6 off })
              let s := go true [(.spad p.1, p.2 / 32, (p.2 + 4 * t.count + 31) / 32)] 0 s
              if c.reckon then s.sourceAccess s.uid (spadPlaces c t.sourceOffsets) else s
            | .spilled => go false [] 0 s
            | _ => go false [] 0x21 s
          (retire c s).drain c.grp.core)

/-- TFILL (R377, R378). -/
def execTfill (d : Reg) (num : Reg) (g : Guard) (s : State) : Result :=
  issueSync (.tfill d num g) s (fun c s =>
    let n := (c.uni num).toNat
    if badNum (c.uni num) then trap c 0x0B s
    else if ¬c.grp.fifo.isEmpty ∨ ¬s.tablesQuiet c.grp.core then s
    else
      match s.table c.grp.team n with
      | none => trap c 0x03 s
      | some t =>
        let go := fun (fills : Bool) (vs : List Nat) (res : Word) (s : State) =>
          let s := holdRegs c.gid (regCodes (d, 1)) (s.submit c [] (.tfill n fills vs d res))
          let s := s.ownSpills s.uid vs
          if fills && c.reckon then s.sourceAccess s.uid (spadPlaces c (runOf (t.spill.getD 0) (4 * t.count))) else s
        let s := match t.asOf c.reckon c.grp.key with
          | .valid => go false [] 0 s
          | .spilled =>
            (match s.makeRoom c.grp.core c.grp.team t.need (parseFmt t.afb).autospill n (s.pendingTables c.grp.team) c.reckon
                c.grp.key with
            | none => go false [] 0x23 s
            | some vs =>
              go true vs 0 ((s.markSpilled c.grp.team vs c.reckon c.grp.key).modTable c.grp.team n (fun t =>
                { t.become c.reckon c.grp.key .valid with lost := false, chunks := t.need })))
          | _ => go false [] 0x21 s
        (retire c s).drain c.grp.core)

/-- TDROP (R377): a table, or with the zero register every table of the team, becomes FREE. -/
def execTdrop (num : Reg) (g : Guard) (s : State) : Result :=
  issueSync (.tdrop num g) s (fun c s =>
    if num ≠ .zero ∧ badNum (c.uni num) then trap c 0x0B s
    else if ¬s.tablesQuiet c.grp.core then s
    else retire c (s.modTeam c.grp.team (fun t =>
      { t with tables := if num = .zero then [] else t.tables.erase (c.uni num).toNat })))

end Sys2Proof.Machine
end

