-- ==== Sys2Proof/Machine/Chart.lean ====
section
/-! DEFINITION. The Chart engine's instructions (spec/10_chart.md R405 to R425) up to their acceptance, and the parts they
share with the events that carry them on: holds, sequence numbers, and SipHash-2-4. -/

namespace Sys2Proof.Machine

/-! ### Prefix hash (R405) -/

/-- One SipHash round. -/
def sipRound (v : DWord × DWord × DWord × DWord) : DWord × DWord × DWord × DWord :=
  let a := v.1 + v.2.1
  let b := v.2.1.rotateLeft 13 ^^^ a
  let a := a.rotateLeft 32
  let c := v.2.2.1 + v.2.2.2
  let d := v.2.2.2.rotateLeft 16 ^^^ c
  let a2 := a + d
  let d := d.rotateLeft 21 ^^^ a2
  let c2 := c + b
  let b := b.rotateLeft 17 ^^^ c2
  (a2, b, c2.rotateLeft 32, d)

/-- One 8-byte block of a message: two rounds. -/
def sipBlock (v : DWord × DWord × DWord × DWord) (m : DWord) : DWord × DWord × DWord × DWord :=
  let w := sipRound (sipRound (v.1, v.2.1, v.2.2.1, v.2.2.2 ^^^ m))
  (w.1 ^^^ m, w.2)

/-- SipHash-2-4 of a message (R405): its last block holds the remaining bytes and the length modulo 256. -/
def sipHash (key : BitVec 128) (msg : List Byte) : DWord :=
  let k0 := key.extractLsb' 0 64
  let k1 := key.extractLsb' 64 64
  let n := msg.length / 8
  let blocks := (List.range n).map (fun i => BitVec.ofNat 64 (leNat ((msg.drop (8 * i)).take 8))) ++
    [BitVec.ofNat 64 (leNat (msg.drop (8 * n)) + msg.length % 256 * 2 ^ 56)]
  let v := blocks.foldl sipBlock
    (k0 ^^^ 0x736F6D6570736575, k1 ^^^ 0x646F72616E646F6D, k0 ^^^ 0x6C7967656E657261, k1 ^^^ 0x7465646279746573)
  let w := sipRound (sipRound (sipRound (sipRound (v.1, v.2.1, v.2.2.1 ^^^ 0xFF, v.2.2.2))))
  w.1 ^^^ w.2.1 ^^^ w.2.2.1 ^^^ w.2.2.2

/-! ### Acceptance (R392, R393, R408, R409) -/

/-- A status code that is a fault (R408). -/
def isFault (code : Nat) : Bool := (statusCause code).isSome

/-- Requests and pages that a step waiting inside its acceptance holds back (R393, R417, R425). -/
def ChartOp.locks : ChartOp → List Nat × List Nat
  | .append a => if a.plan.isEmpty then ([a.handle], a.waitFor.toList) else ([], [])
  | .alloc h _ _ => ([h], [])
  | _ => ([], [])

/-- A Chart operation that still works on a request (R16, R468). -/
def ChartOp.names (op : ChartOp) (h : Nat) : Bool :=
  match op with
  | .gather a => a.ords.any (fun o => o.handle == h)
  | .append a => a.handle == h
  | .alloc j _ _ => j == h
  | .send x => x.handle == h
  | _ => false

/-- Some Chart command in flight still works on a request. -/
def State.chartNames (s : State) (h : Nat) : Bool :=
  s.cmds.any (fun e => match e.2.work with
    | .chart k => k.op.names h
    | _ => false)

/-- Some waiting acceptance step holds back operations on these requests or pages (R393). -/
def State.chartHeld (s : State) (hs ps : List Nat) : Bool :=
  s.cmds.any (fun e => match e.2.work with
    | .chart k => k.status.isNone && ((k.op.locks.1).any hs.contains || (k.op.locks.2).any ps.contains)
    | _ => false)

/-- The die of the issuing core, whose Chart engine takes the command (R20). -/
def Ctx.die (c : Ctx) : Nat := c.grp.core / 48

/-- A page outside the hold set of a Reckoning grid (R425). -/
def Ctx.outside (c : Ctx) (n : Nat) : Bool := c.reckon && !c.grid.holds.contains n

/-- A Chart command is accepted on its tag, its results pending; a page outside the hold set makes the group owe trap 0x06
(R22, R409, R425). The instruction retires. -/
def chartAccept (c : Ctx) (tag : Nat) (bar : Option Nat) (owned : List (Space × Nat × Nat)) (k : ChartCmd) (s : State) :
    State :=
  let s := s.accept c (some tag) bar (viewOf c s) owned (.chart k)
  let s := holdRegs c.gid (k.results.flatMap (fun r => regCodes (r.1, 1))) s
  match k.status, s.cmds.find? s.uid with
  | some w, some cmd => if statusCode w = 0x4D then s.owe s.uid cmd 3 0 0 w.toNat else s
  | _, _ => s

/-- A command whose whole work is done at acceptance: its status and results; all ones on a fault (R409). -/
def chartSettle (c : Ctx) (tag code : Nat) (results : List (Reg × Word)) (pins : List Nat) (s : State) : State :=
  let rs := if isFault code then results.map (fun r => (r.1, nullPage)) else results
  retire c (chartAccept c tag none [] { op := .settled, results := rs, status := some (statusWord 0 code), pins := pins } s)

/-- The value a result takes when the spec states none for a status that is no fault (assumption log 3). -/
def State.openResult (s : State) (c : Ctx) : Word :=
  if c.reckon then Config.keyed c.grp.key.1 c.grp.key.2 0 else Config.freeWord s.fresh

/-- A Chart command with these requests and pages issues: it waits for its tag, and behind a waiting acceptance step (R292,
R393). -/
def chartGate (c : Ctx) (tag : Nat) (hs ps : List Nat) (s : State) (go : State → State) : State :=
  if ¬s.tagFree c.grp.core tag ∨ s.chartHeld hs ps then s else go s

/-- A page found by number: status code when it cannot be used, in the order BADPAGE, NOTHELD, QUAR (R413, R420, R425). -/
def pageCode (c : Ctx) (s : State) (n : Nat) (quar : Bool) : Nat :=
  match s.livePage n c.grid.asid with
  | none => 0x43
  | some p => if c.outside n then 0x4D else if quar && decide (p.st = .quarantined) then 0x42 else 0

/-- The sequence number of a command for a page: that of the issuing die, or one of the page's die (R390). -/
def State.seqFor (s : State) (die : Nat) (own : Word) (n : Nat) : State × Word :=
  if pageDie n = die then (s, own) else s.takeSeq (pageDie n)

/-- A command that concerns pages of the other die too takes a value of that die's CSEQ as well, whatever it finds there
(R390). -/
def State.seqThere (s : State) (die : Nat) (pages : List Nat) : State :=
  match pages.find? (fun n => pageDie n ≠ die) with
  | some n => (s.takeSeq (pageDie n)).1
  | none => s

/-- A page joins the hold set of a Reckoning grid (R425). -/
def State.joinHold (s : State) (grid n : Nat) : State :=
  match s.grids.find? grid with
  | some g =>
    if g.record.reckon ∧ ¬g.holds.contains n then
      (s.modGrid grid (fun g => { g with holds := g.holds ++ [n] })).modPage n (fun p => { p with holds := p.holds + 1 })
    else s
  | none => s

/-- Allocations of a command join the waiters of a pool, which raises the target of R399 (R425). -/
def State.awaitFrames (s : State) (die pool id n : Nat) : State :=
  (s.modPool die pool (fun k => { k with waiters := k.waiters ++ List.replicate n (.alloc id) })).runEvict die pool

/-- The pool of a request's model on a die (R438). -/
def Model.pool (m : Model) (die : Nat) : Nat := if die = 0 then m.pool0 else m.pool1

/-- The PARENT of a page allocated at an entry (R420). -/
def State.parentAt (s : State) (h e maxpg : Nat) : Nat :=
  if e % maxpg = 0 then nullPage.toNat else (s.entry h (e - 1)).getD nullPage.toNat

/-- PGALLOC's allocation: the page is taken, installed and held, without R399 (R420). -/
def State.allocAt (s : State) (die grid h e : Nat) (m : Model) (mnum : Nat) (seq : Word) (pins : Nat) :
    Option (State × Nat) :=
  match s.allocPage die (m.pool die) h m.asid mnum (s.parentAt h e m.maxpg) m.tok m.rowb m.kvtype seq pins with
  | none => none
  | some (s, n) => ((s.install h e (some n)).map (fun s => (s.joinHold grid n, n)))

/-! ### KVGATH (R411 to R414) -/

/-- Page ordinals of a gather (R413). -/
def gatherOrds (tok : Nat) (maxpg : Nat) : Nat → List (List Word) → List GOrd
  | _, [] => []
  | t, e :: es =>
    let h := (e.getD 0 0).toNat
    let lg := (e.getD 1 0).toNat
    let start := (e.getD 2 0).toNat
    let cnt := (e.getD 3 0).toNat
    let first := start / tok
    let last := (start + cnt - 1) / tok
    (List.range (last + 1 - first)).map (fun k =>
      let slot := first + k
      let lo := max start (slot * tok)
      let hi := min (start + cnt) (slot * tok + tok)
      { handle := h, entry := if slot < maxpg then lg * maxpg + slot else nullPage.toNat, slot := lo % tok,
        count := hi - lo, tok := t + lo - start }) ++ gatherOrds tok maxpg (t + cnt) es

/-- The first token not yet delivered at an ordinal. -/
def Gather.tokenAt (g : Gather) (o total : Nat) : Nat := ((g.ords.drop o).head?.map (fun x => x.tok)).getD total

/-- Tokens of a gather. -/
def Gather.total (g : Gather) : Nat := g.ords.foldl (fun n o => max n (o.tok + o.count)) 0

/-- Where a gather has ended: code and ordinal; none while steps are left (R413, R424). -/
def Gather.over (g : Gather) : Option (Nat × Nat) :=
  match g.stop with
  | some x => some x
  | none =>
    match g.walk with
    | some (ps, some x) => if g.next = g.first + ps.length then some x else none
    | _ => if g.ords.length ≤ g.next then some (0, 0) else none

/-- What a page step meets before it pins a page (R413): a code, or the page. -/
def State.gatherCheck (s : State) (asid : Nat) (holds : Option (List Nat)) (o : GOrd) : Nat × Nat :=
  match s.entry o.handle o.entry with
  | none => (0x45, 0)
  | some n =>
    match s.livePage n asid with
    | none => (0x43, n)
    | some p =>
      if holds.any (fun hs => !hs.contains n) then (0x4D, n)
      else if p.st = .quarantined then (0x42, n)
      else if p.st ≠ .resident then (0x01, n)
      else if p.fill < o.slot + o.count then (0x45, n)
      else (0, n)

/-- LASTUSE and PINS of a page as a gather pins it (R413). -/
def State.gatherPin (s : State) (seqs : Map Word) (n : Nat) : State × Map Word :=
  let r : State × Map Word := match seqs.find? (pageDie n) with
    | some _ => (s, seqs)
    | none => let q := s.takeSeq (pageDie n); (q.1, seqs.set (pageDie n) q.2)
  (r.1.modPage n (fun p => { p with pins := p.pins + 1, lastUse := r.2.getD (pageDie n) 0 }), r.2)

/-- The whole walk of a gather in Reckoning mode (R424): pages pinned in order, and where it stops. -/
def State.gatherWalk (s : State) (asid : Nat) (holds : List Nat) (seqs : Map Word) :
    List GOrd → Nat → State × Map Word × List Nat × Option (Nat × Nat)
  | [], _ => (s, seqs, [], none)
  | o :: os, i =>
    match s.gatherCheck asid (some holds) o with
    | (0, n) =>
      let r := s.gatherPin seqs n
      let w := r.1.gatherWalk asid holds r.2 os (i + 1)
      (w.1, w.2.1, n :: w.2.2.1, w.2.2.2)
    | (code, _) => (s, seqs, [], some (code, i))

/-- The SPAD ranges that a gather owns: the rows of its tokens from one on (R412). -/
def gatherOwned (core base : Nat) (g : Gather) (from' total : Nat) : List (Space × Nat × Nat) :=
  let rows := fun (off w : Nat) => ((.spad core, (base + off + from' * w) / 32, (base + off + total * w + 31) / 32) :
    Space × Nat × Nat)
  if total ≤ from' then []
  else [rows g.kdst g.rowb, rows g.vdst g.rowb] ++ (match g.sdst with
    | some o => [rows o 2]
    | none => [])

/-- Acceptance of a gather whose list and model are good (R412, R424). -/
def acceptGather (c : Ctx) (tag : Nat) (bar : Option Nat) (g : Gather) (src : List (Place × DWord)) (s : State) : State :=
  let total := g.total
  let w : State × Map Word × Option (List Nat × Option (Nat × Nat)) := if c.reckon then
      let r := s.gatherWalk c.grid.asid c.grid.holds g.seqs (g.ords.drop g.first) g.first
      (r.1, r.2.1, some (r.2.2.1, r.2.2.2))
    else (s, g.seqs, none)
  let s := w.1
  let g := { g with seqs := w.2.1, walk := w.2.2 }
  let pins := match w.2.2 with
    | some x => x.1
    | none => []
  let s := chartAccept c tag bar (gatherOwned c.team.core c.team.spadBase g (g.tokenAt g.first total) total)
    { op := .gather g, results := [], status := none, pins := pins } s
  let s := match w.2.2, s.cmds.find? s.uid with
    | some (_, some (0x4D, o)), some cmd => s.owe s.uid cmd 3 0 0 (statusWord o 0x4D).toNat
    | _, _ => s
  retire c (if c.reckon then s.sourceAccess s.uid src else s)

/-- KVGATH at issue (R411, R412). -/
def startKvgath (fetch : Bool) (bar : Reg) (o : Fin 6) (tag : Nat) (c : Ctx) (s : State) : State :=
  let w := fun i => ((octetOf c o).getD i 0).toNat
  let spadb := s.spadb c.team
  let sd := if w 4 = nullPage.toNat then none else some (w 4)
  if w 6 ≠ 0 ∨ w 7 ≠ 0 ∨ w 1 = 0 ∨ 64 < w 1 then trap c 0x01 s
  else if spadb < w 0 + 16 * w 1 ∨ spadb ≤ w 2 ∨ spadb ≤ w 3 ∨ sd.any (fun x => decide (spadb ≤ x)) then trap c 0x03 s
  else if w 0 % 16 ≠ 0 ∨ w 2 % 32 ≠ 0 ∨ w 3 % 32 ≠ 0 ∨ sd.any (fun x => x % 2 != 0) then trap c 0x04 s
  else
    match (if bar = .zero then .ok none else (locate c s (c.uni bar) 16 16 true).map (fun p => some (p.2 - c.team.spadBase)) :
        Except Trap (Option Nat)) with
    | .error t => takeTrap c t s
    | .ok b =>
      if ¬c.grp.fifo.isEmpty then s
      else
        let bs := spadBytes c s (w 0) (16 * w 1)
        let es := (List.range (w 1)).map (fun i => (List.range 4).map (fun j =>
          BitVec.ofNat 32 (leNat ((bs.drop (16 * i + 4 * j)).take 4))))
        let hs := es.map (fun e => (e.getD 0 0).toNat)
        chartGate c tag hs [] s (fun s =>
          let q := s.takeSeq c.die
          let s := q.1
          let rs := hs.map (fun h => s.liveReq h c.grid.asid)
          let src := spadPlaces c (runOf (w 0) (16 * w 1))
          let refuse := fun (code : Nat) =>
            let s := chartSettle c tag code [] [] s
            if c.reckon then s.sourceAccess s.uid src else s
          if rs.any Option.isNone then refuse 0x44
          else
            match (rs.headD none).bind (fun r => (s.model? r.model).map (fun m => (r.model, m))) with
            | none => refuse 0x44
            | some (mnum, m) =>
              let total := es.foldl (fun n e => n + (e.getD 3 0).toNat) 0
              if rs.any (fun r => r.any (fun r => r.model != mnum)) ∨
                 es.any (fun e => decide (m.nlg ≤ (e.getD 1 0).toNat) || (e.getD 3 0).toNat == 0) ∨ 65535 < total ∨
                 (sd.isSome ∧ m.kvtype = 3) ∨ spadb < w 2 + total * m.rowb ∨ spadb < w 3 + total * m.rowb ∨
                 sd.any (fun x => decide (spadb < x + 2 * total)) then refuse 0x45
              else
                let g : Gather :=
                  { fetch := fetch, rowb := m.rowb, kdst := w 2, vdst := w 3, sdst := sd, first := w 5,
                    ords := gatherOrds m.tok m.maxpg 0 es, next := w 5, walk := none, seqs := [(c.die, q.2)],
                    stop := none, spoiled := [] }
                acceptGather c tag b g src s)

/-- KVGATH (R411). -/
def execKvgath (fetch : Bool) (bar : Reg) (o : Fin 6) (tag : Fin 64) (g : Guard) (s : State) : Result :=
  issueSync (.kvgath fetch bar o tag g) s (startKvgath fetch bar o tag.val)

/-! ### KVAPP (R415 to R417) -/

/-- Entries of the slots an append reaches: position by page slot (R416). -/
def Append.slots (a : Append) (tok : Nat) : List Nat :=
  (List.range ((a.pos + a.n - 1) / tok + 1 - a.pos / tok)).map (fun k => a.pos / tok + k)

/-- The page that an append starts in, if any. -/
def State.appendFirst (s : State) (a : Append) (m : Model) : Option Nat :=
  s.entry a.handle (a.lg * m.maxpg + a.pos / m.tok)

/-- Pages an append must allocate (R417). -/
def State.appendNeed (s : State) (a : Append) (m : Model) : Nat :=
  ((a.slots m.tok).filter (fun k => (s.entry a.handle (a.lg * m.maxpg + k)).isNone)).length +
    b2n ((s.appendFirst a m).any (fun n => (s.pages.find? n).any (fun p => decide (1 < p.refcnt))))

/-- The checks of R416 after the handle, in order: RANGE, then NOTHELD and QUAR of the first page. -/
def appendCode (c : Ctx) (s : State) (a : Append) (m : Model) : Nat :=
  let spadb := s.spadb c.team
  if a.n = 0 ∨ 4096 < a.n ∨ m.nlg ≤ a.lg ∨ m.maxpg ≤ (a.pos + a.n - 1) / m.tok ∨ spadb < a.ksrc + a.n * m.rowb ∨
     spadb < a.vsrc + a.n * m.rowb ∨ (a.ssrc.isNone ∧ m.kvtype ≠ 3) ∨ (a.ssrc.isSome ∧ m.kvtype = 3) ∨
     a.ssrc.any (fun o => decide (spadb < o + 2 * a.n)) then 0x45
  else
    let first := s.appendFirst a m
    if (first.isNone ∧ a.pos % m.tok ≠ 0) ∨
       first.any (fun n => (s.pages.find? n).any (fun p => p.fill != a.pos % m.tok)) ∨
       ((a.slots m.tok).drop 1).any (fun k => (s.entry a.handle (a.lg * m.maxpg + k)).isSome) then 0x45
    else
      match first with
      | none => 0
      | some n => pageCode c s n true

/-- Rows copied into a page by copy on write: FILL rows of K and V (R417). -/
def State.copyRows (s : State) (src dst : Nat) : State :=
  match s.pages.find? src, s.pages.find? dst with
  | some p, some q =>
    match p.frame, q.frame with
    | some f, some g =>
      let a := (s.pool (pageDie src) (pagePool src)).frameAddr f
      let b := (s.pool (pageDie dst) (pagePool dst)).frameAddr g
      (s.copyPayload p.asid a b (p.fill * p.rowb)).copyPayload p.asid (a + p.tok * p.rowb) (b + p.tok * p.rowb)
        (p.fill * p.rowb)
    | _, _ => s
  | _, _ => s

/-- Copy on write of a shared first page (R417). -/
def State.copyOnWrite (s : State) (die grid : Nat) (a : Append) (m : Model) (mnum n : Nat) (seq : Word) : State :=
  match s.pages.find? n with
  | none => s
  | some p =>
    match s.allocPage die (m.pool die) a.handle p.asid mnum p.parent p.tok p.rowb p.kvtype seq 0 with
    | none => s
    | some (s, q) =>
      let s := (s.modPlanes q (fun x => { x with
        fill := p.fill, model := p.model, scales := p.scales.filter (fun e => e.1 < 2 * p.fill) })).copyRows n q
      ((s.install a.handle (a.lg * m.maxpg + a.pos / m.tok) (some q)).getD s).joinHold grid q

/-- Copy on write reads the page it copies: the page with an uncorrectable error, if it has one (R403, R404, R417). -/
def State.appendRead (s : State) (a : Append) (m : Model) : State × Option Nat :=
  match s.appendFirst a m with
  | some n => if (s.pages.find? n).any (fun (p : Page) => decide (1 < p.refcnt)) then s.readPages [n] else (s, none)
  | none => (s, none)

/-- The acceptance step of an append once nothing is lacking (R417): copy on write, allocations, pins, then R399. The pages
it writes: page, first slot, rows, first row. -/
def State.appendPlan (s : State) (die grid : Nat) (a : Append) (m : Model) (mnum : Nat) (seq : Word) :
    State × List (Nat × Nat × Nat × Nat) :=
  let s := match s.appendFirst a m with
    | some n => if (s.pages.find? n).any (fun (p : Page) => decide (1 < p.refcnt)) then s.copyOnWrite die grid a m mnum n seq else s
    | none => s
  let s := (a.slots m.tok).foldl (fun s k =>
    let e := a.lg * m.maxpg + k
    if (s.entry a.handle e).isSome then s
    else match s.allocAt die grid a.handle e m mnum seq 0 with
      | some r => r.1
      | none => s) s
  let plan := (a.slots m.tok).map (fun k =>
    let lo := max a.pos (k * m.tok)
    let hi := min (a.pos + a.n) (k * m.tok + m.tok)
    ((s.entry a.handle (a.lg * m.maxpg + k)).getD 0, lo % m.tok, hi - lo, lo - a.pos))
  let s := plan.foldl (fun s e => s.pin e.1) s
  (s.runEvict die (m.pool die), plan)

/-- What an append waits for (R417, R425): the page to be RESIDENT, or frames and headers. -/
inductive Lack where
  | nothing
  | page (n : Nat)
  | room (need : Nat)
deriving DecidableEq, Repr

/-- What an append lacks now, with the free frames that no waiter before it takes (R400). -/
def State.appendLack (s : State) (die : Nat) (a : Append) (m : Model) (frames : Nat) : Lack :=
  let need := s.appendNeed a m
  if frames < need ∨ s.freeHeaders die (m.pool die) < need then .room need
  else
    match s.appendFirst a m with
    | some n => if (s.pages.find? n).any (fun p => decide (p.st = .resident)) then .nothing else .page n
    | none => .nothing

/-- KVAPP at issue (R415 to R417). -/
def startKvapp (o : Fin 6) (tag : Nat) (c : Ctx) (s : State) : State :=
  let w := fun i => ((octetOf c o).getD i 0).toNat
  let spadb := s.spadb c.team
  let ss := if w 6 = nullPage.toNat then none else some (w 6)
  if 65536 ≤ w 1 ∨ w 7 ≠ 0 then trap c 0x01 s
  else if spadb ≤ w 4 ∨ spadb ≤ w 5 ∨ ss.any (fun x => decide (spadb ≤ x)) then trap c 0x03 s
  else if w 4 % 32 ≠ 0 ∨ w 5 % 32 ≠ 0 then trap c 0x04 s
  else if ¬c.grp.fifo.isEmpty then s
  else
    chartGate c tag [w 0] [] s (fun s0 =>
      let q := s0.takeSeq c.die
      let s := q.1
      match s.liveReq (w 0) c.grid.asid with
      | none => chartSettle c tag 0x44 [] [] s
      | some r =>
        match s.model? r.model with
        | none => chartSettle c tag 0x44 [] [] s
        | some m =>
          let a : Append := { handle := w 0, lg := w 1, pos := w 2, n := w 3, ksrc := w 4, vsrc := w 5, ssrc := ss,
                              waitFor := none, starter := false, seq := q.2, there := q.2, plan := [], next := 0 }
          let first := (s.appendFirst a m).toList
          let f := match first with
            | n :: _ => s.seqFor c.die q.2 n
            | [] => (s, q.2)
          let s := f.1
          let a := { a with there := f.2 }
          let code := appendCode c s a m
          if s.chartHeld [] first then s0
          else if code ≠ 0 then chartSettle c tag code [] [] s
          else
            let src := spadPlaces c (runOf a.ksrc (a.n * m.rowb) ++ runOf a.vsrc (a.n * m.rowb) ++
              (match ss with
              | some x => runOf x (2 * a.n)
              | none => []))
            let go := fun (k : ChartCmd) (s : State) =>
              let s := chartAccept c tag none [] k s
              retire c (if c.reckon then s.sourceAccess s.uid src else s)
            match s.appendLack c.die a m (s.pool c.die (m.pool c.die)).spare with
            | .nothing =>
              let x := s.appendRead a m
              (match x.2 with
              | some n => chartSettle c tag 0x41 [] [] (x.1.quarantine n)
              | none =>
                let p := x.1.appendPlan c.die c.team.grid a m r.model q.2
                go { op := .append { a with plan := p.2 }, results := [], status := none, pins := p.2.map Prod.fst } p.1)
            | .page n =>
              let starter := (s.pages.find? n).any (fun p => decide (p.st = .capacity))
              go { op := .append { a with waitFor := some n, starter := starter }, results := [], status := none, pins := [] }
                (s.startFetch n a.there)
            | .room need =>
              if c.reckon then
                let s := go { op := .append a, results := [], status := none, pins := [] } s
                s.awaitFrames c.die (m.pool c.die) s.uid need
              else chartSettle c tag 0x40 [] [] s)

/-- KVAPP (R415). -/
def execKvapp (o : Fin 6) (tag : Fin 64) (g : Guard) (s : State) : Result :=
  issueSync (.kvapp o tag g) s (startKvapp o tag.val)

/-! ### Page operations (R419, R420) -/

/-- PGALLOC at issue (R420). -/
def startPgalloc (d req idx : Reg) (tag : Nat) (c : Ctx) (s : State) : State :=
  let h := (c.uni req).toNat
  let e := (c.uni idx).toNat
  let old := (s.entry h e).toList
  chartGate c tag [h] old s (fun s =>
    let q := s.takeSeq c.die
    let s := q.1.seqThere c.die old
    match s.liveReq h c.grid.asid with
    | none => chartSettle c tag 0x44 [(d, 0)] [] s
    | some r =>
      match s.model? r.model with
      | none => chartSettle c tag 0x44 [(d, 0)] [] s
      | some m =>
        let pool := m.pool c.die
        if m.nlg * m.maxpg ≤ e then chartSettle c tag 0x45 [(d, 0)] [] s
        else if (s.pool c.die pool).spare = 0 ∨ s.freeHeaders c.die pool = 0 then
          if c.reckon then
            let s := retire c (chartAccept c tag none []
              { op := .alloc h e q.2, results := [(d, 0)], status := none, pins := [] } s)
            s.awaitFrames c.die pool s.uid 1
          else chartSettle c tag 0x40 [(d, 0)] [] s
        else
          match s.allocAt c.die c.team.grid h e m r.model q.2 1 with
          | none => chartSettle c tag 0x40 [(d, 0)] [] s
          | some (s, n) =>
            chartSettle c tag 0 [(d, BitVec.ofNat 32 n)] [n] (s.runEvict c.die pool))

/-- PGALLOC (R420). -/
def execPgalloc (d req idx : Reg) (tag : Fin 64) (g : Guard) (s : State) : Result :=
  issueSync (.pgalloc d req idx tag g) s (startPgalloc d req idx tag.val)

/-- A form of PGREF on a page: what it does to a page that its checks let through, with its result (R420). -/
def startPgref (d page : Reg) (tag : Nat) (quar : Bool) (f : Nat → Page → State → Except Nat (State × Word)) (c : Ctx)
    (s : State) : State :=
  let n := (c.uni page).toNat
  chartGate c tag [] [n] s (fun s =>
    let q := s.takeSeq c.die
    let s := (q.1.seqFor c.die q.2 n).1
    match pageCode c s n quar, s.pages.find? n with
    | 0, some p =>
      (match f n p s with
      | .error k => chartSettle c tag k [(d, 0)] [] s
      | .ok (s, w) => chartSettle c tag 0 [(d, w)] [] s)
    | k, _ => chartSettle c tag k [(d, 0)] [] s)

/-- PGREF.Q (R420): bits 31:0 of the header. -/
def execPgrefQ (d page : Reg) (tag : Fin 64) (g : Guard) (s : State) : Result :=
  issueSync (.pgrefQ d page tag g) s (startPgref d page tag.val false (fun _ p s => .ok (s, BitVec.ofNat 32 p.low)))

/-- PGREF.QF (R420): bits 63:32 of the header. -/
def execPgrefQf (d page : Reg) (tag : Fin 64) (g : Guard) (s : State) : Result :=
  issueSync (.pgrefQf d page tag g) s (startPgref d page tag.val false (fun _ p s =>
    .ok (s, BitVec.ofNat 32 (p.low / 2 ^ 32))))

/-- PGREF.INC (R396, R420). -/
def execPgrefInc (d page : Reg) (tag : Fin 64) (g : Guard) (s : State) : Result :=
  issueSync (.pgrefInc d page tag g) s (startPgref d page tag.val true (fun n p s =>
    if 65535 ≤ p.refcnt ∨ 65535 ≤ p.xref then .error 0x46
    else .ok (s.modPage n (fun p => { p with refcnt := p.refcnt + 1, xref := p.xref + 1 }), BitVec.ofNat 32 (p.refcnt + 1))))

/-- PGREF.DEC (R391, R396, R420). -/
def execPgrefDec (d page : Reg) (tag : Fin 64) (g : Guard) (s : State) : Result :=
  issueSync (.pgrefDec d page tag g) s (startPgref d page tag.val true (fun n p s =>
    if p.xref = 0 then .error 0x45
    else .ok ((s.modPage n (fun p => { p with xref := p.xref - 1 })).decRef n, BitVec.ofNat 32 (p.refcnt - 1))))

/-- PGFETCH at issue (R400, R420). -/
def startPgfetch (page : Reg) (tag : Nat) (c : Ctx) (s : State) : State :=
  let n := (c.uni page).toNat
  chartGate c tag [] [n] s (fun s =>
    let q := s.takeSeq c.die
    let f := q.1.seqFor c.die q.2 n
    let s := f.1
    match pageCode c s n true, s.pages.find? n with
    | 0, some p =>
      let go := fun (starter : Bool) (s : State) =>
        retire c (chartAccept c tag none [] { op := .fetch n starter f.2, results := [], status := none, pins := [] } s)
      (match p.st with
      | .resident => chartSettle c tag 0 [] [] s
      | .capacity => go true (s.startFetch n f.2)
      | _ => go false s)
    | k, _ => chartSettle c tag k [] [] s)

/-- PGFETCH (R420). -/
def execPgfetch (page : Reg) (tag : Fin 64) (g : Guard) (s : State) : Result :=
  issueSync (.pgfetch page tag g) s (startPgfetch page tag.val)

/-- A request and an index of its block table: their status code, else the request (R408, R419). -/
def entryCode (c : Ctx) (s : State) (h e : Nat) : Nat :=
  match s.liveReq h c.grid.asid with
  | none => 0x44
  | some r => if (s.model? r.model).any (fun m => decide (m.nlg * m.maxpg ≤ e)) then 0x45 else 0

/-- An entry as a word. -/
def State.entryWord (s : State) (h e : Nat) : Word := BitVec.ofNat 32 ((s.entry h e).getD nullPage.toNat)

/-- BTSET (R396, R420). -/
def execBtset (d req idx page : Reg) (tag : Fin 64) (g : Guard) (s : State) : Result :=
  issueSync (.btset d req idx page tag g) s (fun c s =>
    let h := (c.uni req).toNat
    let e := (c.uni idx).toNat
    let n := (c.uni page).toNat
    let new := if c.uni page = nullPage then none else some n
    let pages := new.toList ++ (s.entry h e).toList
    chartGate c tag.val [h] pages s (fun s =>
      let s := ((s.takeSeq c.die).1).seqThere c.die pages
      let code := if entryCode c s h e ≠ 0 then entryCode c s h e else if new.isSome then pageCode c s n true else 0
      if code ≠ 0 then chartSettle c tag.val code [(d, 0)] [] s
      else
        match s.install h e new with
        | none => chartSettle c tag.val 0x46 [(d, 0)] [] s
        | some s1 => chartSettle c tag.val 0 [(d, s.entryWord h e)] [] s1))

/-- BTGET (R420). -/
def execBtget (d req idx : Reg) (tag : Fin 64) (g : Guard) (s : State) : Result :=
  issueSync (.btget d req idx tag g) s (fun c s =>
    let h := (c.uni req).toNat
    let e := (c.uni idx).toNat
    chartGate c tag.val [h] [] s (fun s =>
      let s := (s.takeSeq c.die).1
      let code := entryCode c s h e
      chartSettle c tag.val code [(d, s.entryWord h e)] [] s))

/-! ### Prefix operations (R405 to R407, R422, R423) -/

/-- A model of the issuer's ASID (R438; assumption log 30). -/
def ownModel (c : Ctx) (s : State) (n : Nat) : Option Model := (s.model? n).filter (fun m => m.asid = c.grid.asid)

/-- PFXH (R405, R423). -/
def execPfxh (d : Fin 24) (ids : Reg) (par : Fin 24) (mdl : Reg) (tag : Fin 64) (g : Guard) (s : State) : Result :=
  issueSync (.pfxh d ids par mdl tag g) s (fun c s =>
    let off := (c.uni ids).toNat
    let out := fun (h : DWord) => [((.s (pairLo d) : Reg), h.extractLsb' 0 32), ((.s (pairHi d) : Reg), h.extractLsb' 32 32)]
    if s.spadb c.team ≤ off then trap c 0x03 s
    else if off % 4 ≠ 0 then trap c 0x04 s
    else if ¬c.grp.fifo.isEmpty then s
    else
      chartGate c tag.val [] [] s (fun s =>
        let s := (s.takeSeq c.die).1
        match ownModel c s (c.uni mdl).toNat with
        | none => chartSettle c tag.val 0x45 (out 0) [] s
        | some m =>
          if s.spadb c.team < off + 4 * m.tok then chartSettle c tag.val 0x45 (out 0) [] s
          else
            let key := (s.chart c.die).keys.getD c.grid.asid 0
            let msg := leBytes 8 (readPair c.grp par).toNat ++ spadBytes c s off (4 * m.tok) ++ leBytes 8 m.salt.toNat
            let s := chartSettle c tag.val 0 (out (sipHash key msg)) [] s
            if c.reckon then s.sourceAccess s.uid (spadPlaces c (runOf off (4 * m.tok))) else s))

/-- The key block at a SPAD offset (R406): hash, parent, model word, ids. -/
def keyBlock (c : Ctx) (s : State) (off tok : Nat) : DWord × Nat × Nat × List Word :=
  let bs := spadBytes c s off (16 + 4 * tok)
  (BitVec.ofNat 64 (leNat (bs.take 8)), leNat ((bs.drop 8).take 4), leNat ((bs.drop 12).take 4),
    (List.range tok).map (fun i => BitVec.ofNat 32 (leNat ((bs.drop (16 + 4 * i)).take 4))))

/-- A page carries the full tag of a key block (R407). -/
def Page.tagged (p : Page) (asid : Nat) (k : DWord × Nat × Nat × List Word) : Bool :=
  p.phash == k.1 && p.parent == k.2.1 && p.model == k.2.2.1 && p.asid == asid &&
    (List.range p.tok).all (fun i => p.ids.getD i 0 == k.2.2.2.getD i 0)

/-- The lowest way of a bucket that matches (R407). -/
def State.hashFind (s : State) (die asid : Nat) (k : DWord × Nat × Nat × List Word) : Option Nat :=
  let b := k.1.toNat % 131072
  ((List.range 8).filterMap (fun w => (s.chart die).hash.find? (b * 8 + w))).find? (fun n =>
    (s.pages.find? n).any (fun p => p.tagged asid k))

/-- A key-block operand of TOK ids (R406, R422): a trap, a status code, or its contents. -/
def keyOperand (c : Ctx) (s : State) (off : Nat) : Except Nat (Option (Model × (DWord × Nat × Nat × List Word))) :=
  if s.spadb c.team ≤ off then .error 0x03
  else if off % 16 ≠ 0 then .error 0x04
  else if s.spadb c.team < off + 16 then .ok none
  else
    match ownModel c s (keyBlock c s off 0).2.2.1 with
    | none => .ok none
    | some m => if s.spadb c.team < off + 16 + 4 * m.tok then .ok none else .ok (some (m, keyBlock c s off m.tok))

/-- PFXLOOK (R407, R423, R425). -/
def execPfxlook (d key req idx : Reg) (tag : Fin 64) (g : Guard) (s : State) : Result :=
  issueSync (.pfxlook d key req idx tag g) s (fun c s =>
    let off := (c.uni key).toNat
    let h := (c.uni req).toNat
    let e := (c.uni idx).toNat
    match keyOperand c s off with
    | .error k => trap c k s
    | .ok kb =>
      if ¬c.grp.fifo.isEmpty then s
      else
        let old := (s.entry h e).toList
        chartGate c tag.val [h] ((match kb with
            | some (_, k) => (s.hashFind c.die c.grid.asid k).toList
            | none => []) ++ old) s (fun s =>
          let s := ((s.takeSeq c.die).1).seqThere c.die old
          let src := fun (n : Nat) (s : State) => if c.reckon then s.sourceAccess s.uid (spadPlaces c (runOf off n)) else s
          match entryCode c s h e, kb with
          | 0, some (m, k) =>
            (match s.hashFind c.die c.grid.asid k with
            | none => src (16 + 4 * m.tok) (chartSettle c tag.val 0x49 [(d, nullPage)] [] s)
            | some n =>
              if c.outside n then src (16 + 4 * m.tok) (chartSettle c tag.val 0x49 [(d, nullPage)] [] s)
              else if (s.pages.find? n).any (fun p => decide (p.st = .quarantined)) then
                src (16 + 4 * m.tok) (chartSettle c tag.val 0x42 [(d, 0)] [] s)
              else
                match s.install h e (some n) with
                | none => src (16 + 4 * m.tok) (chartSettle c tag.val 0x46 [(d, 0)] [] s)
                | some s => src (16 + 4 * m.tok) (chartSettle c tag.val 0 [(d, BitVec.ofNat 32 n)] [] s))
          | 0, none => chartSettle c tag.val 0x45 [(d, 0)] [] s
          | code, _ => chartSettle c tag.val code [(d, 0)] [] s))

/-- The ways of a bucket. -/
def bucketWays (h : DWord) : List Nat :=
  (List.range 8).map (fun w => h.toNat % 131072 * 8 + w)

/-- PFXINS (R423). The entry goes to the lowest free way (assumption log 30). -/
def execPfxins (d key page : Reg) (tag : Fin 64) (g : Guard) (s : State) : Result :=
  issueSync (.pfxins d key page tag g) s (fun c s =>
    let off := (c.uni key).toNat
    let n := (c.uni page).toNat
    match keyOperand c s off with
    | .error k => trap c k s
    | .ok kb =>
      if ¬c.grp.fifo.isEmpty then s
      else
        chartGate c tag.val [] [n] s (fun s =>
          let q := s.takeSeq c.die
          let s := (q.1.seqFor c.die q.2 n).1
          let die := pageDie n
          match kb, pageCode c s n true, s.pages.find? n with
          | none, _, _ => chartSettle c tag.val 0x45 [(d, 0)] [] s
          | some (m, k), 0, some p =>
            let src := fun (s : State) =>
              if c.reckon then s.sourceAccess s.uid (spadPlaces c (runOf off (16 + 4 * m.tok))) else s
            if p.fill < p.tok ∨ p.inserted then src (chartSettle c tag.val 0x4A [(d, 0)] [] s)
            else
              (match s.hashFind die c.grid.asid k with
              | some o => src (chartSettle c tag.val 0x48 [(d, BitVec.ofNat 32 o)] [] s)
              | none =>
                match (bucketWays k.1).find? (fun w => ((s.chart die).hash.find? w).isNone) with
                | none => src (chartSettle c tag.val 0x47 [(d, s.openResult c)] [] s.bump)
                | some w =>
                  if 65535 ≤ p.refcnt then src (chartSettle c tag.val 0x46 [(d, 0)] [] s)
                  else
                    let s := s.modPlanes n (fun p =>
                      { p with ids := (k.2.2.2.zipIdx).foldl (fun m e => m.put 0 e.2 e.1) [],
                               phash := k.1, parent := k.2.1, inserted := true, refcnt := p.refcnt + 1 })
                    let s := s.modChart die (fun x => { x with hash := x.hash.set w n })
                    src (chartSettle c tag.val 0 [(d, BitVec.ofNat 32 n)] [] s))
          | some _, code, _ => chartSettle c tag.val code [(d, 0)] [] s))

/-- PFXINS.DEL (R391, R408, R423). -/
def execPfxinsDel (d page : Reg) (tag : Fin 64) (g : Guard) (s : State) : Result :=
  issueSync (.pfxinsDel d page tag g) s (fun c s =>
    let n := (c.uni page).toNat
    chartGate c tag.val [] [n] s (fun s =>
      let q := s.takeSeq c.die
      let s := (q.1.seqFor c.die q.2 n).1
      match pageCode c s n true, s.pages.find? n with
      | 0, some p =>
        if ¬p.inserted then chartSettle c tag.val 0x49 [(d, s.openResult c)] [] s.bump
        else if 0 < p.holds then chartSettle c tag.val 0x4B [(d, s.openResult c)] [] s.bump
        else
          let w := s.openResult c
          let s := s.bump
          let s := s.modChart (pageDie n) (fun x => { x with hash := x.hash.filter (fun e => e.2 ≠ n) })
          let s := (s.modPage n (fun p => { p with inserted := false, phash := 0 })).decRef n
          chartSettle c tag.val 0 [(d, w)] [] s
      | code, _ => chartSettle c tag.val code [(d, 0)] [] s))

/-! ### KVSEND (R421) -/

/-- The CSEQ of one command on every die that holds one of some pages, each taken once (R390). -/
def State.seqsFor (s : State) (die : Nat) (seq : Word) (pages : List Nat) : State × Map Word :=
  pages.foldl (fun (x : State × Map Word) n =>
    match x.2.find? (pageDie n) with
    | some _ => x
    | none => let t := x.1.takeSeq (pageDie n); (t.1, x.2.set (pageDie n) t.2)) (s, [(die, seq)])

/-- Fetches of the CAPACITY pages among some start, for one command (R390, R400, R421); the pages whose fetch starts. -/
def State.fetchPages (s : State) (seqs : Map Word) (pages : List Nat) : State × List Nat :=
  pages.foldl (fun (x : State × List Nat) n =>
    if (x.1.pages.find? n).any (fun p => decide (p.st = .capacity)) then
      (x.1.startFetch n (seqs.getD (pageDie n) 0), n :: x.2)
    else x) (s, [])

/-- KVSEND at issue: the pages named by the block table are pinned, and fetched where they are in the capacity tier. -/
def startKvsend (req dest rreq : Reg) (tag : Nat) (c : Ctx) (s : State) : State :=
  let h := (c.uni req).toNat
  let pages := match s.requests.find? h with
    | some r => (r.bt.map Prod.snd).dedup
    | none => []
  chartGate c tag [h] pages s (fun s =>
    let q := s.takeSeq c.die
    let q := q.1.seqsFor c.die q.2 pages
    let s := q.1
    if 65536 ≤ (c.uni dest).toNat then chartSettle c tag 0x45 [] [] s
    else if (s.liveReq h c.grid.asid).isNone then chartSettle c tag 0x44 [] [] s
    else
      match (pages.map (fun n => pageCode c s n true)).find? (fun k => k ≠ 0) with
      | some k => chartSettle c tag k [] [] s
      | none =>
        let s := pages.foldl (fun s n => s.pin n) s
        let f := s.fetchPages q.2 pages
        retire c (chartAccept c tag none []
          { op := .send { handle := h, dest := (c.uni dest).toNat, rreq := (c.uni rreq).toNat, seqs := q.2, started := f.2,
                          acks := none, recorded := false },
            results := [], status := none, pins := pages } f.1))

/-- KVSEND (R421). -/
def execKvsend (req dest rreq : Reg) (tag : Fin 64) (g : Guard) (s : State) : Result :=
  issueSync (.kvsend req dest rreq tag g) s (startKvsend req dest rreq tag.val)

end Sys2Proof.Machine
end

