-- ==== Sys2Proof/Machine/ChartEvents.lean ====
section
/-! DEFINITION. The Chart engine at work (spec/10_chart.md R384, R387, R398 to R404, R413 to R417, R425): page steps of a
gather, the completion of Chart commands, the ends of evictions and fetches, the background read, and CHCFG. -/

namespace Sys2Proof.Machine

/-- A Chart command in flight changed. -/
def State.putChart (s : State) (id : Nat) (k : ChartCmd) : State := s.modCmd id (fun c => { c with work := .chart k })

/-- The issuing team's SPAD as a command sees it: core and first byte. -/
def Cmd.own (cmd : Cmd) : Nat × Nat :=
  match memberIn cmd.view 15 with
  | some m => (m.core, m.base)
  | none => (cmd.core, 0)

/-- A Chart command completes: its pins end, its results land, all ones with a fault, and its tag is READY (R398, R408,
R409). -/
def finishChart (id : Nat) (cmd : Cmd) (k : ChartCmd) (status : Word) (written : List (Place × DWord)) (s : State) : State :=
  let s := k.pins.foldl (fun s n => s.unpin n) s
  let all := isFault (statusCode status) || statusCode status == 0x13
  let s := k.results.foldl (fun s r => landReg cmd r.1 (fun _ => if all then nullPage else r.2) s) s
  s.complete id cmd status written

/-! ### KVGATH (R413, R414) -/

/-- A destination range of a gather: its first byte and its width per token. -/
def Gather.spans (g : Gather) : List (Nat × Nat) :=
  [(g.kdst, g.rowb), (g.vdst, g.rowb)] ++ (match g.sdst with
  | some o => [(o, 2)]
  | none => [])

/-- Sectors of a destination range, whose gathered bytes are [first, last), that are done once the bytes below `hi` are
there are released, with their bytes counted (R27, R414). -/
def State.freeSectors (s : State) (id : Nat) (cmd : Cmd) (core first last lo hi : Nat) : State :=
  ((List.range (hi / 32 + 1 - lo / 32)).map (fun k => lo / 32 + k)).foldl (fun s u =>
    let e := min last (32 * (u + 1))
    if lo < e ∧ e ≤ hi then
      (s.modCmd id (fun c => { c with owned := dropUnit (.spad core, u) c.owned })).countFor id cmd
        (cmd.objectFor false (.spad core, 32 * u)) (e - max first (32 * u))
    else s) s

/-- Bytes of a page's rows, by plane: K rows, V rows, scales (R386). -/
def State.pageBytes (s : State) (n : Nat) (p : Page) (slot count : Nat) : List (List Byte) :=
  let a := (s.pool (pageDie n) (pagePool n)).frameAddr (p.frame.getD 0)
  [s.physBytes (a + slot * p.rowb) (count * p.rowb), s.physBytes (a + (p.tok + slot) * p.rowb) (count * p.rowb),
   (List.range (2 * count)).map (fun i => p.scales.getD (2 * slot + i) 0)]

/-- The lines of a page's frame that a read of some slots touches, under the key of its ASID (R517). -/
def State.touchPage (s : State) (n : Nat) (p : Page) (slot count : Nat) : State :=
  let a := (s.pool (pageDie n) (pagePool n)).frameAddr (p.frame.getD 0)
  s.touchPlaces none (s.asidTag p.asid) ((List.range (count * p.rowb)).flatMap (fun i =>
    [((.global, a + slot * p.rowb + i) : Place), (.global, a + (p.tok + slot) * p.rowb + i)]))

/-- The bytes of an ordinal, as places of the destination. -/
def gatherBytes (g : Gather) (core base : Nat) (o : GOrd) (planes : List (List Byte)) : List (Place × Byte) :=
  (g.spans.zip planes).flatMap (fun e => e.2.zipIdx.map (fun b =>
    (((.spad core, base + e.1.1 + o.tok * e.1.2 + b.2) : Place), b.1)))

/-- An ordinal delivered: written, released and counted (R414). -/
def deliverOrd (id : Nat) (cmd : Cmd) (g : Gather) (o : GOrd) (ws : List (Place × Byte)) (s : State) : State :=
  let at' := cmd.own
  let t0 := g.tokenAt g.first g.total
  g.spans.foldl (fun s e =>
    let b := at'.2 + e.1
    s.freeSectors id cmd at'.1 (b + t0 * e.2) (b + g.total * e.2) (b + o.tok * e.2) (b + (o.tok + o.count) * e.2))
    (s.engineWrite id cmd ws)

/-- A copy that met an uncorrectable error: the page is QUARANTINED, the gather stops with DATAERR, and each sector of the
ordinal holds its prior contents or the page's data, which is open (R404, R414; assumption log 3). -/
def spoilOrd (id : Nat) (cmd : Cmd) (k : ChartCmd) (g : Gather) (n : Nat) (ws : List (Place × Byte)) (s : State) : State :=
  let us := (ws.map (fun w => unitOf w.1)).dedup
  let keep := us.zipIdx.filter (fun e => Config.freeBool (s.fresh + e.2))
  let s := { s with fresh := s.fresh + us.length }
  let kept := ws.filter (fun w => keep.any (fun e => e.1 = unitOf w.1))
  let s := s.engineWrite id cmd kept
  (s.putChart id { k with op := .gather { g with stop := some (0x41, g.next), spoiled := kept.map Prod.fst } }).quarantine n

/-- The copy of an ordinal from its pinned page, and the end of that pin (R403, R413). -/
def copyOrd (id : Nat) (cmd : Cmd) (k : ChartCmd) (g : Gather) (o : GOrd) (n : Nat) (err : PageError) (s : State) : State :=
  match s.pages.find? n with
  | none => s
  | some p =>
    let ws := gatherBytes g cmd.own.1 cmd.own.2 o (s.pageBytes n p o.slot o.count)
    let s := s.touchPage n p o.slot o.count
    let e := s.payloadError n err
    let k := { k with pins := k.pins.erase n }
    if e.2 then (spoilOrd id cmd k g n ws e.1).unpin n
    else
      let s := e.1.putChart id { k with op := .gather { g with next := g.next + 1 } }
      (deliverOrd id cmd g o ws s).unpin n

/-- The sectors of an ordinal that an earlier command still owns (R33). -/
def State.ordBlocked (s : State) (id : Nat) (cmd : Cmd) (g : Gather) (o : GOrd) : Bool :=
  g.spans.any (fun e =>
    let lo := cmd.own.2 + e.1 + o.tok * e.2
    ((List.range ((lo + o.count * e.2 + 31) / 32 - lo / 32)).map (fun i => lo / 32 + i)).any (fun u =>
      s.ownedBefore id (.spad cmd.own.1, u)))

/-- A gather's step at its next ordinal (R413); in Reckoning mode the walk has been made, and only the copy is left
(R424). -/
def gatherStep (id : Nat) (cmd : Cmd) (k : ChartCmd) (g : Gather) (err : PageError) (s : State) : State :=
  match g.ords[g.next]? with
  | none => s
  | some o =>
    if g.stop.isSome ∨ s.ordBlocked id cmd g o then s
    else
      match g.walk with
      | some w =>
        (match w.1[g.next - g.first]? with
        | some n => copyOrd id cmd k g o n err s
        | none => s)
      | none =>
        if s.chartHeld [o.handle] ((s.entry o.handle o.entry).toList) then s
        else
          match s.gatherCheck cmd.asid none o with
          | (0, n) =>
            let r := s.gatherPin g.seqs n
            copyOrd id cmd k { g with seqs := r.2 } o n err r.1
          | (code, _) => s.putChart id { k with op := .gather { g with stop := some (code, g.next) } }

/-- KVGATH_PAGE_STEP (R413). -/
def execKvgathPageStep (cmd : Nat) (err : PageError) (s : State) : Result :=
  .next (match s.cmds.find? cmd with
  | none => s
  | some c =>
    match c.work with
    | .chart k =>
      (match k.op with
      | .gather g => if s.gridOver c then s else gatherStep cmd c k g err s
      | _ => s)
    | _ => s)

/-- The bytes a gather has written, from its first ordinal to the one it ended at, and those of an ordinal that met an error
(R212, R414). -/
def gatherWritten (cmd : Cmd) (g : Gather) : List (Place × DWord) :=
  let t0 := g.tokenAt g.first g.total
  let t1 := g.tokenAt g.next g.total
  reported cmd (g.spans.flatMap (fun e => (runOf (e.1 + t0 * e.2) ((t1 - t0) * e.2)).map (fun o =>
    ((.spad cmd.own.1, cmd.own.2 + o) : Place))) ++ g.spoiled)

/-- Bytes delivered in sectors that are released only now (R28, R414). -/
def countRest (id : Nat) (cmd : Cmd) (g : Gather) (s : State) : State :=
  let t0 := g.tokenAt g.first g.total
  let t1 := g.tokenAt g.next g.total
  g.spans.foldl (fun s e =>
    let lo := cmd.own.2 + e.1 + t0 * e.2
    let hi := cmd.own.2 + e.1 + t1 * e.2
    let last := cmd.own.2 + e.1 + g.total * e.2
    if hi % 32 = 0 ∨ hi = last then s
    else s.countFor id cmd (cmd.objectFor false (.spad cmd.own.1, hi)) (hi - max lo (hi / 32 * 32))) s

/-- .FETCH after PARTIAL: the CAPACITY pages of the ordinals from `o` on are fetched, at most 64 (R413). -/
def fetchRest (g : Gather) (asid o : Nat) (s : State) : State :=
  let ns := ((g.ords.drop o).filterMap (fun x => s.entry x.handle x.entry)).dedup.filter (fun n =>
    (s.livePage n asid).any (fun p => decide (p.st = .capacity)))
  ((ns.take 64).foldl (fun (x : State × Map Word) n =>
    match x.2.find? (pageDie n) with
    | some w => (x.1.startFetch n w, x.2)
    | none =>
      let q := x.1.takeSeq (pageDie n)
      (q.1.startFetch n q.2, x.2.set (pageDie n) q.2)) (s, g.seqs)).1

/-- A gather that has ended completes. -/
def completeGather (id : Nat) (cmd : Cmd) (k : ChartCmd) (g : Gather) (s : State) : State :=
  match g.over with
  | none => s
  | some (code, o) =>
    let s := countRest id cmd g s
    let s := if code = 0x01 ∧ g.fetch then fetchRest g cmd.asid o s else s
    match s.cmds.find? id with
    | some cmd => finishChart id cmd k (statusWord o code) (gatherWritten cmd g) s
    | none => s

/-! ### KVAPP (R417) -/

/-- A command's allocations wait no more. -/
def State.dropWaits (s : State) (die pool id : Nat) : State :=
  (s.modPool die pool (fun k => { k with waiters := k.waiters.filter (fun w => w ≠ .alloc id) })).serveWaiters die pool

/-- Free frames that a command may take: all of them when its allocations are the first that wait, else those that no
waiter takes (R400). -/
def State.framesFor (s : State) (die pool id : Nat) : Nat :=
  let k := s.pool die pool
  if k.waiters.head? = some (.alloc id) then k.free
  else if k.waiters.contains (.alloc id) then 0
  else k.spare

/-- A waiting acceptance step of an append goes on when nothing is lacking any more (R417, R425). -/
def resumeAppend (id : Nat) (cmd : Cmd) (k : ChartCmd) (a : Append) (s : State) : State :=
  let die := cmd.core / 48
  match (s.liveReq a.handle cmd.asid).bind (fun r => (s.model? r.model).map (fun m => (r.model, m))) with
  | none => finishChart id cmd k (statusWord 0 0x44) [] s
  | some (mnum, m) =>
    let pool := m.pool die
    if (s.appendFirst a m).any (fun n => (s.pages.find? n).any (fun p => decide (p.st = .quarantined))) then
      finishChart id cmd k (statusWord 0 (if a.starter then 0x41 else 0x42)) [] (s.dropWaits die pool id)
    else
      match s.appendLack die a m (s.framesFor die pool id) with
      | .nothing =>
        let q := s.appendRead a m
        match q.2 with
        | some n => finishChart id cmd k (statusWord 0 0x41) [] ((q.1.quarantine n).dropWaits die pool id)
        | none =>
        let p := q.1.appendPlan die cmd.grid a m mnum a.seq
        let s := p.1.dropWaits die pool id
        s.putChart id { k with op := .append { a with plan := p.2, waitFor := none, starter := false }, pins := p.2.map Prod.fst }
      | .page n =>
        if (s.pages.find? n).any (fun p => decide (p.st = .capacity)) then
          (s.startFetch n a.there).putChart id { k with op := .append { a with waitFor := some n, starter := true } }
        else s
      | .room need =>
        if ¬cmd.reckon then finishChart id cmd k (statusWord 0 0x40) [] s
        else if (s.pool die pool).waiters.contains (.alloc id) then s
        else s.awaitFrames die pool id need

/-- One page of an append written: its rows and scales, then FILL (R417). -/
def appendPage (id : Nat) (cmd : Cmd) (a : Append) (e : Nat × Nat × Nat × Nat) (s : State) : State :=
  let n := e.1
  let slot := e.2.1
  let rows := e.2.2.1
  let first := e.2.2.2
  match s.pages.find? n with
  | none => s
  | some p =>
    let src := fun (off w : Nat) => (List.range (rows * w)).map (fun i =>
      s.sourceByte id cmd (.spad cmd.own.1, cmd.own.2 + off + first * w + i))
    let base := (s.pool (pageDie n) (pagePool n)).frameAddr (p.frame.getD 0)
    let sc := match a.ssrc with
      | some o => (src o 2).zipIdx
      | none => []
    let s := s.chartStore p.asid (base + slot * p.rowb) (src a.ksrc p.rowb)
    let s := s.chartStore p.asid (base + (p.tok + slot) * p.rowb) (src a.vsrc p.rowb)
    s.modPlanes n (fun p => { p with
      scales := sc.foldl (fun m b => m.put 0 (2 * slot + b.2) b.1) p.scales, fill := slot + rows })

/-- An append goes on: its waiting acceptance step, then one page at a time, then its end (R417). A page QUARANTINED
meanwhile ends it with QUAR (R404). -/
def stepAppend (id : Nat) (cmd : Cmd) (k : ChartCmd) (a : Append) (s : State) : State :=
  if a.plan.isEmpty then resumeAppend id cmd k a s
  else
    match a.plan[a.next]? with
    | none => finishChart id cmd k 0 [] s
    | some e =>
      if (s.pages.find? e.1).any (fun p => decide (p.st = .quarantined)) then finishChart id cmd k (statusWord 0 0x42) [] s
      else (appendPage id cmd a e s).putChart id { k with op := .append { a with next := a.next + 1 } }

/-! ### PGALLOC and PGFETCH (R400, R420, R425) -/

/-- A waiting PGALLOC allocates when it comes first and a frame and a header are free. -/
def stepAlloc (id : Nat) (cmd : Cmd) (k : ChartCmd) (h e : Nat) (seq : Word) (s : State) : State :=
  let die := cmd.core / 48
  match (s.liveReq h cmd.asid).bind (fun r => (s.model? r.model).map (fun m => (r.model, m))) with
  | none => finishChart id cmd k (statusWord 0 0x44) [] s
  | some (mnum, m) =>
    let pool := m.pool die
    if s.framesFor die pool id = 0 then s
    else
      match s.allocAt die cmd.grid h e m mnum seq 1 with
      | none => s
      | some (s, n) =>
        let s := (s.dropWaits die pool id).runEvict die pool
        finishChart id cmd { k with results := k.results.map (fun r => (r.1, BitVec.ofNat 32 n)), pins := [n] } 0 [] s

/-- A PGFETCH goes on: it starts the fetch of a page that an eviction has left in the capacity tier, and completes when the
page is RESIDENT, QUARANTINED or gone. -/
def stepFetch (id : Nat) (cmd : Cmd) (k : ChartCmd) (n : Nat) (starter : Bool) (seq : Word) (s : State) : State :=
  match s.livePage n cmd.asid with
  | none => finishChart id cmd k (statusWord 0 (if starter then 0 else 0x43)) [] s
  | some p =>
    match p.st with
    | .resident => finishChart id cmd k 0 [] s
    | .capacity => (s.startFetch n seq).putChart id { k with op := .fetch n true seq }
    | .quarantined => finishChart id cmd k (statusWord 0 (if starter then 0x41 else 0x42)) [] s
    | _ => s

/-- COMMAND_COMPLETE for the Chart commands whose work is local (R408, R410): a command whose grid has ended completes as
ENDED (R28); in Reckoning mode a completion takes effect at the command's key (R424). -/
def completeChart (id : Nat) (cmd : Cmd) (k : ChartCmd) (s : State) : State :=
  if s.gridOver cmd then
    let s := s.charts.foldl (fun s e => e.2.pools.foldl (fun s p => s.dropWaits e.1 p.1 id) s) s
    finishChart id cmd k (statusWord 0 0x13) [] s
  else if ¬s.completable cmd then s
  else
    match k.op with
    | .settled => finishChart id cmd k (k.status.getD 0) [] s
    | .gather g => completeGather id cmd k g s
    | .append a => stepAppend id cmd k a s
    | .alloc h e seq => stepAlloc id cmd k h e seq s
    | .fetch n st seq => stepFetch id cmd k n st seq s
    | .send _ => s

/-! ### Evictions, fetches and the background read (R391, R399, R400, R403) -/

/-- EVICTION_COMPLETE (R399): a victim's payload is in the capacity area; an uncorrectable error quarantines the page (R391,
R404). -/
def execEvictionComplete (die page : Nat) (s : State) : Result :=
  .next (match s.pages.find? page with
  | none => s
  | some p =>
    if pageDie page = die ∧ p.st = .evicting then
      let e := s.readPages [page]
      if e.2.isSome then (e.1.quarantine page).runEvict die (pagePool page) else e.1.finishEviction page
    else s)

/-- FETCH_COMPLETE (R400): the payload is back in its frame; an uncorrectable error quarantines the page (R404). -/
def execFetchComplete (die page : Nat) (err : PageError) (s : State) : Result :=
  .next (match s.pages.find? page with
  | none => s
  | some p =>
    if pageDie page = die ∧ p.st = .fetching ∧ p.frame.isSome then
      let e := s.payloadError page err
      if e.2 then e.1.quarantine page else e.1.finishFetch page
    else s)

/-- CHART_SCRUB (R388, R402, R403): the background read of a resident frame, while CHPOL.SCRUB is set, or a read of the header
slot of any page. -/
def execChartScrub (die page : Nat) (err : PageError) (s : State) : Result :=
  .next (match s.pages.find? page with
  | none => s
  | some p =>
    let due : Bool := match err with
      | .header _ _ => true
      | _ => (s.chart die).scrub && decide (p.st = .resident)
    if pageDie page = die ∧ due = true then
      let e := s.payloadError page err
      if e.2 then e.1.quarantine page else e.1
    else s)

/-! ### CHCFG (R384, R387, R388) -/

/-- A host port's write of a guarded register: ignored with HERR.SEMVIOL when the port does not own the semaphore (R431,
R432); the window is closed before READY (R535). -/
def State.guarded (s : State) (port sem : Nat) (f : State → State) : State :=
  if ¬s.pkg.ready ∨ 2 ≤ port then s
  else if s.helm.sems.find? sem = some port then f s
  else s.modHelm (fun h => { h with semViol := h.semViol.set port true })

/-- A pool descriptor as it stands in memory (R384). -/
def State.descriptor (s : State) (a : Nat) (k : Pool) : Pool :=
  { k with
    en := bit (s.physNat a 8) 0, low := s.physNat (a + 0x08) 4, frameB := s.physNat (a + 0x0C) 4,
    pages := s.physNat (a + 0x10) 4, frames := s.physNat (a + 0x14) 4, hdrBase := s.physNat (a + 0x18) 8,
    frameBase := s.physNat (a + 0x20) 8, capBase := s.physNat (a + 0x28) 8 }

/-- A new descriptor that Chart ignores (R384, R387). -/
def State.descriptorBad (s : State) (die p : Nat) (new : Pool) : Bool :=
  !(s.poolPages die p).isEmpty || new.hdrBase % 4096 != 0 ||
    s.models.any (fun m => m.2.pool die == p && (!new.en || decide (new.frameB < 2 * m.2.tok * m.2.rowb)))

/-- A descriptor read again; one that has not changed is no new descriptor (assumption log 30). -/
def State.readPool (s : State) (die p : Nat) : State :=
  let new := s.descriptor ((s.chart die).poolBase.toNat + 64 * p) (s.pool die p)
  if new = s.pool die p then s
  else if s.descriptorBad die p new then s.modChart die (fun k => { k with rej := true })
  else (s.modPool die p (fun _ => new)).serveWaiters die p

/-- Descriptors and keys of a die read again (R384, R388). -/
def State.reloadChart (s : State) (die : Nat) : State :=
  let s := (s.readPhys (s.chart die).poolBase.toNat 1024).1
  let s := (List.range 16).foldl (fun s p => s.readPool die p) s
  let base := (s.chart die).keyBase.toNat
  let s := (s.readPhys base 65536).1
  let keys := (List.range 4096).filterMap (fun i =>
    let v := BitVec.ofNat 128 (s.physNat (base + 16 * i) 16)
    if v = 0 then none else some (i, v))
  s.modChart die (fun k => { k with keys := keys })

/-- CHCFG_RELOAD (R388): descriptors and keys read again. -/
def execChcfgReload (port die : Nat) (s : State) : Result :=
  .next (if 2 ≤ die then s else s.guarded port (1 + die) (fun s => s.reloadChart die))

end Sys2Proof.Machine
end

