-- ==== Sys2Proof/Machine/MeridianBase.lean ====
section
/-! DEFINITION. What the Meridian engine and the forwarding switch share (spec/12_meridian.md R472 to R494): time, spaces and
keys, horizons, routes, the error queue, delivery queues, and the service of puts and gets. -/

namespace Sys2Proof.Machine

/-- Meridian changed. -/
def State.modMer (s : State) (f : Mer → Mer) : State := { s with mer := f s.mer }

/-- What a clock that moves by some units slews by meanwhile: at most 1 part in 65,536 of them (R479). -/
def slewBy (moved : Nat) (owed : Int) : Int := max (-((moved / 65536 : Nat) : Int)) (min ((moved / 65536 : Nat) : Int) owed)

/-- Meridian time moves on, by an amount that is open, and slews toward the grandmaster's (R479; assumption log 3). -/
def State.tick (s : State) : State :=
  let n := 1 + (Config.freeWord s.fresh).toNat
  let c := slewBy n s.mer.slew
  { s.bump with mer := { s.mer with time := s.mer.time + BitVec.ofInt 64 (n + c), slew := s.mer.slew - c } }

/-- The package sends and accepts Meridian traffic (R472). -/
def Mer.active (m : Mer) : Bool := decide (m.mepid < 8192)

/-! ### Spaces and keys (R474, R480, R481) -/

/-- The logical space of an ASID (R474). -/
def logical (asid : Nat) : Nat := 4096 + asid

/-- A space is wall time, or enabled in MSPACE (R476, R480). -/
def Mer.enabled (m : Mer) (space : Nat) : Bool :=
  space == 0 || (decide (4096 ≤ space) && m.spaces.any (fun e => bit e.2.toNat 12 && bits e.2.toNat 0 12 == space - 4096))

/-- Keys compare lexicographically (R481). -/
def pkLt (a b : PKey) : Bool :=
  decide (a.stamp < b.stamp) || (a.stamp == b.stamp && (decide (a.src < b.src) || (a.src == b.src && decide (a.seq < b.seq))))

/-- The smaller of two keys. -/
def pkMin (a b : PKey) : PKey := if pkLt b a then b else a

/-- pred(K): the largest key below K (R483); none below the first. -/
def pkPred (k : PKey) : Option PKey :=
  if 0 < k.seq then some { k with seq := k.seq - 1 }
  else if 0 < k.src then some { k with src := k.src - 1, seq := 0xFFFFFFFF }
  else if 0 < k.stamp then some { stamp := k.stamp - 1, src := 0xFFFF, seq := 0xFFFFFFFF }
  else none

/-- Where a table by input or output and space keeps an entry. -/
def linkSpace (j space : Nat) : Nat := j * 8192 + space

/-! ### Horizons (R482, R483, R486) -/

/-- Inputs of the switch for ordered packets: ports trained since reset whose partner is a Huaxel switch, and the two dies
(R475, R482; assumption log 40). -/
def Mer.inputs (m : Mer) : List Nat := (m.ports.filter (fun e => e.2.trained && e.2.huaxel)).map Prod.fst ++ [16, 17]

/-- Packets of a space queued for an output. -/
def Mer.queuedFor (m : Mer) (out space : Nat) : List Queued := m.queued.filter (fun q => q.out == out && q.pkt.space == space)

/-- The packet of the smallest key among some. -/
def smallestOf (qs : List Queued) : Option Queued :=
  qs.foldl (fun (b : Option Queued) q =>
    match b with
    | none => some q
    | some x => if pkLt q.pkt.key x.pkt.key then some q else some x) none

/-- The smallest of some numbers. -/
def least (ns : List Nat) : Option Nat :=
  ns.foldl (fun (b : Option Nat) n =>
    match b with
    | none => some n
    | some x => some (min x n)) none

/-- 1 + the stamps of the messages that may still reach the dies in a space: port horizons, packets queued for the dies, and
packets emitted and not yet taken in (R486; assumption log 40). A port without a horizon promises nothing. -/
def Mer.arrivals (m : Mer) (space : Nat) : List Nat :=
  (m.inputs.filter (fun j => decide (j < 16) && !m.fenced.contains (j, space))).map (fun j =>
    ((m.horizon.find? (linkSpace j space)).map (fun k => k.stamp + 1)).getD 0) ++
  ((m.queued.filter (fun q => decide (16 ≤ q.out) && q.pkt.space == space)).map (fun q => q.pkt.key.stamp + 1)) ++
  ((m.inbound.filter (fun p => p.space == space)).map (fun p => p.key.stamp + 1))

/-- The stamp of what a root sends of a round: 1 + the largest of its contributions (R486, R494; assumption log 40). -/
def RedRound.stamp (r : RedRound) : Nat := r.contribs.foldl (fun n c => max n (c.key.stamp + 1)) 0

/-- Stamps of the results that the root still has to send in a space. -/
def Mer.resultStamps (m : Mer) (space : Nat) : List Nat :=
  (m.rounds.filter (fun r => r.space == space && !r.bad && r.contribs.length == r.npart)).map RedRound.stamp

/-- LTIMEs of the keys that the Reckoning groups of a space's ASID hold live (R36, R171, R486). -/
def State.groupStamps (s : State) (space : Nat) : List Nat :=
  s.clusters.flatMap (fun e =>
    if (s.grids.find? e.2.grid).any (fun (g : Grid) => g.record.reckon && logical g.asid == space) then
      (s.clusterGroups e.1).flatMap (fun g => (s.groupKeys g.2).map Prod.fst)
    else [])

/-- Stamps of the ordered commands of a logical space that are accepted and not yet injected: their staged packets, and the records
that KVSENDs have still to send (R421, R486). -/
def State.pendingStamps (s : State) (space : Nat) : List Nat :=
  (s.mer.staged.filter (fun p => p.space == space)).map (fun p => p.key.stamp) ++
  s.cmds.filterMap (fun e => match e.2.work with
    | .chart k => (match k.op with
      | .send x => if e.2.reckon && logical e.2.asid == space && !x.recorded then some e.2.key.1 else none
      | _ => none)
    | _ => none)

/-- The smallest stamp that the package can still inject in a space: none when nothing bounds it (R486). -/
def State.sourceStamp (s : State) (space : Nat) : Option Nat :=
  if space < 4096 then some s.mer.time.toNat
  else least (s.groupStamps space ++ s.pendingStamps space ++ s.mer.arrivals space ++ s.mer.resultStamps space)

/-- An input promises that nothing up to a key will arrive any more (R482, R486). -/
def State.promises (s : State) (inp space : Nat) (k : PKey) : Bool :=
  (s.mer.horizon.find? (linkSpace inp space)).any (fun h => !pkLt h k) ||
    (decide (16 ≤ inp) && match s.sourceStamp space with
      | none => true
      | some st => decide (k.stamp < st))

/-- The horizon of an input as a key: none for no promise at all; `some none` for one without bound. -/
def State.inputHorizon (s : State) (inp space : Nat) : Option (Option PKey) :=
  let own := s.mer.horizon.find? (linkSpace inp space)
  if inp < 16 then own.map some
  else
    match s.sourceStamp space with
    | none => some none
    | some st =>
      match pkPred { stamp := st, src := 0, seq := 0 }, own with
      | some a, some b => some (some (if pkLt a b then b else a))
      | some a, none => some (some a)
      | none, some b => some (some b)
      | none, none => none

/-- The least horizon of an output's inputs that are not fenced: `some none` where nothing bounds it (R483, R484). -/
def State.leastHorizon (s : State) (space : Nat) : Option (Option PKey) :=
  (s.mer.inputs.filter (fun j => !s.mer.fenced.contains (j, space))).foldl (fun (b : Option (Option PKey)) j =>
    match b, s.inputHorizon j space with
    | some (some x), some (some y) => some (some (pkMin x y))
    | some none, y => y
    | some x, some none => some x
    | _, none => none
    | none, _ => none) (some none)

/-- The key of a beacon of an output: the least horizon, or pred of the smallest key queued (R484). -/
def State.beaconKey (s : State) (out space : Nat) : Option PKey :=
  match s.leastHorizon space, (smallestOf (s.mer.queuedFor out space)).map (fun q => q.pkt.key) with
  | none, _ => none
  | some none, none => none
  | some none, some k => pkPred k
  | some (some h), none => some h
  | some (some h), some k => (pkPred k).map (pkMin h)

/-- The receive horizon of the package for a space has reached a key: nothing up to it is still to be emitted to a die
(R502, R504). -/
def State.received (s : State) (space : Nat) (k : PKey) : Bool :=
  [16, 17].all (fun o => (s.mer.queuedFor o space).all (fun q => pkLt k q.pkt.key)) &&
    s.mer.inputs.all (fun j => s.mer.fenced.contains (j, space) || s.promises j space k)

/-- A changed horizon, which never goes back; an input whose horizon has reached the last key emitted on every output is
unfenced (R482, R489). -/
def Mer.raise (m : Mer) (inp space : Nat) (k : PKey) : Mer :=
  let h := match m.horizon.find? (linkSpace inp space) with
    | some h => if pkLt h k then k else h
    | none => k
  let m := { m with horizon := m.horizon.set (linkSpace inp space) h }
  if (List.range 18).all (fun o => (m.last.find? (linkSpace o space)).all (fun l => !pkLt h l)) then
    { m with fenced := m.fenced.filter (fun f => f ≠ (inp, space)) }
  else m

/-! ### Routes (R475, R478) -/

/-- A route entry: its port, and whether ordered packets may take it; none when it is not VALID. -/
def Mer.route (m : Mer) (dest : Nat) : Option (Nat × Bool) :=
  (m.routes.find? dest).filter (fun v => bit v 4) |>.map (fun v => (bits v 0 4, bit v 5))

/-- Only Sextant frames leave a package that is not active (R472). -/
def Frame.isSextant : Frame → Bool
  | .sextant _ _ _ => true
  | _ => false

/-- Something put on a link that is up. -/
def State.send (s : State) (port : Nat) (f : Frame) : State :=
  if (s.mer.ports.find? port).any (fun p => p.up) ∧ (s.mer.active ∨ f.isSextant) then
    s.modMer (fun m => { m with wire := m.wire ++ [(port, f)] })
  else s

/-- Something sent to another endpoint by its route. -/
def State.sendTo (s : State) (dest : Nat) (f : Frame) : State :=
  match s.mer.route dest with
  | some (port, _) => s.send port f
  | none => s

/-! ### The error queue (R490) -/

/-- The header extension of a packet (R474). -/
def Packet.header (p : Packet) : List Byte :=
  leBytes 8 p.key.stamp ++ leBytes 2 p.key.src ++ leBytes 2 (p.kind % 8 + p.space % 8192 * 8) ++ leBytes 4 p.key.seq

/-- An entry of the error queue; a full queue drops it, and MLATE counts every LATE packet (R476, R490). -/
def State.errorEntry (s : State) (code dest : Nat) (hdr : List Byte) : State :=
  let m := s.mer
  let s := if code = 0x89 then s.modMer (fun m => { m with mlate := m.mlate + 1 }) else s
  if m.errSize = 0 ∨ m.errSize.toNat ≤ (m.errTail - m.errHead).toNat then s
  else
    (s.writePhys (m.errBase.toNat + 32 * (m.errTail.toNat % m.errSize.toNat))
      (hdr ++ leBytes 8 dest ++ leBytes 8 code)).modMer (fun m => { m with errTail := m.errTail + 1 })

/-! ### Delivery queues (R477, R491, R492) -/

/-- Fields of MQCFGq (R477). -/
def Mer.qSize (m : Mer) (q : Nat) : Nat := bits (m.qcfg.getD q 0).toNat 0 32
def Mer.qEn (m : Mer) (q : Nat) : Bool := bit (m.qcfg.getD q 0).toNat 32 && decide (q < 64)
def Mer.qOrd (m : Mer) (q : Nat) : Bool := bit (m.qcfg.getD q 0).toNat 33
def Mer.qSpace (m : Mer) (q : Nat) : Nat := bits (m.qcfg.getD q 0).toNat 34 13
def Mer.qAsid (m : Mer) (q : Nat) : Nat := bits (m.qcfg.getD q 0).toNat 47 12

/-- An empty delivery queue. -/
def DQueue.empty : DQueue where
  msgs := []
  head := 0
  marked := false
  waiting := []

/-- A delivery queue. -/
def State.dqueue (s : State) (q : Nat) : DQueue := s.mer.queues.getD q DQueue.empty

/-- A changed delivery queue. -/
def State.modDqueue (s : State) (q : Nat) (f : DQueue → DQueue) : State :=
  s.modMer (fun m => { m with queues := m.queues.put DQueue.empty q (f (s.dqueue q)) })

/-- The header of a message (R492). -/
def Msg.header (m : Msg) : List Byte :=
  leBytes 8 m.stamp ++ leBytes 2 m.src ++ leBytes 2 (b2n m.ord + 2 * b2n m.logical) ++ leBytes 4 m.payload.length

/-- Bytes that a message of a length takes in its ring (R491). -/
def ringBytes (len : Nat) : Nat := (16 + len + 63) / 64 * 64

/-- Bytes of a ring in use. -/
def DQueue.used (q : DQueue) : Nat := (q.msgs.map (fun m => ringBytes m.payload.length)).sum

/-- A message stored in a queue's ring, under the key of the queue's ASID (R491; assumption log 40). -/
def State.storeMsg (s : State) (q : Nat) (m : Msg) : State :=
  let d := s.dqueue q
  let size := max 1 (s.mer.qSize q)
  let at' := d.head + d.used
  let base := (s.mer.qbase.getD q 0).toNat
  let ws := (m.header ++ m.payload).zipIdx.map (fun e => (((.global, base + (at' + e.2) % size) : Place), e.1))
  let s := (s.touchPlaces none (s.asidTag (s.mer.qAsid q)) (ws.map Prod.fst)).putBytes ws
  s.modDqueue q (fun d => { d with msgs := d.msgs ++ [m] })

/-- What happens to a message that arrives. -/
inductive Arrival where
  | stored (s : State)
  /-- It goes to the error queue with MISROUTE, and its sender sees REFUSED (R491). -/
  | refused
  /-- It waits for room. -/
  | held
deriving DecidableEq, Repr

/-- A message arrives for a queue (R491): ordered queues take the packets of their own space only. -/
def State.arrive (s : State) (q space : Nat) (m : Msg) : Arrival :=
  let n := ringBytes m.payload.length
  if ¬s.mer.qEn q ∨ (s.mer.qOrd q ∧ ¬(m.ord ∧ s.mer.qSpace q = space)) ∨ s.mer.qSize q < n then .refused
  else if s.mer.qSize q < (s.dqueue q).used + n then .held
  else .stored (s.storeMsg q m)

/-! ### Puts and gets (R478) -/

/-- An entry of the exposure table covers a range for an ASID. -/
def exposes (e : List Byte) (asid addr n : Nat) (write : Bool) : Bool :=
  let base := leNat (e.take 8)
  let len := leNat ((e.drop 8).take 8)
  let f := leNat ((e.drop 16).take 4)
  bit f 14 && bits f 0 12 == asid && bit f (if write then 13 else 12) && decide (base ≤ addr) && decide (addr + n ≤ base + len)

/-- The exposure table, read at each use, permits an access (R478). -/
def State.exposed (s : State) (asid addr n : Nat) (write : Bool) : State × Bool :=
  let r := s.readPhys s.mer.mexpose.toNat 8192
  (r.1, (List.range 256).any (fun i => exposes ((r.2.drop (32 * i)).take 32) asid addr n write))

/-- A put served: whether it was performed (R478). -/
def State.servePut (s : State) (asid addr : Nat) (data : List Byte) : State × Bool :=
  let x := s.exposed asid addr data.length true
  if x.2 ∧ (x.1.vaSpan asid addr data.length .write).isSome then (x.1.writeVa asid addr data, true)
  else (if x.2 then x.1.lostWalk asid addr else x.1, false)

/-- A get served: its bytes (R478). -/
def State.serveGet (s : State) (asid addr n : Nat) : State × Option (List Byte) :=
  let x := s.exposed asid addr n false
  if x.2 then x.1.readVa asid addr n else (x.1, none)

/-! ### Answers -/

/-- A Meridian command changed. -/
def State.modNet (s : State) (id : Nat) (f : Net → Net) : State :=
  { s with cmds := s.cmds.modify id (fun c =>
      match c.work with
      | .net n => { c with work := .net (f n) }
      | _ => c) }

/-- An endpoint has answered a command with a code: the first fault decides, else OK once every target has performed (R499). -/
def Net.answer (n : Net) (from' code : Nat) : Net :=
  if n.status.isSome then n
  else if code ≠ 0 then { n with status := some (statusWord 0 code) }
  else
    let ws := n.waits.erase from'
    { n with waits := ws, status := if ws.isEmpty then some 0 else none }

/-- Bytes have come for a command's destination: they are written, then it completes with this status. -/
def Net.bring (n : Net) (data : List Byte) (status : Word) : Net :=
  { n with data := some data, status := some status, waits := [] }

/-- In Reckoning mode a message's arrival gives its command the key (stamp, GGID), on its tag too (R504). -/
def State.keyNet (s : State) (id stamp : Nat) : State :=
  match s.cmds.find? id with
  | none => s
  | some c =>
    if c.reckon then
      let k : Key := (stamp, c.ggid.toNat)
      let s := { s with cmds := s.cmds.modify id (fun c => { c with key := k, keyed := true }) }
      match c.tag with
      | some t => if (s.tag c.core t).cmd = id then s.putTag c.core t { s.tag c.core t with key := k } else s
      | none => s
    else s

end Sys2Proof.Machine
end

