-- ==== Sys2Proof/Machine/Meridian.lean ====
section
/-! DEFINITION. The Meridian engine's instructions (spec/12_meridian.md R497 to R502, R504), up to their acceptance. -/

namespace Sys2Proof.Machine

/-- The space of the ordered packets of a group (R480). -/
def Ctx.space (c : Ctx) : Nat := if c.reckon then logical c.grid.asid else 0

/-- A Meridian command issues: it waits for its tag (R292), and for the group's earlier stores (R197, R499). -/
def netGate (c : Ctx) (tag : Nat) (s : State) (go : State) : State :=
  if ¬s.tagFree c.grp.core tag ∨ ¬c.grp.fifo.isEmpty then s else go

/-- A local range is checked at issue as those of XFER are (R498); the team it names may be swapped out (R226). -/
def netLocal (c : Ctx) (addr : DWord) (n : Nat) (s : State) (go : State) : State :=
  if (viewPlace (viewOf c s) addr n).isNone then takeTrap c { cause := 0x03, lanes := c.act, addr := addr } s
  else if s.namesAway c.team addr n then s
  else go

/-- The route to an endpoint can be taken (R475, R496). -/
def Mer.reaches (m : Mer) (dest : Nat) (ord : Bool) : Bool := m.active && (m.route dest).any (fun r => !ord || r.2)

/-- NOROUTE, or 0: every target has a route, and the space of an ordered command is enabled (R480, R496). -/
def routeCode (c : Ctx) (s : State) (dests : List Nat) (ord : Bool) : Nat :=
  if dests.all (fun d => s.mer.reaches d ord) && (!ord || s.mer.enabled c.space) then 0 else 0x80

/-- Bytes that a command reads or writes locally, with their addresses: none outside the accessible set (R496). -/
def netPlaces (c : Ctx) (s : State) (addr : DWord) (n : Nat) (need : Need) : Option (List (Place × DWord)) :=
  (s.cmdPlaces c.team.grid (viewOf c s) addr n need).map (fun ps =>
    ps.zipIdx.map (fun e => (e.1, addr + BitVec.ofNat 64 e.2)))

/-- A command with nothing in it yet. -/
def Net.blank (kind : NetKind) : Net where
  kind := kind
  src := 0
  dst := 0
  len := 0
  waits := []
  queue := 0
  raddr := 0
  coll := 0
  round := 0
  npart := 0
  count := 0
  op := 0
  uud := false
  rod := false
  ord := false
  sent := false
  data := none
  status := none

/-- A command in a delivery mode (R473, R497). -/
def Net.via (n : Net) (nm : NetMode) : Net := { n with uud := nm == .uud, rod := nm == .rod, ord := nm == .ord }

/-- A command that fails at acceptance sends nothing; the others own their destination, record what they read of the
source, and stage their ordered packets (R30, R34, R212, R486, R498). -/
def acceptNet (c : Ctx) (tag code : Nat) (n : Net) (src dst : List (Place × DWord)) (pkts : List Packet) (s : State) : State :=
  if code ≠ 0 then s.accept c (some tag) none (viewOf c s) [] (.net { n with status := some (statusWord 0 code) })
  else
    let s := s.accept c (some tag) none (viewOf c s) (unitRanges (dst.map (fun e => unitOf e.1))) (.net n)
    let s := s.sourceAccess s.uid src
    let s := match n.kind with
      | .red => { s with cmds := s.cmds.modify s.uid (fun k => { k with keyed := !c.reckon }) }
      | .recv => { s with cmds := s.cmds.modify s.uid (fun k => { k with keyed := !c.reckon }) }
      | _ => s
    s.modMer (fun m => { m with staged := m.staged ++ pkts.map (fun p => { p with reply := s.uid }) })

/-- An ordered packet of the issuing group for a target, as it is staged; its source, sequence number and wall-time stamp
come with its injection (R480, R481). -/
def Ctx.packet (c : Ctx) (s : State) (kind dest queue addr : Nat) : Packet :=
  { kind := kind, key := { stamp := if c.reckon then c.grp.key.1 else 0, src := s.mer.mepid, seq := 0 },
    space := c.space, ord := true, dest := dest, queue := queue, addr := addr, asid := c.grid.asid, reply := 0,
    late := false, payload := [] }

/-- NSEND and NPUT from their checks on: RANGE, then NOROUTE, then LEASE (R496, R498). -/
def acceptSend (c : Ctx) (tag : Nat) (n : Net) (range : Bool) (s : State) : State :=
  let route := routeCode c s n.waits n.ord
  let ps := netPlaces c s n.src n.len .read
  let code := if range then 0x86 else if route ≠ 0 then route else if ps.isNone then 0x12 else 0
  let pkts := if n.ord then n.waits.map (fun d => c.packet s 0 d (if n.kind = .put then 64 else n.queue) n.raddr) else []
  retire c (acceptNet c tag code n (ps.getD []) [] pkts s)

/-- NSEND at issue. -/
def startNsend (nm : NetMode) (len dq : Reg) (src : Fin 24) (tag : Nat) (c : Ctx) (s : State) : State :=
  let a := (c.uni dq).toNat
  let l := (c.uni len).toNat
  let addr := readPair c.grp src
  netGate c tag s (netLocal c addr l s
    (acceptSend c tag
      { (Net.blank .send).via nm with src := addr, len := l, waits := [bits a 0 16], queue := bits a 16 6 }
      (decide (8192 ≤ bits a 0 16) || decide (2 ^ 22 ≤ a) || l == 0 || decide (65536 < l) || (c.reckon && nm != .ord)) s))

/-- NSEND (R499). -/
def execNsend (nm : NetMode) (len dq : Reg) (src : Fin 24) (tag : Fin 64) (g : Guard) (s : State) : Result :=
  issueSync (.nsend nm len dq src tag g) s (startNsend nm len dq src tag.val)

/-- The endpoints of a replica set, read at its use (R478): none with a count outside 1 to 31 (R498). -/
def State.replicaSet (s : State) (n : Nat) : State × Option (List Nat) :=
  let r := s.readPhys (s.mer.mrepset.toNat + 64 * n) 64
  let cnt := leNat (r.2.take 2)
  (r.1, if 1 ≤ cnt ∧ cnt ≤ 31 then
      some ((List.range cnt).map (fun i => leNat ((r.2.drop (2 + 2 * i)).take 2)))
    else none)

/-- NPUT at issue. -/
def startNput (rep : Bool) (nm : NetMode) (len dest : Reg) (src raddr : Fin 24) (tag : Nat) (c : Ctx) (s : State) : State :=
  let a := (c.uni dest).toNat
  let l := (c.uni len).toNat
  let addr := readPair c.grp src
  netGate c tag s (netLocal c addr l s
    (let t : State × Option (List Nat) :=
      if rep then (if a < 256 then s.replicaSet a else (s, none)) else (s, if a < 8192 then some [a] else none)
    let ds := t.2.getD []
    acceptSend c tag
      { (Net.blank .put).via nm with src := addr, len := l, waits := ds.dedup, raddr := (readPair c.grp raddr).toNat }
      (t.2.isNone || ds.any (fun d => decide (8192 ≤ d)) || l == 0 || decide (16777216 < l) || (c.reckon && nm != .ord)) t.1))

/-- NPUT (R499). -/
def execNput (rep : Bool) (nm : NetMode) (len dest : Reg) (src raddr : Fin 24) (tag : Fin 64) (g : Guard) (s : State) : Result :=
  issueSync (.nput rep nm len dest src raddr tag g) s (startNput rep nm len dest src raddr tag.val)

/-- NGET at issue; in Reckoning mode it is out of range (R504). -/
def startNget (rod : Bool) (len dest : Reg) (raddr dst : Fin 24) (tag : Nat) (c : Ctx) (s : State) : State :=
  let a := (c.uni dest).toNat
  let l := (c.uni len).toNat
  let addr := readPair c.grp dst
  netGate c tag s (netLocal c addr l s
    (let route := routeCode c s [a] false
    let ps := netPlaces c s addr l .write
    let code := if 8192 ≤ a ∨ l = 0 ∨ 16777216 < l ∨ c.reckon then 0x86
      else if route ≠ 0 then route else if ps.isNone then 0x12 else 0
    retire c (acceptNet c tag code
      { Net.blank .get with dst := addr, len := l, waits := [a], raddr := (readPair c.grp raddr).toNat, rod := rod } [] (ps.getD []) [] s)))

/-- NGET (R499). -/
def execNget (rod : Bool) (len dest : Reg) (raddr dst : Fin 24) (tag : Fin 64) (g : Guard) (s : State) : Result :=
  issueSync (.nget rod len dest raddr dst tag g) s (startNget rod len dest raddr dst tag.val)

/-- An NRED operation as a number, MOD of R497. -/
def nredCode : NredOp → Nat
  | .addI32 => 0
  | .addF32 => 1
  | .addBf16 => 2
  | .maxF32 => 3
  | .minF32 => 4

/-- NRED from its operand block on (R500). -/
def nredBlock (op : NredOp) (blk : List Byte) (tag : Nat) (c : Ctx) (s : State) : State :=
  let w := fun (o n : Nat) => leNat ((blk.drop o).take n)
  let es := if op = .addBf16 then 2 else 4
  let src := BitVec.ofNat 64 (w 0x20 8)
  let dst := BitVec.ofNat 64 (w 0x28 8)
  let len := w 0x10 4 * es
  netLocal c src len s (netLocal c dst len s
    (let route := routeCode c s [w 0x08 4] true
    let sp := netPlaces c s src len .read
    let dp := netPlaces c s dst len .write
    let code := if 65536 ≤ w 0x00 4 ∨ 8192 ≤ w 0x08 4 ∨ w 0x0C 4 < 2 ∨ 8192 < w 0x0C 4 ∨ w 0x10 4 < 1 ∨ 1048576 < w 0x10 4
      then 0x86 else if route ≠ 0 then route else if sp.isNone ∨ dp.isNone then 0x12 else 0
    let n : Net :=
      { Net.blank .red with src := src, dst := dst, len := len, waits := [w 0x08 4], coll := w 0x00 4, round := w 0x04 4,
                            npart := w 0x0C 4, count := w 0x10 4, op := nredCode op, ord := true }
    retire c (acceptNet c tag code n (sp.getD []) (dp.getD []) [c.packet s 2 (w 0x08 4) 0 0] s)))

/-- NRED at issue: the operand block is read (R498, R500). -/
def startNred (op : NredOp) (blk : Reg) (tag : Nat) (c : Ctx) (s : State) : State :=
  netGate c tag s (match locate c s (c.uni blk) 48 16 true with
    | .error t => takeTrap c t s
    | .ok (core, off) =>
      let ps := (List.range 48).map (fun i => ((.spad core, off + i) : Place))
      spanAccess c s (ownSpad c off) ps .read true (fun s => nredBlock op (ps.map s.byteAt) tag c s))

/-- NRED (R500). -/
def execNred (op : NredOp) (blk : Reg) (tag : Fin 64) (g : Guard) (s : State) : Result :=
  issueSync (.nred op blk tag g) s (startNred op blk tag.val)

/-- What NPOLL reports of a message (R501). -/
def pollWord (m : Msg) : Word := BitVec.ofNat 32 (2 ^ 31 + b2n m.ord * 2 ^ 30 + m.payload.length)

/-- The queue is open to the issuer (R501). -/
def Ctx.mayPoll (c : Ctx) (s : State) (q : Nat) : Bool := s.mer.qEn q && s.mer.qAsid q == c.grid.asid

/-- In Reckoning mode at LTIME t, NPOLL of an ordered queue waits for a receive horizon of (t − 1, 0xFFFF, 0xFFFF_FFFF), and
with nothing in the queue for what the endpoint has yet to take in below it (R504). -/
def pollWaits (c : Ctx) (s : State) (q : Nat) : Bool :=
  c.reckon && s.mer.qOrd q && decide (0 < c.grp.key.1) &&
    (!s.received (s.mer.qSpace q) { stamp := c.grp.key.1 - 1, src := 0xFFFF, seq := 0xFFFFFFFF } ||
      ((s.dqueue q).msgs.isEmpty && s.mer.inbound.any (fun p => p.kind == 0 && p.queue == q && p.space == s.mer.qSpace q &&
        decide (p.key.stamp < c.grp.key.1))))

/-- NPOLL (R501, R504). -/
def execNpoll (d q : Reg) (g : Guard) (s : State) : Result :=
  issueSync (.npoll d q g) s (fun c s =>
    let n := (c.uni q).toNat
    if ¬c.mayPoll s n then retire c (writeUni c d 0 s)
    else if pollWaits c s n then s
    else
      match ((s.dqueue n).msgs.head?).filter (fun m => !(c.reckon && m.ord) || decide (m.stamp < c.grp.key.1)) with
      | some m => retire c (writeUni c d (pollWord m) (s.modDqueue n (fun x => { x with marked := false })))
      | none => retire c (writeUni c d 0 s))

/-- NRECV at issue: it joins those that wait on the queue (R501). -/
def startNrecv (q : Reg) (dst : Fin 24) (mx : Reg) (tag : Nat) (c : Ctx) (s : State) : State :=
  let a := (c.uni q).toNat
  let l := (c.uni mx).toNat
  let addr := readPair c.grp dst
  netGate c tag s (netLocal c addr (16 + l) s
    (let code := if 64 ≤ a then 0x86 else if ¬c.mayPoll s a then 0x81
      else if (netPlaces c s addr (16 + l) .write).isNone then 0x12 else 0
    let s := acceptNet c tag code { Net.blank .recv with dst := addr, len := l, queue := a } [] [] [] s
    retire c (if code = 0 then s.modDqueue a (fun x => { x with waiting := x.waiting ++ [s.uid] }) else s)))

/-- NRECV (R501). -/
def execNrecv (q : Reg) (dst : Fin 24) (mx : Reg) (tag : Fin 64) (g : Guard) (s : State) : Result :=
  issueSync (.nrecv q dst mx tag g) s (startNrecv q dst mx tag.val)

/-- The package's receive horizon for wall time, as a stamp: the smallest over the outputs to its dies (R502). -/
def State.receiveStamp (s : State) : Nat :=
  min (((s.beaconKey 16 0).map (fun k => k.stamp)).getD 0) (((s.beaconKey 17 0).map (fun k => k.stamp)).getD 0)

/-- NTIME (R502): Meridian time or the receive horizon; the issuer's LTIME in Reckoning mode. -/
def execNtime (hor : Bool) (d : Fin 24) (g : Guard) (s : State) : Result :=
  issue (.ntime hor d g) s (fun c s =>
    if c.reckon then retire c (writePair c d c.grp.ltime s)
    else
      let s := s.tick
      retire c (writePair c d (if hor then BitVec.ofNat 64 s.receiveStamp else s.mer.time) s))

end Sys2Proof.Machine
end

