-- ==== Sys2Proof/Machine/MeridianEvents.lean ====
section
/-! DEFINITION. The forwarding switch and the Meridian engine at work (spec/12_meridian.md R474 to R495): injection,
arrival, horizons and beacons, ordered emission, stalls, delivery, puts and gets, reductions, links, routes. -/

namespace Sys2Proof.Machine

/-! ### Answers to a packet's source -/

/-- The source of a packet is told what became of it (R475, R489, R491): a command of the package itself, or a frame to
another endpoint. -/
def State.tell (s : State) (src reply dest code : Nat) (data : List Byte) : State :=
  if src = s.mer.mepid then
    s.modNet reply (fun n => if data.isEmpty then n.answer dest code else n.bring data 0)
  else s.sendTo src (.answer reply code data)

/-! ### The switch (R475, R480 to R484, R489) -/

/-- The output that leads to a packet's destination: a die's for the own endpoint, else the port of its route (R482;
assumption log 40). Ordered packets need ORDOK. -/
def Mer.outputFor (m : Mer) (p : Packet) : Option Nat :=
  if p.dest = m.mepid then some (if p.kind = 0 ∧ 32 ≤ p.queue ∧ p.queue < 64 then 17 else 16)
  else ((m.route p.dest).filter (fun r => r.2)).map Prod.fst

/-- A packet that a fenced input brings too late for its output (R489). -/
def Mer.late (m : Mer) (inp out : Nat) (p : Packet) : Bool :=
  p.late || (m.fenced.contains (inp, p.space) && (m.last.find? (linkSpace out p.space)).any (fun l => !pkLt l p.key))

/-- The source of an ordered packet is told what became of it; results and notices answer no command of their source
(R475, R489). -/
def State.tellOf (s : State) (p : Packet) (code : Nat) : State :=
  if 3 ≤ p.kind ∧ p.kind ≤ 5 then s else s.tell p.key.src p.reply p.dest code []

/-- A LATE packet goes to its destination's error queue, and its source is told (R489, R490). -/
def State.lateMark (s : State) (out : Nat) (p : Packet) : State :=
  if p.dest = s.mer.mepid then
    (s.errorEntry 0x89 (if p.queue = 64 then p.addr else p.queue) (Packet.header p)).tellOf p 0x89
  else s.send out (.packet { p with late := true })

/-- An ordered packet has arrived on an input: discarded with NOROUTE where it cannot go on, LATE, or queued for its output;
the input's horizon is its key (R475, R480, R482, R489). -/
def State.enter (s : State) (inp : Nat) (p : Packet) : State :=
  match s.mer.outputFor p with
  | none => (s.tellOf p 0x80).modMer (fun m => m.raise inp p.space p.key)
  | some out =>
    let s' := if ¬s.mer.enabled p.space then s.tellOf p 0x80
      else if s.mer.late inp out p then s.lateMark out p
      else s.modMer (fun m => { m with queued := m.queued ++ [{ out := out, inp := inp, pkt := p }] })
    s'.modMer (fun m => m.raise inp p.space p.key)

/-! ### Injection (R480, R481, R486) -/

/-- The die of a command, as an input of the switch. -/
def State.inputOf (s : State) (id : Nat) : Nat := 16 + (((s.cmds.find? id).map (fun c => c.core / 48)).getD 0)

/-- The key of the group that sends a staged packet. -/
def State.senderKey (s : State) (p : Packet) : Key := ((s.cmds.find? p.reply).map (fun c => c.key)).getD (0, 0)

/-- A staged packet may be injected: in wall time the oldest of its die, in a logical space the one of smallest key, with no
smaller live key in the ASID and no result of a smaller stamp to come from this root (R481, R486). -/
def State.injectable (s : State) (p : Packet) : Bool :=
  let same := s.mer.staged.filter (fun x => x.space = p.space)
  if p.space < 4096 then (same.filter (fun x => s.inputOf x.reply = s.inputOf p.reply)).head? == some p
  else
    (same.all (fun x => !keyLt (s.senderKey x) (s.senderKey p))) && same.find? (fun x => x.reply = p.reply) == some p &&
      s.clusters.all (fun e =>
        !(s.grids.find? e.2.grid).any (fun (g : Grid) => g.record.reckon && logical g.asid == p.space) ||
          (s.liveKeys e.1).all (fun k => !keyLt k (s.senderKey p))) &&
      (s.mer.resultStamps p.space).all (fun n => decide (p.key.stamp < n))

/-- Bytes of a command's source (R34, R499): none outside the accessible set. -/
def State.netSource (s : State) (id : Nat) (cmd : Cmd) (n : Net) : Option (List Byte) :=
  (s.cmdPlaces cmd.grid cmd.view n.src n.len .read).map (fun ps => ps.map (s.sourceByte id cmd))

/-- What a contribution carries before its values (R500; assumption log 40). -/
def Net.redHeader (n : Net) (root : Nat) : List Byte :=
  leBytes 4 n.coll ++ leBytes 4 n.round ++ leBytes 4 root ++ leBytes 4 n.npart ++ leBytes 4 n.count ++ leBytes 4 n.op

/-- The payload of a staged packet: its command's source as it stands, or the record that KVSEND has put into it. -/
def State.stagedPayload (s : State) (p : Packet) : Option (List Byte) :=
  match s.cmds.find? p.reply with
  | none => none
  | some cmd =>
    match cmd.work with
    | .net n => (s.netSource p.reply cmd n).map (fun bs => if p.kind = 2 then n.redHeader p.dest ++ bs else bs)
    | _ => some p.payload

/-- An ordered packet of this endpoint gets its key: Meridian time as its stamp in wall time, and its sequence number
(R480, R481). -/
def State.number (s : State) (p : Packet) : State × Packet :=
  let s := if p.space < 4096 then s.tick else s
  let seq := s.mer.seq.getD p.space 0
  (s.modMer (fun m => { m with seq := m.seq.put 0 p.space (seq + 1) }),
    { p with key := { stamp := if p.space < 4096 then s.mer.time.toNat else p.key.stamp, src := s.mer.mepid, seq := seq.toNat } })

/-- A result or a notice of this switch goes out in its space, from its die 0 (R474, R481; assumption log 40): not below what
R486 has promised. -/
def State.switchSend (s : State) (kind space stamp dest queue asid reply : Nat) (data : List Byte) : State :=
  let x := s.number
    { kind := kind, key := { stamp := stamp, src := 0, seq := 0 }, space := space, ord := true, dest := dest, queue := queue,
      addr := 0, asid := asid, reply := reply, late := false, payload := data }
  x.1.enter 16 x.2

/-- A staged packet is injected: stamped, numbered, and on its die's input of the switch (R480, R481). -/
def State.inject (s : State) (p : Packet) : State :=
  let inp := s.inputOf p.reply
  match s.stagedPayload p with
  | none =>
    (s.modNet p.reply (fun n => { n with status := some (statusWord 0 0x12) })).modMer
      (fun m => { m with staged := m.staged.erase p })
  | some bs =>
    let x := s.number { p with payload := bs }
    let s := x.1.modMer (fun m => { m with staged := m.staged.erase p })
    (s.modNet p.reply (fun n => { n with sent := true })).enter inp x.2

/-- ORDERED_PACKET_ARRIVAL (R482): on a port, a packet of another endpoint; on a die's input, the injection of the staged
packet of a command. -/
def execOrderedPacketArrival (inp : Nat) (pkt : Packet) (s : State) : Result :=
  .next (if ¬s.mer.active then s
  else if inp < 16 then
    if (s.mer.ports.find? inp).any (fun p => p.up && p.huaxel) ∧ pkt.ord ∧ pkt.key.src ≠ s.mer.mepid ∧ pkt.key.src < 8192 ∧
        pkt.kind ≠ 1 ∧ pkt.kind < 7 ∧
        (pkt.late ∨ s.mer.fenced.contains (inp, pkt.space) ∨
          (s.mer.horizon.find? (linkSpace inp pkt.space)).all (fun h => pkLt h pkt.key)) then s.enter inp pkt
    else s
  else
    match s.mer.staged.find? (fun p => p.reply = pkt.reply) with
    | some p => if s.inputOf p.reply = inp ∧ s.injectable p then s.inject p else s
    | none => s)

/-- BEACON (R482, R485): the keys a beacon carries raise its input's horizons; a die promises no more than R486 lets it. -/
def execBeacon (inp : Nat) (keys : List (Nat × PKey)) (s : State) : Result :=
  .next (if ¬s.mer.active ∨ 18 ≤ inp ∨ (inp < 16 ∧ ¬(s.mer.ports.find? inp).any (fun p => p.up && p.huaxel)) then s
  else
    keys.foldl (fun s e =>
      if s.mer.enabled e.1 ∧ (inp < 16 ∨ (s.sourceStamp e.1).all (fun t => decide (e.2.stamp < t))) then
        s.modMer (fun m => m.raise inp e.1 e.2)
      else s) s)

/-- A beacon's key for an output and a space, if one is to be sent (R484). -/
def State.beaconDue (s : State) (out space : Nat) : Option PKey :=
  (s.beaconKey out space).filter (fun k => (s.mer.last.find? (linkSpace out space)).all (fun l => pkLt l k))

/-- The logical spaces of MSPACE, in ascending number (R476, R485). -/
def Mer.logicals (m : Mer) : List Nat := (m.spaces.filter (fun e => bit e.2.toNat 12)).map (fun e => logical (bits e.2.toNat 0 12))

/-- A beacon packet (R485). -/
def beaconPacket (src : Nat) (wall : Option PKey) (logs : List (Nat × PKey)) : Packet :=
  { kind := 1, key := wall.getD { stamp := 0, src := 0, seq := 0 }, space := if wall.isSome then 0 else 0x0FFF, ord := true,
    dest := 0xFFFF, queue := 0, addr := 0, asid := 0, reply := src, late := false,
    payload := logs.flatMap (fun e => leBytes 8 e.2.stamp ++ leBytes 4 e.2.seq ++ leBytes 2 e.2.src ++ leBytes 2 e.1) }

/-- BEACON_SEND (R484, R485), to a Huaxel switch alone (R475). -/
def execBeaconSend (out : Nat) (s : State) : Result :=
  .next (if ¬s.mer.active ∨ 16 ≤ out ∨ ¬(s.mer.ports.find? out).any (fun p => p.huaxel) then s
  else
    let s := s.tick
    let wall := s.beaconDue out 0
    let logs := s.mer.logicals.filterMap (fun sp => (s.beaconDue out sp).map (fun k => (sp, k)))
    if wall.isNone ∧ logs.isEmpty then s else s.send out (.packet (beaconPacket s.mer.mepid wall logs)))

/-- Every input that could bring a smaller key has promised not to (R483). -/
def State.emittable (s : State) (out space : Nat) (k : PKey) : Bool :=
  s.mer.inputs.all (fun j => s.mer.fenced.contains (j, space) ||
    (s.mer.queuedFor out space).any (fun q => q.inp == j) || s.promises j space k)

/-- Nothing of a smaller key is queued for the other die: the endpoint takes a space's packets in ascending order (R487). -/
def Mer.leads (m : Mer) (out space : Nat) (k : PKey) : Bool :=
  decide (out < 16) || [16, 17].all (fun o => (m.queuedFor o space).all (fun q => !pkLt q.pkt.key k))

/-- ORDERED_EMIT (R483, R487): the smallest key of an output goes out, or into the package's own endpoint. -/
def execOrderedEmit (out space : Nat) (s : State) : Result :=
  .next (match smallestOf (s.mer.queuedFor out space) with
  | none => s
  | some q =>
    if s.mer.active ∧ s.emittable out space q.pkt.key ∧ s.mer.leads out space q.pkt.key ∧
        (16 ≤ out ∨ (s.mer.ports.find? out).any (fun p => p.up)) then
      let s := s.modMer (fun m => { m with queued := m.queued.erase q, last := m.last.set (linkSpace out space) q.pkt.key })
      if 16 ≤ out then s.modMer (fun m => { m with inbound := m.inbound ++ [q.pkt] }) else s.send out (.packet q.pkt)
    else s)

/-! ### Stalled horizons (R488, R490) -/

/-- The ordered queues of a notice's space are marked, and the notice enters the error queue; its DEST is open (R490;
assumption log 3). -/
def State.noteStall (s : State) (p : Packet) : State :=
  let s := (List.range 64).foldl (fun s q =>
    if s.mer.qOrd q ∧ s.mer.qSpace q = p.space then s.modDqueue q (fun d => { d with marked := true }) else s) s
  s.bump.errorEntry 0x83 (Config.freeDWord s.fresh).toNat (Packet.header p)

/-- Endpoints that an ordered packet can reach from here. -/
def Mer.reached (m : Mer) : List Nat :=
  (m.routes.map Prod.fst).filter (fun d => decide (d ≠ m.mepid) && (m.route d).any (fun r => r.2))

/-- STALL_DECLARE (R488): an input that holds a queued packet of the space back is fenced, and every endpoint that the switch
reaches gets a notice, its own too (assumption log 40). -/
def execStallDeclare (inp space : Nat) (s : State) : Result :=
  .next (
    let held := s.mer.queued.any (fun q => q.pkt.space == space &&
      !(s.mer.queuedFor q.out space).any (fun x => x.inp == inp) && !s.promises inp space q.pkt.key)
    if s.mer.active ∧ s.mer.inputs.contains inp ∧ ¬s.mer.fenced.contains (inp, space) ∧ held then
      let s := s.modMer (fun m => { m with fenced := m.fenced ++ [(inp, space)], stall := true })
      let n := (s.sourceStamp space).getD 0
      (s.mer.mepid :: s.mer.reached).foldl (fun s d => s.switchSend 5 space n d 0 0 0 []) s
    else s)

/-! ### What the endpoint takes in (R487, R491, R493) -/

/-- What a contribution says of its round: COLL, ROUND, ROOT, NPART, COUNT, operation, and its values. -/
def redFields (p : Packet) : List Nat × List Byte :=
  ((List.range 6).map (fun i => leNat ((p.payload.drop (4 * i)).take 4)), p.payload.drop 24)

/-- The rounds that are open take this much of the reduction buffer (R493). -/
def Mer.reduced (m : Mer) : Nat := (m.rounds.map (fun r => 4 * r.count)).sum

/-- A contribution that the root withholds: of a later round while an earlier one is open, or without room (R493, R495). -/
def Mer.withheld (m : Mer) (p : Packet) : Bool :=
  let f := (redFields p).1
  let mine := m.rounds.filter (fun r => r.asid = p.asid ∧ r.coll = f.getD 0 0)
  decide (p.kind = 2) && !m.closed.contains (p.asid, f.getD 0 0, f.getD 1 0) && !mine.any (fun r => r.round = f.getD 1 0) &&
    (mine.any (fun r => decide (r.round < f.getD 1 0)) || decide (33554432 < m.reduced + 4 * f.getD 4 0))

/-- The next ordered packet of a space that the endpoint takes in: withheld contributions alone are passed over (R487,
R493). -/
def Mer.nextIn (m : Mer) (space : Nat) : Option Packet :=
  (m.inbound.filter (fun p => p.space = space)).find? (fun p => !m.withheld p)

/-- A packet that the endpoint has taken in. -/
def State.takeIn (s : State) (p : Packet) : State := s.modMer (fun m => { m with inbound := m.inbound.erase p })

/-- STALL_NOTICE (R490): a notice is taken in. -/
def execStallNotice (space : Nat) (s : State) : Result :=
  .next (match (s.mer.nextIn space).filter (fun p => s.mer.active && p.kind == 5) with
  | some p => (s.takeIn p).noteStall p
  | none => s)

/-- A message for a queue; refused ones go to the error queue, and one that has no room changes nothing (R491). -/
def State.deliver (s t : State) (p : Packet) (m : Msg) (took : State → State) : State :=
  match t.arrive p.queue p.space m with
  | .held => s
  | .stored t => (took t).tell p.key.src p.reply p.dest 0 []
  | .refused => ((took t).errorEntry 0x8A p.queue (Packet.header p)).tell p.key.src p.reply p.dest 0x81 []

/-- A length that UEC messages, or puts and gets, support (R473). -/
def lenOk (put : Bool) (n : Nat) : Bool := decide (1 ≤ n) && decide (n ≤ if put then 16777216 else 65536)

/-- An own ROD command has to let an earlier one to the same endpoint go first (R473): in sending, one not sent; in delivery,
one not performed. -/
def State.rodWaits (s : State) (id : Nat) (dests : List Nat) (sending : Bool) : Bool :=
  let rod := fun (c : Cmd) => match c.work with
    | .net n => n.rod && n.status.isNone && n.waits.any dests.contains && !(sending && n.sent)
    | _ => false
  (s.cmds.find? id).any rod && s.cmds.any (fun e => decide (e.1 < id) && rod e.2)

/-- MESSAGE_DELIVERY (R487, R491): an ordered message or put in its order; an unordered message as it comes, of ROD in order.
What R473 does not support is refused. -/
def execMessageDelivery (pkt : Packet) (s : State) : Result :=
  .next (if ¬s.mer.active ∨ pkt.kind ≠ 0 ∨ pkt.dest ≠ s.mer.mepid then s
  else if pkt.ord then
    if s.mer.nextIn pkt.space ≠ some pkt then s
    else if ¬lenOk (pkt.queue == 64) pkt.payload.length then (s.takeIn pkt).tell pkt.key.src pkt.reply pkt.dest 0x81 []
    else if pkt.queue = 64 then
      let r := (s.takeIn pkt).servePut pkt.asid pkt.addr pkt.payload
      r.1.tell pkt.key.src pkt.reply pkt.dest (if r.2 then 0 else 0x81) []
    else
      s.deliver s pkt { src := pkt.key.src, stamp := pkt.key.stamp, ord := true, logical := decide (4096 ≤ pkt.space),
                        payload := pkt.payload } (fun t => t.takeIn pkt)
  else if pkt.key.src = s.mer.mepid ∧ (¬s.mer.flight.contains pkt ∨ s.rodWaits pkt.reply [pkt.dest] false) then s
  else if ¬lenOk false pkt.payload.length then s.tell pkt.key.src pkt.reply pkt.dest 0x81 []
  else
    let t := s.tick
    s.deliver t pkt { src := pkt.key.src, stamp := t.mer.time.toNat, ord := false, logical := false, payload := pkt.payload }
      (fun t => t.modMer (fun m => { m with flight := m.flight.erase pkt })))

/-- Bytes that a put or get names. -/
def askLen : PutGet → Nat
  | .put _ _ data => data.length
  | .get _ _ n => n

/-- A put or get performed where it lands, and its source told (R478, R499); one that R473 does not support is refused. -/
def State.performAsk (s : State) (src reply : Nat) (req : PutGet) : State :=
  let me := s.mer.mepid
  if ¬lenOk true (askLen req) then s.tell src reply me 0x81 [] else
  match req with
  | .put addr asid data =>
    let r := s.servePut asid addr data
    r.1.tell src reply me (if r.2 then 0 else 0x81) []
  | .get addr asid len =>
    let r := s.serveGet asid addr len
    match r.2 with
    | some bs => r.1.tell src reply me 0 bs
    | none => r.1.tell src reply me 0x81 []

/-- PUT_GET_SERVE (R478): of another endpoint by a port, or the package's own. -/
def execPutGetServe (inp src : Nat) (req : PutGet) (reply : Nat) (s : State) : Result :=
  .next (if ¬s.mer.active then s
  else if inp < 16 then
    if src ≠ s.mer.mepid ∧ src < 8192 ∧ (s.mer.ports.find? inp).any (fun p => p.up) then s.performAsk src reply req else s
  else if src = s.mer.mepid ∧ s.mer.asked.contains (reply, req) ∧ ¬s.rodWaits reply [src] false then
    (s.modMer (fun m => { m with asked := m.asked.erase (reply, req) })).performAsk src reply req
  else s)

/-! ### Reductions (R493 to R495) -/

/-- An abandon notice to a contributor (R495), stamped no lower than R486 still allows (assumption log 40). -/
def State.abandonTo (s : State) (asid space stamp : Nat) (c : Contribution) (mismatch : Bool) : State :=
  s.switchSend 4 space (max stamp ((s.sourceStamp space).getD 0)) c.key.src (b2n mismatch) asid c.reply []

/-- A contribution that joins its round, or opens it; disagreement, or a second one of a source, spoils the round (R495). -/
def RedRound.add (r : RedRound) (f : List Nat) (c : Contribution) : RedRound :=
  { r with
    bad := r.bad || decide (f.drop 2 ≠ [r.root, r.npart, r.count, r.op]) || r.contribs.any (fun x => x.key.src = c.key.src)
    contribs := r.contribs ++ [c] }

/-- REDUCTION_CONTRIBUTION (R493, R495). -/
def execReductionContribution (pkt : Packet) (s : State) : Result :=
  .next (if ¬s.mer.active ∨ pkt.kind ≠ 2 ∨ s.mer.nextIn pkt.space ≠ some pkt then s
  else
    let s := s.takeIn pkt
    let f := (redFields pkt).1
    let c : Contribution := { key := pkt.key, reply := pkt.reply, data := (redFields pkt).2 }
    let name := (pkt.asid, f.getD 0 0, f.getD 1 0)
    if s.mer.closed.contains name then
      (s.modMer (fun m => { m with mrlate := m.mrlate + 1 })).abandonTo pkt.asid pkt.space (c.key.stamp + 1) c false
    else if s.mer.rounds.any (fun r => (r.asid, r.coll, r.round) = name) then
      s.modMer (fun m => { m with rounds := m.rounds.map (fun r => if (r.asid, r.coll, r.round) = name then r.add f c else r) })
    else
      s.modMer (fun m => { m with rounds := m.rounds ++
        [{ asid := pkt.asid, coll := f.getD 0 0, round := f.getD 1 0, space := pkt.space, root := f.getD 2 0,
           npart := f.getD 3 0, count := f.getD 4 0, op := f.getD 5 0, contribs := [c], bad := false }] }))

/-- Contributions in ascending key order (R494). -/
def insertKey (c : Contribution) : List Contribution → List Contribution
  | [] => [c]
  | x :: xs => if pkLt c.key x.key then c :: x :: xs else x :: insertKey c xs

/-- An element of a contribution; BF16 taken exactly as FP32 (R494). -/
def redElem (op i : Nat) (data : List Byte) : Word :=
  if op = 2 then BitVec.ofNat 32 (leNat ((data.drop (2 * i)).take 2) * 65536)
  else BitVec.ofNat 32 (leNat ((data.drop (4 * i)).take 4))

/-- One combination (R494). -/
def redCombine (op : Nat) (a v : Word) : Word :=
  match op with
  | 0 => a + v
  | 3 => fmax32 a v
  | 4 => fmin32 a v
  | _ => fadd32 .rn a v

/-- The result's bytes: for ADD.BF16 rounded once to BF16 (R494). -/
def redResult (op count : Nat) (cs : List Contribution) : List Byte :=
  (List.range count).flatMap (fun i =>
    let w := match cs with
      | [] => 0
      | c :: rest => rest.foldl (fun a x => redCombine op a (redElem op i x.data)) (redElem op i c.data)
    if op = 2 then leBytes 2 (toBf16 .rn (fval w)).toNat else leBytes 4 w.toNat)

/-- A round of the reduction buffer. -/
def Mer.roundOf (m : Mer) (asid coll round : Nat) : Option RedRound :=
  m.rounds.find? (fun r => r.asid = asid ∧ r.coll = coll ∧ r.round = round)

/-- A round leaves the buffer. -/
def Mer.closeRound (m : Mer) (r : RedRound) : Mer :=
  { m with rounds := m.rounds.erase r, closed := m.closed ++ [(r.asid, r.coll, r.round)] }

/-- The result goes to a contributor (R494). -/
def State.resultTo (s : State) (r : RedRound) (data : List Byte) (c : Contribution) : State :=
  s.switchSend 3 r.space r.stamp c.key.src 0 r.asid c.reply data

/-- REDUCTION_COMBINE (R494). -/
def execReductionCombine (asid coll round : Nat) (s : State) : Result :=
  .next (match s.mer.roundOf asid coll round with
  | none => s
  | some r =>
    let cs := r.contribs.foldl (fun xs c => insertKey c xs) []
    match cs.getLast? with
    | none => s
    | some l =>
      if ¬s.mer.active ∨ r.bad ∨ cs.length ≠ r.npart ∨ ¬s.received r.space l.key then s
      else cs.foldl (fun s c => s.resultTo r (redResult r.op r.count cs) c) (s.modMer (fun m => m.closeRound r)))

/-- REDUCTION_ABANDON (R495): a spoilt round with MISMATCH, any other after ABANDON µs. -/
def execReductionAbandon (asid coll round : Nat) (mismatch : Bool) (s : State) : Result :=
  .next (match s.mer.roundOf asid coll round with
  | none => s
  | some r =>
    if ¬s.mer.active ∨ r.bad ≠ mismatch then s
    else
      r.contribs.foldl (fun s c => s.abandonTo r.asid r.space r.stamp c mismatch)
        (s.modMer (fun m => { m.closeRound r with abandon := true })))

/-- An NRED whose contribution has been sent and that waits for its result, as a command. -/
def State.redWaits (s : State) (id : Nat) : Option (Cmd × Net) :=
  match s.cmds.find? id with
  | some c =>
    (match c.work with
    | .net n => if n.kind = .red ∧ n.sent ∧ n.status.isNone then some (c, n) else none
    | _ => none)
  | none => none

/-- What the endpoint takes in next for a command, of a kind, if that is what it is (R487). -/
def Mer.replyFor (m : Mer) (kind cmd : Nat) : Option Packet :=
  m.inbound.find? (fun p => m.active && p.kind == kind && p.reply == cmd && m.nextIn p.space == some p)

/-- REDUCTION_RESULT (R494, R500): a result is taken in, for the NRED that waits for it. -/
def execReductionResult (cmd stamp : Nat) (data : List Byte) (s : State) : Result :=
  .next (match (s.mer.replyFor 3 cmd).filter (fun p => p.key.stamp == stamp && p.payload == data) with
  | none => s
  | some p =>
    match s.redWaits cmd with
    | none => s.takeIn p
    | some (_, n) =>
      if data.length ≠ n.len then s.takeIn p
      else ((s.takeIn p).modNet cmd (fun n => n.bring data 0)).keyNet cmd stamp)

/-- ABANDON_NOTICE (R495): a notice is taken in. -/
def execAbandonNotice (cmd : Nat) (mismatch : Bool) (s : State) : Result :=
  .next (match (s.mer.replyFor 4 cmd).filter (fun p => p.queue == b2n mismatch) with
  | none => s
  | some p =>
    match s.redWaits cmd with
    | none => s.takeIn p
    | some _ =>
      ((s.takeIn p).modNet cmd (fun n => n.answer 0 (if mismatch then 0x85 else 0x84))).keyNet cmd p.key.stamp)

/-! ### Links, time and routes (R475, R478, R479) -/

/-- Ways to the grandmasters that this endpoint knows of: grandmaster, hops, port; itself, with no hop, by port 16 (R479). -/
def Mer.grandmasters (m : Mer) : List (Nat × Nat × Nat) :=
  (if bit m.cfg.toNat 32 && m.active then [(m.mepid, 0, 16)] else []) ++
    (m.masters.filter (fun e => (m.ports.find? e.1).any (fun p => p.up))).map (fun e => (e.2.1, e.2.2 + 1, e.1))

/-- The way the time comes: the grandmaster of lowest identifier, by the least hops, ties to the lower port (R479). -/
def Mer.parent (m : Mer) : Option (Nat × Nat × Nat) :=
  m.grandmasters.foldl (fun (b : Option (Nat × Nat × Nat)) x =>
    match b with
    | none => some x
    | some y =>
      if x.1 < y.1 ∨ (x.1 = y.1 ∧ (x.2.1 < y.2.1 ∨ (x.2.1 = y.2.1 ∧ x.2.2 < y.2.2))) then some x else some y) none

/-- Sextant is locked only with a grandmaster; whether it is then is open (R476, R479; assumption log 3). -/
def State.lock (s : State) : State :=
  s.bump.modMer (fun m => { m with sync := !m.grandmasters.isEmpty && Config.freeBool s.fresh })

/-- LINK_TRAINING (R475): a port learns whether its partner is a Huaxel switch. -/
def execLinkTraining (port : Nat) (huaxel : Bool) (s : State) : Result :=
  .next (if port < 16 then s.modMer (fun m => { m with ports := m.ports.set port { up := true, huaxel := huaxel, trained := true } })
    else s)

/-- LINK_FAILURE: a port's link is down. -/
def execLinkFailure (port : Nat) (s : State) : Result :=
  .next (if (s.mer.ports.find? port).any (fun p => p.up) then
      (s.modMer (fun m => { m with ports := m.ports.modify port (fun p => { p with up := false }),
                                   masters := m.masters.erase port })).lock
    else s)

/-- SEXTANT_FRAME (R479): a partner's time, grandmaster and hops to it; the own time slews toward that of the way it comes by,
and never steps or runs back. -/
def execSextantFrame (port : Nat) (time : DWord) (master : Nat × Nat) (s : State) : Result :=
  .next (if (s.mer.ports.find? port).any (fun p => p.up) then
      let s := s.tick.modMer (fun m =>
        { m with masters := if master.1 < 8192 then m.masters.set port master else m.masters.erase port })
      (s.modMer (fun m =>
        { m with slew := if m.parent.any (fun x => x.2.2 == port) then (time.toNat : Int) - m.time.toNat else m.slew })).lock
    else s)

/-- SEXTANT_FRAME_SEND (R479): the time, the grandmaster of lowest identifier, and the hops to it. -/
def execSextantFrameSend (port : Nat) (s : State) : Result :=
  .next (if (s.mer.ports.find? port).any (fun p => p.up) then
      let s := s.tick
      let w := s.mer.parent.getD (0xFFFF, 0, 0)
      s.send port (.sextant s.mer.time w.1 w.2.1)
    else s)

/-- A route entry as loaded: ORDOK is Meridian's (R475, R478). -/
def Mer.loadRoute (m : Mer) (d v : Nat) : Nat :=
  let ok := bit v 4 && ((m.ports.find? (bits v 0 4)).any (fun p => p.huaxel) || d == m.mepid)
  v - b2n (bit v 5) * 32 + b2n ok * 32

/-- MROUTE (R478): the table is loaded, and ORDOK written into it. -/
def execMroute (port : Nat) (val : DWord) (s : State) : Result :=
  .next (s.guarded port 1 (fun s =>
    let r := s.readPhys val.toNat 16384
    let vs := (List.range 8192).map (fun d => r.1.mer.loadRoute d (leNat ((r.2.drop (2 * d)).take 2)))
    (r.1.writePhys val.toNat (vs.flatMap (leBytes 2))).modMer (fun m =>
      { m with mroute := val, routes := (vs.zipIdx.filter (fun e => e.1 ≠ 0)).map (fun e => (e.2, e.1)) })))

/-- MQCFG (R477): ignored, with REJ, while the queue holds a message or a command waits on it. -/
def execMqcfg (port q : Nat) (val : DWord) (s : State) : Result :=
  .next (if 64 ≤ q then s else s.guarded port (if q < 32 then 1 else 2) (fun s =>
    if ¬(s.dqueue q).msgs.isEmpty ∨ ¬(s.dqueue q).waiting.isEmpty then s.modMer (fun m => { m with rej := true })
    else (s.modMer (fun m => { m with qcfg := m.qcfg.put 0 q (val &&& 0x7FFFFFFFFFFFFFF) })).modDqueue q (fun d => { d with head := 0 })))

/-- RETRANSMISSION (R491, R496): what a command has on the links is sent again, or its retransmissions are exhausted. -/
def execRetransmission (cmd : Nat) (exhausted : Bool) (s : State) : Result :=
  .next (match s.cmds.find? cmd with
  | none => s
  | some c =>
    match c.work with
    | .net n =>
      if ¬n.sent ∨ n.uud ∨ n.status.isSome ∨ n.waits.all (fun d => d = s.mer.mepid) then s
      else if exhausted then (s.modNet cmd (fun n => n.answer 0 0x82)).keyNet cmd c.key.1
      else
        (s.mer.wire.filter (fun e => match e.2 with
          | .packet p => p.reply == cmd && p.key.src == s.mer.mepid && p.kind != 1
          | .ask _ _ r => r == cmd
          | _ => false)).dedup.foldl (fun s e => s.send e.1 e.2) s
    | _ => s)

end Sys2Proof.Machine
end

