-- ==== Sys2Proof/Machine/Traverse.lean ====
section
/-! DEFINITION. The Traverse engine (spec/07_traverse.md R286 to R315): acceptance of XFER and XMCAST, the writes of a
unit, completion, and the meanings of XFER_*, XMCAST, ENGINE_LINE_RELEASE's part for them and TRAVERSE_REFUSAL_RETRY. -/

namespace Sys2Proof.Machine

/-! ### What a command writes -/

/-- One destination element of a command: its generic or WBUF address, the element as read, the places and masks it writes (none outside
the accessible set), and its bytes (none while a source is outside it). -/
structure Item where
  row : Nat
  addr : DWord
  raw : Option Nat
  dst : Option (List (Place × Byte))
  val : Option (List Byte)
deriving DecidableEq, Repr

/-- A raw source element at an address and nibble. -/
def State.rawElem (s : State) (id : Nat) (cmd : Cmd) (x : Xfer) (e : Elem) : Option Nat :=
  if e.pad then some (padElem x.shape)
  else if x.sacc then
    let a := (BitVec.ofNat 32 x.src.toNat).toNat + e.src.1
    let k := s.core cmd.core
    some (k.accRead cmd.asid (a.toNat / 65536) (a.toNat / 512 % 128) (a.toNat / 4 % 128) false).toNat
  else
    (s.sourceNat id cmd (x.src + BitVec.ofInt 64 e.src.1) (typeBytes x.shape.stype)).map (fun v =>
      if isFour x.shape.stype then v / 16 ^ e.src.2 % 16 else v)

/-- A plane byte of a block: 1.0 or 0x00 come from an absent plane (R300). -/
def State.planeByte (s : State) (id : Nat) (cmd : Cmd) (base : DWord) (pos : Nat) : Option Byte :=
  (s.sourceNat id cmd (base + BitVec.ofNat 64 pos) 1).map (BitVec.ofNat 8)

/-- The block scale of a coordinate and its code (R300). -/
def State.blockScale (s : State) (id : Nat) (cmd : Cmd) (x : Xfer) (c : List Nat) : Option (FVal × Nat) :=
  let r := x.shape
  if x.fn = 3 ∧ r.scomp then
    let code := match x.scales.find? (planePos r c) with
      | some k => some k
      | none => ((blockCoords r c).mapM (fun k =>
          (s.rawElem id cmd x (elemAt x.fn r [] k)).map (fun v => floatElem r.stype v 0))).map (autoScale r)
    code.map (fun k => (planeScale r.sfmt (BitVec.ofNat 8 k), k))
  else if r.scaleAddr = 0 then some (oneF, 0)
  else (s.planeByte id cmd r.scaleAddr (planePos r c)).map (fun b => (planeScale r.sfmt b, b.toNat))

/-- The BSV of a coordinate's block (R300). -/
def State.blockBsv (s : State) (id : Nat) (cmd : Cmd) (x : Xfer) (c : List Nat) : Option Byte :=
  if (x.fn = 3 ∧ x.shape.scomp) ∨ x.shape.specAddr = 0 then some 0
  else s.planeByte id cmd x.shape.specAddr (planePos x.shape c)

/-- The destination element of a transform (R299 to R301). -/
def State.destElem (s : State) (id : Nat) (cmd : Cmd) (x : Xfer) (e : Elem) : Option Nat :=
  match s.rawElem id cmd x e with
  | none => none
  | some v =>
    if isQuant x.fn then
      match s.blockScale id cmd x e.c, s.blockBsv id cmd x e.c with
      | some bs, some bsv =>
        let r := x.shape
        if x.fn = 4 then some (dequant r v bs.1 bsv)
        else some (quantise (floatElem r.stype v 0) (mulF r.tval bs.1) (narrowOf r.dtype) r.ovf r.usebsv bsv)
      | _, _ => none
    else some v

/-- The address a destination element goes to, swizzled (R289, R299). -/
def Xfer.destAddr (x : Xfer) (e : Elem) : DWord := swizzle x.shape.swz (x.dst + BitVec.ofInt 64 e.dst.1)

/-- Where a destination address of `n` bytes lies: in WBUF, in every replica of a multicast, or in the generic space
(R297, R307). -/
def State.destPlaces (s : State) (cmd : Cmd) (x : Xfer) (addr : DWord) (n : Nat) : Option (List (List Place)) :=
  let range := fun (sp : Space) (off : Nat) => (List.range n).map (fun k => ((sp, off + k) : Place))
  if x.replicas.isEmpty then
    if x.wbuf then some [range (.wbuf cmd.core) addr.toNat]
    else (s.cmdPlaces cmd.grid cmd.view addr n .write).map (fun ps => [ps])
  else
    some (x.replicas.filterMap (fun k => (memberIn cmd.view k).map (fun m =>
      if x.wbuf then range (.wbuf m.core) addr.toNat else range (.spad m.core) (m.base + addr.toNat))))

/-- The bits of its bytes that a destination element writes (R253). -/
def elemMask (t nib : Nat) : List Byte :=
  if isFour t then [if nib = 0 then 0x0F else 0xF0] else List.replicate (typeBytes t) 0xFF

/-- The bytes of a destination element. -/
def elemBytes (t nib v : Nat) : List Byte :=
  if isFour t then [BitVec.ofNat 8 (v % 16 * 16 ^ nib)] else leBytes (typeBytes t) v

/-- The items of the elements (R299, R302); an element of a multicast's tile is read once (R307). -/
def State.elemItems (s : State) (id : Nat) (cmd : Cmd) (x : Xfer) (idx : List Nat) : List Item :=
  (elemsOf x.fn x.shape idx).zipIdx.map (fun i =>
    let e := i.1
    let t := x.shape.dtype
    let addr := x.destAddr e
    let copies := s.destPlaces cmd x addr (typeBytes t)
    let read := match x.tile.find? i.2 with
      | some v => some v
      | none => s.destElem id cmd x e
    { row := e.row, addr := addr, raw := read
      dst := copies.map (fun ls => ls.flatMap (fun ps => ps.zip (elemMask t e.dst.2)))
      val := read.map (fun v =>
        (List.replicate ((copies.getD []).length) (elemBytes t e.dst.2 v)).flatten) })

/-- The plane bytes that SCOMP = 1 writes (R300). -/
def State.planeItems (s : State) (id : Nat) (cmd : Cmd) (x : Xfer) : List Item :=
  let r := x.shape
  if x.fn = 3 ∧ r.scomp then
    (blockHeads r).flatMap (fun c =>
      let item := fun (base : DWord) (v : Option Byte) =>
        let addr := base + BitVec.ofNat 64 (planePos r c)
        ({ row := 0, addr := addr, raw := none, dst := (s.cmdPlaces cmd.grid cmd.view addr 1 .write).map (fun ps =>
             ps.map (fun p => (p, (0xFF : Byte)))), val := v.map (fun b => [b]) } : Item)
      item r.scaleAddr ((s.blockScale id cmd x c).map (fun b => BitVec.ofNat 8 b.2)) ::
        (if r.dtype = 6 ∧ r.specAddr ≠ 0 then [item r.specAddr (some 0)] else []))
  else []

/-- Everything a command writes, in tile order (R299, R302, R303). -/
def State.xferItems (s : State) (id : Nat) (cmd : Cmd) (x : Xfer) : List Item :=
  s.elemItems id cmd x (x.idx.getD []) ++ s.planeItems id cmd x

/-- The indices of some rows of a gather or scatter, up to one it stops at; none outside the accessible set (R302). -/
def State.indexRows (s : State) (id : Nat) (cmd : Cmd) (r : Shape) : List Nat → Option (List Nat)
  | [] => some []
  | k :: ks =>
    match (if rowPad r k then some 0 else s.sourceNat id cmd (r.idxAddr + BitVec.ofNat 64 (4 * k)) 4) with
    | none => none
    | some i =>
      if ¬rowPad r k ∧ r.idxLim ≤ i then some [i] else (s.indexRows id cmd r ks).map (fun is => i :: is)

/-- The index vector as a command reads it now: rows whose index it has used keep it (R302, R303). -/
def State.readIndices (s : State) (id : Nat) (cmd : Cmd) (x : Xfer) : Option (List Nat) :=
  let used := (x.idx.getD []).take x.fixed
  let r := x.shape
  if (stopRow r used).any (fun k => decide (k < used.length)) then some used
  else (s.indexRows id cmd r (((List.range (r.dim r.last).tile)).drop used.length)).map (fun is => used ++ is)

/-- Places an item writes. -/
def Item.places (i : Item) : List Place := (i.dst.getD []).map Prod.fst

/-- Units that items write. -/
def itemUnits (items : List Item) : List Place := (items.flatMap (fun i => i.places.map unitOf)).dedup

/-- A command needs a byte outside the accessible set (R304). -/
def leaseFault (items : List Item) : Bool := items.any (fun i => i.dst.isNone || i.val.isNone)

/-! ### Acceptance (R298) -/

/-- The record at an address: the cached bytes or the bytes that stand there, by a free pick for each command, and the record
cache after it, which may keep the bytes it had (R291). In Reckoning mode the bytes that stand there (R54; assumption log
35). -/
def State.readRecord (s : State) (reckon : Bool) (core asid : Nat) (addr : DWord) (ps : List Place) : List Byte × State :=
  let fromMem := ps.map s.byteAt
  let old := if reckon then none
    else ((s.core core).recCache.find? (fun e => e.1 = asid && e.2.1 = addr.toNat)).map (fun e => e.2.2)
  let bs := match old with
    | some o => if Config.freeBool s.fresh then o else fromMem
    | none => fromMem
  let kept := match old with
    | some o => if Config.freeBool (s.fresh + 1) then o else bs
    | none => bs
  let s := s.modCore core (fun k =>
    { k with recCache := ((asid, addr.toNat, kept) ::
        k.recCache.filter (fun e => !(e.1 == asid && e.2.1 == addr.toNat))).take 64 })
  (bs, if old.isSome then { s with fresh := s.fresh + 2 } else s)

/-- Addresses of `n` bytes that must be in an aperture (R298 step 4). -/
abbrev Reach := List (DWord × Nat)

/-- A contiguous range, cut where the swizzle moves its parts: pieces of at most `step` bytes that start on a multiple of it,
as they lie after the swizzle (R289). -/
def swizzledPieces (swz step : Nat) (lo n : Nat) : Reach :=
  if n = 0 then []
  else (List.range ((lo + n - 1) / step + 1 - lo / step)).map (fun k =>
    let a := max lo ((lo / step + k) * step)
    let b := min (lo + n) ((lo / step + k + 1) * step)
    (swizzle swz (BitVec.ofNat 64 a), b - a))

/-- The range of a scatter's rows 0 to IDXLIM − 1, before the swizzle (R298, R302). -/
def scatterRange (x : Xfer) : Option (Nat × Nat) :=
  let r := x.shape
  let rows : List Nat := if r.idxLim = 0 then [] else [0, r.idxLim - 1]
  rangeOf ((coords (r.tiles.take r.last)).flatMap (fun c => rows.map (fun i =>
    (x.dst + BitVec.ofInt 64 (relOff r.dtype (c ++ [i]) r.ds).1, typeBytes r.dtype))))

/-- A scatter's padding rows, each of which goes to its own row (R302). -/
def scatterPads (x : Xfer) : Reach :=
  let r := x.shape
  ((coords r.tiles).filter (fun c => rowPad r (c.getD r.last 0))).map (fun c =>
    (swizzle r.swz (x.dst + BitVec.ofInt 64 (relOff r.dtype c r.ds).1), typeBytes r.dtype))

/-- What a command can touch at its source and its destination, as far as it shows their lowest and highest addresses: the
extreme rows of a gather's source, and the two ends of a scatter's range (R298 step 4). -/
def reaches (x : Xfer) : Reach × Reach :=
  let r := x.shape
  let all := (coords r.tiles).map (elemAt x.fn r [])
  let rows : List Nat := if r.idxLim = 0 then [] else [0, r.idxLim - 1]
  let inner := (coords (r.tiles.take r.last))
  let src : Reach :=
    if x.fn = 5 then
      (inner.filter (fun c => !((c.zip r.dims).any (fun e => decide (e.1 < e.2.padlo) || decide (e.2.valid ≤ e.1))))).flatMap
        (fun c => rows.map (fun i => (x.src + BitVec.ofInt 64 (relOff r.stype (c ++ [i]) r.ss).1, typeBytes r.stype)))
    else (all.filter (fun e => !e.pad)).map (fun e => (x.src + BitVec.ofInt 64 e.src.1, typeBytes r.stype))
  let dst : Reach :=
    if x.fn = 6 then
      (match scatterRange x with
      | some (lo, n) =>
        if r.swz = 0 ∨ n ≤ 256 then swizzledPieces r.swz (if r.swz = 0 then 2 ^ 64 else 16) lo n
        else
          let a := 128 - lo % 128
          let b := (lo + n) % 128 + 128
          swizzledPieces r.swz 16 lo a ++ swizzledPieces r.swz 16 (lo + n - b) b
      | none => []) ++ scatterPads x
    else all.map (fun e => (x.destAddr e, typeBytes r.dtype))
  (src, dst)

/-- Scale plane, BSV plane and index bytes that a command touches (R297, R300, R302): index words of the rows below `rows`. -/
def planesTo (x : Xfer) (rows : Nat) : Reach × Reach × Reach :=
  let r := x.shape
  let blocks := if isQuant x.fn then (blockHeads r).map (planePos r) else []
  (if r.scaleAddr = 0 then [] else blocks.map (fun k => (r.scaleAddr + BitVec.ofNat 64 k, 1)),
   if r.specAddr = 0 then [] else blocks.map (fun k => (r.specAddr + BitVec.ofNat 64 k, 1)),
   if x.fn = 5 ∨ x.fn = 6 then
     ((List.range (min rows (r.dim r.last).tile)).filter (fun k => !rowPad r k)).map (fun k =>
       (r.idxAddr + BitVec.ofNat 64 (4 * k), 4)) else [])

/-- All of them. -/
def planeReach (x : Xfer) : Reach × Reach × Reach := planesTo x (x.shape.dim x.shape.last).tile

/-- A range that no one aperture, and in SPAD no one member, holds: its lowest address when that is outside already, else its
highest (R180, R298; assumption log 36). -/
def rangeTrap (view : List MemberView) (es : Reach) : Option DWord :=
  match rangeOf es with
  | none => none
  | some (lo, n) =>
    if (viewPlace view (BitVec.ofNat 64 lo) n).isSome then none
    else if (viewPlace view (BitVec.ofNat 64 lo) 1).isNone then some (BitVec.ofNat 64 lo)
    else some (BitVec.ofNat 64 (lo + n - 1))

/-- The first of some. -/
def firstSome {α : Type} : List (Option α) → Option α
  | [] => none
  | some a :: _ => some a
  | none :: l => firstSome l

/-- Steps 4 to 6 of R298: none when they pass, else the trap's cause and address. -/
def addressTrap (view : List MemberView) (x : Xfer) : Option (Nat × DWord) :=
  let rs := reaches x
  let r := x.shape
  let planes := planeReach x
  let beyond := fun (limit : Nat) => match rangeOf rs.2 with
    | some (lo, n) => if limit < lo + n then some (BitVec.ofNat 64 (lo + n - 1)) else none
    | none => none
  let inAcc := fun (e : DWord × Nat) => decide ((e.1 - x.src + (x.src.setWidth 32).setWidth 64).toNat + e.2 ≤ 8388608)
  match firstSome
    [if x.sacc then none else rangeTrap view rs.1,
     if x.wbuf ∨ ¬x.replicas.isEmpty then none else rangeTrap view rs.2,
     rangeTrap view planes.1, rangeTrap view planes.2.1, rangeTrap view planes.2.2,
     if x.replicas.isEmpty ∨ x.wbuf then none
     else firstSome (x.replicas.map (fun k => match memberIn view k with
       | some m => beyond m.spadb
       | none => some x.dst)),
     if x.wbuf then (if 2 ^ 32 ≤ x.dst.toNat then some x.dst else beyond 2097152) else none,
     if x.sacc then (rs.1.find? (fun e => !inAcc e)).map Prod.fst else none] with
  | some a => some (0x03, a)
  | none =>
    if x.dst.toNat % typeBytes r.dtype ≠ 0 then some (0x04, x.dst)
    else if x.fn ≠ 7 ∧ x.src.toNat % typeBytes r.stype ≠ 0 then some (0x04, x.src)
    else if (x.fn = 5 ∨ x.fn = 6) ∧ r.idxAddr.toNat % 4 ≠ 0 then some (0x04, r.idxAddr)
    else none

/-- Units owned from acceptance on: those of every destination byte, and for SCATTER every unit of the range of rows 0 to
IDXLIM − 1 (R30, R302). -/
def State.ownedUnits (s : State) (cmd : Cmd) (x : Xfer) : List (Space × Nat × Nat) :=
  let r := x.shape
  let placesOf := fun (e : DWord × Nat) => ((s.destPlaces cmd x e.1 e.2).getD []).flatten.map unitOf
  let planes := if x.fn = 3 ∧ r.scomp then
      ((planeReach x).1 ++ (planeReach x).2.1).flatMap (fun e =>
        ((s.cmdPlaces cmd.grid cmd.view e.1 e.2 .write).getD []).map unitOf) else []
  let rows := if x.fn = 6 then
      ((match scatterRange x with
      | some (lo, n) => swizzledPieces r.swz (if r.swz = 0 then 32 else 16) lo n
      | none => []) ++ scatterPads x).flatMap (fun e => placesOf (e.1, 1))
    else (reaches x).2.flatMap placesOf
  unitRanges (rows ++ planes)

/-- Source bytes that count as reads of the issuing group (R212, R313). -/
def State.sourcePlaces (s : State) (cmd : Cmd) (x : Xfer) : List (Place × DWord) :=
  let r := x.shape
  let at' := fun (e : DWord × Nat) =>
    ((s.cmdPlaces cmd.grid cmd.view e.1 e.2 .read).getD []).zipIdx.map (fun p => (p.1, e.1 + BitVec.ofNat 64 p.2))
  let elems := if x.sacc ∨ x.fn = 7 then [] else
    ((elemsOf x.fn r (x.idx.getD [])).filter (fun e => !e.pad)).flatMap (fun e =>
      at' (x.src + BitVec.ofInt 64 e.src.1, typeBytes r.stype))
  let ps := planesTo x (((x.idx.bind (stopRow r)).map (· + 1)).getD (r.dim r.last).tile)
  elems ++ (if x.fn = 3 ∧ r.scomp then [] else (ps.1 ++ ps.2.1 ++ ps.2.2).flatMap at')

/-- Acceptance of a command whose checks have passed (R22, R30, R212, R321). -/
def acceptXfer (c : Ctx) (tag : Nat) (bar : Option Nat) (view : List MemberView) (recPs : List (Place × DWord)) (x : Xfer)
    (s : State) : State :=
  let s := s.accept c (some tag) bar view [] (.xfer x)
  let id := s.uid
  match s.cmds.find? id with
  | none => s
  | some cmd =>
    let x := if c.reckon ∧ (x.fn = 5 ∨ x.fn = 6) then
        { x with idx := s.readIndices id cmd x, fixed := (x.shape.dim x.shape.last).tile } else x
    let owned := s.ownedUnits cmd x
    let s := { s with cmds := s.cmds.modify id (fun k => { k with owned := owned, work := .xfer x }) }
    let s := s.cores.foldl (fun s e =>
      e.2.alb.foldl (fun s line => if ({ cmd with owned := owned }).owns (.global, line) then s.recall none line else s) s) s
    let s := s.sourceAccess id (recPs ++ s.sourcePlaces cmd x)
    if x.sacc then s.modCore c.grp.core (fun k => { k with accQ := k.accQ ++ [id] }) else s

/-- XFER and XMCAST issue (R296 to R298, R306, R307): a busy tag, stores that have not drained, or a member swapped out
hold the command at issue; the checks of R298 come in their order. `replicas` is none for XFER. In Reckoning mode a command that
the tag has held back observes the completion that freed it (R313). -/
def startXfer (fn : Nat) (a : XArgs) (mcast : Bool) (c : Ctx) (s : State) : State :=
  let recAddr := readPair c.grp a.recp
  let src := readPair c.grp a.src
  let dstPair := readPair c.grp a.dst
  let view := viewOf c s
  let obs := if c.sp.wait = .stalled then some (s.tag c.grp.core a.tag.val).key else none
  if ¬s.tagFree c.grp.core a.tag.val then
    (if c.reckon then s.modSplit c.gid c.slot (fun sp => { sp with wait := .stalled }) else s)
  else if ¬c.grp.fifo.isEmpty then s
  else
    match spanPlaces c s recAddr 192 64 .read with
    | .error t => takeTrap c t s
    | .ok ps =>
      let rec' := s.readRecord c.reckon c.grp.core c.grid.asid recAddr ps
      let shape := parseShape (leNat rec'.1)
      let s := rec'.2.touchPlaces (some c.grp.core) (c.tag s) ps
      let dst := if mcast then (dstPair.setWidth 32).setWidth 64 else dstPair
      let mask := (dstPair >>> 32).toNat
      if ¬recordOk fn a.sacc (!mcast && !a.wbuf && bits dstPair.toNat 56 8 == 0) shape then trap c 0x11 s
      else
        let loc := c.uni a.bar
        let located : Except Trap (Option Nat) :=
          if a.bar = .zero then .ok none
          else if mcast ∧ bits loc.toNat 24 4 ≠ 15 then .error { cause := 0x03, lanes := c.act }
          else (locate c s loc 16 16 true).map (fun p => some (p.2 - c.team.spadBase))
        match located with
        | .error t => takeTrap c t s
        | .ok bar =>
          let replicas := if mcast then (List.range 12).filter (fun k => bit mask k) else []
          let maskBad := mcast && (mask == 0 || decide (4096 ≤ mask) || replicas.any (fun k => (memberIn view k).isNone))
          let x : Xfer := { fn := fn, sacc := a.sacc, wbuf := a.wbuf, shape := shape, src := src, dst := dst,
                            replicas := replicas, idx := none, fixed := 0, tile := [], scales := [] }
          if maskBad ∨ (mcast ∧ ¬a.wbuf ∧ 2097152 ≤ dst.toNat) then trap c 0x03 s
          else
            match addressTrap view x with
            | some t => takeTrap c { cause := t.1, lanes := c.act, addr := t.2 } s
            | none =>
              let away := replicas.any (fun k => (s.memberTeam c.team k).any (fun m => m.swapped)) ||
                ((reaches x).1 ++ (reaches x).2).any (fun e => s.namesAway c.team e.1 e.2)
              if away then s
              else retireTo c 1 obs (c.sp.pc + 8) (acceptXfer c a.tag.val bar view
                (ps.zipIdx.map (fun p => (p.1, recAddr + BitVec.ofNat 64 p.2))) x s)

/-- XFER.COPY (R296, R299). -/
def execXferCopy (x : XArgs) (g : Guard) (s : State) : Result := issueSync (.xferCopy x g) s (startXfer 0 x false)

/-- XFER.TRANSPOSE (R296, R299). -/
def execXferTranspose (x : XArgs) (g : Guard) (s : State) : Result :=
  issueSync (.xferTranspose x g) s (startXfer 1 x false)

/-- XFER.REPACK (R296, R299). -/
def execXferRepack (x : XArgs) (g : Guard) (s : State) : Result := issueSync (.xferRepack x g) s (startXfer 2 x false)

/-- XFER.QUANT (R296, R300). -/
def execXferQuant (x : XArgs) (g : Guard) (s : State) : Result := issueSync (.xferQuant x g) s (startXfer 3 x false)

/-- XFER.DEQUANT (R296, R301). -/
def execXferDequant (x : XArgs) (g : Guard) (s : State) : Result := issueSync (.xferDequant x g) s (startXfer 4 x false)

/-- XFER.GATHER (R296, R302). -/
def execXferGather (x : XArgs) (g : Guard) (s : State) : Result := issueSync (.xferGather x g) s (startXfer 5 x false)

/-- XFER.SCATTER (R296, R302). -/
def execXferScatter (x : XArgs) (g : Guard) (s : State) : Result := issueSync (.xferScatter x g) s (startXfer 6 x false)

/-- XFER.FILL (R296, R299). -/
def execXferFill (x : XArgs) (g : Guard) (s : State) : Result := issueSync (.xferFill x g) s (startXfer 7 x false)

/-- XMCAST (R306, R307). -/
def execXmcast (x : XArgs) (g : Guard) (s : State) : Result := issueSync (.xmcast x g) s (startXfer 0 x true)

/-! ### In flight -/

/-- A command that reads ACC works once ACC order has come to it (R321). -/
def Xfer.turn (x : Xfer) (id : Nat) (cmd : Cmd) (s : State) : Bool := !x.sacc || s.accFirst cmd.core id

/-- The indices as they are read now, and the block scales of SCOMP = 1, chosen once (R300, R302, R303). -/
def State.prepare (s : State) (id : Nat) (cmd : Cmd) (x : Xfer) : Xfer :=
  let x := if x.fn = 5 ∨ x.fn = 6 then { x with idx := s.readIndices id cmd x } else x
  if x.fn = 3 ∧ x.shape.scomp then
    { x with scales := (blockHeads x.shape).filterMap (fun c =>
        (s.blockScale id cmd x c).map (fun b => (planePos x.shape c, b.2))) }
  else x

/-- What a command keeps once it has written a unit: the indices of the rows up to it, and the tile elements it took (R302,
R307). -/
def Xfer.used (x : Xfer) (items : List Item) (u : Place) (row : Nat) : Xfer :=
  let x := { x with fixed := max x.fixed (row + 1) }
  if x.replicas.isEmpty then x
  else
    { x with tile := items.zipIdx.foldl (fun m i =>
        if i.1.places.any (fun p => unitOf p = u) then (match i.1.raw with
          | some v => Map.set m i.2 v
          | none => m) else m) x.tile }

/-- A gather or scatter whose index vector it cannot read (R304). -/
def Xfer.lost (x : Xfer) : Bool := (x.fn == 5 || x.fn == 6) && x.idx.isNone

/-- The masked writes of a unit: none while a byte they need is outside the accessible set. -/
def unitWrites (items : List Item) (u : Place) : Option (List (Place × Byte × Byte)) :=
  let mine := items.filter (fun i => i.places.any (fun p => unitOf p = u))
  if mine.any (fun i => i.val.isNone) then none
  else some (mine.flatMap (fun i => (((i.dst.getD []).zip (i.val.getD [])).map (fun e => (e.1.1, e.1.2, e.2))).filter
    (fun e => unitOf e.1 = u)))

/-- The last row that writes a unit (R302). -/
def unitRow (items : List Item) (u : Place) : Nat :=
  (items.filter (fun i => i.places.any (fun p => unitOf p = u))).foldl (fun m i => max m i.row) 0

/-- A unit may be written now, but for recalls: in row order for a gather or scatter, after every earlier owner (R33,
R302). -/
def State.unitFree (s : State) (id : Nat) (cmd : Cmd) (items : List Item) (u : Place) : Bool :=
  cmd.owns u && !s.ownedBefore id u &&
    (itemUnits items).all (fun w => !cmd.owns w || decide (unitRow items u ≤ unitRow items w))

/-- A unit that may be written now: recalled global lines come ahead of the others (R31). -/
def State.unitDue (s : State) (id : Nat) (cmd : Cmd) (items : List Item) (u : Place) : Bool :=
  s.unitFree id cmd items u &&
    (cmd.recalled.contains u || !cmd.recalled.any (fun w => (itemUnits items).contains w && s.unitFree id cmd items w))

/-- The unit that the machine's own turn writes next for a command: the first that is due, or the first that is owned. -/
def State.nextUnit (s : State) (id : Nat) (cmd : Cmd) : Option Place :=
  match cmd.work with
  | .xfer x =>
    let items := s.xferItems id cmd (s.prepare id cmd x)
    (itemUnits items).find? (s.unitDue id cmd items)
  | _ => cmd.owned.head?.map (fun r => (r.1, r.2.1))

/-- ENGINE_LINE_RELEASE for XFER and XMCAST (R27, R302, R303). -/
def releaseXfer (id : Nat) (cmd : Cmd) (x : Xfer) (u : Place) (s : State) : State :=
  if s.gridOver cmd ∨ ¬x.turn id cmd s then s
  else
    let x := s.prepare id cmd x
    let items := s.xferItems id cmd x
    if x.lost ∨ ¬s.unitDue id cmd items u ∨ u ∉ itemUnits items then s
    else
      match unitWrites items u with
      | none => s
      | some ws =>
        let x := x.used items u (unitRow items u)
        let s := { s with cmds := s.cmds.modify id (fun k => { k with work := .xfer x }) }
        s.releaseUnit id cmd (!x.replicas.isEmpty) u (s.mergeBytes ws)

/-- The places a command has written, with their addresses (R212). -/
def writtenPlaces (items : List Item) : List (Place × DWord) :=
  items.flatMap (fun i => i.places.zipIdx.map (fun p => (p.1, i.addr + BitVec.ofNat 64 (p.2 % 8))))

/-- A transfer that reads sources meets an uncorrectable error in one of them: whether, is open (R304; assumption log 3). -/
def State.sourceFails (s : State) (x : Xfer) : Bool := x.fn != 7 && Config.sourceError s.fresh

/-- COMMAND_COMPLETE for XFER and XMCAST: ENDED with the grid, LEASE on a byte outside the accessible set, DATAERR on an
uncorrectable error, at any time, else OK or INDEX once every unit it writes is released (R27, R28, R302, R304). -/
def completeXfer (id : Nat) (cmd : Cmd) (x : Xfer) (s : State) : State :=
  if s.gridOver cmd then s.complete id cmd (statusWord 0 0x13) []
  else if ¬x.turn id cmd s then s
  else
    let x := s.prepare id cmd x
    let items := s.xferItems id cmd x
    if x.lost ∨ leaseFault items then (s.complete id cmd (statusWord 0 0x12) []).engineLease cmd
    else if ¬s.completable cmd then s
    else if s.sourceFails x then
      s.complete id cmd (statusWord 0 0x11) ((writtenPlaces items).filter (fun w => !cmd.owns (unitOf w.1)))
    else if (itemUnits items).any cmd.owns then s
    else
      let status := match (if x.fn = 5 ∨ x.fn = 6 then stopRow x.shape (x.idx.getD []) else none) with
        | some r => statusWord r 0x10
        | none => 0
      s.complete id cmd status (writtenPlaces items)

/-- TRAVERSE_REFUSAL_RETRY (R305): a memory agent refuses a request of a command; the refusal is counted, and the request
goes out again later. -/
def execTraverseRefusalRetry (cmd : Nat) (sp : Space) (unit hint : Nat) (s : State) : Result :=
  .next (match s.cmds.find? cmd with
  | some k =>
    (match k.work with
    | .xfer _ => if sp = .global ∧ 1 ≤ hint ∧ hint ≤ 255 ∧ unit < 2 ^ 39 then s.countMgmt 1 else s
    | _ => s)
  | none => s)

end Sys2Proof.Machine
end

