-- ==== Sys2Proof/Machine/Commands.lean ====
section
/-! DEFINITION. How commands in flight go on and complete (spec/01_machine.md R27, R28; spec/12_meridian.md R491, R499 to
R501, R503; spec/10_chart.md R421): ENGINE_LINE_RELEASE, COMMAND_COMPLETE, and both ends of a KVSEND. -/

namespace Sys2Proof.Machine

/-! ### Meridian commands (R499 to R501) -/

/-- The bytes a command brings, with their places: none outside the accessible set. -/
def State.netWrites (s : State) (cmd : Cmd) (n : Net) : Option (List (Place × Byte)) :=
  match n.data with
  | none => some []
  | some bs => (s.cmdPlaces cmd.grid cmd.view n.dst bs.length .write).map (fun ps => ps.zip bs)

/-- ENGINE_LINE_RELEASE for NGET, NRED and NRECV: a unit of the data that has come (R27, R33). -/
def releaseNet (id : Nat) (cmd : Cmd) (n : Net) (u : Place) (s : State) : State :=
  if s.gridOver cmd ∨ n.data.isNone ∨ ¬cmd.owns u ∨ s.ownedBefore id u then s
  else
    match s.netWrites cmd n with
    | none => s
    | some ws => s.releaseUnit id cmd false u (ws.filter (fun w => unitOf w.1 = u))

/-- A command leaves nothing behind in the engine. -/
def State.dropNet (s : State) (id : Nat) (n : Net) : State :=
  let s := s.modMer (fun m => { m with staged := m.staged.filter (fun p => p.reply ≠ id) })
  if n.kind = .recv then s.modDqueue n.queue (fun d => { d with waiting := d.waiting.erase id }) else s

/-- The end of a Meridian command, once its data is written (R27, R496). -/
def finishNet (id : Nat) (cmd : Cmd) (n : Net) (st : Word) (s : State) : State :=
  if ¬s.completable cmd then s
  else
    match s.netWrites cmd n with
    | none => ((s.dropNet id n).complete id cmd (statusWord 0 0x12) []).engineLease cmd
    | some ws =>
      if n.data.isSome ∧ ws.any (fun w => cmd.owns (unitOf w.1)) then s
      else
        let written := ws.zipIdx.map (fun e => (e.1.1, n.dst + BitVec.ofNat 64 e.2))
        let s := (s.dropNet id n).complete id cmd st written
        if statusCode st = 0x12 then s.engineLease cmd else s

/-- The oldest NRECV of a queue takes the message at its head (R491, R501): header, then as much payload as it allows. -/
def takeMessage (id : Nat) (cmd : Cmd) (n : Net) (s : State) : State :=
  let d := s.dqueue n.queue
  match d.msgs with
  | [] => s
  | m :: rest =>
    if d.waiting.head? ≠ some id then s
    else
      let code := if n.len < m.payload.length then 0x87 else if d.marked then 0x83 else 0
      let data := Msg.header m ++ m.payload.take n.len
      let status := statusWord (if code = 0x83 then 0 else m.payload.length) code
      let owned := unitRanges (((s.cmdPlaces cmd.grid cmd.view n.dst data.length .write).getD []).map unitOf)
      let s := s.modDqueue n.queue (fun d => { d with
        msgs := rest, waiting := d.waiting.erase id, marked := false,
        head := (d.head + ringBytes m.payload.length) % max 1 (s.mer.qSize n.queue) })
      let s := { s with cmds := s.cmds.modify id (fun c => { c with owned := owned }) }
      (s.modNet id (fun n => n.bring data status)).keyNet id (if m.ord then m.stamp else cmd.key.1)

/-- An unordered message, put or get on its way to one endpoint (R473, R499). -/
def State.transmitTo (s : State) (id : Nat) (cmd : Cmd) (n : Net) (data : List Byte) (d : Nat) : State :=
  let me := s.mer.mepid
  let req : PutGet := match n.kind with
    | .get => .get n.raddr cmd.asid n.len
    | _ => .put n.raddr cmd.asid data
  let p : Packet :=
    { kind := 0, key := { stamp := 0, src := me, seq := 0 }, space := 0, ord := false, dest := d, queue := n.queue, addr := 0,
      asid := cmd.asid, reply := id, late := false, payload := data }
  match n.kind with
  | .send => if d = me then s.modMer (fun m => { m with flight := m.flight ++ [p] }) else s.sendTo d (.packet p)
  | _ => if d = me then s.modMer (fun m => { m with asked := m.asked ++ [(id, req)] }) else s.sendTo d (.ask d req id)

/-- An unordered command goes out; under UUD nothing answers it (R499; assumption log 40). -/
def transmit (id : Nat) (cmd : Cmd) (n : Net) (s : State) : State :=
  if ¬s.mer.active ∨ s.rodWaits id n.waits true then s else
  let src := if n.kind = .get then some [] else s.netSource id cmd n
  match src with
  | none => s.modNet id (fun n => { n with status := some (statusWord 0 0x12) })
  | some bs =>
    (n.waits.foldl (fun s d => s.transmitTo id cmd n bs d) s).modNet id (fun n =>
      { n with sent := true, status := if n.uud then some 0 else none })

/-- What another endpoint answers is open (R496; assumption log 3): OK, or a fault that the command can meet. -/
def openOutcome (ord : Bool) (w : Word) : Nat :=
  let codes := [0, 0x81, 0x82, 0x88, 0x80, 0x89]
  codes.getD (w.toNat % (if ord then 6 else 5)) 0

/-- The own switch still holds an ordered packet of a command for an endpoint. -/
def Mer.holds (m : Mer) (id d : Nat) : Bool :=
  m.queued.any (fun q => q.pkt.key.src == m.mepid && q.pkt.reply == id && q.pkt.dest == d)

/-- The answer of one of the other endpoints that a command waits for, once its packet has left the package; a get that
succeeds brings open bytes. -/
def answerOne (id : Nat) (n : Net) (s : State) : State :=
  match n.waits.find? (fun d => d ≠ s.mer.mepid ∧ ¬s.mer.holds id d) with
  | none => s
  | some d =>
    let code := openOutcome n.ord (Config.freeWord s.fresh)
    if n.kind = .get ∧ code = 0 then
      let data := (List.range n.len).map (fun i => (Config.freeWord (s.fresh + 1 + i)).extractLsb' 0 8)
      { s with fresh := s.fresh + 1 + n.len }.modNet id (fun n => n.bring data 0)
    else s.bump.modNet id (fun n => n.answer d code)

/-- COMMAND_COMPLETE for the Meridian commands: their next move, or their end (R28, R499 to R501). -/
def completeNet (id : Nat) (cmd : Cmd) (n : Net) (s : State) : State :=
  if s.gridOver cmd then (s.dropNet id n).complete id cmd (statusWord 0 0x13) []
  else
    match n.status with
    | some st => finishNet id cmd n st s
    | none =>
      match n.kind with
      | .recv => takeMessage id cmd n s
      | .red => s
      | _ => if n.sent then answerOne id n s else if n.ord then s else transmit id cmd n s

/-! ### KVSEND (R421, R443, R503) -/

/-- A page as it is handed over: payload and planes. -/
def State.handPage (s : State) (e n : Nat) : Option HandPage :=
  (s.pages.find? n).map (fun p =>
    { entry := e, fill := p.fill, payload := (s.pageBytes n p 0 p.tok).take 2 |>.flatten,
      scales := if p.kvtype = 3 then [] else (List.range (2 * p.tok)).map (fun i => p.scales.getD i 0),
      ids := (List.range p.tok).map (fun i => p.ids.getD i 0) })

/-- The block-table record of a hand-over (R503; assumption log 40): the handle, then entry and FILL of every page. -/
def recordBytes (handle : Nat) (pages : List HandPage) : List Byte :=
  leBytes 4 handle ++ pages.flatMap (fun p => leBytes 4 p.entry ++ leBytes 4 p.fill)

/-- The pages of a request, as they are handed over, in ascending entry order. -/
def State.handPages (s : State) (h : Nat) : List HandPage :=
  ((s.requests.find? h).map (fun r => r.bt.filterMap (fun e => s.handPage e.1 e.2))).getD []

/-- KVSEND has met PEER: its request fails with 0x13 (R421, R443; assumption log 40). -/
def peerEnd (id : Nat) (cmd : Cmd) (k : ChartCmd) (h : Nat) (s : State) : State :=
  finishChart id cmd k (statusWord 0 0x4C) []
    ((s.modMer (fun m => { m with staged := m.staged.filter (fun p => p.reply ≠ id) })).failReq h 0x13)

/-- The pages of a KVSEND go out once all are RESIDENT; a page whose copy meets an uncorrectable error ends it with DATAERR
(R404, R421). -/
def sendPages (id : Nat) (cmd : Cmd) (k : ChartCmd) (x : Send) (ps : List Nat) (s : State) : State :=
  let r := s.readPages ps
  match r.2 with
  | some n => finishChart id cmd k (statusWord 0 0x41) [] (r.1.quarantine n)
  | none =>
    let s := ps.foldl (fun s n => match s.pages.find? n with
      | some p => s.touchPage n p 0 p.tok
      | none => s) r.1
    let hs := s.handPages x.handle
    let away := x.dest ≠ s.mer.mepid
    let s := if away then hs.foldl (fun s p => s.sendTo x.dest (.page x.dest x.rreq p)) s else s
    s.putChart id { k with op := .send { x with acks := some (if away then hs.length else 0) } }

/-- The record of a KVSEND whose puts are all acknowledged (R421, R503). -/
def sendRecord (id : Nat) (cmd : Cmd) (k : ChartCmd) (x : Send) (s : State) : State :=
  let space := if cmd.reckon then logical cmd.asid else 0
  if ¬s.mer.reaches x.dest true ∨ ¬s.mer.enabled space then peerEnd id cmd k x.handle s
  else
    let p : Packet :=
      { kind := 6, key := { stamp := if cmd.reckon then cmd.key.1 else 0, src := s.mer.mepid, seq := 0 }, space := space,
        ord := true, dest := x.dest, queue := 0, addr := 0, asid := cmd.asid, reply := id, late := false,
        payload := recordBytes x.rreq (s.handPages x.handle) }
    (s.modMer (fun m => { m with staged := m.staged ++ [p] })).putChart id { k with op := .send { x with recorded := true } }

/-- A KVSEND goes on: its pages once all are RESIDENT, the answer to one of its puts, which is open, then its record once every
put is acknowledged (R421, R503; assumption log 40). A page whose fetch it started and which met an error ends it with DATAERR,
any other QUARANTINED page with QUAR (R404). -/
def stepSend (id : Nat) (cmd : Cmd) (k : ChartCmd) (x : Send) (s : State) : State :=
  match s.liveReq x.handle cmd.asid with
  | none => finishChart id cmd k (statusWord 0 0x44) [] s
  | some r =>
    let ps := (r.bt.map Prod.snd).dedup
    match ps.find? (fun n => (s.pages.find? n).any (fun p => decide (p.st = .quarantined))) with
    | some n => finishChart id cmd k (statusWord 0 (if x.started.contains n then 0x41 else 0x42)) [] s
    | none =>
      match x.acks with
      | none =>
        if ¬s.mer.reaches x.dest false then peerEnd id cmd k x.handle s
        else if ps.all (fun n => (s.pages.find? n).any (fun p => decide (p.st = .resident))) then sendPages id cmd k x ps s
        else
          let f := s.fetchPages x.seqs ps
          f.1.putChart id { k with op := .send { x with started := f.2 ++ x.started } }
      | some (n + 1) =>
        if openOutcome false (Config.freeWord s.fresh) = 0 then
          s.bump.putChart id { k with op := .send { x with acks := some n } }
        else peerEnd id cmd k x.handle s.bump
      | some 0 => if x.recorded then s else sendRecord id cmd k x s

/-- The record of a command's hand-over is still on its way from this endpoint. -/
def Mer.carries (m : Mer) (cmd : Nat) : Bool :=
  m.staged.any (fun p => p.reply = cmd) ||
  m.queued.any (fun q => q.pkt.kind == 6 && q.pkt.key.src == m.mepid && q.pkt.reply == cmd) ||
  m.inbound.any (fun p => p.kind == 6 && p.key.src == m.mepid && p.reply == cmd)

/-- KVSEND_ACK (R421, R442): the peer has installed the record, or refuses. -/
def execKvsendAck (cmd : Nat) (ok : Bool) (s : State) : Result :=
  .next (match s.cmds.find? cmd with
  | none => s
  | some c =>
    match c.work with
    | .chart k =>
      (match k.op with
      | .send x =>
        if s.gridOver c ∨ ¬s.completable c ∨ x.acks.isNone then s
        else if ¬ok then peerEnd cmd c k x.handle s
        else if ¬x.recorded ∨ s.mer.carries cmd then s
        else
          let s := finishChart cmd c k 0 [] s
          (match s.requests.find? x.handle with
          | some r =>
            if r.st ≠ .decode then s.clearTable x.handle
            else
              let s := s.modReq x.handle (fun r => Request.mark r 0x04)
              if r.inStep.isSome then (s.modReq x.handle (fun r => { r with st := .remote, imported := false })).clearTable x.handle
              else s.endReq x.handle .remote
          | none => s)
      | _ => s)
    | _ => s)

/-- A handed-over page takes a frame, and an entry of the request (R421, R503). -/
def State.takePage (s : State) (h : Nat) (r : Request) (m : Model) (seq : Word) (p : HandPage) : State :=
  let die := h / 16384
  match s.allocPage die (m.pool die) h m.asid r.model (s.parentAt h p.entry m.maxpg) m.tok m.rowb m.kvtype seq 0 with
  | none => s
  | some (s, n) =>
    let f := ((s.pages.find? n).bind (fun q => q.frame)).getD 0
    let s := s.chartStore m.asid ((s.pool die (m.pool die)).frameAddr f) p.payload
    let s := s.modPlanes n (fun q => { q with
      fill := p.fill
      scales := p.scales.zipIdx.foldl (fun x b => x.put 0 b.2 b.1) q.scales
      ids := p.ids.zipIdx.foldl (fun x b => x.put 0 b.2 b.1) q.ids })
    (s.install h p.entry (some n)).getD s

/-- A record installed: the request has its pages, and is decoded here (R442, R503; assumption log 40). -/
def State.installRecord (s : State) (ho : HandOver) (r : Request) (m : Model) : State :=
  let die := ho.handle / 16384
  let q := s.takeSeq die
  let s := ho.pages.foldl (fun s p => s.takePage ho.handle r m q.2 p) q.1
  let len := ((ho.pages.filter (fun p => decide (p.entry < m.maxpg))).map (fun p => p.fill)).sum
  (s.modReq ho.handle (fun r => { r with
    st := .decode, kvlen := len, placed := true, placeDie := die, decodePart := decide (s.k die < 8) })).runEvict die (m.pool die)

/-- The record that a hand-over completes: the next ordered packet of its space. -/
def Mer.recordOf (m : Mer) (ho : HandOver) : Option Packet :=
  m.inbound.find? (fun p => p.kind == 6 && p.payload == recordBytes ho.handle ho.pages && m.nextIn p.space == some p)

/-- BLOCK_TABLE_RECORD (R503): a peer's record comes in, for a request that waits for it; it waits for frames, and is
refused where there is no such request; an import of another ASID's record ends with PEER (R443; assumption log 40). -/
def execBlockTableRecord (ho : HandOver) (s : State) : Result :=
  .next (match s.mer.recordOf ho with
  | none => s
  | some p =>
    match (s.requests.find? ho.handle).bind (fun r => (s.model? r.model).map (fun m => (r, m))) with
    | none => (s.takeIn p).tell p.key.src p.reply p.dest 0x81 []
    | some (r, m) =>
      let die := ho.handle / 16384
      let awaited := decide (r.st = .remote) && r.imported
      if ¬awaited ∨ m.asid ≠ p.asid then
        let s := (s.takeIn p).tell p.key.src p.reply p.dest 0x81 []
        if awaited then s.failReq ho.handle 0x13 else s
      else if (s.pool die (m.pool die)).spare < ho.pages.length ∨ s.freeHeaders die (m.pool die) < ho.pages.length then s
      else ((s.takeIn p).installRecord ho r m).tell p.key.src p.reply p.dest 0 [])

/-! ### The two events of a command -/

/-- ENGINE_LINE_RELEASE (R27): a unit of a command that writes bytes. -/
def execEngineLineRelease (cmd : Nat) (sp : Space) (unit : Nat) (s : State) : Result :=
  .next (match s.cmds.find? cmd with
  | none => s
  | some c =>
    match c.work with
    | .xfer x => releaseXfer cmd c x (sp, unit) s
    | .net n => releaseNet cmd c n (sp, unit) s
    | _ => s)

/-- COMMAND_COMPLETE (R27, R28). -/
def execCommandComplete (cmd : Nat) (s : State) : Result :=
  .next (match s.cmds.find? cmd with
  | none => s
  | some c =>
    match c.work with
    | .xfer x => (completeXfer cmd c x s).drain c.core
    | .chart k =>
      (match k.op with
      | .send x =>
        if s.gridOver c then
          completeChart cmd c k (s.modMer (fun m => { m with staged := m.staged.filter (fun p => p.reply ≠ cmd) }))
        else if s.completable c then stepSend cmd c k x s
        else s
      | _ => completeChart cmd c k s)
    | .net n => completeNet cmd c n s
    | .tspill _ _ _ _ => s.drain c.core
    | .tfill _ _ _ _ _ => s.drain c.core
    | _ => s)

end Sys2Proof.Machine
end

