-- ==== Sys2Proof/Machine/Collective.lean ====
section
/-! DEFINITION. What ends or frees splits and groups: the end of a split's lanes (spec/03_sequencer.md R115), retiring a
group (R130), and the completion of TBAR and CBAR (R145, R146, R169, R172). -/

namespace Sys2Proof.Machine

/-- A group that takes part in team and cluster barriers (R145). -/
def Group.inBarriers (g : Group) : Bool :=
  match g.st with
  | .resident => true
  | .handler => true
  | _ => false

/-- A group that is swapped out or halted (R146). -/
def Group.away (g : Group) : Bool :=
  match g.st with
  | .swapped => true
  | .halted => true
  | _ => false

/-- A group has arrived when every one of its splits is blocked in the barrier (R145, R148). -/
def Group.arrived (g : Group) (w : Wait) : Bool := !g.splits.isEmpty && g.splits.all (fun e => e.2.wait == w)

/-- Every RESIDENT or HANDLER group of a list has arrived, at least one is there, and none is away (R145, R146). -/
def allArrived (gs : List (Nat × Group)) (w : Wait) : Bool :=
  gs.any (fun e => e.2.inBarriers) && gs.all (fun e => (!e.2.inBarriers || e.2.arrived w) && !e.2.away)

/-- The largest key among groups (R169). -/
def lastKey (gs : List (Nat × Group)) : Key :=
  gs.foldl (fun k e => if e.2.inBarriers then keyMax k e.2.key else k) (0, 0)

/-- Every split of the groups retires its barrier with the last arrival's key (R145, R167). -/
def State.releaseAll (s : State) (gs : List (Nat × Group)) (reckon : Bool) (k : Key) : State :=
  gs.foldl (fun s e =>
    if e.2.inBarriers then
      e.2.splits.foldl (fun s x => s.retireAt e.1 x.1 reckon 1 (some k) (x.2.pc + 8)) s
    else s) s

/-- TBAR completes when every group of the team has arrived (R145). -/
def State.tryTbar (s : State) (team : Nat) : State :=
  match s.teams.find? team with
  | none => s
  | some t =>
    let gs := s.teamGroups team
    if allArrived gs .tbar then
      let rk := s.teamReckon t
      let s := s.releaseAll gs rk (lastKey gs)
      if rk then s.advanceEpoch t.cluster else s
    else s

/-- CBAR completes when every group of the cluster has arrived; a member that has not started has not (R145). -/
def State.tryCbar (s : State) (team : Nat) : State :=
  match s.teams.find? team with
  | none => s
  | some t =>
    let gs := s.clusterGroups t.cluster
    if allArrived gs .cbar ∧ (s.clusterTeams t.cluster).all (fun e => e.2.started) then
      let rk := s.teamReckon t
      let s := (s.releaseAll gs rk (lastKey gs)).seeAll (s.clusterCores t.cluster)
      if rk then s.advanceEpoch t.cluster else s
    else s

/-- The team and cluster barriers a change of a group may complete. -/
def State.recheck (s : State) (team : Nat) : State := (s.tryTbar team).tryCbar team

/-- R115: a split all of whose lanes have ended takes up its stack's top entry, or its slot is freed. -/
def Group.endSplit (g : Group) (slot : Nat) : Group :=
  match g.splits.find? slot with
  | none => g
  | some sp =>
    match sp.stack with
    | e :: es => { g with splits := g.splits.set slot { sp with pc := e.1, mask := e.2, stack := es, wait := .none } }
    | [] => { g with splits := g.splits.erase slot }

/-- R130, R172: a group whose live mask is empty retires, and counts as live no more: the implicit BLEAVEs in entry order,
then its registers drain. -/
def State.retireGroup (s : State) (gid : Nat) (cl : Nat) (reckon : Bool) (k : Key) : State :=
  match s.groups.find? gid with
  | none => s
  | some g =>
    if g.splits.isEmpty then
      let s := s.modGroup gid (fun g => { g with st := .draining, members := [] })
      ((g.members.foldl (fun s e => implicitLeave cl reckon k e.2 s) s).settle gid).recheck g.team
    else s.recheck g.team

/-- Lanes that a group has lost, noted in Reckoning mode at the key where they ended (R172). -/
def State.lostLanes (s : State) (gid cl : Nat) (reckon : Bool) (before : Group) : State :=
  if reckon then
    match s.groups.find? gid with
    | none => s
    | some g => s.noteExit cl before.key (popMask before.live - popMask g.live) g.splits.isEmpty
  else s

/-- Some command of a group has not completed (R130). -/
def State.busy (s : State) (gid : Nat) : Bool := s.cmds.any (fun e => e.2.grp = gid)

end Sys2Proof.Machine
end

