-- ==== Sys2Proof/Machine/Control.lean ====
section
/-! DEFINITION. Meanings of control flow, EXIT and the hints: BRA, BRU, BRD, CALL, RET, BRX, EXIT, NOP, ICPF, HINT, and
of EXIT_UNBLOCK; merges and the serial stack (spec/03_sequencer.md R112 to R115, R128 to R131; spec/02_encoding.md R63, R78). -/

namespace Sys2Proof.Machine

/-- A branch target (R63). -/
def branchTarget (pc : DWord) (off : BitVec 32) : DWord := pc + 8 + 8 * off.signExtend 64

/-- The split goes on at `pc`; the instruction retires (R129). -/
def goTo (c : Ctx) (pc : DWord) (s : State) : State := retireTo c 1 c.observed pc s

/-- BRA (R129). -/
def execBra (off : BitVec 32) (g : Guard) (s : State) : Result :=
  issue (.bra off g) s (fun c s => goTo c (branchTarget c.sp.pc off) s)

/-- BRU (R129). -/
def execBru (k : Reg) (off : BitVec 32) (g : Guard) (s : State) : Result :=
  issue (.bru k off g) s (fun c s => if c.uni k = 0 then retire c s else goTo c (branchTarget c.sp.pc off) s)

/-- The lowest free split slot (R112). -/
def Group.freeSlot (g : Group) : Option Nat := (List.range 4).find? (fun k => (g.splits.find? k).isNone)

/-- BRD (R129): the lanes whose bit is 1 take the branch, the others of the split go on in a new split or, with four
splits, in a stack entry. -/
def execBrd (m : Fin 8) (off : BitVec 32) (g : Guard) (s : State) : Result :=
  issue (.brd m off g) s (fun c s =>
    let tk := c.act &&& readMask c.grp m
    let nt := c.sp.mask &&& ~~~tk
    let target := branchTarget c.sp.pc off
    if tk = 0 then retire c s
    else if nt = 0 then goTo c target s
    else
      match c.grp.freeSlot with
      | some k =>
        let fresh : Split := { pc := c.sp.pc + 8, mask := nt, stack := [], wait := .none, suspended := false }
        (goTo c target s).modGroup c.gid (fun g =>
          { g with splits := Map.set (g.splits.modify c.slot (fun sp => { sp with mask := tk })) k fresh })
      | none =>
        if c.sp.stack.length = 16 then trap c 0x10 s
        else (goTo c target s).modSplit c.gid c.slot (fun sp =>
          { sp with mask := tk, stack := (c.sp.pc + 8, nt) :: sp.stack }))

/-- CALL (R129). -/
def execCall (p : Fin 24) (off : BitVec 32) (g : Guard) (s : State) : Result :=
  issue (.call p off g) s (fun c s => goTo c (branchTarget c.sp.pc off) (writePair c p (c.sp.pc + 8) s))

/-- RET and BRX: the target is the pair's value, checked for alignment (R56, R129). -/
def indirect (c : Ctx) (p : Fin 24) (s : State) : State :=
  let t := readPair c.grp p
  if t.toNat % 8 = 0 then goTo c t s else takeTrap c { cause := 0x04, lanes := c.act, addr := t } s

/-- RET (R129). -/
def execRet (p : Fin 24) (g : Guard) (s : State) : Result := issue (.ret p g) s (fun c s => indirect c p s)

/-- BRX (R129). -/
def execBrx (p : Fin 24) (g : Guard) (s : State) : Result := issue (.brx p g) s (fun c s => indirect c p s)

/-! ### EXIT (R130) -/

/-- EXIT would empty the group's live mask (R130). -/
def Ctx.lastExit (c : Ctx) : Bool := c.sp.stack.isEmpty && c.grp.splits.length == 1

/-- EXIT, once it may take effect: a trap the group owes comes first; then the lanes of the split end (R115, R130). -/
def exitEffect (c : Ctx) (s : State) : State :=
  match (if c.lastExit then c.grp.owed else []) with
  | o :: os =>
    takeTrap c { cause := 0x06, sub := o.sub, lanes := c.act, addr := o.addr, other := o.other, status := o.status }
      (s.modGroup c.gid (fun g => { g with owed := os }))
  | [] =>
    if c.lastExit ∧ ¬c.grp.members.isEmpty ∧ ¬c.grp.fifo.isEmpty then s
    else if c.lastExit ∧ ¬c.grp.members.isEmpty ∧ c.reckon ∧ ¬s.smallest c.team.cluster c.grp.key then block c .key s
    else
      let s := (s.modGroup c.gid (fun g => (g.count c.reckon 1 none).endSplit c.slot)).issued c.grp.core
        c.grp.seq c.gid c.slot
      (s.lostLanes c.gid c.team.cluster c.reckon c.grp).retireGroup c.gid c.team.cluster c.reckon c.grp.key

/-- EXIT (R130): in Reckoning mode a last EXIT waits for the group's commands. -/
def execExit (g : Guard) (s : State) : Result :=
  issue (.exit g) s (fun c s =>
    if c.reckon ∧ c.lastExit ∧ s.busy c.gid then block c (.exit c.word) s else exitEffect c s)

/-- EXIT_UNBLOCK (R130): the commands of a group whose EXIT waits have completed. -/
def execExitUnblock (grp slot : Nat) (s : State) : Result :=
  .next (match s.ctxAt grp slot 0 Guard.always with
  | none => s
  | some c =>
    match c.sp.wait with
    | .exit w => if s.busy grp then s else exitEffect { c with word := w } s
    | _ => s)

/-! ### Hints (R78, R131) -/

/-- NOP (R131). -/
def execNop (s : State) : Result := issue .nop s retire

/-- ICPF (R131): timing only. -/
def execIcpf (n : BitVec 8) (off : BitVec 32) (s : State) : Result := issue (.icpf n off) s retire

/-- Every other word of the hint region executes as NOP (R78). -/
def execHint (w : DWord) (s : State) : Result := issue (.hint w) s retire

/-! ### Merging and the serial stack (R113, R114) -/

/-- A split that is ready apart from the scoreboard and the engines (R105, R113). -/
def Split.idle (sp : Split) : Bool := !sp.suspended && (sp.wait == .none || sp.wait == .redo)

/-- Two splits merge under R113, unless an engine holds one of them: the lower slot takes both masks and the stack that is not
empty. -/
def Group.merge (holds : Split → Bool) (g : Group) (i j : Nat) : Group :=
  match g.splits.find? (min i j), g.splits.find? (max i j) with
  | some a, some b =>
    if i ≠ j ∧ g.inBarriers ∧ a.pc = b.pc ∧ a.idle ∧ b.idle ∧ !holds a ∧ !holds b ∧ (a.stack = [] ∨ b.stack = []) then
      let both : Split := { a with mask := a.mask ||| b.mask, stack := a.stack ++ b.stack }
      { g with splits := Map.erase (Map.set g.splits (min i j) both) (max i j) }
    else g
  | _, _ => g

/-- All merges before an issue (R113). -/
def Group.mergeAll (holds : Split → Bool) (g : Group) : Group :=
  [(0, 1), (0, 2), (0, 3), (1, 2), (1, 3), (2, 3)].foldl (fun g p => g.merge holds p.1 p.2) g

/-- R114: the top entry at the split's own PC joins it. -/
def Split.join (sp : Split) : Split :=
  match sp.stack with
  | e :: es => if e.1 = sp.pc then { sp with mask := sp.mask ||| e.2, stack := es } else sp
  | [] => sp

/-- R114: a split whose PC is greater than the top entry's exchanges with it. -/
def Split.exchange (sp : Split) : Split :=
  match sp.stack with
  | e :: es =>
    if e.1.toNat < sp.pc.toNat then { sp with pc := e.1, mask := e.2, stack := (sp.pc, sp.mask) :: es } else sp
  | [] => sp

/-- The checks before an issue of a split that is not blocked (R114). -/
def Split.beforeIssue (sp : Split) : Split := if sp.wait = .none ∨ sp.wait = .redo then sp.join.exchange else sp

end Sys2Proof.Machine
end

