-- ==== Sys2Proof/Machine/Special.lean ====
section
/-! DEFINITION. The special functions (spec/06_float.md R265, R266). Each is computed in fixed point far beyond FP32;
where R266 asks for the correctly rounded result that is the result, and elsewhere the result is the free value
`Config.special` whenever that lies within R266's bound (R259; assumption log 8). -/

namespace Sys2Proof.Machine

/-- π × 2^640, rounded down. -/
def piFix : Nat :=
  14333329926761567455775730701799299831126131522901418329710873694248203755857903894978459978948837038337184470360789102305252273090192709030764248428292776480232102476327552185579501988876367276

/-- ln 2 × 2^400, rounded down. -/
def ln2Fix : Nat :=
  1789879222497203190815761498240779176894896805856420935579692301363062920687047601279850318367644315849030039181347319086

/-- Bits of fraction of the fixed-point numbers. -/
def fixP : Nat := 400

/-- The largest r below 2^k with r² at most n. -/
def isqrtBits (n : Nat) : Nat → Nat → Nat
  | 0, r => r
  | k + 1, r => let t := r + 2 ^ k; if t * t ≤ n then isqrtBits n k t else isqrtBits n k r

/-- Integer square root of a number below 2^(2k). -/
def isqrt (k n : Nat) : Nat := isqrtBits n k 0

/-- Σ over i of y^i / i! for i from j on, in fixed point: t is the term before. -/
def expTail (y : Int) : Nat → Nat → Int → Int
  | 0, _, _ => 0
  | n + 1, i, t =>
    let u := t * y / 2 ^ fixP / (i : Int)
    u + expTail y n (i + 1) u

/-- e^y − 1 for 0 ≤ y < 1, in fixed point. -/
def expm1Fix (y : Int) : Int := expTail y 90 1 (2 ^ fixP)

/-- Σ of z^(2i+1)/(2i+1) from a term on. -/
def atanhTail (z2 : Int) : Nat → Nat → Int → Int
  | 0, _, _ => 0
  | n + 1, d, t => t / (d : Int) + atanhTail z2 n (d + 2) (t * z2 / 2 ^ fixP)

/-- ln m for 1 ≤ m < 2, in fixed point. -/
def lnFix (m : Int) : Int :=
  let z := (m - 2 ^ fixP) * 2 ^ fixP / (m + 2 ^ fixP)
  2 * atanhTail (z * z / 2 ^ fixP) 130 1 z

/-- Alternating Taylor tail of sine and cosine: term t, next divisor i. -/
def trigTail (r2 : Int) : Nat → Nat → Int → Int
  | 0, _, _ => 0
  | n + 1, i, t =>
    let u := -(t * r2 / 2 ^ fixP / (i * (i + 1) : Nat))
    u + trigTail r2 n (i + 2) u

/-- sin r for 0 ≤ r < π/2. -/
def sinFix (r : Int) : Int := r + trigTail (r * r / 2 ^ fixP) 50 2 r

/-- cos r for 0 ≤ r < π/2. -/
def cosFix (r : Int) : Int := 2 ^ fixP + trigTail (r * r / 2 ^ fixP) 50 1 (2 ^ fixP)

/-- m × 2^e in fixed point, rounded down. -/
def toFix (m : Nat) (e : Int) : Nat :=
  let sh := e + fixP
  if 0 ≤ sh then m * 2 ^ sh.toNat else m / 2 ^ (-sh).toNat

/-- A fixed-point number as a value. -/
def ofFix (v : Int) : FVal := .fin (decide (v < 0)) v.natAbs (-(fixP : Int))

/-- 1/a for a finite nonzero a: m × 2^e, to 400 bits. -/
def rcpVal (neg : Bool) (m : Nat) (e : Int) : FVal := .fin neg (2 ^ fixP / m) (-e - fixP)

/-- 1/√a for a positive a. -/
def rsqVal (m : Nat) (e : Int) : FVal :=
  let odd := e % 2 ≠ 0
  let m' := if odd then 2 * m else m
  let e' := if odd then e - 1 else e
  .fin false (isqrt 300 (2 ^ 500 / m')) (-(e' / 2) - 250)

/-- √a for a positive a, with a last bit that is 1 when the root is not exact. -/
def sqrtVal (m : Nat) (e : Int) : FVal :=
  let odd := e % 2 ≠ 0
  let m' := if odd then 2 * m else m
  let e' := if odd then e - 1 else e
  let n := m' * 2 ^ 200
  let q := isqrt 120 n
  .fin false (2 * q + (if q * q = n then 0 else 1)) (e' / 2 - 101)

/-- 2^a for a finite a between −2^10 and 2^10. -/
def ex2Val (neg : Bool) (m : Nat) (e : Int) : FVal :=
  let f : Int := if neg then -(toFix m e : Int) else (toFix m e : Int)
  let k := f / 2 ^ fixP
  let y := (f - k * 2 ^ fixP) * (ln2Fix : Int) / 2 ^ 400
  .fin false ((2 ^ fixP + expm1Fix y).toNat) (k - fixP)

/-- log2 a for a positive a. -/
def lg2Val (m : Nat) (e : Int) : FVal :=
  let b := m.log2
  let mant : Int := Int.ofNat (m * 2 ^ fixP / 2 ^ b)
  let l := lnFix mant * 2 ^ 400 / (ln2Fix : Int)
  let v := (e + b) * 2 ^ fixP + l
  ofFix v

/-- tanh a. -/
def tanhVal (neg : Bool) (m : Nat) (e : Int) : FVal :=
  if 5 ≤ e + m.log2 then .fin neg 1 0
  else
    let y : Int := Int.ofNat (2 * toFix m e)
    let k := y * 2 ^ 400 / (ln2Fix : Int) / 2 ^ fixP
    let r := y - k * (ln2Fix : Int)
    let em := (2 ^ fixP + expm1Fix r) * 2 ^ k.toNat - 2 ^ fixP
    match ofFix (em * 2 ^ fixP / (em + 2 * 2 ^ fixP)) with
    | .fin _ a b => .fin neg a b
    | v => v

/-- The quadrant and the rest of |a| by π/2, exact for every finite a. -/
def reduceTrig (m : Nat) (e : Int) : Nat × Int :=
  let a := if 0 ≤ e then m * 2 ^ (e.toNat + 641) else m * 2 ^ 641 / 2 ^ (-e).toNat
  (a / piFix, Int.ofNat (a % piFix / 2 ^ 241))

/-- sin a, or cos a when `cos`. -/
def trigVal (cos neg : Bool) (m : Nat) (e : Int) : FVal :=
  let qr := reduceTrig m e
  let q := (qr.1 + (if cos then 1 else 0)) % 4
  let v := if q % 2 = 0 then sinFix qr.2 else cosFix qr.2
  let v := if q < 2 then v else -v
  ofFix (if neg && !cos then -v else v)

/-- The ulp of an exact result rounded to FP32, as an exponent (R265). -/
def ulpExp (w : Word) : Int :=
  let ex : Nat := w.toNat / 2 ^ 23 % 256
  if ex = 0 then -149 else (ex : Int) - 150

/-- |p − x| at most k × 2^e, for a finite p (R265). -/
def nearBy (p x : FVal) (k : Nat) (e : Int) : Bool :=
  match addF .rn p (negF x) with
  | .fin _ m f => decide (cmpF (.fin false m f) (.fin false k e) ≤ 0)
  | _ => false

/-- A finite pattern (not an infinity, not a NaN). -/
def isFinite (w : Word) : Bool := w.toNat / 2 ^ 23 % 256 != 255

/-- The free value when it lies within `k` ulp of the exact result, else the rounded result (R266). -/
def withinUlp (f : Nat) (a : Word) (x : FVal) (k : Nat) : Word :=
  let r := toF32 .rn x
  let p := Config.special f a
  if isFinite r && isFinite p && nearBy (fval p) x k (ulpExp r) then p else r

/-- The free value when it lies within 2^−22 of the exact result, else the rounded result (R266). -/
def withinAbs (f : Nat) (a : Word) (x : FVal) : Word :=
  let p := Config.special f a
  if isFinite p && nearBy (fval p) x 1 (-22) then p else toF32 .rn x

/-- Signed zero and infinity. -/
def zero32 (neg : Bool) : Word := if neg then 0x80000000 else 0

/-- Signed infinity. -/
def inf32 (neg : Bool) : Word := if neg then 0xFF800000 else 0x7F800000

/-- FRCP (R266). -/
def frcp32 (a : Word) : Word :=
  match fval a with
  | .nan => nan32
  | .inf neg => zero32 neg
  | .fin neg m e => if m = 0 then inf32 neg else withinUlp 0 a (rcpVal neg m e) 1

/-- FRSQ (R266). -/
def frsq32 (a : Word) : Word :=
  match fval a with
  | .nan => nan32
  | .inf neg => if neg then nan32 else 0
  | .fin neg m e => if m = 0 then inf32 neg else if neg then nan32 else withinUlp 1 a (rsqVal m e) 2

/-- FSQRT, correctly rounded (R266). -/
def fsqrt32 (a : Word) : Word :=
  match fval a with
  | .nan => nan32
  | .inf neg => if neg then nan32 else 0x7F800000
  | .fin neg m e => if m = 0 then a else if neg then nan32 else toF32 .rn (sqrtVal m e)

/-- Whether m × 2^e is an integer. -/
def isIntVal (m : Nat) (e : Int) : Bool := decide (0 ≤ e) || decide (m % 2 ^ (-e).toNat = 0)

/-- FEX2 (R266): exact on integers, correctly rounded from −126 to 0. -/
def fex232 (a : Word) : Word :=
  match fval a with
  | .nan => nan32
  | .inf neg => if neg then 0 else 0x7F800000
  | .fin neg m e =>
    if m = 0 then 0x3F800000
    else if cmpF (.fin false 128 0) (.fin neg m e) ≤ 0 then 0x7F800000
    else if cmpF (.fin neg m e) (.fin true 200 0) < 0 then withinUlp 3 a (.fin false 1 (-200)) 1
    else if (isIntVal m e && decide (0 ≤ cmpF (.fin neg m e) (.fin true 149 0))) ||
        (neg && decide (0 ≤ cmpF (.fin neg m e) (.fin true 126 0))) then toF32 .rn (ex2Val neg m e)
    else withinUlp 3 a (ex2Val neg m e) 1

/-- FLG2 (R266): exact on powers of two, correctly rounded from 1 up to 2^64. -/
def flg232 (a : Word) : Word :=
  match fval a with
  | .nan => nan32
  | .inf neg => if neg then nan32 else 0x7F800000
  | .fin neg m e =>
    if m = 0 then 0xFF800000
    else if neg then nan32
    else if m = 2 ^ m.log2 || (decide (0 ≤ e + m.log2) && decide (e + m.log2 < 64)) then toF32 .rn (lg2Val m e)
    else withinUlp 4 a (lg2Val m e) 1

/-- FTANH (R266): its magnitude never exceeds 1. -/
def ftanh32 (a : Word) : Word :=
  match fval a with
  | .nan => nan32
  | .inf neg => if neg then 0xBF800000 else 0x3F800000
  | .fin neg m e =>
    if m = 0 then a
    else
      let r := withinUlp 5 a (tanhVal neg m e) 2
      if decide ((r &&& 0x7FFFFFFF).toNat ≤ 0x3F800000) then r
      else if neg then 0xBF800000 else 0x3F800000

/-- FSIN (R266). -/
def fsin32 (a : Word) : Word :=
  match fval a with
  | .nan => nan32
  | .inf _ => nan32
  | .fin neg m e => if m = 0 then a else withinAbs 6 a (trigVal false neg m e)

/-- FCOS (R266). -/
def fcos32 (a : Word) : Word :=
  match fval a with
  | .nan => nan32
  | .inf _ => nan32
  | .fin neg m e => if m = 0 then 0x3F800000 else withinAbs 7 a (trigVal true neg m e)

end Sys2Proof.Machine
end

