-- ==== Sys2Proof/Machine/FloatOps.lean ====
section
/-! DEFINITION. Meanings of the float instructions: opcodes 0x0C to 0x0F and 0x30 to 0x35 (spec/06_float.md R260 to
R273). -/

namespace Sys2Proof.Machine

/-- FADD with a register source (R261). -/
def execFadd (r : Round) (d a b : Reg) (g : Guard) (s : State) : Result :=
  issueResult (.fadd r d a b g) d s (fun c l => fadd32 r (c.rd a l) (c.rd b l))

/-- FADD with an FP32 immediate (R62, R261). -/
def execFaddImm (r : Round) (d a : Reg) (imm : BitVec 24) (g : Guard) (s : State) : Result :=
  issueResult (.faddImm r d a imm g) d s (fun c l => fadd32 r (c.rd a l) (immFloat imm))

/-- FMUL with a register source (R261). -/
def execFmul (r : Round) (d a b : Reg) (g : Guard) (s : State) : Result :=
  issueResult (.fmul r d a b g) d s (fun c l => fmul32 r (c.rd a l) (c.rd b l))

/-- FMUL with an FP32 immediate (R62, R261). -/
def execFmulImm (r : Round) (d a : Reg) (imm : BitVec 24) (g : Guard) (s : State) : Result :=
  issueResult (.fmulImm r d a imm g) d s (fun c l => fmul32 r (c.rd a l) (immFloat imm))

/-- FMIN with a register source (R261). -/
def execFmin (d a b : Reg) (g : Guard) (s : State) : Result :=
  issueResult (.fmin d a b g) d s (fun c l => fmin32 (c.rd a l) (c.rd b l))

/-- FMIN with an FP32 immediate (R62, R261). -/
def execFminImm (d a : Reg) (imm : BitVec 24) (g : Guard) (s : State) : Result :=
  issueResult (.fminImm d a imm g) d s (fun c l => fmin32 (c.rd a l) (immFloat imm))

/-- FMAX with a register source (R261). -/
def execFmax (d a b : Reg) (g : Guard) (s : State) : Result :=
  issueResult (.fmax d a b g) d s (fun c l => fmax32 (c.rd a l) (c.rd b l))

/-- FMAX with an FP32 immediate (R62, R261). -/
def execFmaxImm (d a : Reg) (imm : BitVec 24) (g : Guard) (s : State) : Result :=
  issueResult (.fmaxImm d a imm g) d s (fun c l => fmax32 (c.rd a l) (immFloat imm))

/-- FSUB (R262). -/
def execFsub (r : Round) (d a b : Reg) (g : Guard) (s : State) : Result :=
  issueResult (.fsub r d a b g) d s (fun c l => fsub32 r (c.rd a l) (c.rd b l))

/-- FFMA (R262). -/
def execFfma (r : Round) (d a b e : Reg) (g : Guard) (s : State) : Result :=
  issueResult (.ffma r d a b e g) d s (fun c l => ffma32 r (c.rd a l) (c.rd b l) (c.rd e l))

/-- FABS (R262). -/
def execFabs (d a : Reg) (g : Guard) (s : State) : Result :=
  issueResult (.fabs d a g) d s (fun c l => c.rd a l &&& 0x7FFFFFFF)

/-- FNEG (R262). -/
def execFneg (d a : Reg) (g : Guard) (s : State) : Result :=
  issueResult (.fneg d a g) d s (fun c l => c.rd a l ^^^ 0x80000000)

/-- FCPS (R262). -/
def execFcps (d a b : Reg) (g : Guard) (s : State) : Result :=
  issueResult (.fcps d a b g) d s (fun c l => (c.rd a l &&& 0x7FFFFFFF) ||| (c.rd b l &&& 0x80000000))

/-- The integer m × 2^e rounds to, for e below 0 (R262, R269). -/
def roundInt (r : Round) (neg : Bool) (m : Nat) (e : Int) : Nat :=
  if 0 ≤ e then m * 2 ^ e.toNat
  else
    let den := 2 ^ (-e).toNat
    let q := m / den
    if roundUp r neg q (m % den) den then q + 1 else q

/-- FRND's value (R262). -/
def frnd32 (r : Round) (a : Word) : Word :=
  match fval a with
  | .nan => nan32
  | .inf _ => a
  | .fin neg m e =>
    if 0 ≤ e then a
    else
      let n := roundInt r neg m e
      if n = 0 then zero32 neg else toF32 .rn (.fin neg n 0)

/-- FRND (R262). -/
def execFrnd (r : Round) (d a : Reg) (g : Guard) (s : State) : Result :=
  issueResult (.frnd r d a g) d s (fun c l => frnd32 r (c.rd a l))

/-- The bit FCLASS sets (R263). -/
def fclassBit (a : Word) : Nat :=
  let neg := a.getLsbD 31
  match fval a with
  | .nan => if a.getLsbD 22 then 9 else 8
  | .inf _ => if neg then 0 else 7
  | .fin _ m _ =>
    if m = 0 then (if neg then 3 else 4)
    else if m < 2 ^ 23 then (if neg then 2 else 5)
    else (if neg then 1 else 6)

/-- FCLASS (R263). -/
def execFclass (d a : Reg) (g : Guard) (s : State) : Result :=
  issueResult (.fclass d a g) d s (fun c l => BitVec.ofNat 32 (2 ^ fclassBit (c.rd a l)))

/-- FSET (R264). -/
def execFset (cond : FCond) (u : MaskUpd) (d : Fin 8) (a b : Reg) (g : Guard) (s : State) : Result :=
  issue (.fset cond u d a b g) s (fun c s =>
    retire c (writeMask c d (updMask u (readMask c.grp d) c.act (fun l => fcond cond (c.rd a l) (c.rd b l))) s))

/-- FRCP (R265, R266). -/
def execFrcp (d a : Reg) (g : Guard) (s : State) : Result :=
  issueResult (.frcp d a g) d s (fun c l => frcp32 (c.rd a l))

/-- FRSQ (R265, R266). -/
def execFrsq (d a : Reg) (g : Guard) (s : State) : Result :=
  issueResult (.frsq d a g) d s (fun c l => frsq32 (c.rd a l))

/-- FSQRT (R265, R266). -/
def execFsqrt (d a : Reg) (g : Guard) (s : State) : Result :=
  issueResult (.fsqrt d a g) d s (fun c l => fsqrt32 (c.rd a l))

/-- FEX2 (R265, R266). -/
def execFex2 (d a : Reg) (g : Guard) (s : State) : Result :=
  issueResult (.fex2 d a g) d s (fun c l => fex232 (c.rd a l))

/-- FLG2 (R265, R266). -/
def execFlg2 (d a : Reg) (g : Guard) (s : State) : Result :=
  issueResult (.flg2 d a g) d s (fun c l => flg232 (c.rd a l))

/-- FTANH (R265, R266). -/
def execFtanh (d a : Reg) (g : Guard) (s : State) : Result :=
  issueResult (.ftanh d a g) d s (fun c l => ftanh32 (c.rd a l))

/-- FSIN (R265, R266). -/
def execFsin (d a : Reg) (g : Guard) (s : State) : Result :=
  issueResult (.fsin d a g) d s (fun c l => fsin32 (c.rd a l))

/-- FCOS (R265, R266). -/
def execFcos (d a : Reg) (g : Guard) (s : State) : Result :=
  issueResult (.fcos d a g) d s (fun c l => fcos32 (c.rd a l))

/-- Element 0 or 1 of a packed BF16 register (R249). -/
def bfElem (w : Word) (i : Nat) : BitVec 16 := w.extractLsb' (16 * i) 16

/-- An operation on both elements of packed BF16 (R267). -/
def packed (f : Nat → BitVec 16) : Word := f 1 ++ f 0

/-- HADD2's value (R267). -/
def hadd2w (r : Round) (a b : Word) : Word :=
  packed (fun i => toBf16 r (addF r (fvalBf (bfElem a i)) (fvalBf (bfElem b i))))

/-- HMUL2's value (R267). -/
def hmul2w (r : Round) (a b : Word) : Word :=
  packed (fun i => toBf16 r (mulF (fvalBf (bfElem a i)) (fvalBf (bfElem b i))))

/-- HFMA2's value, rounded once (R267). -/
def hfma2w (r : Round) (a b e : Word) : Word :=
  packed (fun i => toBf16 r (addF r (mulF (fvalBf (bfElem a i)) (fvalBf (bfElem b i))) (fvalBf (bfElem e i))))

/-- HMAX2's and HMIN2's value (R258, R267). -/
def hminmax2w (isMax : Bool) (a b : Word) : Word :=
  packed (fun i => minMax isMax fvalBf 0x7FC0 (bfElem a i) (bfElem b i))

/-- HADD2 (R267). -/
def execHadd2 (r : Round) (d a b : Reg) (g : Guard) (s : State) : Result :=
  issueResult (.hadd2 r d a b g) d s (fun c l => hadd2w r (c.rd a l) (c.rd b l))

/-- HMUL2 (R267). -/
def execHmul2 (r : Round) (d a b : Reg) (g : Guard) (s : State) : Result :=
  issueResult (.hmul2 r d a b g) d s (fun c l => hmul2w r (c.rd a l) (c.rd b l))

/-- HFMA2 (R267). -/
def execHfma2 (r : Round) (d a b e : Reg) (g : Guard) (s : State) : Result :=
  issueResult (.hfma2 r d a b e g) d s (fun c l => hfma2w r (c.rd a l) (c.rd b l) (c.rd e l))

/-- HMAX2 (R267). -/
def execHmax2 (d a b : Reg) (g : Guard) (s : State) : Result :=
  issueResult (.hmax2 d a b g) d s (fun c l => hminmax2w true (c.rd a l) (c.rd b l))

/-- HMIN2 (R267). -/
def execHmin2 (d a b : Reg) (g : Guard) (s : State) : Result :=
  issueResult (.hmin2 d a b g) d s (fun c l => hminmax2w false (c.rd a l) (c.rd b l))

/-- CVTFI's value: rounded, then clamped; NaN gives 0 (R269). -/
def cvtfi32 (u : Bool) (r : Round) (a : Word) : Word :=
  match fval a with
  | .nan => 0
  | .inf neg => if u then (if neg then 0 else 0xFFFFFFFF) else (if neg then 0x80000000 else 0x7FFFFFFF)
  | .fin neg m e =>
    let n : Int := Int.ofNat (roundInt r neg m e)
    let v := if neg then -n else n
    if u then satU32 v else satS32 v

/-- CVTIF's value (R269). -/
def cvtif32 (u : Bool) (r : Round) (a : Word) : Word :=
  let v : Int := if u then Int.ofNat a.toNat else a.toInt
  toF32 r (.fin (decide (v < 0)) v.natAbs 0)

/-- The FP32 value of a BF16 element (R270). -/
def cvthf32 (h : BitVec 16) : Word :=
  match fvalBf h with
  | .nan => nan32
  | _ => h ++ 0#16

/-- A word with byte `i` replaced. -/
def setByte (w : Word) (i : Nat) (b : BitVec 8) : Word :=
  (w &&& ~~~((0xFF : Word) <<< (8 * i))) ||| (b.zeroExtend 32 <<< (8 * i))

/-- A word with nibble `i` replaced. -/
def setNibble (w : Word) (i : Nat) (b : BitVec 4) : Word :=
  (w &&& ~~~((0xF : Word) <<< (4 * i))) ||| (b.zeroExtend 32 <<< (4 * i))

/-- An FP32 scale field: 1.0 when it names zero (R272). -/
def scaleF32 (c : Ctx) (r : Reg) (l : Nat) : FVal := if r = .zero then oneF else fval (c.rd r l)

/-- A scale of QNT4, DQ4 or SCALE by its format (R272). -/
def scaleVal (f : ScaleFmt) (c : Ctx) (r : Reg) (l : Nat) : FVal :=
  match f with
  | .f32 => scaleF32 c r l
  | .e5 => fvalE5 (byteOf (c.rd r l) 0)
  | .e4 => fvalE4 (byteOf (c.rd r l) 0)

/-- The tensor scale of SCALE (R272). -/
def tscaleVal (f : TScaleFmt) (c : Ctx) (r : Reg) (l : Nat) : FVal :=
  match f with
  | .f32 => scaleF32 c r l
  | .bf16 => fvalBf (bfElem (c.rd r l) 0)
  | .none => oneF

/-- The narrow format CVTN8 and CVTF8 name (R268). -/
def n8Fmt (e5 : Bool) : Narrow := if e5 then .e5 else .e4

/-- The FP32 value of an N8 code (R271). -/
def cvtf832 (e5 : Bool) (b : BitVec 8) : Word := toF32 .rn (if e5 then fvalE5 b else fvalE4 b)

/-- CVTFI (R269). -/
def execCvtfi (u : Bool) (r : Round) (d a : Reg) (g : Guard) (s : State) : Result :=
  issueResult (.cvtfi u r d a g) d s (fun c l => cvtfi32 u r (c.rd a l))

/-- CVTIF (R269). -/
def execCvtif (u : Bool) (r : Round) (d a : Reg) (g : Guard) (s : State) : Result :=
  issueResult (.cvtif u r d a g) d s (fun c l => cvtif32 u r (c.rd a l))

/-- CVTFH (R270). -/
def execCvtfh (r : Round) (d a b : Reg) (g : Guard) (s : State) : Result :=
  issueResult (.cvtfh r d a b g) d s (fun c l => toBf16 r (fval (c.rd b l)) ++ toBf16 r (fval (c.rd a l)))

/-- CVTHF (R270). -/
def execCvthf (hi : Bool) (d a : Reg) (g : Guard) (s : State) : Result :=
  issueResult (.cvthf hi d a g) d s (fun c l => cvthf32 (bfElem (c.rd a l) (if hi then 1 else 0)))

/-- CVTN8: byte `byte` of D replaced by the quantised value (R271). -/
def execCvtn8 (byte : Fin 4) (nan e5 : Bool) (d a b : Reg) (g : Guard) (s : State) : Result :=
  issueResult (.cvtn8 byte nan e5 d a b g) d s (fun c l =>
    setByte (c.rd d l) byte.val
      (BitVec.ofNat 8 (quantise (fval (c.rd a l)) (scaleF32 c b l) (n8Fmt e5) nan false 0)))

/-- CVTF8 (R271). -/
def execCvtf8 (byte : Fin 4) (e5 : Bool) (d a : Reg) (g : Guard) (s : State) : Result :=
  issueResult (.cvtf8 byte e5 d a g) d s (fun c l => cvtf832 e5 (byteOf (c.rd a l) byte.val))

/-- QNT4: nibble n of D replaced (R273). -/
def execQnt4 (sf : ScaleFmt) (bsv : Bool) (d a b e : Reg) (nib : Fin 8) (g : Guard) (s : State) : Result :=
  issueResult (.qnt4 sf bsv d a b e nib g) d s (fun c l =>
    setNibble (c.rd d l) nib.val
      (BitVec.ofNat 4 (quantise (fval (c.rd a l)) (scaleVal sf c b l) .n4 false bsv (byteOf (c.rd e l) 0))))

/-- DQ4 (R273). -/
def execDq4 (sf : ScaleFmt) (d a b e : Reg) (nib : Fin 8) (g : Guard) (s : State) : Result :=
  issueResult (.dq4 sf d a b e nib g) d s (fun c l =>
    toF32 .rn (mulF (scaleVal sf c b l)
      (fvalN4 ((c.rd a l).extractLsb' (4 * nib.val) 4) (byteOf (c.rd e l) 0))))

/-- SCALE: the exact product of three factors, rounded once (R273). -/
def execScale (bf : ScaleFmt) (tf : TScaleFmt) (d a b e : Reg) (g : Guard) (s : State) : Result :=
  issueResult (.scale bf tf d a b e g) d s (fun c l =>
    toF32 .rn (mulF (mulF (fval (c.rd a l)) (scaleVal bf c b l)) (tscaleVal tf c e l)))

end Sys2Proof.Machine
end

