-- ==== Sys2Proof/Machine/Sequencer.lean ====
section
/-! DEFINITION. Fetching and choosing: instruction fetch through the die's cache (spec/01_machine.md R56, R57,
spec/03_sequencer.md R107, spec/13_memory_tiers.md R522, R523), what makes a split ready (R105), the order of R106, and
the meanings of ICACHE_MISS_FILL, SYNC_OP_EFFECT, YIELD_TIMEOUT, SLEEP_EXPIRE and ILLEGAL_INSTRUCTION. -/

namespace Sys2Proof.Machine

/-- The die of a core (R17, R18). -/
def dieOf (core : Nat) : Nat := core / 48

/-- The instruction cache of a die. -/
def State.die (s : State) (d : Nat) : Die := s.dies.getD d { icache := [] }

/-- A changed die. -/
def State.modDie (s : State) (d : Nat) (f : Die → Die) : State :=
  { s with dies := s.dies.put { icache := [] } d (f (s.die d)) }

/-- Where the instruction cache keeps the word at a physical address read under a key tag. -/
def icKey (pa tag : Nat) : Nat := pa / 8 * 8192 + tag

/-- The lines, with their key tags, of which a cache of instruction words holds words. -/
def icLines (m : Map DWord) : List (Nat × Nat) := (m.map (fun e => (e.1 / 131072, e.1 % 8192))).dedup

/-- A cache with room for some lines that has taken in the line `new` gives up another where it has to: which is open
(assumption log 12). -/
def icFit (room pick : Nat) (new : Nat × Nat) (m : Map DWord) : Map DWord :=
  if m.length ≤ room then m
  else
    let ls := (icLines m).filter (fun x => x ≠ new)
    if ls.length < room then m
    else
      let v := ls.getD (pick % ls.length) (0, 0)
      m.filter (fun e => (e.1 / 131072, e.1 % 8192) ≠ v)

/-- What a fetch meets. -/
inductive Fetched where
  /-- A word, and the physical address and key tag of its line where the line buffer has yet to take it in. -/
  | word (w : DWord) (line : Option (Nat × Nat))
  /-- No permitted translation, or an address outside the global aperture (R56, R522). -/
  | bad
  /-- The caches have no such word: its physical address and key tag (R107). -/
  | miss (pa tag : Nat)
deriving DecidableEq, Repr

/-- The line buffer of a sequencer. -/
def Core.lineBuf (c : Core) (seq : Nat) : Map DWord := c.lines.getD seq []

/-- The word at a PC in an address space, as the line buffer of a sequencer or else the cache of its die answers (R56, R57). -/
def State.fetch (s : State) (core seq asid : Nat) (pc : DWord) : Fetched :=
  if bits pc.toNat 56 8 ≠ 0 then .bad
  else
    match s.mapped asid .fetch pc.toNat with
    | none => .bad
    | some pa =>
      let tag := s.asidTag asid
      match ((s.core core).lineBuf seq).find? (icKey pa tag) with
      | some w => .word w none
      | none =>
        match (s.die (dieOf core)).icache.find? (icKey pa tag) with
        | some w => .word w (some (pa, tag))
        | none => .miss pa tag

/-- The word at a PC, as its split would fetch it; free where no fetch could (R56; assumption log 3). -/
def State.instrAt (s : State) (g : Group) (pc : DWord) : DWord :=
  match s.fetch g.core g.seq (s.asidOf g) pc with
  | .word w _ => w
  | .miss pa tag => BitVec.ofNat 64 ((s.touchLine tag (pa / 128)).physNat pa 8)
  | .bad => s.unread g

/-- Keys of the 16 words of the line at `pa` under a key tag. -/
def lineKeys (pa tag : Nat) : List Nat := (List.range 16).map (fun k => icKey (pa / 128 * 128 + 8 * k) tag)

/-- The 16 words of the line at `pa` enter a die's cache of 4 MiB, read under a key tag (R46, R57). -/
def State.fillLine (s : State) (die pa tag : Nat) : State :=
  let s := s.touchLine tag (pa / 128)
  let ws := (lineKeys pa tag).zipIdx.map (fun e => (e.1, BitVec.ofNat 64 (s.physNat (pa / 128 * 128 + 8 * e.2) 8)))
  s.bump.modDie die (fun d => { d with
    icache := icFit 32768 (Config.freeWord s.fresh).toNat (pa / 128, tag) (ws.foldl (fun m e => m.set e.1 e.2) d.icache) })

/-- A sequencer's line buffer takes in a line from its die's cache (R57). -/
def State.buffer (s : State) (core seq : Nat) : Option (Nat × Nat) → State
  | none => s
  | some (pa, tag) =>
    let ic := (s.die (dieOf core)).icache
    let ws := (lineKeys pa tag).filterMap (fun k => (ic.find? k).map (fun w => (k, w)))
    s.bump.modCore core (fun c => { c with
      lines := c.lines.set seq (icFit 128 (Config.freeWord s.fresh).toNat (pa / 128, tag)
        (ws.foldl (fun m e => m.set e.1 e.2) (c.lineBuf seq))) })

/-- The instruction caches and line buffers give up every word of a line that no resident group may fetch (R57; assumption
log 12). -/
def State.keepFetched (s : State) : State :=
  let tags := (s.groups.map (fun e => s.asidTag (s.asidOf e.2))).dedup
  let keep := fun (m : Map DWord) => m.filter (fun e => tags.contains (e.1 % 8192))
  { s with dies := s.dies.map (fun (e : Nat × Die) => (e.1, { e.2 with icache := keep e.2.icache })),
           cores := s.cores.map (fun (e : Nat × Core) => (e.1, { e.2 with lines := e.2.lines.map (fun x => (x.1, keep x.2)) })) }

/-- A split freezes its sequencer on a miss; the walker sets A in the leaf it used (R107, R523). -/
def State.freeze (s : State) (core seq asid pa tag : Nat) (pc : DWord) : State :=
  (s.markMapped asid .fetch pc.toNat).modCore core (fun c => { c with frozen := c.frozen.set seq (pa, tag) })

/-- ICACHE_MISS_FILL (R107): the line arrives, and SLIP has counted every frozen cycle. -/
def execIcacheMissFill (core seq cycles : Nat) (s : State) : Result :=
  .next (match (s.core core).frozen.find? seq with
  | none => s
  | some (pa, tag) =>
    (s.fillLine (dieOf core) pa tag).modCore core (fun c =>
      { c with frozen := c.frozen.erase seq,
               slip := c.slip.put 0 seq (c.slip.getD seq 0 + BitVec.ofNat 32 cycles) }))

/-- A wait that has ended or never began: the split may issue (R105, R162). -/
def Wait.over : Wait → Bool
  | .none => true
  | .released _ => true
  | .expired _ => true
  | .broken => true
  | .tags _ => true
  | .redo => true
  | .stalled => true
  | _ => false

/-- A split that its sequencer may issue: R105 apart from the scoreboard and the engines, which the instruction itself
finds (assumption log 4). -/
def State.ready (s : State) (g : Group) (sp : Split) : Bool :=
  g.inBarriers && !sp.suspended && sp.wait.over && !(s.core g.core).halted &&
    ((s.core g.core).frozen.find? g.seq).isNone

/-- The splits a sequencer may issue, in the order of R106. -/
def State.issueOrder (s : State) (core seq : Nat) : List (Nat × Nat) :=
  let gs := s.groups.filter (fun e => e.2.core = core && e.2.seq = seq)
  let byAge := fun (l : List (Nat × Group)) => l.mergeSort (fun a b => decide (a.2.age ≤ b.2.age))
  let ordered := byAge (gs.filter (fun e => e.2.pilot)) ++ byAge (gs.filter (fun e => !e.2.pilot))
  ordered.flatMap (fun e =>
    let ready := (e.2.splits.filter (fun x => s.ready e.2 x.2)).map Prod.fst
    let last := match e.2.lastSlot with
      | some k => k + 1
      | none => 0
    (ready.filter (fun k => decide (last ≤ k)) ++ ready.filter (fun k => decide (k < last))).map (fun k => (e.1, k)))

/-- SYNC_OP_EFFECT (R36, R168): a synchronising operation whose key has become the smallest takes effect; the split
issues it next. -/
def execSyncOpEffect (grp slot : Nat) (s : State) : Result :=
  .next (match s.ctxAt grp slot 0 Guard.always with
  | none => s
  | some c =>
    if c.sp.wait = .key ∧ s.smallest c.team.cluster c.grp.key then
      { s.modSplit grp slot (fun sp => { sp with wait := .none }) with agenda := .issue grp slot :: s.agenda }
    else s)

/-- YIELD_TIMEOUT (R109). -/
def execYieldTimeout (grp slot : Nat) (s : State) : Result :=
  .next (s.modSplit grp slot (fun sp => if sp.wait = .yield then { sp with wait := .none } else sp))

/-- SLEEP_EXPIRE (R145): the SLEEP retires. -/
def execSleepExpire (grp slot : Nat) (s : State) : Result :=
  .next (match s.ctxAt grp slot 0 Guard.always with
  | none => s
  | some c => if c.sp.wait = .sleep then s.retireAt grp slot c.reckon 1 none (c.sp.pc + 8) else s)

/-- ILLEGAL_INSTRUCTION (R77): the word a split fetched decodes to nothing, and raises trap 0x01 at the lanes its predicate
lets participate (R70, R79). -/
def execIllegalInstruction (w : DWord) (s : State) : Result :=
  match s.cur with
  | none => .fault .noIssuer
  | some loc =>
    match s.ctxAt loc.grp loc.slot w (wordGuard w) with
    | none => .fault .noIssuer
    | some c => .next (trap c 0x01 s)

end Sys2Proof.Machine
end

