-- ==== Sys2Proof/Machine/Place.lean ====
section
/-! DEFINITION. Teams on cores: room (spec/01_machine.md R39 to R42, spec/03_sequencer.md R121), how groups and teams start
(R100 to R102), and how a team leaves a core and comes back (R148, R149, R161 to R163, R225, R314, R381,
spec/11_helm.md R457). -/

namespace Sys2Proof.Machine

/-! ### Room (R39, R42, R121, R452) -/

/-- A group that has a place on a core (R39). DESIGN CHOICE (assumption log 33): one that is DRAINING still has its place, also
where the least loaded sequencer is chosen (R100). -/
def Group.placed (g : Group) : Bool :=
  match g.st with
  | .swapped => false
  | .ended => false
  | _ => true

/-- Groups on a core. -/
def State.groupsOn (s : State) (core : Nat) : List (Nat × Group) := s.groups.filter (fun e => e.2.core = core && e.2.placed)

/-- Teams on a core. -/
def State.teamsOn (s : State) (core : Nat) : List (Nat × Team) :=
  s.teams.filter (fun e => e.2.core = core && e.2.started && !e.2.swapped && !e.2.ended)

/-- SPAD that a core does not give out: that of its teams, and that of a team which has ended while something of it is on its
way (R39, R104; assumption log 33). -/
def State.spadTaken (s : State) (core : Nat) : List (Nat × Nat) :=
  (s.teams.filter (fun e => e.2.core = core && e.2.started && !e.2.swapped)).map (fun e => (e.2.spadBase, s.spadb e.2))

/-- What a team needs of a core: groups, pool units, SPAD bytes, Reckoning mode, table chunks and descriptors (R452). -/
structure TeamNeed where
  groups : Nat
  units : Nat
  spadb : Nat
  reckon : Bool
  chunks : Nat
  tables : Nat
deriving DecidableEq, Repr

/-- The need of a team that has not started (R121). -/
def LaunchRecord.need (r : LaunchRecord) : TeamNeed :=
  { groups := r.groups, units := r.groups * (r.vcnt / 8), spadb := r.spadb, reckon := r.reckon, chunks := 0, tables := 0 }

/-- The need of a team: as launched, or what it holds when it comes back (R148, R381). -/
def State.teamNeed (s : State) (tid : Nat) : TeamNeed :=
  match s.teams.find? tid with
  | none => LaunchRecord.empty.need
  | some t =>
    match s.grids.find? t.grid with
    | none => LaunchRecord.empty.need
    | some g =>
      if t.started then
        let gs := (s.teamGroups tid).filter (fun (e : Nat × Group) => e.2.st ≠ GState.ended)
        { groups := gs.length, units := (gs.map (fun (e : Nat × Group) => e.2.vallot / 8)).sum + t.reserve, spadb := g.record.spadb,
          reckon := g.record.reckon, chunks := (t.tables.map (fun e => e.2.chunks)).sum, tables := t.tables.length }
      else g.record.need

/-- The lowest place of `n` bytes in [base, base + size), aligned, that meets none of the ranges in use. -/
def firstFit (base size align n : Nat) (used : List (Nat × Nat)) : Option Nat :=
  let up := fun (a : Nat) => (a + align - 1) / align * align
  let cands := (base :: used.map (fun u => u.1 + u.2)).map up
  let ok := fun (a : Nat) => decide (base ≤ a) && decide (a + n ≤ base + size) &&
    used.all (fun u => decide (a + n ≤ u.1) || decide (u.1 + u.2 ≤ a))
  (cands.filter ok).foldl (fun best a => match best with
    | none => some a
    | some b => some (min a b)) none

/-- Room on a core for a team: the first byte its SPAD allocation takes (R39, R42, R121, R381; assumption log 18). -/
def State.roomAt (s : State) (core : Nat) (n : TeamNeed) : Option Nat :=
  let ts := s.teamsOn core
  let limit := if n.reckon || ts.any (fun e => s.teamReckon e.2) then 1572864 else 2097152
  let used := s.spadTaken core
  if (s.groupsOn core).length + n.groups ≤ 64 ∧ n.units ≤ (s.core core).poolFree ∧
      s.chunksUsed core + n.chunks ≤ 1024 ∧ s.descriptorsUsed core + n.tables ≤ 256 ∧
      used.all (fun u => decide (u.1 + u.2 ≤ limit)) then firstFit 0 limit 256 n.spadb used
  else none

/-! ### Groups start (R100 to R103, R151) -/

/-- The sequencer a new group goes to: fewest groups, of its kind for a pilot group, ties to the lower number (R100). -/
def State.sequencerFor (s : State) (core : Nat) (pilot : Bool) : Nat :=
  let count := fun (q : Nat) => ((s.groupsOn core).filter (fun e => e.2.seq = q && (!pilot || e.2.pilot))).length
  [1, 2, 3].foldl (fun b q => if count q < count b then q else b) 0

/-- A team's place in the save arena of its grid (R428): its number in the grid, and bytes of one team save area. -/
def areaSize (slots : Nat) : Nat := (0xC02200 + 24576 * slots + 8 + 128 * 8 * slots + 255) / 256 * 256

/-- Teams of a grid. -/
def Grid.teamCount (g : Grid) : Nat := g.record.clusters * g.record.teams

/-- Bytes of the save arena that a grid needs (R428). -/
def Grid.arenaNeed (g : Grid) : Nat := g.teamCount * (areaSize g.slots + g.slots * 262144)

/-- A team's number in its grid (R448). -/
def Grid.teamNumber (g : Grid) (cl : Cluster) (t : Team) : Nat := cl.index * g.record.teams + t.member

/-- The save area of team number i. -/
def Grid.areaOf (g : Grid) (i : Nat) : Nat := ((g.arena.map Prod.fst).getD 0) + i * areaSize g.slots

/-- The stack of a group of team number i (R181). -/
def Grid.stackOf (g : Grid) (i num : Nat) : Nat :=
  ((g.arena.map Prod.fst).getD 0) + g.teamCount * areaSize g.slots + (i * g.slots + num) * 262144

/-- The save slot of a group (R457). -/
def saveSlotAt (area num : Nat) : Nat := area + 0xC02200 + 24576 * num

/-- A group starts on a team's core: empty registers, one split of every lane, or of lane 0 for a pilot group (R43, R101,
R103, R151; assumption log 2). DESIGN CHOICE (assumption log 33): a group that SPAWN creates under the free number 0 of a grid
with the pilot flag is a pilot group too. -/
def State.addGroup (s : State) (tid num : Nat) (pc ltime : DWord) : State :=
  match s.teams.find? tid with
  | none => s
  | some t =>
    match s.grids.find? t.grid, s.clusters.find? t.cluster with
    | some gr, some cl =>
      let pilot := gr.record.pilot && num == 0
      let i := gr.teamNumber cl t
      let g : Group :=
        { Group.empty with
          team := tid, core := t.core, num := num,
          ggid := BitVec.ofNat 32 ((cl.index * 12 + t.member) * 32 + num), seq := s.sequencerFor t.core pilot,
          age := (s.core t.core).dispatch, st := .resident, pilot := pilot, vallot := gr.record.vcnt, ltime := ltime,
          splits := [(0, { pc := pc, mask := if pilot then 1 else BitVec.allOnes 32, stack := [], wait := .none,
                           suspended := false })],
          saveSlot := saveSlotAt t.saveArea num, stackBase := gr.stackOf i num }
      let id := s.uid + 1
      ({ s with uid := id, groups := s.groups.set id g }).modCore t.core (fun k =>
        { k with poolFree := k.poolFree - gr.record.vcnt / 8, dispatch := k.dispatch + 1 })
    | _, _ => s

/-- A partition works (R540). -/
def State.wake (s : State) (p : Nat) : State :=
  { s with pkg := { s.pkg with power := s.pkg.power.put .idle p .active } }

/-- A team starts on a core: its SPAD is clear, so that nothing of an earlier team shows in it (R52, R54; assumption log 33);
then its batch slice, then its groups in ascending number (R100, R448). -/
def State.startTeam (s : State) (tid core base : Nat) : State :=
  match s.teams.find? tid with
  | none => s
  | some t =>
    match s.grids.find? t.grid, s.clusters.find? t.cluster with
    | some gr, some cl =>
      let i := gr.teamNumber cl t
      let s := (s.wake (s.partOf core)).seeAll s.cores.keys
      let s := s.modTeam tid (fun t => { t with core := core, spadBase := base, started := true, saveArea := gr.areaOf i })
      let s := s.modCore core (fun k =>
        { k with spad := k.spad.filter (fun e => decide (e.1 < base) || decide (base + gr.record.spadb ≤ e.1)) })
      let s := match gr.slices.find? i with
        | some bs => s.modCore core (fun k => { k with spad := k.spad.storeBytes (base + gr.sliceOff) bs })
        | none => s
      (List.range gr.record.groups).foldl (fun s n => s.addGroup tid n gr.record.entry 0) s
    | _, _ => s

/-! ### Contexts in memory (R161 to R163, R457) -/

/-- GSTAT (R154). -/
def gstat (g : Group) (reckon maint : Bool) : Nat :=
  b2n g.forkres * 32 + b2n g.pilot * 16 + b2n maint * 8 + b2n reckon * 4 + b2n g.intrap * 2 + b2n g.growz

/-- The context header (R162). -/
def headerBytes (g : Group) (reckon maint : Bool) : List Byte :=
  let sp := fun (i : Nat) => g.splits.find? i
  (List.range 4).flatMap (fun i => leBytes 8 (((sp i).map (fun x => x.pc.toNat)).getD 0)) ++ List.replicate 20 0 ++
  (List.range 4).map (fun i => BitVec.ofNat 8 (((sp i).map (fun x => x.stack.length)).getD 0)) ++
  (List.range 4).map (fun i => BitVec.ofNat 8 (((sp i).map (fun x => b2n (x.wait != .none && x.wait != .yield))).getD 0)) ++
  leBytes 1 ((List.range 4).foldl (fun n i => n + b2n (sp i).isSome * 2 ^ i) 0) ++ leBytes 1 (g.vallot / 8) ++
  List.replicate 2 0 ++ leBytes 4 (gstat g reckon maint) ++ leBytes 8 g.ltime.toNat ++ leBytes 8 g.icnt.toNat ++
  leBytes 4 g.live.toNat ++ leBytes 4 g.ggid.toNat ++ List.replicate 36 0

/-- The serial stacks, bottom entry first (R161, R162). -/
def stackBytes (g : Group) : List Byte :=
  (List.range 4).flatMap (fun i =>
    let es := ((g.splits.find? i).map (fun x => x.stack.reverse)).getD []
    (List.range 16).flatMap (fun j => match es[j]? with
      | some e => leBytes 8 e.1.toNat ++ leBytes 4 e.2.toNat ++ List.replicate 4 0
      | none => List.replicate 16 0))

/-- The membership set (R162). -/
def memberBytes (g : Group) : List Byte :=
  (List.range 8).flatMap (fun i => match g.members.find? i with
    | some m => leBytes 8 (m.locator.toNat + (m.lanes % 64) * 2 ^ 32 + b2n m.arrived * 2 ^ 38 + b2n m.aphase * 2 ^ 39 + 2 ^ 40)
    | none => List.replicate 8 0)

/-- A save slot from its context header on, but for its v registers (R161). -/
def slotBytes (g : Group) (reckon maint : Bool) : List Byte :=
  headerBytes g reckon maint ++ stackBytes g ++
  (List.range 48).flatMap (fun n => leBytes 4 (g.s.getD n 0).toNat) ++
  (List.range 15).flatMap (fun n => leBytes 4 (g.x.getD n (0, 0)).1.toNat ++ leBytes 4 (g.x.getD n (0, 0)).2.toNat) ++
  List.replicate 8 0 ++
  (List.range 8).flatMap (fun n => leBytes 4 (if n = 0 then 0xFFFFFFFF else g.m.getD n 0 : Word).toNat) ++ memberBytes g

/-- A group's context written to its save slot (R161). -/
def State.saveGroup (s : State) (asid : Nat) (g : Group) (reckon maint : Bool) : State :=
  (s.arenaStore asid (g.saveSlot + 0x80) (slotBytes g reckon maint)).arenaStore asid (g.saveSlot + 0x700)
    ((List.range g.vallot).flatMap (fun n => (List.range 32).flatMap (fun l => leBytes 4 (laneOf (g.v.getD n []) l).toNat)))

/-- A table's descriptor (R362). -/
def descriptorBytes (t : Table) : List Byte :=
  let st := match t.st with
    | .free => 0
    | .valid => 1
    | .stale => 2
    | .spilled => 3
  leBytes 4 (st + b2n t.codebook * 8 + b2n (t.lost && t.st == .valid) * 16 + t.chunks * 2 ^ 21) ++ List.replicate 28 0 ++
  (List.range 8).flatMap (fun i => leBytes 4 (t.w i)) ++ t.afb ++ (if t.codebook then t.cbfb else List.replicate 32 0xFF)

/-- A tile's mode in the ACC directory (R457). -/
def modeCode : TileMode → Nat
  | .f32 => 0
  | .x2 => 1
  | .i32 => 2

/-- WBUF regions and ACC tiles whose tag names a team (R320, R457). -/
def Core.regionsOf (k : Core) (tid : Nat) : List Nat := Map.keys (k.wbufTag.filter (fun e => e.2.2 = tid))

/-- ACC tiles whose tag names a team. -/
def Core.tilesOf (k : Core) (tid : Nat) : List Nat := Map.keys (k.accTag.filter (fun e => e.2.2 = tid))

/-- A bit map of numbers, in bytes. -/
def bitmap (n : Nat) (ks : List Nat) : List Byte := leBytes n (ks.foldl (fun a k => a + 2 ^ k) 0)

/-- The race metadata of a Reckoning team in its SPAD image, whose format the manual does not give: free bytes, a third as many
as its allocation (R214, R457; assumption logs 3, 18). -/
def State.saveMeta (s : State) (asid : Nat) (t : Team) : State :=
  if s.teamReckon t then
    let n := (s.spadb t + 2) / 3
    { s.arenaStore asid (t.saveArea + 0x180100) ((List.range n).map (fun i =>
      (Config.freeWord (s.fresh + i)).extractLsb' 0 8)) with fresh := s.fresh + n }
  else s

/-- The record of a stopped loop (R356). -/
def loopRecord (num : Nat) (l : Loop) : List Byte :=
  leBytes 2 l.id.toNat ++ leBytes 1 num ++ leBytes 1 (if l.op = .mloop then 0x65 else 0x69) ++ leBytes 2 l.progress ++
  leBytes 2 (b2n l.sat * 256 + b2n l.iovf * 512) ++ leBytes 4 (l.mod % 16) ++ List.replicate 4 0 ++
  (List.range 8).flatMap (fun i => leBytes 4 (l.octet.getD i 0).toNat) ++ l.fa ++
  (if l.op = .mloop then l.fb else List.replicate 32 0) ++ List.replicate 16 0

/-- MLOOPs and TLOOKs of a team that have not completed, in ACC order (R356). -/
def State.stoppedLoops (s : State) (tid core : Nat) : List (Nat × Loop) :=
  (s.core core).accQ.filterMap (fun q => match s.cmds.find? q with
    | some c => (match c.work with
      | .loop l => if c.team = tid ∧ (l.op = .mloop ∨ l.op = .tlook) then some (c.grp, l) else none
      | _ => none)
    | none => none)

/-- The stopped loops of a team written behind its save slots: their count, then their records (R356, R457). -/
def State.saveLoops (s : State) (asid slots tid : Nat) (t : Team) : State :=
  let ls := s.stoppedLoops tid t.core
  s.arenaStore asid (saveSlotAt t.saveArea slots) (leBytes 8 ls.length ++ ls.flatMap (fun e =>
    loopRecord (((s.groups.find? e.1).map (fun g => g.num)).getD 0) e.2))

/-- The team save area but for its save slots (R457). -/
def State.saveTeam (s : State) (asid : Nat) (tid : Nat) (t : Team) : State :=
  let k := s.core t.core
  let a := t.saveArea
  let gs := s.teamGroups tid
  let byNum := fun (n : Nat) => (gs.find? (fun e => e.2.num = n && e.2.st ≠ GState.ended)).map Prod.snd
  let s := s.arenaStore asid a ((List.range 16).flatMap (fun n => leBytes 4 (t.h.getD n 0).toNat) ++
    (List.range 32).flatMap (fun n => match byNum n with
      | some g => leBytes 2 g.aloop.toNat ++ leBytes 4 g.astat.toNat
      | none => List.replicate 6 0))
  let s := (s.arenaStore asid (a + 0x100) (k.spad.bytes t.spadBase (s.spadb t))).saveMeta asid t
  let rs := k.regionsOf tid
  let s := s.arenaStore asid (a + 0x200100) (bitmap 4 rs ++ List.replicate 60 0)
  let s := rs.foldl (fun s r => s.arenaStore asid (a + 0x200140 + 65536 * r) (k.wbuf.bytes (65536 * r) 65536)) s
  let ts := k.tilesOf tid
  let s := s.arenaStore asid (a + 0x400140) (bitmap 16 ts ++
    leBytes 32 (ts.foldl (fun n i => n + modeCode (k.mode i) * 4 ^ i) 0) ++ List.replicate 16 0)
  let s := ts.foldl (fun s i => s.arenaStore asid (a + 0x400180 + 65536 * i)
    ((List.range 16384).flatMap (fun e => leBytes 4 (k.acc.getD (i * 16384 + e) 0).toNat))) s
  s.arenaStore asid (a + 0xC00180) ((List.range 64).flatMap (fun n => match t.tables.find? n with
    | some tb => descriptorBytes tb
    | none => List.replicate 128 0))

/-! ### A team's SPAD moves -/

/-- A place in a team's SPAD after it has moved. -/
def rebase (c b n c' b' : Nat) (p : Nat × Nat) : Nat × Nat :=
  if p.1 = c ∧ b ≤ p.2 ∧ p.2 < b + n then (c', b' + (p.2 - b)) else p

/-- Table entries of a range moved to another. -/
def moveRange {α : Type} (src : Map α) (b n : Nat) (dst : Map α) (d : Nat) : Map α :=
  (src.filter (fun e => decide (b ≤ e.1) && decide (e.1 < b + n))).foldl (fun m e => Map.set m (e.1 - b + d) e.2)
    (dst.filter (fun e => decide (e.1 < d) || decide (d + n ≤ e.1)))

/-- Everything that names a place in a team's SPAD follows it to another core: membership entries, waits, the keys of
phase completions, race metadata, what commands see, own and have yet to count, watched ranges (R30, R139, R169, R170, R214,
R365). -/
def State.moveTeam (s : State) (tid c' b' : Nat) : State :=
  match s.teams.find? tid with
  | none => s
  | some t =>
    let c := t.core
    let b := t.spadBase
    let n := s.spadb t
    let f := rebase c b n c' b'
    let old := s.core c
    let mine := (s.clusterTeams t.cluster).map Prod.fst
    let s := { s with groups := s.groups.map (fun (e : Nat × Group) =>
      if mine.contains e.2.team then
        let g := e.2
        let g := { g with
          members := g.members.map (fun (m : Nat × Member) => (m.1, { m.2 with core := (f (m.2.core, m.2.off)).1, off := (f (m.2.core, m.2.off)).2 })),
          splits := g.splits.map (fun (x : Nat × Split) => (x.1, { x.2 with wait := match x.2.wait with
            | .phase pc po ph d => .phase (f (pc, po)).1 (f (pc, po)).2 ph d
            | w => w })) }
        (e.1, if g.team = tid then { g with core := c' } else g)
      else e) }
    let s := s.modCore c' (fun k =>
      { k with spad := moveRange old.spad b n k.spad b', phaseKey := moveRange old.phaseKey b n k.phaseKey b' })
    let s := s.modCore c (fun k =>
      { k with phaseKey := if c = c' then k.phaseKey else k.phaseKey.filter (fun e => decide (e.1 < b) || decide (b + n ≤ e.1)) })
    let s := s.modCluster t.cluster (fun cl => { cl with accesses := cl.accesses.map (fun (a : Access) => { a with loc := match a.loc with
      | .byte (.spad k, o) => .byte (.spad (f (k, o)).1, (f (k, o)).2)
      | l => l }) })
    let s := { s with cmds := s.cmds.map (fun (e : Nat × Cmd) => (e.1, { e.2 with
      owned := e.2.owned.map (fun (r : Space × Nat × Nat) =>
        if r.1 = Space.spad c ∧ b ≤ 32 * r.2.1 ∧ 32 * r.2.1 < b + n then
          (Space.spad c', r.2.1 - b / 32 + b' / 32, r.2.2 - b / 32 + b' / 32)
        else r),
      uncounted := e.2.uncounted.map (fun (u : Nat × Nat × Nat) => ((f (u.1, u.2.1)).1, (f (u.1, u.2.1)).2, u.2.2)),
      view := if e.2.cluster = t.cluster then e.2.view.map (fun (m : MemberView) =>
          if m.member = t.member ∨ (m.member = 15 ∧ e.2.team = tid) then { m with core := c', base := b' } else m)
        else e.2.view })) }
    s.modTeam tid (fun t => { t with
      core := c', spadBase := b', tables := t.tables.map (fun (e : Nat × Table) => (e.1, { e.2 with watch := e.2.watchAt c' b' })) })

/-! ### Swap-out and resume (R148, R225, R314, R381, R457) -/

/-- A wait that an interruption ends: its split executes the instruction again when it resumes (R162, R173). Team barriers
in progress and released waits go with the context (R174). -/
def Wait.interrupted : Wait → Wait
  | .key => .redo
  | .phase _ _ _ _ => .redo
  | .grow _ _ _ => .redo
  | .sleep => .redo
  | .yield => .none
  | .stalled => .none
  | .tags _ => .redo
  | .exit _ => .redo
  | w => w

/-- A group's context as it is saved. -/
def Group.interrupt (g : Group) : Group :=
  { g with splits := g.splits.map (fun (x : Nat × Split) => (x.1, { x.2 with wait := x.2.wait.interrupted })) }

/-- A group can be saved: every issued access has performed, and every write has landed (R173, R225). -/
def Group.quiet (g : Group) : Bool := g.fifo.isEmpty && g.pend.isEmpty && g.releasing == 0

/-- The almanac tables of a team lose their entries; states and numbers stay (R380, R381). -/
def Team.loseTables (t : Team) : Team :=
  { t with tables := t.tables.map (fun (e : Nat × Table) => if e.2.st = .valid then (e.1, { e.2 with lost := true, entries := [] }) else e) }

/-- Where the images of a team that is swapped out are kept (assumption log 18). -/
def awayCore (tid : Nat) : Nat := 96 + tid

/-- The WBUF regions and ACC tiles of a team from one core to another (R320, R457). -/
def State.moveBuffers (s : State) (tid asid c c' : Nat) : State :=
  let k := s.core c
  let rs := k.regionsOf tid
  let ts := k.tilesOf tid
  let s := rs.foldl (fun s r => s.markStale (.wbuf c') (65536 * r) (65536 * (r + 1))) s
  s.modCore c' (fun x =>
    let x := rs.foldl (fun x r =>
      { x with wbuf := moveRange k.wbuf (65536 * r) 65536 x.wbuf (65536 * r), wbufTag := x.wbufTag.set r (asid, tid) }) x
    ts.foldl (fun x i =>
      { x with acc := moveRange k.acc (16384 * i) 16384 x.acc (16384 * i), accTag := x.accTag.set i (asid, tid)
               accMode := x.accMode.put .f32 i (k.mode i) }) x)

/-- Nothing is left of a Reckoning command but its completion, which waits for a key that no halted group reaches (R170;
assumption log 35). -/
def State.awaitsKey (s : State) (cmd : Cmd) : Bool :=
  !s.completable cmd && match cmd.work with
    | .xfer _ => cmd.passed
    | .loop _ => cmd.passed
    | .chart k => (match k.op with
      | .gather g => g.over.isSome
      | _ => true)
    | .net n => n.status.isSome && cmd.owned.isEmpty
    | _ => false

/-- A team can be swapped out: its groups are quiet and its commands have completed, but for the loops that a halt has stopped
(R148, R225, R460). -/
def State.teamQuiet (s : State) (tid : Nat) : Bool :=
  (s.teamGroups tid).all (fun e => e.2.st = .ended || e.2.quiet) &&
    s.cmds.all (fun (e : Nat × Cmd) => e.2.team != tid || e.2.stops || s.awaitsKey e.2)

/-- No command and no store of another team of the cluster is on its way to the team's SPAD. -/
def State.spadQuiet (s : State) (tid : Nat) : Bool :=
  match s.teams.find? tid with
  | none => true
  | some t =>
    let hit := fun (sp : Space) (o : Nat) => sp = .spad t.core && decide (t.spadBase ≤ o) && decide (o < t.spadBase + s.spadb t)
    !s.cmds.any (fun (e : Nat × Cmd) => e.2.team ≠ tid && e.2.owned.any (fun r =>
      match r.1 with
      | .spad c => c = t.core && decide (32 * r.2.1 < t.spadBase + s.spadb t) && decide (t.spadBase < 32 * r.2.2)
      | _ => false)) &&
    !s.groups.any (fun e => e.2.team ≠ tid && e.2.fifo.any (fun x => x.bytes.any (fun b => hit b.1.1 b.1.2)))

/-- A team leaves its core: contexts and images go to its save area, its pool units are free, tags that it issued last
become IDLE, the core's atomic line buffer and Compass are given up; on the slow path of a halt its stopped loops are written
too (R148, R225, R314, R356, R381, R457). -/
def State.swapOut (s : State) (tid : Nat) (forked slow : Bool) : State :=
  match s.teams.find? tid with
  | none => s
  | some t =>
    match s.grids.find? t.grid with
    | none => s
    | some gr =>
      let c := t.core
      let s := s.modTeam tid Team.loseTables
      let gs := (s.teamGroups tid).filter (fun (e : Nat × Group) => e.2.st ≠ GState.ended)
      let units := (gs.map (fun (e : Nat × Group) => e.2.vallot / 8)).sum + t.reserve
      let s := { s with groups := s.groups.map (fun (e : Nat × Group) =>
        if e.2.team = tid ∧ e.2.st ≠ GState.ended then (e.1, { e.2.interrupt with st := .swapped }) else e) }
      let s := match s.teams.find? tid with
        | some t => let s := s.saveTeam gr.asid tid t
                    if slow then s.saveLoops gr.asid gr.slots tid t else s
        | none => s
      let s := gs.foldl (fun (s : State) (e : Nat × Group) =>
        s.saveGroup gr.asid e.2 gr.record.reckon gr.record.maint) s
      let s := s.modCore c (fun k =>
        { k with poolFree := k.poolFree + units, growQ := k.growQ.filter (fun (r : GrowReq) => !gs.any (fun (e : Nat × Group) => e.1 = r.grp)),
                 tags := k.tags.filter (fun (e : Nat × Tag) => e.2.team ≠ tid), alb := [], compass := [],
                 opCache := k.opCache.filter (fun e => e.1 ≠ tid),
                 accQ := k.accQ.filter (fun q => !(s.cmds.find? q).any (fun (x : Cmd) => x.team = tid)) })
      let s := s.moveBuffers tid gr.asid c (awayCore tid)
      (s.moveTeam tid (awayCore tid) 0).modTeam tid (fun t => { t with swapped := true, forked := forked })

/-- Commands of a team that are left go on from its new core; its loops enter the ACC order there in their own order
(R356). -/
def State.reenter (s : State) (tid core : Nat) : State :=
  let mine := s.cmds.filter (fun (e : Nat × Cmd) => e.2.team = tid)
  let acc := mine.filter (fun (e : Nat × Cmd) => match e.2.work with
    | .xfer x => x.sacc
    | w => w.isAlmanac)
  let s := { s with cmds := s.cmds.map (fun (e : Nat × Cmd) => if e.2.team = tid then (e.1, { e.2 with core := core }) else e) }
  s.modCore core (fun k => { k with accQ := k.accQ ++ acc.map Prod.fst })

/-- Bytes of the device's own arenas as a core reads them, under the key of the grid's ASID (assumption log 11). -/
def State.arenaLoad (s : State) (asid pa n : Nat) : State × List Byte :=
  let s := s.touch (s.asidTag asid) pa n
  (s, s.physBytes pa n)

/-- Bytes as little-endian words. -/
def leWords : List Byte → List Word
  | a :: b :: c :: d :: bs => BitVec.ofNat 32 (leNat [a, b, c, d]) :: leWords bs
  | _ => []

/-- Words as the entries of a table from an index on; words of 0 have none. -/
def wordEntries (lo : Nat) (ws : List Word) : Map Word := ((ws.zipIdx lo).filter (fun e => e.1 ≠ 0)).map (fun e => (e.2, e.1))

/-- The number at an offset of some bytes. -/
def numAt (bs : List Byte) (off n : Nat) : Nat := leNat ((bs.drop off).take n)

/-- A split as its context gives it: its PC and its stack, bottom entry first in memory (R162). Its mask and its wait are not
in the layout (assumption log 18). -/
def Split.reload (sp : Split) (bs : List Byte) (i : Nat) : Split :=
  { sp with
    pc := BitVec.ofNat 64 (numAt bs (8 * i) 8),
    stack := ((List.range (numAt bs (52 + i) 1)).map (fun j =>
      (BitVec.ofNat 64 (numAt bs (0x80 + 256 * i + 16 * j) 8), BitVec.ofNat 32 (numAt bs (0x80 + 256 * i + 16 * j + 8) 4)))).reverse }

/-- A group as its save slot gives it: `bs` from the context header on, `vs` its v registers (R161, R162). -/
def Group.reload (g : Group) (bs vs : List Byte) : Group :=
  let word := fun (off : Nat) => BitVec.ofNat 32 (numAt bs off 4)
  { g with
    splits := g.splits.map (fun e => (e.1, e.2.reload bs e.1)),
    ltime := BitVec.ofNat 64 (numAt bs 68 8), icnt := BitVec.ofNat 64 (numAt bs 76 8),
    s := (List.range 48).foldl (fun k n => Map.put k 0 n (word (0x480 + 4 * n))) [],
    x := (List.range 15).foldl (fun k n => Map.put k (0, 0) n (word (0x540 + 8 * n), word (0x544 + 8 * n))) [],
    m := ((List.range 8).drop 1).foldl (fun k n => Map.put k 0 n (word (0x5C0 + 4 * n))) [],
    v := (List.range g.vallot).foldl (fun k n => Map.put k (lanesOf (fun _ => 0)) n (((leWords vs).drop (32 * n)).take 32)) [] }

/-- A group's context read back from its save slot (R161, R457). -/
def State.loadGroup (s : State) (asid gid : Nat) : State :=
  match s.groups.find? gid with
  | none => s
  | some g =>
    let a := s.arenaLoad asid (g.saveSlot + 0x80) 0x620
    let b := a.1.arenaLoad asid (g.saveSlot + 0x700) (128 * g.vallot)
    b.1.modGroup gid (fun g => g.reload a.2 b.2)

/-- A team's save area read back but for its save slots: h registers, ALOOP and ASTAT, the SPAD image, and the WBUF and ACC
images, on the core where the team now is (R457). -/
def State.loadTeam (s : State) (asid tid : Nat) (rs ts : List Nat) : State :=
  match s.teams.find? tid with
  | none => s
  | some t =>
    let a := t.saveArea
    let x := s.arenaLoad asid a 256
    let s := x.1.modTeam tid (fun t => { t with
      h := (List.range 16).foldl (fun m n => m.put 0 n (BitVec.ofNat 32 (numAt x.2 (4 * n) 4))) [] })
    let s := { s with groups := s.groups.map (fun (e : Nat × Group) =>
      if e.2.team = tid ∧ e.2.st ≠ GState.ended then
        (e.1, { e.2 with aloop := BitVec.ofNat 16 (numAt x.2 (64 + 6 * e.2.num) 2),
                         astat := BitVec.ofNat 32 (numAt x.2 (66 + 6 * e.2.num) 4) })
      else e) }
    let y := s.arenaLoad asid (a + 0x100) (s.spadb t)
    let s := y.1.modCore t.core (fun k => { k with spad := k.spad.storeBytes t.spadBase y.2 })
    let s := rs.foldl (fun s r =>
      let z := s.arenaLoad asid (a + 0x200140 + 65536 * r) 65536
      z.1.modCore t.core (fun k => { k with wbuf := k.wbuf.storeBytes (65536 * r) z.2 })) s
    ts.foldl (fun s i =>
      let z := s.arenaLoad asid (a + 0x400180 + 65536 * i) 65536
      let put := fun (acc : Map Word) => acc.filter (fun e => decide (e.1 < 16384 * i)) ++
        (wordEntries (16384 * i) (leWords z.2) ++ acc.filter (fun e => decide (16384 * (i + 1) ≤ e.1)))
      z.1.modCore t.core (fun k => { k with acc := put k.acc })) s

/-- A team comes back on a core, with the images of its save area; its groups get new sequencers and new ages, in ascending
group number (R100, R102, R148, R457; assumption log 18). -/
def State.resumeTeam (s : State) (tid core base : Nat) : State :=
  match s.teams.find? tid with
  | none => s
  | some t =>
    match s.grids.find? t.grid with
    | none => s
    | some gr =>
      let s := (s.wake (s.partOf core)).seeAll s.cores.keys
      let rs := (s.core t.core).regionsOf tid
      let ts := (s.core t.core).tilesOf tid
      let s := s.moveBuffers tid gr.asid t.core core
      let s := s.moveTeam tid core base
      let s := { s with cores := s.cores.erase (awayCore tid) }
      let s := s.loadTeam gr.asid tid rs ts
      let n := s.teamNeed tid
      let s := s.modTeam tid (fun t => { t with swapped := false, forked := false })
      let s := s.modCore core (fun k => { k with poolFree := k.poolFree - n.units })
      let ids := (List.range 32).flatMap (fun num => Map.keys ((s.teamGroups tid).filter (fun (e : Nat × Group) =>
        e.2.num = num && e.2.st ≠ GState.ended)))
      let s := ids.foldl (fun (s : State) (g : Nat) =>
        let s := s.loadGroup gr.asid g
        let pilot := (s.groups.find? g).any (fun x => x.pilot)
        let seq := s.sequencerFor core pilot
        let age := (s.core core).dispatch
        (s.modGroup g (fun x => { x with seq := seq, age := age, st := if x.intrap then .handler else .resident })).modCore
          core (fun k => { k with dispatch := k.dispatch + 1 })) s
      s.reenter tid core

/-- A team starts, or comes back, on a core; one that has ended meanwhile does not. -/
def State.enterCore (s : State) (tid core base : Nat) : State :=
  if (s.teams.find? tid).any (fun t => t.ended) then s
  else if (s.teams.find? tid).any (fun t => t.started) then s.resumeTeam tid core base else s.startTeam tid core base

end Sys2Proof.Machine
end

