-- ==== Sys2Proof/Machine/Helm.lean ====
section
/-! DEFINITION. The host side of Helm (spec/11_helm.md R428 to R443): launch records (spec/02_encoding.md R93, R98),
submission rings and their commands, models, requests, semaphores and doorbells. -/

namespace Sys2Proof.Machine

/-- A little-endian field of an image. -/
def leAt (bs : List Byte) (o n : Nat) : Nat := leNat ((bs.drop o).take n)

/-- A 64-bit field of an image. -/
def le64 (bs : List Byte) (o : Nat) : DWord := BitVec.ofNat 64 (leAt bs o 8)

/-! ### Launch records (R93, R98) -/

/-- A launch record as its 256 bytes lay it out (R93). -/
def parseLaunch (bs : List Byte) : LaunchRecord where
  entry := le64 bs 0x00
  trapEntry := le64 bs 0x08
  paramPtr := le64 bs 0x10
  leasePtr := le64 bs 0x18
  clusters := leAt bs 0x20 4
  teams := leAt bs 0x24 1
  groups := leAt bs 0x25 1
  rectW := bits (leAt bs 0x26 1) 0 4
  rectH := bits (leAt bs 0x26 1) 4 4
  vcnt := leAt bs 0x28 1
  scnt := leAt bs 0x29 1
  xcnt := leAt bs 0x2A 1
  spadb := leAt bs 0x2C 4
  leaseCnt := leAt bs 0x30 1
  reckon := bit (leAt bs 0x31 1) 0
  maint := bit (leAt bs 0x31 1) 1
  pilot := bit (leAt bs 0x31 1) 2
  prio := bits (leAt bs 0x32 1) 0 3
  queue := bits (leAt bs 0x33 1) 0 6
  depCnt := leAt bs 0x34 1
  entryCnt := leAt bs 0x35 1
  entryTab := le64 bs 0x38
  deps := (List.range 4).map (fun i => (le64 bs (0x40 + 16 * i), le64 bs (0x48 + 16 * i)))
  doneAddr := le64 bs 0x80
  doneAdd := le64 bs 0x88
  holdPtr := le64 bs 0x90
  holdCnt := leAt bs 0x98 4

/-- A 64-bit address that is not a multiple of `n`. -/
def misaligned (a : DWord) (n : Nat) : Bool := a.toNat % n != 0

/-- Dependences in use (R93). -/
def LaunchRecord.used (r : LaunchRecord) : List (DWord × DWord) := r.deps.take r.depCnt

/-- The cases of R98 that the record alone shows. -/
def LaunchRecord.bad (r : LaunchRecord) : Bool :=
  r.clusters == 0 || decide (11184810 < r.clusters) ||
  r.teams != r.rectW * r.rectH || r.rectW == 0 || decide (8 < r.rectW) || r.rectH == 0 || decide (6 < r.rectH) ||
  decide (12 < r.rectW * r.rectH) || r.groups == 0 || decide (32 < r.groups) ||
  decide (176 < r.vcnt) || r.vcnt % 8 != 0 || decide (48 < r.scnt) || decide (15 < r.xcnt) ||
  decide (2097152 < r.spadb) || r.spadb % 256 != 0 || (r.reckon && decide (1572864 < r.spadb)) ||
  decide (16 < r.leaseCnt) || decide (4 < r.depCnt) ||
  misaligned r.entry 8 || misaligned r.trapEntry 8 || misaligned r.entryTab 8 || misaligned r.doneAddr 8 ||
  r.deps.any (fun d => misaligned d.1 8) || misaligned r.leasePtr 16 ||
  decide (524288 < r.groups * r.vcnt * 128)

/-- The request handles of a hold list; none when it cannot be read (R93, R425). -/
def State.holdList (s : State) (asid : Nat) (r : LaunchRecord) : State × Option (List Nat) :=
  if r.reckon ∧ 0 < r.holdCnt then
    let x := s.readVa asid r.holdPtr.toNat (4 * r.holdCnt)
    (x.1, x.2.map (fun bs => (List.range r.holdCnt).map (fun i => leAt bs (4 * i) 4)))
  else (s, some [])

/-- Helm refuses a record (R98); the hold list counts unless the grid is a step grid. -/
def State.refusedRecord (s : State) (asid : Nat) (r : LaunchRecord) : State × Bool :=
  if r.bad then (s, true)
  else if r.reckon ∧ 0 < r.holdCnt ∧ misaligned r.holdPtr 4 then (s, true)
  else
    let x := s.holdList asid r
    (x.1, match x.2 with
      | none => true
      | some hs => hs.any (fun h => (x.1.liveReq h asid).isNone))

/-- A grid as it enters a queue. -/
def Grid.enter (r : LaunchRecord) (addr : DWord) (q asid : Nat) (decode : Bool) (cookie : DWord) : Grid where
  record := r
  recAddr := addr
  queue := q
  asid := asid
  decodeRole := decode
  stage := .waiting
  leases := []
  pins := []
  saves := []
  arena := none
  slots := if r.maint then 32 else r.groups
  reads := []
  holds := []
  holding := false
  ending := none
  nextCluster := 0
  parent := none
  depth := 0
  cookie := cookie
  step := none
  slices := []
  sliceOff := 0
  dog := none

/-- A grid enters the tail of a queue (R451). -/
def State.enqueue (s : State) (q : Nat) (g : Grid) : State :=
  let id := s.uid + 1
  ({ s with uid := id, grids := s.grids.set id g }).modQueue q (fun k => { k with grids := k.grids ++ [id] })

/-! ### Submission rings (R434, R435, R437) -/

/-- A submission entry (R434). -/
structure Entry where
  cmd : Nat
  addr : DWord
  arg0 : Nat
  arg1 : Nat
  cookie : DWord
deriving DecidableEq, Repr

/-- An entry as its 64 bytes lay it out. -/
def parseEntry (bs : List Byte) : Entry :=
  { cmd := leAt bs 0 1, addr := le64 bs 0x08, arg0 := leAt bs 0x10 4, arg1 := leAt bs 0x14 4, cookie := le64 bs 0x18 }

/-- A ring that Helm may read: in use, not empty, and no event of the queue held (R435, R437). -/
def Queue.servable (k : Queue) : Bool := k.en && k.rtail != k.rhead && k.held.isEmpty

/-- The ring whose turn it is (R435). -/
def State.ringTurn (s : State) : Option Nat :=
  ((List.range 64).map (fun i => (s.helm.turn + i) % 64)).find? (fun q => (s.queue q).servable)

/-- The next entry of ring q, taken when the rotation is at q and the entry's command is one of these; it is an acquire,
and the rotation goes on (R435). -/
def State.serveRing (s : State) (q : Nat) (mine : Nat → Bool) (go : Entry → State → State) : State :=
  if s.pkg.ready ∧ s.ringTurn = some q then
    let k := s.queue q
    let r := s.readPhys (k.rbase.toNat + 64 * (k.rhead.toNat % 2 ^ k.rlog)) 64
    let e := parseEntry r.2
    if mine e.cmd then
      go e ((r.1.modQueue q (fun k => { k with rhead := k.rhead + 1 })).modHelm (fun h => { h with turn := (q + 1) % 64 }))
    else s
  else s

/-- A refusal: its REFUSED event (R435, R436). -/
def State.refuse (s : State) (q status : Nat) (cookie : DWord) : State :=
  s.postOpen q 2 (some status) none none none cookie

/-- LAUNCH of an entry (R429, R435, R519). -/
def launchEntry (q : Nat) (e : Entry) (s : State) : State :=
  let k := s.queue q
  if misaligned e.addr 256 then s.refuse q 0x01 e.cookie
  else if ¬s.asidEn k.asid then s.refuse q 0x02 e.cookie
  else
    match s.readVa k.asid e.addr.toNat 256 with
    | (s, none) => s.refuse q 0x01 e.cookie
    | (s, some bs) =>
      let r := parseLaunch bs
      let x := s.refusedRecord k.asid r
      if x.2 ∨ r.queue ≠ q then (x.1.addCounter k.asid r.doneAddr r.doneAdd).refuse q 0x01 e.cookie
      else x.1.enqueue q (Grid.enter r e.addr q k.asid (!k.prefill) e.cookie)

/-- LAUNCH (R435). -/
def execLaunch (q : Nat) (s : State) : Result := .next (s.serveRing q (fun c => c == 1) (launchEntry q))

/-- BADCMD (R435): any other command. -/
def execBadcmd (q : Nat) (s : State) : Result :=
  .next (s.serveRing q (fun c => c == 0 || decide (5 < c)) (fun e s => s.refuse q 0x10 e.cookie))

/-! ### Models (R438, R439) -/

/-- A template at an address: none when it cannot be read; 0 is no template (R438). -/
def State.template (s : State) (asid : Nat) (a : DWord) : State × Option (Option LaunchRecord) :=
  if a = 0 then (s, some none)
  else
    let x := s.readVa asid a.toNat 256
    (x.1, x.2.map (fun bs => some (parseLaunch bs)))

/-- A template that R439 refuses. -/
def templateBad (m : Model) (t : Option LaunchRecord) : Bool :=
  match t with
  | none => false
  | some r => ({ r with clusters := 1 } : LaunchRecord).bad || !r.pilot ||
      decide (r.spadb < m.sliceOff + 16 + 16 * m.maxSeq)

/-- A model record but for its templates (R438), under the ASID of its ring. -/
def parseModel (bs : List Byte) (asid : Nat) : Model where
  asid := asid
  tok := leAt bs 0x30 2
  kvtype := bits (leAt bs 0x34 1) 0 4
  pool0 := bits (leAt bs 0x34 1) 4 4
  pool1 := bits (leAt bs 0x35 1) 0 4
  rowb := leAt bs 0x38 2
  nlg := leAt bs 0x3A 2
  maxpg := leAt bs 0x3C 2 + 1
  pfBudget := leAt bs 0x40 4
  decBudget := leAt bs 0x44 4
  chunk := leAt bs 0x48 4
  ageQ := leAt bs 0x4C 4
  maxSeq := leAt bs 0x50 2
  stepQ := bits (leAt bs 0x52 1) 0 6
  sliceOff := leAt bs 0x54 4
  vocab := leAt bs 0x58 4
  salt := le64 bs 0x78
  pflr := none
  declr := none
  mixedlr := none
  pflrAt := le64 bs 0x60
  declrAt := le64 bs 0x68
  mixedlrAt := le64 bs 0x70

/-- Fields within their limits (R385, R438). -/
def Model.ok (m : Model) : Bool :=
  [4, 8, 16, 32, 64, 128, 256].contains m.tok && m.rowb % 32 == 0 && decide (32 ≤ m.rowb) && decide (m.rowb ≤ 4096) &&
  (m.kvtype == 3 || m.kvtype == 4 || m.kvtype == 5) && decide (1 ≤ m.nlg) && decide (m.nlg ≤ 4096) &&
  decide (1 ≤ m.vocab) && decide (m.vocab ≤ 2 ^ 24) && decide (1 ≤ m.maxSeq) && decide (m.maxSeq ≤ 256) &&
  m.sliceOff % 16 == 0

/-- Its pools are configured and its pages fit their frames (R385, R439). -/
def State.poolsOk (s : State) (m : Model) : Bool :=
  [(0, m.pool0), (1, m.pool1)].all (fun e =>
    let k := s.pool e.1 e.2
    k.en && decide (2 * m.tok * m.rowb ≤ k.frameB))

/-- MODEL of an entry (R435, R438, R439). -/
def modelEntry (q : Nat) (e : Entry) (s : State) : State :=
  let asid := (s.queue q).asid
  let no := fun (s : State) => s.refuse q 0x12 e.cookie
  if misaligned e.addr 256 ∨ 255 < e.arg0 ∨ (s.model? e.arg0).isSome then no s
  else
    match s.readVa asid e.addr.toNat 1024 with
    | (s, none) => no s
    | (s, some bs) =>
      let m := parseModel bs asid
      let a := s.template asid m.pflrAt
      let b := a.1.template asid m.declrAt
      let c := b.1.template asid m.mixedlrAt
      match a.2, b.2, c.2 with
      | some x, some y, some z =>
        if leAt bs 0 1 ≠ 1 ∨ [m.pflrAt, m.declrAt, m.mixedlrAt].any (fun p => misaligned p 256) ∨ ¬m.ok ∨ ¬c.1.poolsOk m ∨ templateBad m x ∨
            templateBad m y ∨ templateBad m z then no c.1
        else
          let s := c.1
          ({ s with models := s.models.set e.arg0 { m with pflr := x, declr := y, mixedlr := z } }).postOpen q 7 none
            (some e.arg0) none none e.cookie
      | _, _, _ => no c.1

/-- MODEL (R439). -/
def execModel (q : Nat) (s : State) : Result := .next (s.serveRing q (fun c => c == 4) (modelEntry q))

/-- MODELDEL of an entry (R435, R439): a model of the ring's ASID that no live request names (assumption log 31). -/
def modeldelEntry (q : Nat) (e : Entry) (s : State) : State :=
  if ¬(s.model? e.arg0).any (fun m => m.asid = (s.queue q).asid) then s.refuse q 0x12 e.cookie
  else if s.requests.any (fun r => r.2.st.live && r.2.model == e.arg0) then s.refuse q 0x14 e.cookie
  else ({ s with models := s.models.erase e.arg0 }).postOpen q 7 none (some e.arg0) none none e.cookie

/-- MODELDEL (R439). -/
def execModeldel (q : Nat) (s : State) : Result := .next (s.serveRing q (fun c => c == 5) (modeldelEntry q))

/-! ### Requests (R440 to R443) -/

/-- PLACE (R440). -/
def Request.place (r : Request) : Nat := b2n r.placed * 4 + b2n r.decodePart * 2 + r.placeDie

/-- The words of a request record (R440). -/
def Request.words (r : Request) (h : Nat) : List Word :=
  let w := fun (n : Nat) => BitVec.ofNat 32 n
  let d := fun (x : DWord) => [x.extractLsb' 0 32, x.extractLsb' 32 32]
  [w (r.st.code + r.prio * 2 ^ 4 + b2n r.echo * 2 ^ 9 + b2n r.imported * 2 ^ 10 + b2n r.cancel * 2 ^ 11 + r.model * 2 ^ 16 +
     r.evq * 2 ^ 24), w h, w r.prompt, w r.donepf, w r.gen, w r.maxgen, w r.kvlen, w r.age, w r.dsteps, r.lastTok, r.status,
   w r.draftk] ++ d (BitVec.ofNat 64 r.btBase) ++ d r.promptAddr ++ d r.outAddr ++ d r.seed ++
  [r.temp, r.topk, r.topp, w r.stopcnt] ++ (List.range 16).map (fun i => r.stopset.getD i 0) ++
  [w r.admseq, w r.place, w r.stepno, 0] ++ d r.cookie ++ List.replicate 18 0

/-- A request as its admission image gives it (R440). -/
def parseRequest (bs : List Byte) (q : Nat) : Request :=
  let w0 := leAt bs 0 4
  let imp := bit w0 10
  { st := if imp then .remote else .queued, prio := bits w0 4 3, echo := bit w0 9, imported := imp, cancel := false,
    model := bits w0 16 8, evq := q, prompt := leAt bs 0x08 4, donepf := 0, gen := 0, maxgen := leAt bs 0x14 4, kvlen := 0,
    age := 0, dsteps := 0, lastTok := 0, status := 0, draftk := bits (leAt bs 0x2C 4) 0 4, btBase := 0, btBytes := 0,
    promptAddr := le64 bs 0x38, outAddr := le64 bs 0x40, seed := le64 bs 0x48, temp := BitVec.ofNat 32 (leAt bs 0x50 4),
    topk := BitVec.ofNat 32 (leAt bs 0x54 4), topp := BitVec.ofNat 32 (leAt bs 0x58 4), stopcnt := leAt bs 0x5C 4,
    stopset := (List.range 16).map (fun i => BitVec.ofNat 32 (leAt bs (0x60 + 4 * i) 4)), admseq := 0, placed := false,
    decodePart := false, placeDie := 0, stepno := 0, cookie := le64 bs 0xB0, bt := [], inStep := none, ended := false,
    emitted := 0, returning := false, starved := 0, ending := false }

/-- Image fields within their limits (R440). -/
def Request.ok (r : Request) : Bool :=
  decide (1 ≤ r.prompt) && decide (r.prompt ≤ 2 ^ 24) && decide (1 ≤ r.maxgen) && decide (r.maxgen ≤ 2 ^ 24) &&
    decide (r.stopcnt ≤ 16)

/-- Records in use on a die. -/
def State.records (s : State) (die : Nat) : List Nat := (s.requests.map Prod.fst).filter (fun h => h / 16384 = die)

/-- A free record of a die: which one is open, as long as one is free (R441; assumption log 3). -/
def State.freeRecord (s : State) (die : Nat) : Option Nat :=
  let used := s.records die
  let pick := die * 16384 + (Config.freeWord s.fresh).toNat % 16384
  if ¬used.contains pick then some pick
  else ((List.range (min 16384 (used.length + 1))).map (fun i => die * 16384 + i)).find? (fun h => !used.contains h)

/-- Block-table bytes of a model (R395). -/
def Model.tableBytes (m : Model) : Nat := 4 * m.nlg * m.maxpg

/-- Block tables in use: base and bytes. -/
def State.tablesInUse (s : State) : List (Nat × Nat) :=
  s.requests.map (fun e => (e.2.btBase, e.2.btBytes))

/-- A block table's place in a die's arena (R441; assumption log 31). -/
def State.tablePlace (s : State) (die : Nat) (m : Model) : Option Nat :=
  firstFit (s.helm.btBase.getD die 0).toNat (s.helm.btSize.getD die 0).toNat 4 m.tableBytes s.tablesInUse

/-- ADMIT of an entry (R441). -/
def admitEntry (q : Nat) (e : Entry) (s : State) : State :=
  let asid := (s.queue q).asid
  if misaligned e.addr 256 then s.refuse q 0x12 e.cookie
  else
    match s.readVa asid e.addr.toNat 256 with
    | (s, none) => s.refuse q 0x12 e.cookie
    | (s, some bs) =>
      let r := parseRequest bs q
      match (s.model? r.model).filter (fun m => m.asid = asid) with
      | none => s.refuse q 0x12 e.cookie
      | some m =>
        if ¬r.ok then s.refuse q 0x12 e.cookie
        else
          let die := if (s.records 1).length < (s.records 0).length then 1 else 0
          match s.freeRecord die, s.tablePlace die m with
          | some h, some bt =>
            let r := { r with btBase := bt, btBytes := m.tableBytes, admseq := s.helm.admseq.toNat }
            let s := ({ s.bump with requests := s.requests.set h r }).modHelm (fun x => { x with admseq := x.admseq + 1 })
            let s := (s.touch 0 bt m.tableBytes).physStore bt (List.replicate m.tableBytes 0xFF)
            s.postOpen q 3 none (some h) none none e.cookie
          | _, _ => s.refuse q 0x11 e.cookie

/-- ADMIT (R441). -/
def execAdmitReq (q : Nat) (s : State) : Result := .next (s.serveRing q (fun c => c == 2) (admitEntry q))

/-- CANCEL of an entry (R435, R443, R461). -/
def cancelEntry (q : Nat) (e : Entry) (s : State) : State :=
  match s.requests.find? e.arg0 with
  | none => s.refuse q 0x13 e.cookie
  | some r =>
    if (s.model? r.model).any (fun m => m.asid ≠ (s.queue q).asid) then s.refuse q 0x13 e.cookie
    else if r.cancel then s
    else s.failReq e.arg0 0x10

/-- CANCEL (R443). -/
def execCancel (q : Nat) (s : State) : Result := .next (s.serveRing q (fun c => c == 3) (cancelEntry q))

/-! ### Doorbells and semaphores (R431 to R433, R437) -/

/-- A host port reaches a window but that of management: bring-up is done (R535). -/
def State.open (s : State) (port : Nat) : Bool := s.pkg.ready && decide (port < 2)

/-- RTAIL (R433). -/
def execRtail (port q : Nat) (val : Word) (s : State) : Result :=
  .next (if s.open port ∧ q < 64 then s.modQueue q (fun k => { k with rtail := val }) else s)

/-- EHEAD (R437): held events are written while there is room. -/
def execEhead (port q : Nat) (val : Word) (s : State) : Result :=
  .next (if s.open port ∧ q < 64 then (s.modQueue q (fun k => { k with ehead := val })).flush q else s)

/-- SEMAPHORE_READ (R431); `tie` when the other port reads in the same cycle. -/
def execSemaphoreRead (port n : Nat) (tie : Bool) (s : State) : Result :=
  .next (if ¬s.open port ∨ 16 ≤ n ∨ (s.helm.sems.find? n).isSome then s
    else if tie then
      let w := s.helm.tie.getD n 0
      s.modHelm (fun h => { h with sems := h.sems.set n w, tie := h.tie.put 0 n (1 - w) })
    else s.modHelm (fun h => { h with sems := h.sems.set n port }))

/-- SEMAPHORE_WRITE (R431): 0 by the owner frees it. -/
def execSemaphoreWrite (port n : Nat) (val : DWord) (s : State) : Result :=
  .next (if s.open port ∧ val = 0 ∧ s.helm.sems.find? n = some port then
      s.modHelm (fun h => { h with sems := h.sems.erase n })
    else s)

/-- HOST_LINK_DOWN (R431): the port loses its semaphores. -/
def execHostLinkDown (port : Nat) (s : State) : Result :=
  .next (s.modHelm (fun h => { h with sems := h.sems.filter (fun e => e.2 ≠ port) }))

end Sys2Proof.Machine
end

