-- ==== Sys2Proof/Machine/Steps.lean ====
section
/-! DEFINITION. Steps and batches (spec/11_helm.md R442 to R450): the batch of a partition, the grid that runs it, the end
of a step, requests that are swapped, and block hand-over (spec/01_machine.md R15, R16). -/

namespace Sys2Proof.Machine

/-! ### Forming a batch (R444 to R447) -/

/-- A partition alone on its die (R444). -/
def State.partAlone (s : State) (p : Nat) : Bool := s.k (p / 2) == 0 || s.k (p / 2) == 8

/-- A partition that takes prefill chunks (R444). -/
def State.takesPrefill (s : State) (p : Nat) : Bool := s.partAlone p || p % 2 == 0

/-- A partition that takes decode tokens (R444). -/
def State.takesDecode (s : State) (p : Nat) : Bool := s.partAlone p || p % 2 == 1

/-- PLACE names a partition (R440). -/
def Request.placedOn (r : Request) (p : Nat) : Bool := r.placed && (r.decodePart == (p % 2 == 1)) && r.placeDie == p / 2

/-- The DECODE requests of a partition (R444). -/
def State.decoding (s : State) (p : Nat) : List (Nat × Request) :=
  s.requests.filter (fun e => decide (e.2.st = .decode) && e.2.placedOn p)

/-- Eligible requests of a partition (R444, R446 step 1): every die has a partition that takes its prefill chunks. -/
def State.eligible (s : State) (p : Nat) : List (Nat × Request) :=
  s.requests.filter (fun e =>
    !e.2.cancel && e.2.inStep.isNone && (s.model? e.2.model).isSome &&
    !(s.part p).skip.contains e.1 &&
    match e.2.st with
    | .decode => s.takesDecode p && e.2.placedOn p
    | .queued => s.takesPrefill p && e.1 / 16384 == p / 2
    | .prefill => s.takesPrefill p && e.1 / 16384 == p / 2
    | _ => false)

/-- Effective priority (R446). -/
def State.effPrio (s : State) (r : Request) : Nat :=
  let q := ((s.model? r.model).map (fun m => m.ageQ)).getD 0
  min 15 (r.prio + if q = 0 then 0 else r.age / q)

/-- Order of states among equal priorities (R446). -/
def ReqState.rank : ReqState → Nat
  | .decode => 0
  | .prefill => 1
  | _ => 2

/-- A request ranks before another (R446). -/
def State.before (s : State) (a b : Request) : Bool :=
  let x := s.effPrio a
  let y := s.effPrio b
  decide (y < x) || (x == y && (decide (a.st.rank < b.st.rank) ||
    (a.st.rank == b.st.rank && decide (a.admseq ≤ b.admseq))))

/-- The ranking (R446 step 2). -/
def State.ranking (s : State) (p : Nat) : List (Nat × Request) :=
  (s.eligible p).mergeSort (fun a b => s.before a.2 b.2)

/-- New pages of a request that takes `c` more tokens (R447). -/
def Model.newPages (m : Model) (kvlen c : Nat) : Nat :=
  m.nlg * ((kvlen + c + m.tok - 1) / m.tok - (kvlen + m.tok - 1) / m.tok)

/-- Pool of a model on a die (R438). -/
def Model.poolOn (m : Model) (die : Nat) : Nat := if die = 0 then m.pool0 else m.pool1

/-- A batch as it is formed: what it includes (handle, count, prefill), the budgets left, pages taken by die, and the
requests passed over, with whether that was for lack of frames. -/
structure Batch where
  seqs : List (Nat × Nat × Bool)
  pf : Nat
  dec : Nat
  pages : Map Nat
  passed : List (Nat × Bool)
deriving DecidableEq, Repr

/-- The walk's step at one request (R446 steps 3 and 4, R447). -/
def State.batchStep (s : State) (model : Nat) (m : Model) (b : Batch) (e : Nat × Request) : Batch :=
  let h := e.1
  let r := e.2
  if r.model ≠ model then { b with passed := b.passed ++ [(h, false)] }
  else
    let dec := decide (r.st = .decode)
    let c := if dec then 1 + r.draftk else min m.chunk (min (r.prompt - r.donepf) b.pf)
    let die := h / 16384
    let new := m.newPages r.kvlen c
    let left := (s.pool die (m.poolOn die)).free - b.pages.getD die 0
    if c = 0 ∨ (dec ∧ b.dec < c) then { b with passed := b.passed ++ [(h, false)] }
    else if left < new then { b with passed := b.passed ++ [(h, true)] }
    else
      { b with seqs := b.seqs ++ [(h, c, !dec)], pf := if dec then b.pf else b.pf - c, dec := if dec then b.dec - c else b.dec,
               pages := b.pages.set die (b.pages.getD die 0 + new) }

/-- The batch of a ranking: that of the model of its first request (R446). -/
def State.batchOf (s : State) (rank : List (Nat × Request)) : Option (Model × Batch) :=
  match rank with
  | [] => none
  | e :: _ =>
    (s.model? e.2.model).map (fun m => (m,
      rank.foldl (s.batchStep e.2.model m) { seqs := [], pf := m.pfBudget, dec := m.decBudget, pages := [], passed := [] }))

/-- The DECODE request of a partition with the lowest effective priority and the highest ADMSEQ (R447). -/
def State.swapVictim (s : State) (p : Nat) : Option Nat :=
  ((s.decoding p).foldl (fun (best : Option (Nat × Request)) e =>
    match best with
    | none => some e
    | some b =>
      let x := s.effPrio e.2
      let y := s.effPrio b.2
      if x < y ∨ (x = y ∧ b.2.admseq < e.2.admseq) then some e else some b) none).map Prod.fst

/-- After two consecutive steps that passed over a DECODE request for lack of frames, one request becomes SWAPPED (R447). -/
def State.relieve (s : State) (p : Nat) : State :=
  if (s.decoding p).any (fun e => decide (2 ≤ e.2.starved)) then
    match s.swapVictim p with
    | some h =>
      let s := (s.decoding p).foldl (fun s e => s.modReq e.1 (fun r => { r with starved := 0 })) s
      s.modReq h (fun r => { r with st := .swapped, returning := false })
    | none => s
  else s

/-! ### The step grid (R448) -/

/-- The template of a batch's kind, with its address (R444). -/
def Model.stepTemplate (m : Model) (b : Batch) : Option (LaunchRecord × DWord) :=
  if b.seqs.all (fun e => e.2.2) then m.pflr.map (fun t => (t, m.pflrAt))
  else if b.seqs.any (fun e => e.2.2) then m.mixedlr.map (fun t => (t, m.mixedlrAt))
  else m.declr.map (fun t => (t, m.declrAt))

/-- NT of a batch (R448). -/
def teamsFor (m : Model) (b : Batch) : Nat := (b.seqs.length + m.maxSeq - 1) / m.maxSeq

/-- The flags word of a slice entry (R448). -/
def sliceFlags (r : Request) (c : Nat) (prefill : Bool) (ord : Nat) : Nat :=
  b2n prefill + b2n (!prefill || r.donepf + c == r.prompt) * 2 + b2n (decide (0 < r.draftk)) * 4 + ord * 65536

/-- The slice of team `t` of `nt` (R448), from the records as they stand before the step. -/
def State.slice (s : State) (p : Nat) (steps : Word) (b : Batch) (nt t : Nat) : List Byte :=
  let mine := b.seqs.zipIdx.filter (fun e => decide (t < nt) && e.2 % nt == t)
  leBytes 4 mine.length ++ leBytes 4 steps.toNat ++ leBytes 4 (p / 2 + p % 2 * 2) ++ leBytes 4 0 ++
  mine.flatMap (fun e =>
    match s.requests.find? e.1.1 with
    | none => List.replicate 16 0
    | some r => leBytes 4 e.1.1 ++ leBytes 4 r.kvlen ++ leBytes 4 e.1.2.1 ++ leBytes 4 (sliceFlags r e.1.2.1 e.1.2.2 e.2))

/-- A request enters a step (R442, R448). -/
def Request.include (r : Request) (c : Nat) (prefill : Bool) (team p : Nat) : Request :=
  let r := { r with kvlen := r.kvlen + c, inStep := some (c, prefill, team), ended := false, emitted := 0, starved := 0 }
  if prefill then
    { r with donepf := r.donepf + c, st := .prefill, placed := true, decodePart := p % 2 == 1, placeDie := p / 2 }
  else r

/-! ### The end of a step (R449) -/

/-- A stop is recorded (R466, R467). -/
def Request.stopped (r : Request) : Bool := r.status.toNat % 256 == 1 || r.status.toNat % 256 == 2 || r.status.toNat % 256 == 3

/-- A request's state after a step that included it: none when it stays live (R442, R443). -/
def Request.over (r : Request) : Option ReqState :=
  if r.cancel then some .failed
  else if r.stopped ∧ (r.st = .prefill ∨ r.st = .decode) then some .done
  else if r.st = .remote ∧ ¬r.imported then some .remote
  else none

/-- A live request that goes on (R442). -/
def Request.goOn (r : Request) (handoff : Bool) : Request :=
  if r.st = .prefill ∧ r.donepf = r.prompt then { r with st := if handoff then .handoff else .decode } else r

/-- Step-end work for one sequence (R446 step 5, R449). -/
def State.stepEndOf (p : Nat) (failed : Bool) (s : State) (h : Nat) : State :=
  match s.requests.find? h with
  | none => s
  | some r =>
    match r.inStep with
    | none => s
    | some (_, prefill, _) =>
      let handoff := p % 2 == 0 && !s.partAlone p
      let tell := r.echo && decide (0 < r.emitted)
      let s := s.modReq h (fun r =>
        let r := if failed then { r.mark 0x12 with cancel := true } else r
        let r := { r with
          dsteps := if prefill then r.dsteps else (r.dsteps + 1) % 2 ^ 32, stepno := (s.part p).steps.toNat,
          inStep := none, ended := false, emitted := 0, age := 0 }
        if r.over.isSome then r else r.goOn handoff)
      match s.requests.find? h with
      | none => s
      | some r =>
        let s := if tell then s.post r.evq (r.event h 4) none else s
        match r.over with
        | some st => s.endReq h st
        | none => s

/-- STEP_END of a partition's batch (R449). -/
def State.stepEnd (s : State) (p : Nat) (hs : List Nat) (failed : Bool) : State :=
  let s := hs.foldl (State.stepEndOf p failed) s
  let s := (s.part p).passed.foldl (fun s h => s.modReq h (fun r => { r with age := min (r.age + 1) (2 ^ 32 - 1) })) s
  s.modPart p (fun x => { x with running := none, passed := [] })

/-- The batch is launched: counters, records, slices and grid; a template that Helm refuses ends the step at once (R98,
R445, R448, R449; assumption log 31). -/
def State.launchBatch (s : State) (p : Nat) (m : Model) (b : Batch) : State :=
  let hs := b.seqs.map Prod.fst
  let inStep := fun (s : State) =>
    let nt := teamsFor m b
    let s := b.seqs.zipIdx.foldl (fun s e => s.modReq e.1.1 (fun r => r.include e.1.2.1 e.1.2.2 (e.2 % max nt 1) p)) s
    let s := b.passed.foldl (fun s e => s.modReq e.1 (fun r => { r with starved := if e.2 then r.starved + 1 else 0 })) s
    s.modPart p (fun x => { x with passed := b.passed.map Prod.fst })
  match m.stepTemplate b with
  | none =>
    let s := b.seqs.foldl (fun s e => s.modReq e.1 (fun r => { r with inStep := some (e.2.1, e.2.2, 0) })) s
    (s.modPart p (fun x => { x with passed := b.passed.map Prod.fst })).stepEnd p hs true
  | some (t, at') =>
    let s := s.modPart p (fun x => { x with steps := x.steps + 1 })
    let nt := teamsFor m b
    let r := { t with clusters := (nt + t.teams - 1) / t.teams, queue := m.stepQ, prio := 7 }
    let slices := (List.range (r.clusters * r.teams)).map (fun i => (i, s.slice p (s.part p).steps b nt i))
    let reads := hs.filterMap (fun h => (s.requests.find? h).map (fun x => (x.promptAddr.toNat, 4 * x.prompt)))
    let s := inStep s
    let x := s.refusedRecord m.asid { r with holdCnt := 0 }
    if x.2 then
      let s := x.1.addCounter m.asid r.doneAddr r.doneAdd
      (s.postOpen m.stepQ 2 (some 0x01) none none none 0).stepEnd p hs true
    else
      let s := x.1
      let id := s.uid + 1
      let g := { Grid.enter r at' m.stepQ m.asid (p % 2 == 1) 0 with
        step := some (p, hs), slices := slices, sliceOff := m.sliceOff, reads := reads }
      ({ s with uid := id, grids := s.grids.set id g }).modPart p (fun x => { x with running := some id })

/-- BATCH_FORM (R445 to R448). -/
def execBatchForm (p : Nat) (s : State) : Result :=
  .next (
    let x := s.part p
    if ¬s.pkg.ready ∨ 4 ≤ p ∨ ¬s.partExists p ∨ x.halt ≠ .run ∨ x.running.isSome ∨ s.k (p / 2) ≠ s.kWant (p / 2) then s
    else
      let s := s.relieve p
      let rank := s.ranking p
      match s.batchOf rank with
      | none => s
      | some (m, b) => if b.seqs.isEmpty then s else (s.modPart p (fun x => { x with skip := [] })).launchBatch p m b)

/-! ### Swapped requests and block hand-over (R16, R447, R450) -/

/-- Pages that a request names. -/
def Request.pages (r : Request) : List Nat := (r.bt.map Prod.snd).dedup

/-- Pages of a list that are in the capacity tier are fetched; Helm's fetches take no CSEQ of their own (R400; assumption
log 31). -/
def State.fetchAll (s : State) (ns : List Nat) : State := ns.foldl (fun s n => s.startFetch n (s.chart (pageDie n)).cseq) s

/-- SWAPPED_RETURN (R447). -/
def execSwappedReturn (h : Nat) (s : State) : Result :=
  .next (match s.requests.find? h with
  | none => s
  | some r =>
    match s.model? r.model with
    | none => s
    | some m =>
      let k := s.pool (h / 16384) (m.poolOn (h / 16384))
      if r.st ≠ .swapped ∨ r.cancel then s
      else if r.returning ∨ 2 * k.low ≤ k.free then
        if r.pages.all (fun n => (s.pages.find? n).any (fun q => decide (q.st = .resident))) then
          s.modReq h (fun r => { r with st := .decode, returning := false })
        else (s.modReq h (fun r => { r with returning := true })).fetchAll r.pages
      else s)

/-- The decode partition a hand-over goes to: its die (R450). -/
def State.decodeTarget (s : State) : Option Nat :=
  let n := fun (d : Nat) => (s.decoding (2 * d + 1)).length
  match (List.range 2).filter (fun d => decide (s.k d < 8)) with
  | [] => none
  | [d] => some d
  | _ => some (if n 1 < n 0 then 1 else 0)

/-- A request's record moves to a die, where it takes a free record; its pages' OWNER follows (R15, R426). -/
def State.moveRecord (s : State) (h : Nat) (r : Request) (h' : Nat) : State :=
  let s := { s.bump with requests := (s.requests.erase h).set h' r }
  (s.pages.filter (fun e => e.2.owner = h && e.2.asid = ((s.model? r.model).map (fun m => m.asid)).getD 0)).foldl
    (fun s e => s.modPage e.1 (fun q => { q with owner := h' })) s

/-- BLOCK_HAND_OVER (R15, R16, R450): not while a page is pinned, nor between two steps of a Chart command on the request, which
sees it wholly before or wholly after; on the other die it needs a free record there (assumption log 31). -/
def execBlockHandOver (h : Nat) (s : State) : Result :=
  .next (match s.requests.find? h with
  | none => s
  | some r =>
    if r.st ≠ .handoff ∨ r.cancel ∨ s.chartNames h ∨ r.pages.any (fun n => (s.pages.find? n).any (fun q => decide (0 < q.pins))) then s
    else
      match s.decodeTarget with
      | none => s
      | some d =>
        let r' := { r with st := .decode, placed := true, decodePart := true, placeDie := d }
        if d = h / 16384 then s.modReq h (fun _ => r')
        else
          match s.freeRecord d with
          | none => s
          | some h' => s.moveRecord h r' h')

end Sys2Proof.Machine
end

