-- ==== Sys2Proof/Machine/Grids.lean ====
section
/-! DEFINITION. The life of a grid (spec/11_helm.md R428, R429, R451 to R457, spec/13_memory_tiers.md R525, R526): its
stages from a launch queue to its cores, team swap-out, completion, and the watchdog (R437). -/

namespace Sys2Proof.Machine

/-! ### Release (R428, R526) -/

/-- One pinned page released: when no other grid pins it, its shadows are discarded, a staged page that was written is
copied back, and its frame is free; translations of it that were kept are dropped (R209, R526). -/
def State.releasePin (asid : Nat) (s : State) (p : Pin) : State :=
  let s := s.unkeep asid p.unit
  if s.grids.any (fun e => e.2.pins.any (fun q => q.2.pa == p.pa)) then s
  else
    let s := { s with shadows := s.shadows.filter (fun e => decide (e.1 < p.pa) || decide (p.pa + 65536 ≤ e.1)) }
    if p.staged then
      let s := if p.written then s.copyPayload asid p.pa p.orig 65536 else s
      { s with ms := { s.ms with frames := s.ms.frames.erase ((p.pa - s.ms.stgBase) / 65536) } }
    else s

/-- What a grid holds is released in the reverse order of R428: holds, arena, leases. -/
def State.releaseGrid (s : State) (gid : Nat) : State :=
  match s.grids.find? gid with
  | none => s
  | some g =>
    let s := s.modGrid gid (fun x => { x with holds := [], holding := false, saves := [], arena := none })
    let s := g.holds.foldl (fun (s : State) (n : Nat) => (s.modPage n (fun q => { q with holds := q.holds - 1 })).unhold n) s
    let s := s.modGrid gid (fun x => { x with pins := [], leases := [] })
    (g.pins.map Prod.snd).foldl (State.releasePin g.asid) s

/-- The child grid of a FORK has ended with a status (R148, R150). -/
def State.childDone (s : State) (team status : Nat) : State :=
  { s.modTeam team (fun t => { t with child := none }) with groups := s.groups.map (fun (e : Nat × Group) =>
      if e.2.team = team then (e.1, { e.2 with forkres := true, childStatus := BitVec.ofNat 32 status }) else e) }

/-- A grid leaves its queue. -/
def State.leaveQueue (s : State) (gid q : Nat) : State := s.modQueue q (fun k => { k with grids := k.grids.erase gid })

/-- A grid is refused after it has entered its queue: it releases what it holds, the add of R429 is made, and the refusal is
told to the host, to the parent of a FORK child, and to the batch of a step grid. -/
def State.refuseGrid (s : State) (gid status : Nat) : State :=
  match s.grids.find? gid with
  | none => s
  | some g =>
    let s := (s.releaseGrid gid).addCounter g.asid g.record.doneAddr g.record.doneAdd
    let s := { s.leaveQueue gid g.queue with grids := s.grids.erase gid }
    let s := match g.parent with
      | some t => s.childDone t status
      | none => s.refuse g.queue status g.cookie
    match g.step with
    | some (p, hs) => s.stepEnd p hs true
    | none => s

/-! ### Dispatch (R94, R451) -/

/-- Every dependence event of a grid is met (R94); a counter that cannot be read is not met. -/
def State.depsMet (s : State) (g : Grid) : Bool :=
  g.record.used.all (fun d => (s.natVa g.asid d.1.toNat 8).2.any (fun v => decide (d.2.toNat ≤ v)))

/-- A grid that waits for dispatch and may have it. -/
def State.candidate (s : State) (gid : Nat) : Bool :=
  (s.grids.find? gid).any (fun (g : Grid) => decide (g.stage = .waiting) && s.depsMet g)

/-- The step grid of a partition. -/
def State.stepGrid (s : State) (p : Nat) : Option Nat := (s.part p).running

/-- Heads of the launch queues that may be dispatched, with their queue and PRIO. -/
def State.heads (s : State) : List (Nat × Nat × Nat) :=
  (List.range 64).filterMap (fun q =>
    match (s.queue q).grids with
    | [] => none
    | gid :: _ => if s.candidate gid then some (q, gid, ((s.grids.find? gid).map (fun (g : Grid) => g.record.prio)).getD 0) else none)

/-- The head that is dispatched: the highest PRIO, ties to the lowest queue (R451). -/
def bestHead (hs : List (Nat × Nat × Nat)) : Option (Nat × Nat × Nat) :=
  hs.foldl (fun (best : Option (Nat × Nat × Nat)) h =>
    match best with
    | none => some h
    | some b => if b.2.2 < h.2.2 then some h else some b) none

/-- A grid dispatched: its counters are read with acquire order, and the instruction caches give up what no group may fetch,
so that its groups fetch what was written before any of them could (R57; assumption log 12). -/
def State.dispatch (s : State) (gid : Nat) : State :=
  match s.grids.find? gid with
  | none => s
  | some g =>
    let s := g.record.used.foldl (fun (s : State) d => (s.natVa g.asid d.1.toNat 8).1) s
    (s.modGrid gid (fun x => { x with stage := .dispatched })).keepFetched

/-- GRID_DISPATCH (R445, R451): the head of queue q, or for q = 64 + p the step grid of partition p, which goes ahead of
every queued grid of its role. -/
def execGridDispatch (q : Nat) (s : State) : Result :=
  .next (
    if 64 ≤ q then
      match s.stepGrid (q - 64) with
      | some gid => if s.candidate gid then s.dispatch gid else s
      | none => s
    else
      match bestHead s.heads with
      | some (q', gid, _) =>
        let role := ((s.grids.find? gid).map (fun (g : Grid) => b2n g.decodeRole)).getD 0
        if q' = q ∧ ¬[role, role + 2].any (fun p => (s.stepGrid p).any s.candidate) then s.dispatch gid else s
      | none => s)

/-! ### Leases (R96, R454, R455, R525) -/

/-- The ranges of a lease list; none when it cannot be read. -/
def State.leaseList (s : State) (g : Grid) : State × Option (List (Nat × Nat)) :=
  if g.record.leaseCnt = 0 then (s, some [])
  else
    let x := s.readVa g.asid g.record.leasePtr.toNat (16 * g.record.leaseCnt)
    (x.1, x.2.map (fun bs => ((List.range g.record.leaseCnt).map (fun i => (leAt bs (16 * i) 8, leAt bs (16 * i + 8) 8))).filter
      (fun r => r.2 ≠ 0)))

/-- The 64 KiB units of some ranges; none when a range leaves the address space. -/
def leaseUnits (rs : List (Nat × Nat)) : Option (List Nat) :=
  if rs.all (fun r => decide (r.1 + r.2 ≤ 2 ^ 56)) then
    some (rs.flatMap (fun r => (List.range ((r.1 + r.2 - 1) / 65536 + 1 - r.1 / 65536)).map (fun i => r.1 / 65536 + i))).dedup
  else none

/-- One page staged for a grid (R525): none when it is refused. -/
def State.stageUnit (s : State) (gid asid unit : Nat) : Option State :=
  match s.walk asid (unit * 65536), s.translate asid .atomic (unit * 65536) with
  | some _, some pa =>
    if paOk s.ms pa && paOk s.ms (pa + 65535) then
      let s := s.markLeaf asid true (unit * 65536)
      let put := fun (s : State) (p : Pin) => s.modGrid gid (fun x => { x with pins := x.pins.set unit p })
      let p : Pin := { unit := unit, pa := pa, orig := pa, staged := false, written := false }
      if isFastPa pa then
        let w := s.grids.any (fun e => e.2.pins.any (fun q => q.2.pa == pa && q.2.written))
        some (put s { p with written := w })
      else
        match (s.grids.flatMap (fun e => e.2.pins.map Prod.snd)).find? (fun q => q.staged && q.orig == pa) with
        | some q => some (put s { q with unit := unit })
        | none =>
          match (List.range (min (s.ms.stgSize / 65536) (s.ms.frames.length + 1))).find? (fun f => !s.ms.frames.contains f) with
          | none => none
          | some f =>
            let dst := s.ms.stgBase + 65536 * f
            let s := { s with ms := { s.ms with frames := f :: s.ms.frames } }
            some (put (s.copyPayload asid pa dst 65536) { p with pa := dst, staged := true })
    else none
  | _, _ => none

/-- Every page staged, one after another. -/
def State.stageAll (s : State) (gid asid : Nat) : List Nat → State × Bool
  | [] => (s, true)
  | u :: us =>
    match s.stageUnit gid asid u with
    | some s => s.stageAll gid asid us
    | none => (s, false)

/-- A set in the leaves of the read-only parts of the accessible set (R182, R525). -/
def State.markParts (s : State) (g : Grid) : State :=
  (g.ranges.filter (fun r => !r.2.2)).foldl (fun (s : State) r => s.markSpan g.asid r.1 r.2.1 false) s

/-- LEASE_STAGE (R428 stage 2). A grid whose ASID is not enabled is refused (R519). -/
def execLeaseStage (gid : Nat) (s : State) : Result :=
  .next (match s.grids.find? gid with
  | none => s
  | some g =>
    if g.stage ≠ .dispatched then s
    else if ¬s.asidEn g.asid then s.refuseGrid gid 0x02
    else
      match s.leaseList g with
      | (s, none) => s.refuseGrid gid 0x02
      | (s, some rs) =>
        match leaseUnits rs with
        | none => s.refuseGrid gid 0x02
        | some us =>
          let x := s.stageAll gid g.asid us
          if x.2 then (x.1.markParts g).modGrid gid (fun y => { y with stage := .leased, leases := rs })
          else x.1.refuseGrid gid 0x02)

/-! ### The save arena (R428) -/

/-- SAVE_AREA_ALLOCATE (R428 stage 3). -/
def execSaveAreaAllocate (gid : Nat) (s : State) : Result :=
  .next (match s.grids.find? gid with
  | none => s
  | some g =>
    let need := g.arenaNeed
    if g.stage ≠ .leased then s
    else if s.helm.savSize.toNat < need then s.refuseGrid gid 0x02
    else
      match firstFit s.helm.savBase.toNat s.helm.savSize.toNat 256 need (s.grids.filterMap (fun e => e.2.arena)) with
      | none => s
      | some base => s.modGrid gid (fun x =>
          { x with stage := .saved, arena := some (base, need), saves := [(base, g.teamCount * areaSize g.slots)] }))

/-! ### The hold set (R425, R428) -/

/-- The pages that a Reckoning grid's requests name (R425). -/
def State.holdPages (s : State) (g : Grid) : State × List Nat :=
  let hs := match g.step with
    | some (_, hs) => (s, hs)
    | none =>
      let x := s.holdList g.asid g.record
      (x.1, x.2.getD [])
  (hs.1, (hs.2.flatMap (fun h => ((hs.1.requests.find? h).map Request.pages).getD [])).dedup)

/-- A page that is not RESIDENT. -/
def PageState.away : PageState → Bool
  | .resident => false
  | _ => true

/-- HOLD_ACQUIRE (R425, R428 stage 4). -/
def execHoldAcquire (gid : Nat) (s : State) : Result :=
  .next (match s.grids.find? gid with
  | none => s
  | some g =>
    if g.stage ≠ .saved then s
    else if ¬g.record.reckon then s.modGrid gid (fun x => { x with stage := .held })
    else if g.holding then
      if g.holds.any (fun n => (s.pages.find? n).any (fun (p : Page) => p.st.away)) then s.fetchAll g.holds
      else s.modGrid gid (fun x => { x with stage := .held })
    else
      let x := s.holdPages g
      let s := x.1
      if x.2.any (fun n => (s.pages.find? n).any (fun (p : Page) => decide (255 ≤ p.holds))) then s
      else
        let s := x.2.foldl (fun (s : State) (n : Nat) => s.modPage n (fun q => { q with holds := q.holds + 1 })) s
        (s.modGrid gid (fun y => { y with holds := x.2, holding := true })).fetchAll x.2)

/-! ### Placement (R428 stage 5, R452, R456) -/

/-- The partitions on which a grid runs (R448, R451). -/
def State.gridParts (s : State) (g : Grid) : List Nat :=
  match g.step with
  | some (p, _) => [p]
  | none => [0, 1, 2, 3].filter (fun p => s.partExists p && (p % 2 == 1) == g.decodeRole)

/-- The cores of a w × h rectangle from an origin, by member number. -/
def rectCores (o w h : Nat) : List Nat := (List.range h).flatMap (fun y => (List.range w).map (fun x => o + 8 * y + x))

/-- A rectangle stays within its die. -/
def rectFits (o w h : Nat) : Bool := decide (o % 8 + w ≤ 8) && decide (o % 48 / 8 + h ≤ 6)

/-- Rooms for the needs of a rectangle's cores: member, core, first byte of SPAD; none where one has no room. -/
def State.rectRoom (s : State) (cores : List Nat) (needs : Map TeamNeed) : Option (List (Nat × Nat × Nat)) :=
  needs.mapM (fun e =>
    match cores[e.1]? with
    | some c => (s.roomAt c e.2).map (fun b => (e.1, c, b))
    | none => none)

/-- Resident groups of a rectangle's cores. -/
def State.rectLoad (s : State) (cores : List Nat) : Nat := (cores.map (fun c => (s.groupsOn c).length)).sum

/-- The rectangle a cluster goes to (R452): rooms by member. -/
def State.bestRect (s : State) (g : Grid) (needs : Map TeamNeed) : Option (List (Nat × Nat × Nat)) :=
  let w := g.record.rectW
  let h := g.record.rectH
  let cands := (List.range 96).filterMap (fun o =>
    let cores := rectCores o w h
    if rectFits o w h && (s.gridParts g).any (fun p => cores.all (fun c => (s.placeable p).contains c)) then
      (s.rectRoom cores needs).map (fun r => (s.rectLoad cores, r))
    else none)
  (cands.foldl (fun (best : Option (Nat × List (Nat × Nat × Nat))) c =>
    match best with
    | none => some c
    | some b => if c.1 < b.1 then some c else some b) none).map Prod.snd

/-- The core whose dispatch queue takes a one-core team (R452). -/
def State.bestQueue (s : State) (g : Grid) : Option Nat :=
  let load := fun (c : Nat) => (s.teamsOn c).length + (s.core c).dispatchQ.length
  ((s.gridParts g).flatMap s.placeable).foldl (fun (best : Option Nat) c =>
    match best with
    | none => some c
    | some b => if load c < load b then some c else some b) none

/-- Teams swapped out by priority or the slow path that have no place again yet (R456, R460). -/
def State.awaitsReturn (s : State) (tid : Nat) (t : Team) : Bool :=
  t.swapped && !t.forked && !s.cores.any (fun e => e.2.dispatchQ.contains tid)

/-- The swapped clusters of a grid. -/
def State.awayClusters (s : State) (gid : Nat) : List Nat :=
  ((s.teams.filter (fun e => e.2.grid = gid && s.awaitsReturn e.1 e.2)).map (fun e => e.2.cluster)).dedup

/-- Some other grid of a role with at least a priority has a swapped cluster (R456). -/
def State.returnFirst (s : State) (gid : Nat) (g : Grid) : Bool :=
  s.grids.any (fun e => e.1 ≠ gid && e.2.decodeRole == g.decodeRole && decide (g.record.prio ≤ e.2.record.prio) &&
    !(s.awayClusters e.1).isEmpty)

/-- A grid that is being placed: at the head of its queue, or a step grid. -/
def Grid.placing (g : Grid) : Bool := decide (g.stage = .held) && g.ending.isNone

/-- A grid of a higher priority in a role is being placed (R456). -/
def State.headWaits (s : State) (g : Grid) : Bool :=
  s.grids.any (fun e => e.2.placing && e.2.decodeRole == g.decodeRole && decide (g.record.prio < e.2.record.prio))

/-- Teams enter the cores found for them, in ascending member number. -/
def State.enterRect (s : State) (ids : Map Nat) (rooms : List (Nat × Nat × Nat)) : State :=
  rooms.foldl (fun (s : State) (r : Nat × Nat × Nat) =>
    match ids.find? r.1 with
    | some tid => s.enterCore tid r.2.1 r.2.2
    | none => s) s

/-- A one-core team goes to the tail of a core's dispatch queue. -/
def State.queueTeam (s : State) (g : Grid) (tid : Nat) : Option State :=
  (s.bestQueue g).map (fun c => s.modCore c (fun k => { k with dispatchQ := k.dispatchQ ++ [tid] }))

/-- Teams of a cluster get their places: team by member, with what each needs; none when the cluster waits. -/
def State.placeTeams (s : State) (g : Grid) (ids : Map Nat) (needs : Map TeamNeed) : Option State :=
  if g.record.rectW * g.record.rectH = 1 then
    match ids with
    | (_, tid) :: _ => s.queueTeam g tid
    | [] => some s
  else (s.bestRect g needs).map (s.enterRect ids)

/-- The next cluster of a grid is placed; with the last one, the grid leaves its queue (R451, R452). -/
def State.placeNext (s : State) (gid : Nat) (g : Grid) : State :=
  let c := s.uid + 1
  let ids := (List.range g.record.teams).map (fun m => (m, c + 1 + m))
  let s' := { s with
    uid := c + g.record.teams
    clusters := s.clusters.set c { grid := gid, index := g.nextCluster, stamp := c, epoch := 0, accesses := [], exits := [] }
    teams := ids.foldl (fun (ts : Map Team) (e : Nat × Nat) =>
      ts.set e.2 { Team.empty with grid := gid, cluster := c, member := e.1 }) s.teams }
  match s'.placeTeams g ids (ids.map (fun e => (e.1, g.record.need))) with
  | none => s
  | some s =>
    let s := s.modGrid gid (fun x => { x with nextCluster := x.nextCluster + 1 })
    if g.nextCluster + 1 = g.record.clusters then
      (s.modGrid gid (fun x => { x with stage := .running })).leaveQueue gid g.queue
    else s

/-- A swapped cluster comes back (R456). -/
def State.returnCluster (s : State) (gid : Nat) (g : Grid) (cl : Nat) : State :=
  let ts := (s.clusterTeams cl).filter (fun e => e.2.grid = gid && s.awaitsReturn e.1 e.2)
  let ids := (List.range 12).filterMap (fun m =>
    (List.find? (fun (e : Nat × Team) => e.2.member = m) ts).map (fun e => (m, e.1)))
  match s.placeTeams g ids (ids.map (fun e => (e.1, s.teamNeed e.2))) with
  | none => s
  | some s => { s.modCluster cl (fun x => { x with stamp := s.uid + 1 }) with uid := s.uid + 1 }

/-- CLUSTER_PLACE (R452, R456): not while MEMCFG changes (R533). -/
def execClusterPlace (gid : Nat) (s : State) : Result :=
  .next (match s.grids.find? gid with
  | none => s
  | some g =>
    if s.ms.change.isSome then s
    else
      match s.awayClusters gid with
      | cl :: _ => if g.ending.isSome ∨ s.headWaits g then s else s.returnCluster gid g cl
      | [] => if g.placing ∧ ¬s.returnFirst gid g then s.placeNext gid g else s)

/-- TEAM_START (R452): the head of a core's dispatch queue, once the core has room. -/
def execTeamStart (core : Nat) (s : State) : Result :=
  .next (match (s.core core).dispatchQ with
  | [] => s
  | tid :: ts =>
    if (s.part (s.partOf core)).halt ≠ .run ∨ (s.core core).halted then s
    else
      match s.roomAt core (s.teamNeed tid) with
      | none => s
      | some base => (s.modCore core (fun k => { k with dispatchQ := ts })).enterCore tid core base)

/-- Mesh neighbours of a core (R18). -/
def neighbours (core : Nat) : List Nat :=
  (if 8 ≤ core % 48 then [core - 8] else []) ++ (if 0 < core % 8 then [core - 1] else []) ++
  (if core % 8 < 7 then [core + 1] else []) ++ (if core % 48 < 40 then [core + 8] else [])

/-- The neighbour in a core's partition with the longest dispatch queue, the first of equals; none when all are empty
(R453). -/
def State.longQueue (s : State) (core : Nat) : Option Nat :=
  ((neighbours core).filter (fun c => s.partOf c = s.partOf core)).foldl (fun (best : Option Nat) c =>
    match best with
    | none => if (s.core c).dispatchQ.isEmpty then none else some c
    | some b => if (s.core b).dispatchQ.length < (s.core c).dispatchQ.length then some c else some b) none

/-- WORK_STEAL (R453). -/
def execWorkSteal (core : Nat) (s : State) : Result :=
  .next (
    let p := s.partOf core
    if ¬(s.placeable p).contains core ∨ ¬(s.groupsOn core).isEmpty ∨ ¬(s.core core).dispatchQ.isEmpty then s
    else
      match s.longQueue core with
      | none => s
      | some c =>
        match (s.core c).dispatchQ.getLast? with
        | none => s
        | some tid =>
          (s.modCore c (fun k => { k with dispatchQ := k.dispatchQ.dropLast })).modCore core (fun k =>
            { k with dispatchQ := k.dispatchQ ++ [tid] }))

/-! ### Team swap-out (R456) -/

/-- A head grid cannot be placed: its next cluster finds no rectangle, or no core (R452). -/
def State.stuck (s : State) (g : Grid) : Bool :=
  g.placing && s.ms.change.isNone &&
    if g.record.rectW * g.record.rectH = 1 then (s.bestQueue g).isNone
    else (s.bestRect g ((List.range g.record.teams).map (fun m => (m, g.record.need)))).isNone

/-- Running grids of a role, not step grids, with a PRIO below `prio`. -/
def State.yielders (s : State) (role : Bool) (prio : Nat) : List (Nat × Grid) :=
  s.grids.filter (fun e => e.2.step.isNone && e.2.decodeRole == role && decide (e.2.record.prio < prio) && e.2.ending.isNone &&
    s.teams.any (fun t => t.2.grid = e.1 && t.2.started && !t.2.swapped))

/-- A grid's most recently placed cluster that is on its cores. -/
def State.lastPlaced (s : State) (gid : Nat) : Option Nat :=
  ((s.clusters.filter (fun e => e.2.grid = gid && (s.clusterTeams e.1).any (fun t => t.2.started && !t.2.swapped) &&
      (s.clusterTeams e.1).all (fun t => t.2.started))).foldl (fun (best : Option (Nat × Cluster)) e =>
    match best with
    | none => some e
    | some b => if b.2.stamp < e.2.stamp then some e else some b) none).map Prod.fst

/-- A team may leave its core now: quiet, and with no command of its own in flight (R148, R225). -/
def State.teamIdle (s : State) (tid : Nat) : Bool :=
  s.teamQuiet tid && s.spadQuiet tid && !s.cmds.any (fun e => e.2.team = tid)

/-- TEAM_SWAP_OUT (R456): grid `gid` gives up its most recently placed cluster, when it is the lowest-PRIO grid below a head
that cannot be placed. -/
def execTeamSwapOut (gid : Nat) (s : State) : Result :=
  .next (match s.grids.find? gid with
  | none => s
  | some g =>
    let wants := s.grids.any (fun e => s.stuck e.2 && e.2.decodeRole == g.decodeRole &&
      (s.yielders g.decodeRole e.2.record.prio).any (fun y => y.1 = gid) &&
      (s.yielders g.decodeRole e.2.record.prio).all (fun y => decide (g.record.prio ≤ y.2.record.prio)))
    if ¬wants then s
    else
      match s.lastPlaced gid with
      | none => s
      | some cl =>
        let ts := (s.clusterTeams cl).filter (fun t => t.2.started && !t.2.swapped)
        if ts.all (fun t => s.teamIdle t.1) then ts.foldl (fun (s : State) (t : Nat × Team) => s.swapOut t.1 false false) s else s)

/-! ### Completion (R95, R428, R436) -/

/-- Groups of a grid. -/
def State.gridGroups (s : State) (gid : Nat) : List (Nat × Group) :=
  s.groups.filter (fun e => (s.teams.find? e.2.team).any (fun (t : Team) => t.grid = gid))

/-- A grid is over: every group has ended, and every command has completed; a step grid's end waits for a halt (R95,
R461). -/
def State.gridEnded (s : State) (gid : Nat) (g : Grid) : Bool :=
  (decide (g.stage = .held) || decide (g.stage = .running)) &&
  (g.ending.isSome || (g.nextCluster == g.record.clusters && !s.teams.any (fun e => e.2.grid = gid))) &&
  (s.gridGroups gid).all (fun e => decide (e.2.st = .ended)) && !s.cmds.any (fun e => e.2.grid = gid) &&
  match g.step with
  | some (p, _) => decide ((s.part p).halt = .run)
  | none => true

/-- What is left of a grid that ended early: teams that never started or were swapped out, and its clusters. -/
def State.clearGrid (s : State) (gid : Nat) : State :=
  let ts := (s.teams.filter (fun e => e.2.grid = gid)).map Prod.fst
  let s := ts.foldl (fun (s : State) (t : Nat) => s.endTeam t) s
  { s with
    cores := (s.cores.filter (fun e => !ts.any (fun t => awayCore t == e.1))).map (fun e =>
      (e.1, { e.2 with dispatchQ := e.2.dispatchQ.filter (fun t => !ts.contains t) }))
    groups := s.groups.filter (fun e => !ts.contains e.2.team)
    teams := s.teams.filter (fun e => e.2.grid ≠ gid)
    clusters := s.clusters.filter (fun e => e.2.grid ≠ gid) }

/-- The GRID event of a grid (R436). -/
def Grid.event (g : Grid) : List Byte :=
  match g.ending with
  | some e => eventBytes 1 e.status e.ggid.toNat (BitVec.ofNat 64 e.cause) e.epc g.cookie
  | none => eventBytes 1 0 0xFFFFFFFF 0 0 g.cookie

/-- A grid completes: every release, the add of R95, step-end work, then its event (R428, R436, R449). -/
def State.completeGrid (s : State) (gid : Nat) (g : Grid) : State :=
  let status := (g.ending.map (fun e => e.status)).getD 0
  let s := ((s.clearGrid gid).releaseGrid gid).addCounter g.asid g.record.doneAddr g.record.doneAdd
  let s := { s.leaveQueue gid g.queue with grids := s.grids.erase gid }
  let s := match g.step with
    | some (p, hs) => s.stepEnd p hs (status ≠ 0)
    | none => s
  let s := s.post g.queue g.event none
  match g.parent with
  | some t => s.childDone t status
  | none => s

/-- GRID_COMPLETION (R95). -/
def execGridCompletion (gid : Nat) (s : State) : Result :=
  .next (match s.grids.find? gid with
  | none => s
  | some g => if s.gridEnded gid g then s.completeGrid gid g else s)

/-! ### The watchdog (R158, R437) -/

/-- A split that has finished its wait goes on first: only its execution shows the event it observed (R167). -/
def Wait.settled : Wait → Bool
  | .released _ => false
  | .expired _ => false
  | .broken => false
  | _ => true

/-- A group takes the watchdog's trap at the split in its lowest occupied slot, if it can take a trap now. -/
def State.dogTrap (s : State) (gid : Nat) : Option State :=
  match s.groups.find? gid with
  | none => some s
  | some g =>
    match g.st, g.splits with
    | .draining, _ => some s
    | .ended, _ => some s
    | .swapped, _ => none
    | .halted, _ => none
    | _, [] => some s
    | _, (slot, sp) :: _ =>
      match s.ctxAt gid slot (s.instrAt g sp.pc) Guard.always with
      | none => some s
      | some c =>
        if sp.wait.settled then
          some (takeTrap c { cause := 0x19, lanes := sp.mask } ((s.bump.modCore g.core (fun k =>
            { k with growQ := k.growQ.filter (fun r => !(r.grp == gid && r.slot == slot)) }))))
        else none

/-- The trap raised in the groups that have still to take it, as far as they can. -/
def State.dogTraps (s : State) (gid : Nat) : List Nat → State
  | [] => s
  | g :: gs =>
    match s.dogTrap g with
    | some s => (s.modGrid gid (fun x => { x with dog := x.dog.map (fun l => l.erase g) })).dogTraps gid gs
    | none => s.dogTraps gid gs

/-- The grid's first group has issued its first word: a group that is there has, or a team that was placed has ended (R437). -/
def State.gridBegun (s : State) (gid : Nat) (g : Grid) : Bool :=
  (s.gridGroups gid).any (fun e => e.2.lastSlot.isSome) ||
    decide ((s.teams.filter (fun e => e.2.grid = gid)).length < g.nextCluster * g.record.teams)

/-- WATCHDOG_TRAP (R437): a grid that has run for WDOG ms; a group that cannot take the trap at this instant takes it at a
later turn of the event. -/
def execWatchdogTrap (gid : Nat) (s : State) : Result :=
  .next (match s.grids.find? gid with
  | none => s
  | some g =>
    if (s.queue g.queue).wdog = 0 ∨ g.ending.isSome then s
    else
      match g.dog with
      | some gs => s.dogTraps gid gs
      | none =>
        let gs := Map.keys ((s.gridGroups gid).filter (fun e => e.2.alive))
        if s.gridBegun gid g then (s.modGrid gid (fun x => { x with dog := some gs })).dogTraps gid gs
        else s)

/-- WATCHDOG_END (R437): still running one period later. -/
def execWatchdogEnd (gid : Nat) (s : State) : Result :=
  .next (match s.grids.find? gid with
  | none => s
  | some g =>
    if g.dog.isSome ∧ g.ending.isNone then
      s.endGrid gid { status := 0x05, ggid := 0xFFFFFFFF, cause := 0, epc := 0 }
    else s)

end Sys2Proof.Machine
end

