-- ==== Sys2Proof/Machine/TeamOps.lean ====
section
/-! DEFINITION. Meanings of TBAR, CBAR, SLEEP, YIELD, GROW, SHRINK and JOINW, and of SPLIT_MERGE,
GROW_GRANT and GROW_DEADLOCK_RESOLVE (spec/03_sequencer.md R109, R120 to R127, R144 to R150). -/

namespace Sys2Proof.Machine

/-! ### What an engine holds back at issue (R22, R105) -/

/-- The tag an engine command names. -/
def commandTag : Instr → Option Nat
  | .xferCopy x _ => some x.tag.val
  | .xferTranspose x _ => some x.tag.val
  | .xferRepack x _ => some x.tag.val
  | .xferQuant x _ => some x.tag.val
  | .xferDequant x _ => some x.tag.val
  | .xferGather x _ => some x.tag.val
  | .xferScatter x _ => some x.tag.val
  | .xferFill x _ => some x.tag.val
  | .xmcast x _ => some x.tag.val
  | .kvgath _ _ _ t _ => some t.val
  | .kvapp _ t _ => some t.val
  | .pgalloc _ _ _ t _ => some t.val
  | .pgrefQ _ _ t _ => some t.val
  | .pgrefQf _ _ t _ => some t.val
  | .pgrefInc _ _ t _ => some t.val
  | .pgrefDec _ _ t _ => some t.val
  | .pgfetch _ t _ => some t.val
  | .btset _ _ _ _ t _ => some t.val
  | .btget _ _ _ t _ => some t.val
  | .kvsend _ _ _ t _ => some t.val
  | .pfxh _ _ _ _ t _ => some t.val
  | .pfxlook _ _ _ _ t _ => some t.val
  | .pfxins _ _ _ t _ => some t.val
  | .pfxinsDel _ _ t _ => some t.val
  | .nsend _ _ _ _ t _ => some t.val
  | .nput _ _ _ _ _ _ t _ => some t.val
  | .nget _ _ _ _ _ t _ => some t.val
  | .nred _ _ t _ => some t.val
  | .nrecv _ _ _ t _ => some t.val
  | _ => none

/-- A loop command, of which a group has at most eight in flight (R344). -/
def isLoopCommand : Instr → Bool
  | .mloop _ _ _ _ => true
  | .mhad _ _ _ _ _ _ => true
  | .tbld _ _ _ => true
  | .tlook _ _ _ => true
  | _ => false

/-- A ST enters the group's FIFO (R188). -/
def isFifoStore : Instr → Bool
  | .st _ _ _ _ _ _ _ => true
  | .csave _ _ _ => true
  | _ => false

/-- The engine of a group's instruction cannot accept it: its tag is PENDING, eight loops are in flight, or the store FIFO is
full (R22, R188, R292, R344). -/
def State.refuses (s : State) (gid : Nat) (g : Group) (i : Instr) : Bool :=
  (commandTag i).any (fun t => !s.tagFree g.core t) || (isLoopCommand i && !s.loopRoom gid) || (isFifoStore i && !fifoRoom g)

/-- The word at a PC, as its group's instruction. -/
def State.wordFor (s : State) (g : Group) (pc : DWord) : Option Instr :=
  match s.fetch g.core g.seq (s.asidOf g) pc with
  | .word w _ => (decode w).toOption
  | _ => none

/-- A split stalls at issue for an engine (R22). -/
def State.holds (s : State) (gid : Nat) (g : Group) (sp : Split) : Bool :=
  (s.wordFor g sp.pc).any (fun i => s.refuses gid g i && activeMask g sp.mask i.guard != 0)

/-- All merges before an issue of a group (R113). -/
def State.mergeAll (s : State) (gid : Nat) : State := s.modGroup gid (fun g => g.mergeAll (s.holds gid g))

/-- SPLIT_MERGE (R113). -/
def execSplitMerge (grp i j : Nat) (s : State) : Result := .next (s.modGroup grp (fun g => g.merge (s.holds grp g) i j))

/-! ### Barriers of a team and a cluster, SLEEP and YIELD -/

/-- TBAR (R145): the split blocks; the last arrival completes the barrier. -/
def execTbar (g : Guard) (s : State) : Result :=
  issueSync (.tbar g) s (fun c s =>
    if c.grp.fifo.isEmpty then (block c .tbar s).tryTbar c.grp.team else s)

/-- CBAR (R145). -/
def execCbar (g : Guard) (s : State) : Result :=
  issueSync (.cbar g) s (fun c s =>
    if c.grp.fifo.isEmpty then (block c .cbar s).tryCbar c.grp.team else s)

/-- SLEEP (R145): no wait for a count of 0, nor in Reckoning mode (R169). -/
def execSleep (a : Reg) (g : Guard) (s : State) : Result :=
  issue (.sleep a g) s (fun c s => if c.reckon ∨ c.uni a = 0 then retire c s else block c .sleep s)

/-- YIELD (R109): it retires, and the split is ineligible for a while; in Reckoning mode it does not wait (R169). -/
def execYield (g : Guard) (s : State) : Result :=
  issue (.yield g) s (fun c s =>
    let s := retire c s
    if c.reckon then s else s.modSplit c.gid c.slot (fun sp => { sp with wait := .yield }))

/-! ### GROW and SHRINK (R123 to R127) -/

/-- A group's allotment raised by `n` units; what the new registers hold is open, and in Reckoning mode one value on every run
(R54; assumption log 3). -/
def State.raise (s : State) (gid n : Nat) : State :=
  let f := s.fresh
  let rk := (s.groups.find? gid).any (fun g => (s.teams.find? g.team).any s.teamReckon)
  { s.modGroup gid (fun g =>
      let open' := fun (k l : Nat) =>
        if rk then Config.grown g.ggid.toNat g.ltime.toNat (g.vallot + k) l else Config.freeWord (f + 32 * k + l)
      { g with vallot := g.vallot + 8 * n, growz := false,
               v := (List.range (8 * n)).foldl (fun v k => v.put (lanesOf (fun _ => 0)) (g.vallot + k)
                 (lanesOf (open' k))) g.v }) with fresh := f + 256 * n }

/-- A group's allotment raised by `n` units taken from the core's pool (R124). -/
def State.growBy (s : State) (gid core n : Nat) : State :=
  (s.modCore core (fun k => { k with poolFree := k.poolFree - n })).raise gid n

/-- Units that SHRINK gave to a team's reserve and that still drain (R122, R127). -/
def State.returning (s : State) (team : Nat) : Nat := ((s.teamGroups team).map (fun e => e.2.returning)).sum

/-- GROW (R124, R127): granted at once where it would be the head of the queue and the pool suffices; else it queues.
In Reckoning mode the team reserve grants it, once the units it takes have drained (R122), or it completes with grant 0. -/
def execGrow (d : Reg) (n : BitVec 8) (g : Guard) (s : State) : Result :=
  issueSync (.grow d n g) s (fun c s =>
    let k := n.toNat
    let core := s.core c.grp.core
    if 176 < c.grp.vallot + 8 * k then trap c 0x02 s
    else if c.reckon then
      if k ≤ c.team.reserve then
        if c.team.reserve < k + s.returning c.grp.team then s
        else
          retire c (writeUni c d (BitVec.ofNat 32 k)
            ((s.modTeam c.grp.team (fun t => { t with reserve := t.reserve - k })).raise c.gid k))
      else retire c (writeUni c d 0 (s.modGroup c.gid (fun g => { g with growz := true })))
    else if core.growQ.isEmpty ∧ k ≤ core.poolFree then
      retire c (writeUni c d (BitVec.ofNat 32 k) (s.growBy c.gid c.grp.core k))
    else (block c (.grow k d c.act) s).modCore c.grp.core (fun x =>
      { x with growQ := x.growQ ++ [{ grp := c.gid, slot := c.slot, n := k }] }))

/-- What a queued GROW's group and split look like when its turn comes; WORD of a trap's frame is the word at its PC (R159). -/
def State.growCtx (s : State) (r : GrowReq) : Option (Ctx × Reg) :=
  match s.groups.find? r.grp with
  | none => none
  | some g =>
    match g.splits.find? r.slot with
    | none => none
    | some sp =>
      match sp.wait with
      | .grow _ d act =>
        (s.ctxAt r.grp r.slot (s.instrAt g sp.pc) Guard.always).map (fun c => ({ c with act := act }, d))
      | _ => none

/-- A queued GROW completes with a grant: its result is written and it retires (R124). -/
def finishGrow (r : GrowReq) (grant : Nat) (s : State) : State :=
  match s.growCtx r with
  | none => s
  | some (c, d) => (writeUni c d (BitVec.ofNat 32 grant) s).retireAt r.grp r.slot c.reckon 1 none (c.sp.pc + 8)

/-- GROW_GRANT (R124): the head of the core's queue is granted once the pool suffices. When grants to other splits of its group
have left less than it asks for under 176 registers, it traps 0x02 in its turn (R120, R127; assumption log 27). -/
def execGrowGrant (core : Nat) (s : State) : Result :=
  .next (match (s.core core).growQ with
  | [] => s
  | r :: rs =>
    let rest := s.modCore core (fun k => { k with growQ := rs })
    match s.growCtx r with
    | none => rest
    | some (c, _) =>
      if 176 < c.grp.vallot + 8 * r.n then (trap c 0x02 rest).bump
      else if r.n ≤ (s.core core).poolFree then finishGrow r r.n (rest.growBy r.grp core r.n)
      else s)

/-- A split blocked in GROW. -/
def Split.growing (sp : Split) : Bool :=
  match sp.wait with
  | .grow _ _ _ => true
  | _ => false

/-- A split that is ready (R105): it may issue, its wait on tags, if any, has something to observe, the registers of its word
have no pending write, and its engine can accept it. -/
def State.splitReady (s : State) (gid : Nat) (g : Group) (sp : Split) : Bool :=
  s.ready g sp &&
    (match sp.wait with
    | .tags live => (List.range 64).any (fun t => live.getLsbD t &&
        ((s.core g.core).tags.find? t).all (fun x => decide (x.st ≠ .pending)))
    | _ => true) &&
    !s.holds gid g sp && (s.wordFor g sp.pc).all (fun i => !s.scoreboardBusy i g)

/-- The groups whose GROW R125 may resolve: all RESIDENT groups of the core, when each has a split blocked in GROW and no
other split of theirs is ready. -/
def State.growDeadlock (s : State) (core : Nat) : Bool :=
  let gs := s.groups.filter (fun e => e.2.core = core && e.2.st == .resident)
  !gs.isEmpty && gs.all (fun e => e.2.splits.any (fun x => x.2.growing) && e.2.splits.all (fun x => !s.splitReady e.1 e.2 x.2)) &&
    match (s.core core).growQ with
    | r :: _ => decide ((s.core core).poolFree < r.n)
    | [] => false

/-- The youngest RESIDENT group with a queued request: the latest dispatch age, ties to the higher GGID (R125); of two requests
of one group the one queued first, which is the model's choice (assumption log 27). -/
def youngest (s : State) (rs : List GrowReq) : Option GrowReq :=
  (rs.filter (fun r => (s.groups.find? r.grp).any (fun g => g.st == .resident))).foldl (fun best r =>
    match best, s.groups.find? r.grp with
    | none, _ => some r
    | some b, some g =>
      (match s.groups.find? b.grp with
      | some h =>
        if g.age > h.age ∨ (g.age = h.age ∧ h.ggid.toNat < g.ggid.toNat) then some r else some b
      | none => some r)
    | some b, none => some b) none

/-- GROW_DEADLOCK_RESOLVE (R125): the youngest group's GROW completes with grant 0. -/
def execGrowDeadlockResolve (core : Nat) (s : State) : Result :=
  .next (if s.growDeadlock core then
    match youngest s (s.core core).growQ with
    | none => s
    | some r =>
      finishGrow r 0 ((s.modCore core (fun k => { k with growQ := k.growQ.erase r })).modGroup r.grp
        (fun g => { g with growz := true }))
  else s)

/-- SHRINK (R126, R127): the highest units are released to the pool once their pending writes have landed (R122), or to the
team reserve in Reckoning mode, where GROW takes them once they have drained. -/
def execShrink (n : BitVec 8) (g : Guard) (s : State) : Result :=
  issueSync (.shrink n g) s (fun c s =>
    let k := n.toNat
    if c.grp.vallot < 8 * k then trap c 0x02 s
    else if c.reckon then
      (retire c ((s.modTeam c.grp.team (fun t => { t with reserve := t.reserve + k })).modGroup c.gid (fun g =>
        { g with vallot := g.vallot - 8 * k, returning := g.returning + k }))).settle c.gid
    else (retire c (s.modGroup c.gid (fun g =>
      { g with vallot := g.vallot - 8 * k, releasing := g.releasing + k }))).settle c.gid)

/-- JOINW (R150): the child status, once. -/
def execJoinw (d : Reg) (g : Guard) (s : State) : Result :=
  issueSync (.joinw d g) s (fun c s =>
    if c.grp.forkres then
      retire c (writeUni c d c.grp.childStatus (s.modGroup c.gid (fun g => { g with forkres := false })))
    else trap c 0x1B s)

end Sys2Proof.Machine
end

