-- ==== Sys2Proof/Machine/Forks.lean ====
section
/-! DEFINITION. FORK, SPAWN, and the swap of a team for a child grid (spec/03_sequencer.md R147 to R151). -/

namespace Sys2Proof.Machine

/-! ### FORK (R147 to R149) -/

/-- FORK (R147, R148): the split blocks. -/
def execFork (p : Fin 24) (g : Guard) (s : State) : Result :=
  issueSync (.fork p g) s (fun c s =>
    let a := readPair c.grp p
    if a.toNat % 256 ≠ 0 then trap c 0x04 s else block c (.fork a) s)

/-- The record a split's FORK names, while it is blocked there. -/
def Split.forks (sp : Split) : Option DWord :=
  match sp.wait with
  | .fork a => some a
  | _ => none

/-- A group has arrived at a FORK when every one of its splits is blocked in one (R148). -/
def Group.atFork (g : Group) : Bool := !g.splits.isEmpty && g.splits.all (fun e => e.2.forks.isSome)

/-- RESIDENT groups of a team, by group number. -/
def State.residents (s : State) (tid : Nat) : List (Nat × Group) :=
  (List.range 32).flatMap (fun n => (s.teamGroups tid).filter (fun e => e.2.num = n && decide (e.2.st = .resident)))

/-- Every RESIDENT group of a team has arrived at a FORK, and its commands have completed (R148). -/
def State.forkReady (s : State) (tid : Nat) : Bool :=
  let gs := s.residents tid
  !gs.isEmpty && gs.all (fun e => e.2.atFork) && !(s.teamGroups tid).any (fun e => e.2.away) && s.teamIdle tid

/-- The launch record's address: that of the lowest-numbered group's lowest split (R148). -/
def State.forkAddr (s : State) (tid : Nat) : Option DWord :=
  match s.residents tid with
  | (_, g) :: _ => (match g.splits with
    | (_, sp) :: _ => sp.forks
    | [] => none)
  | [] => none

/-- Trap 0x1B at the FORK of every group (R151). -/
def State.forkTraps (s : State) (tid : Nat) : State :=
  (s.residents tid).foldl (fun (s : State) (e : Nat × Group) =>
    match s.groups.find? e.1 with
    | none => s
    | some g =>
      match g.st, g.splits with
      | .resident, (slot, sp) :: _ =>
        (match s.ctxAt e.1 slot (s.instrAt g sp.pc) Guard.always with
        | some c => takeTrap c { cause := 0x1B, lanes := sp.mask } s.bump
        | none => s)
      | _, _ => s) s

/-- Every FORK of a team retires: its groups resume at the word that follows (R148). -/
def State.forkRetire (s : State) (tid : Nat) (reckon : Bool) : State :=
  (s.residents tid).foldl (fun (s : State) (e : Nat × Group) =>
    e.2.splits.foldl (fun (s : State) (x : Nat × Split) => s.retireAt e.1 x.1 reckon 1 none (x.2.pc + 8)) s) s

/-- The child grid enters the tail of the queue that its record names, in the parent's ASID (R148, R451). -/
def State.submitChild (s : State) (tid asid depth : Nat) (a : DWord) (r : LaunchRecord) : State :=
  let s := s.enqueue r.queue { Grid.enter r a r.queue asid (!(s.queue r.queue).prefill) 0 with
    parent := some tid, depth := depth }
  s.modTeam tid (fun t => { t with child := some s.uid })

/-- FORK_SWAP_OUT (R148, R151). -/
def execForkSwapOut (tid : Nat) (s : State) : Result :=
  .next (match s.teams.find? tid with
  | none => s
  | some t =>
    match s.grids.find? t.grid, s.forkAddr tid with
    | some gr, some a =>
      if t.swapped ∨ ¬s.forkReady tid then s
      else
        match s.readVa gr.asid a.toNat 256 with
        | (s, none) => s.forkTraps tid
        | (s, some bs) =>
          let r := parseLaunch bs
          let x := s.refusedRecord gr.asid r
          if x.2 ∨ 8 ≤ gr.depth then x.1.forkTraps tid
          else ((x.1.forkRetire tid gr.record.reckon).swapOut tid true false).submitChild tid gr.asid (gr.depth + 1) a r
    | _, _ => s)

/-- The core to whose dispatch queue a team swapped out by FORK goes: of those with room for it, the one with the fewest
resident and queued teams, ties to the lowest number (R148, R452). -/
def State.returnCore (s : State) (gr : Grid) (tid : Nat) : Option Nat :=
  let n := s.teamNeed tid
  let load := fun (c : Nat) => (s.teamsOn c).length + (s.core c).dispatchQ.length
  (((s.gridParts gr).flatMap s.placeable).filter (fun c => (s.roomAt c n).isSome)).foldl (fun (best : Option Nat) c =>
    match best with
    | none => some c
    | some b => if load c < load b then some c else some b) none

/-- FORK_RESUME (R148): the child has completed, and the team enters the dispatch queue of a core. -/
def execForkResume (tid : Nat) (s : State) : Result :=
  .next (match s.teams.find? tid with
  | none => s
  | some t =>
    match s.grids.find? t.grid with
    | none => s
    | some gr =>
      if ¬t.swapped ∨ ¬t.forked ∨ t.child.isSome ∨ gr.ending.isSome ∨ s.cores.any (fun e => e.2.dispatchQ.contains tid) then s
      else
        match s.returnCore gr tid with
        | some c => s.modCore c (fun k => { k with dispatchQ := k.dispatchQ ++ [tid] })
        | none => s)

/-! ### SPAWN (R151) -/

/-- Group numbers of a team that are free. -/
def State.freeNumbers (s : State) (tid : Nat) : List Nat :=
  (List.range 32).filter (fun n => !(s.teamGroups tid).any (fun e => e.2.num = n && decide (e.2.st ≠ .ended)))

/-- How many groups a core can take (R39, R121, R151). -/
def State.spawnRoom (s : State) (core units : Nat) : Nat :=
  let byGroups := 64 - (s.groupsOn core).length
  if units = 0 then byGroups else min byGroups ((s.core core).poolFree / units)

/-- `n` groups created on the issuing core and team, at the lowest free group numbers. -/
def spawnGroups (c : Ctx) (n : Nat) (entry : DWord) (ltime : DWord) (s : State) : State :=
  ((s.freeNumbers c.grp.team).take n).foldl (fun (s : State) k => s.addGroup c.grp.team k entry ltime) s

/-- SPAWN's creation: as many as there is room for, or, in Reckoning mode, all of them or none yet. -/
def spawnEffect (c : Ctx) (d : Reg) (n : Nat) (entry : DWord) (s : State) : State :=
  let room := s.spawnRoom c.grp.core (c.grid.record.vcnt / 8)
  if c.reckon then
    if room < n then s
    else retire c (writeUni c d (BitVec.ofNat 32 n) (spawnGroups c n entry (c.grp.ltime + 1) s))
  else retire c (writeUni c d (BitVec.ofNat 32 (min n room)) (spawnGroups c (min n room) entry 0 s))

/-- SPAWN (R147, R151). DESIGN CHOICE (assumption log 28): bits 2:0 of the entry table word are dropped, since a PC holds 0
there (R56). -/
def execSpawn (d idx cnt : Reg) (g : Guard) (s : State) : Result :=
  issueSync (.spawn d idx cnt g) s (fun c s =>
    let n := (c.uni cnt).toNat
    let i := (c.uni idx).toNat
    let r := c.grid.record
    if ¬r.maint ∨ r.entryCnt ≤ i ∨ n = 0 ∨ (s.freeNumbers c.grp.team).length < n then trap c 0x1B s
    else
      let va := r.entryTab.toNat + 8 * i
      match s.resolve c.grid va 8 .read with
      | none => takeTrap c { cause := 0x05, lanes := c.act, addr := BitVec.ofNat 64 va } s
      | some pa =>
        let s := ((s.markRead c.grid (.glob va)).touchPlaces (some c.grp.core) (c.tag s) [(.global, pa)])
        spawnEffect c d n (BitVec.ofNat 64 (s.physNat pa 8 / 8 * 8)) s)

end Sys2Proof.Machine
end

