-- ==== Sys2Proof/Machine/Lane.lean ====
section
/-! DEFINITION. Meanings of ISET, the mask operations, SHAPE and the lane operations (spec/05_integer_lane.md R238 to
R245). -/

namespace Sys2Proof.Machine

/-- ISET (R238). -/
def execIset (cond : ICond) (u : MaskUpd) (d : Fin 8) (a b : Reg) (g : Guard) (s : State) : Result :=
  issue (.iset cond u d a b g) s (fun c s =>
    retire c (writeMask c d (updMask u (readMask c.grp d) c.act (fun l => icond cond (c.rd a l) (c.rd b l))) s))

/-- MAND (R239). -/
def execMand (d a b : Fin 8) (g : Guard) (s : State) : Result :=
  issue (.mand d a b g) s (fun c s => retire c (writeMask c d (readMask c.grp a &&& readMask c.grp b) s))

/-- MOR (R239). -/
def execMor (d a b : Fin 8) (g : Guard) (s : State) : Result :=
  issue (.mor d a b g) s (fun c s => retire c (writeMask c d (readMask c.grp a ||| readMask c.grp b) s))

/-- MXOR (R239). -/
def execMxor (d a b : Fin 8) (g : Guard) (s : State) : Result :=
  issue (.mxor d a b g) s (fun c s => retire c (writeMask c d (readMask c.grp a ^^^ readMask c.grp b) s))

/-- MNOT (R239). -/
def execMnot (d a : Fin 8) (g : Guard) (s : State) : Result :=
  issue (.mnot d a g) s (fun c s => retire c (writeMask c d (~~~readMask c.grp a) s))

/-- MMOV (R239). -/
def execMmov (d : Fin 8) (a : Reg) (g : Guard) (s : State) : Result :=
  issue (.mmov d a g) s (fun c s => retire c (writeMask c d (c.uni a) s))

/-- MGET (R239). -/
def execMget (d : Reg) (a : Fin 8) (g : Guard) (s : State) : Result :=
  issueResult (.mget d a g) d s (fun c _ => readMask c.grp a)

/-- MPOP (R239). -/
def execMpop (d : Reg) (a : Fin 8) (g : Guard) (s : State) : Result :=
  issueResult (.mpop d a g) d s (fun c _ => popc32 (readMask c.grp a))

/-- Number of the lowest set bit, or 32 (R239). -/
def ffs32 (w : Word) : Word := BitVec.ofNat 32 ((lanesIn w).headD 32)

/-- MFFS (R239). -/
def execMffs (d : Reg) (a : Fin 8) (g : Guard) (s : State) : Result :=
  issueResult (.mffs d a g) d s (fun c _ => ffs32 (readMask c.grp a))

/-- The encoding code of 32 lane values: uniform, affine, delta8 or general (R119). -/
def encCode (f : Nat → Word) : Nat :=
  let ls := List.range 32
  if ls.all (fun l => f l == f 0) then 0
  else if ls.all (fun l => f l == f 0 + BitVec.ofNat 32 l * (f 1 - f 0)) then 1
  else if ls.all (fun l => decide (-128 ≤ (f l - f 0).toInt) && decide ((f l - f 0).toInt ≤ 127)) then 2
  else 3

/-- SHAPE (R240). -/
def execShape (d a : Reg) (g : Guard) (s : State) : Result :=
  issueResult (.shape d a g) d s (fun c _ =>
    match a with
    | .v _ => BitVec.ofNat 32 (encCode (c.rd a))
    | .x _ => 1
    | _ => 0)

/-- The source lane of LXCH, none when it is out of range (R241). -/
def lxchLane (op : LxchOp) (l : Nat) (n : Word) : Option Nat :=
  match op with
  | .at => if n.toNat < 32 then some n.toNat else none
  | .back => if n.toNat ≤ l then some (l - n.toNat) else none
  | .ahead => if l + n.toNat < 32 then some (l + n.toNat) else none
  | .flip => some (l ^^^ (n.toNat % 32))

/-- What LXCH gives a lane: the source lane's value when it participates, else the lane's fill value (R241). -/
def lxchVal (op : LxchOp) (act : Word) (src idx fill : Nat → Word) (l : Nat) : Word :=
  match lxchLane op l (idx l) with
  | some j => if laneIn act j then src j else fill l
  | none => fill l

/-- LXCH (R241). -/
def execLxch (op : LxchOp) (d a b c : Reg) (g : Guard) (s : State) : Result :=
  issueLanes (.lxch op d a b c g) d s (fun cx l => lxchVal op cx.act (cx.rd a) (cx.rd b) (cx.rd c) l)

/-- The result of LPRED from the participating lanes (R242). -/
def lpredVal (op : LpredOp) (inv : Bool) (act : Word) (a : Nat → Word) : Word :=
  let ls := lanesIn act
  let p := fun l => (a l != 0) != inv
  match op with
  | .some => if ls.any p then 1 else 0
  | .every => if ls.all p then 1 else 0
  | .bits => maskOfLanes (fun l => laneIn act l && p l)
  | .same => if ls.all (fun l => a l == a (ls.headD 0)) then 1 else 0
  | .count => BitVec.ofNat 32 (ls.filter p).length

/-- LPRED (R242). -/
def execLpred (op : LpredOp) (inv : Bool) (d a : Reg) (g : Guard) (s : State) : Result :=
  issueLanes (.lpred op inv d a g) d s (fun c _ => lpredVal op inv c.act (c.rd a))

/-- MATCH (R243). -/
def execMatchLanes (d a : Reg) (g : Guard) (s : State) : Result :=
  issueLanes (.matchLanes d a g) d s (fun c l =>
    maskOfLanes (fun k => laneIn c.act k && c.rd a k == c.rd a l))

/-- Identity elements of SCAN (R244). -/
def scanIdent (op : ScanOp) (ty : ScanTy) : Word :=
  match op, ty with
  | .add, .f32 => 0x80000000
  | .addx, .f32 => 0x80000000
  | .add, _ => 0
  | .addx, _ => 0
  | .max, .i32 => 0x80000000
  | .max, .u32 => 0
  | .max, .f32 => 0xFF800000
  | .min, .i32 => 0x7FFFFFFF
  | .min, .u32 => 0xFFFFFFFF
  | .min, .f32 => 0x7F800000
  | .or, _ => 0

/-- The operation of SCAN on two values (R244). -/
def scanOp (op : ScanOp) (ty : ScanTy) (a b : Word) : Word :=
  match op, ty with
  | .add, .f32 => fadd32 .rn a b
  | .addx, .f32 => fadd32 .rn a b
  | .add, _ => a + b
  | .addx, _ => a + b
  | .max, .f32 => fmax32 a b
  | .max, .u32 => imax32 true a b
  | .max, .i32 => imax32 false a b
  | .min, .f32 => fmin32 a b
  | .min, .u32 => imin32 true a b
  | .min, .i32 => imin32 false a b
  | .or, _ => a ||| b

/-- One level of the scan tree: t[k] := t[k − d] op t[k] for k from d on (R244). -/
def scanLevel (f : Word → Word → Word) (t : List Word) (d : Nat) : List Word :=
  t.take d ++ List.zipWith f t (t.drop d)

/-- The scan over lane positions 0 to 31 (R244). -/
def scanTree (f : Word → Word → Word) (t : List Word) : List Word := [1, 2, 4, 8, 16].foldl (scanLevel f) t

/-- Lane values with the identity in the lanes that do not participate (R244, R245). -/
def identLanes (act : Word) (ident : Word) (a : Nat → Word) : List Word :=
  lanesOf (fun k => if laneIn act k then a k else ident)

/-- SCAN (R244). -/
def execScan (op : ScanOp) (ty : ScanTy) (d a : Reg) (g : Guard) (s : State) : Result :=
  issueLanes (.scan op ty d a g) d s (fun c l =>
    let t := scanTree (scanOp op ty) (identLanes c.act (scanIdent op ty) (c.rd a))
    match op, l with
    | .addx, 0 => scanIdent op ty
    | .addx, k + 1 => laneOf t k
    | _, k => laneOf t k)

/-- Neighbours joined pairwise: t[k] := t[2k] op t[2k + 1] (R245). -/
def pairLevel (f : Word → Word → Word) : List Word → List Word
  | a :: b :: t => f a b :: pairLevel f t
  | t => t

/-- The pairwise tree over 32 values (R245). -/
def pairTree (f : Word → Word → Word) (t : List Word) : Word :=
  (pairLevel f (pairLevel f (pairLevel f (pairLevel f (pairLevel f t))))).headD 0

/-- Identity elements of RDUX (R244, R245). -/
def rduxIdent (op : RduxOp) (u : Bool) : Word :=
  match op with
  | .add => 0
  | .max => if u then 0 else 0x80000000
  | .min => if u then 0xFFFFFFFF else 0x7FFFFFFF
  | .and => 0xFFFFFFFF
  | .or => 0
  | .xor => 0
  | .fadd => 0x80000000
  | .fmax => 0xFF800000

/-- The operation of RDUX on two values (R245). -/
def rduxOp (op : RduxOp) (u : Bool) (a b : Word) : Word :=
  match op with
  | .add => a + b
  | .max => imax32 u a b
  | .min => imin32 u a b
  | .and => a &&& b
  | .or => a ||| b
  | .xor => a ^^^ b
  | .fadd => fadd32 .rn a b
  | .fmax => fmax32 a b

/-- RDUX (R245). -/
def execRdux (op : RduxOp) (u : Bool) (d a : Reg) (g : Guard) (s : State) : Result :=
  issueLanes (.rdux op u d a g) d s (fun c _ =>
    pairTree (rduxOp op u) (identLanes c.act (rduxIdent op u) (c.rd a)))

end Sys2Proof.Machine
end

