-- ==== Sys2Proof/Machine/LoadStore.lean ====
section
/-! DEFINITION. Meanings of LD, LDU, ST, ATOM, RED, FENCE and PREF, and of the events of the memory path: STORE_DRAIN,
L2_LINE_EVICT, HOST_MEMORY_ACCESS and REGISTER_WRITE_LAND (spec/04_loadstore.md R183 to R224; spec/13_memory_tiers.md
R508, R514, R517; spec/03_sequencer.md R122). -/

namespace Sys2Proof.Machine

/-! ### LD and LDU (R215 to R218) -/

/-- Bytes of a load size (R215). -/
def ldBytes : LdSize → Nat
  | .b => 1
  | .bs => 1
  | .h => 2
  | .hs => 2
  | .w => 4
  | .d => 8
  | .q => 16

/-- The word that register `i` of the destination takes from a loaded value (R217). -/
def ldWord (sz : LdSize) (v i : Nat) : Word :=
  match sz with
  | .bs => (BitVec.ofNat 8 v).signExtend 32
  | .hs => (BitVec.ofNat 16 v).signExtend 32
  | _ => BitVec.ofNat 32 (v / 2 ^ (32 * i))

/-- The registers of a destination group take the words of one loaded value a lane, and their writes are pending
(R217, R122). -/
def loadInto (c : Ctx) (sz : LdSize) (d : Reg) (val : Nat → Nat) (s : State) : State :=
  addPend c.gid (regCodes (d, sz.regs))
    ((List.range sz.regs).foldl (fun s i => writeReg c (regIn d i) (fun l => ldWord sz (val l) i) s) s)

/-- LD (R217): each participating lane loads from its own address. -/
def execLd (sz : LdSize) (ord : Order) (d base idx : Reg) (off : BitVec 16) (g : Guard) (s : State) : Result :=
  issue (.ld sz ord d base idx off g) s (fun c s =>
    let addr := c.addrAt base idx off
    access c s c.act addr (ldBytes sz) .read .read false false true (fun s =>
      let s := c.acquire ord s
      retire c (loadInto c sz d (fun l => s.seenNat c.grp.core c.grp.fifo (lanePlaces c s addr (ldBytes sz) .read l)) s)))

/-- LDU (R218): one load, at the lowest participating lane's address, as a uniform result. -/
def execLdu (sz : LdSize) (ord : Order) (d base idx : Reg) (off : BitVec 16) (g : Guard) (s : State) : Result :=
  issue (.ldu sz ord d base idx off g) s (fun c s =>
    let addr := c.addrAt base idx off
    access c s (maskOfLanes (fun l => l == c.lowLane)) addr (ldBytes sz) .read .read false false true (fun s =>
      let s := c.acquire ord s
      let v := s.seenNat c.grp.core c.grp.fifo (lanePlaces c s addr (ldBytes sz) .read c.lowLane)
      retire c (loadInto c sz d (fun _ => v) s)))

/-! ### ST (R219) -/

/-- Bytes of a store size (R219). -/
def stBytes : StSize → Nat
  | .b => 1
  | .h => 2
  | .w => 4
  | .d => 8
  | .q => 16

/-- The bytes lane `l` stores: the low bytes of the value it reads, or consecutive registers, low word first (R219). -/
def stData (c : Ctx) (sz : StSize) (d : Reg) (l : Nat) : List Byte :=
  ((List.range sz.regs).flatMap (fun i => leBytes 4 (c.rd (regIn d i) l).toNat)).take (stBytes sz)

/-- The bytes that a store of the participating lanes writes, lowest lane first, so that the highest lane's stay (R184). -/
def storeBytes (c : Ctx) (s : State) (addr : Nat → DWord) (sz : StSize) (d : Reg) : List (Place × Byte) :=
  (lanesIn c.act).flatMap (fun l => (lanePlaces c s addr (stBytes sz) .write l).zip (stData c sz d l))

/-- ST (R219): the store enters the group's FIFO as it retires; it stalls at issue while the FIFO is full (R188). -/
def execSt (sz : StSize) (ord : Order) (d base idx : Reg) (off : BitVec 16) (g : Guard) (s : State) : Result :=
  issue (.st sz ord d base idx off g) s (fun c s =>
    let addr := c.addrAt base idx off
    if fifoRoom c.grp then
      access c s c.act addr (stBytes sz) .write .write false false false (fun s =>
        retire c (pushStore c.gid (storeBytes c s addr sz d) s))
    else s)

/-! ### ATOM (R190, R220) -/

/-- The new value of an ATOM, or none where CAS writes nothing (R220). -/
def atomNew (op : AtomOp) (old a b : Word) : Option Word :=
  match op with
  | .add => some (old + a)
  | .min => some (if a.slt old then a else old)
  | .max => some (if old.slt a then a else old)
  | .minu => some (if a.ult old then a else old)
  | .maxu => some (if old.ult a then a else old)
  | .and => some (old &&& a)
  | .or => some (old ||| a)
  | .xor => some (old ^^^ a)
  | .exch => some a
  | .cas => if old = a then some b else none

/-- Where Compass lets a global atomic of a core execute, with its counter and the core's atomic line buffer (R189,
R190). -/
def State.compass (s : State) (core : Nat) (p : Place) : State :=
  match p.1 with
  | .global =>
    let line := p.2 / 128
    let k := s.core core
    let n := k.compass.getD (compassIndex line) 0
    if 2 ≤ n then s
    else if k.alb.contains line then
      s.modCore core (fun k => { k with compass := k.compass.put 0 (compassIndex line) (n - 1),
                                        alb := line :: k.alb.erase line })
    else s.modCore core (fun k => { k with alb := (line :: k.alb).take 32 })
  | _ => s

/-- The word at a lane's places. -/
def State.wordAt (s : State) (ps : List Place) : Word := BitVec.ofNat 32 (leNat (ps.map s.byteAt))

/-- One lane's ATOM, and the old value it returns (R220). -/
def atomLane (op : AtomOp) (core : Nat) (a b : Word) (ps : List Place) (s : State) : State × Word :=
  let s := s.compass core (ps.headD (.global, 0))
  let old := s.wordAt ps
  match atomNew op old a b with
  | some w => (s.putBytes (ps.zip (leBytes 4 w.toNat)), old)
  | none => (s, old)

/-- All lanes of an ATOM, ascending, with the old value of each (R184, R220). -/
def atomLanes (c : Ctx) (op : AtomOp) (d : Reg) (places : Nat → List Place) (s : State) : State × Map Word :=
  (lanesIn c.act).foldl (fun x l =>
    let r := atomLane op c.grp.core (c.rd d l) (c.rd (regIn d 1) l) (places l) x.1
    (r.1, Map.set x.2 l r.2)) (s, [])

/-- ATOM (R220): it performs once every older store of the group has drained (R200); in Reckoning mode it is a
synchronising operation. DESIGN CHOICE (assumption log 7): its lanes act in one step, so that no atomic of another agent falls
between two of them, as R184 lets it. -/
def execAtom (op : AtomOp) (ord : Order) (d base idx : Reg) (off : BitVec 16) (g : Guard) (s : State) : Result :=
  issueSync (.atom op ord d base idx off g) s (fun c s =>
    let addr := c.addrAt base idx off
    if c.grp.fifo.isEmpty then
      access c s c.act addr 4 .atomic .atom true false true (fun s =>
        let r := atomLanes c op d (lanePlaces c s addr 4 .atomic) (c.acquire ord s)
        retire c (addPend c.gid (regCodes (d, 1)) (writeReg c d (fun l => r.2.getD l 0) (c.marks r.1))))
    else s)

/-! ### RED (R192 to R196, R221) -/

/-- FN of a RED (R221). -/
def redFn : RedOp → Nat
  | .addI32 => 0
  | .addF32 => 1
  | .addBf16 => 2
  | .addN8e4 => 3
  | .addN8e5 => 4
  | .minF32 => 5
  | .maxF32 => 6

/-- The reductions that keep a shadow (R192). -/
def redShadowed : RedOp → Bool
  | .addBf16 => true
  | .addN8e4 => true
  | .addN8e5 => true
  | _ => false

/-- The new word of a reduction without a shadow (R221). -/
def redWord (op : RedOp) (old a : Word) : Word :=
  match op with
  | .addI32 => old + a
  | .addF32 => fadd32 .rn old a
  | .minF32 => fmin32 old a
  | _ => fmax32 old a

/-- Bytes of the shadow store that the shadowed lines take (R195). -/
def shadowUse (m : Map Shadow) : Nat :=
  ((m.map (fun e => e.1 / 128)).dedup.map (fun line =>
    if m.any (fun e => e.1 / 128 = line && e.2.reckon) then 1536 else 512)).sum

/-- Room for a shadow of the element at `pa`: its line has its place already, or there is room for one more (R192,
R195). -/
def shadowRoom (ms : MemSys) (m : Map Shadow) (pa : Nat) (reckon : Bool) : Bool :=
  m.any (fun e => e.1 / 128 = pa / 128) || decide (shadowUse m + (if reckon then 1536 else 512) ≤ ms.shdSize)

/-- The shadow that a RED goes on from, if the element has one of its kind (R193, R194). -/
def shadowOf (m : Map Shadow) (op : RedOp) (reckon : Bool) (pa : Nat) : Option Shadow :=
  match m.find? pa with
  | some sh => if sh.op = op ∧ sh.reckon = reckon then some sh else none
  | none => none

/-- A RED's element written, with its shadow (R192, R193). -/
def State.putShadow (s : State) (pa : Nat) (sh : Shadow) : State :=
  if paOk s.ms pa then
    let s := s.physStore pa (leBytes (redSize sh.op) sh.round)
    { s with shadows := s.shadows.set pa sh }
  else s

/-- One lane's reduction into a shadowed element (R192 to R196). -/
def redShadowLane (op : RedOp) (reckon : Bool) (pa : Nat) (a : Word) (s : State) : State :=
  let s := ((List.range (redSize op)).foldl (fun s k => s.logByte (.global, pa + k)) s).markWritten pa
  let v := elemVal op (a.toNat % 2 ^ (8 * redSize op))
  match shadowOf s.shadows op reckon pa with
  | some sh => s.putShadow pa (sh.add v)
  | none =>
    let old := elemVal op (s.physNat pa (redSize op))
    if shadowRoom s.ms s.shadows pa reckon then s.putShadow pa ((Shadow.make op reckon old).add v)
    else (s.physStore pa (leBytes (redSize op) (roundElem op (addF .rn old v)))).countMgmt 0

/-- One lane's RED (R221). -/
def redLane (op : RedOp) (reckon : Bool) (core : Nat) (a : Word) (ps : List Place) (s : State) : State :=
  if redShadowed op then
    match ps with
    | (.global, pa) :: _ => redShadowLane op reckon pa a (s.endShadows op reckon pa (redSize op))
    | _ => s
  else
    let p := ps.headD (.global, 0)
    let s := s.compass core p
    let s := if p.1 = .global then s.endShadows op reckon p.2 4 else s
    s.putBytes (ps.zip (leBytes 4 (redWord op (s.wordAt ps) a).toNat))

/-- All lanes of a RED, ascending (R184, R221). -/
def redLanes (c : Ctx) (op : RedOp) (d : Reg) (places : Nat → List Place) (s : State) : State :=
  (lanesIn c.act).foldl (fun s l => redLane op c.reckon c.grp.core (c.rd d l) (places l) s) s

/-- The lanes for which a Reckoning RED finds no room for a new shadow, the earlier lanes' reservations counted (R195). -/
def redNoRoom (c : Ctx) (s : State) (op : RedOp) (places : Nat → List Place) : List Nat :=
  ((lanesIn c.act).foldl (fun (x : Map Shadow × List Nat) l =>
    let pa := ((places l).headD (.global, 0)).2
    if (shadowOf x.1 op true pa).isSome then x
    else if shadowRoom s.ms x.1 pa true then (Map.set x.1 pa (Shadow.make op true (.fin false 0 0)), x.2)
    else (x.1, x.2 ++ [l])) (s.shadows, [])).2

/-- The reductions that Reckoning mode refuses (R50, R221). -/
def redRefused : RedOp → Bool
  | .addF32 => true
  | .addBf16 => true
  | .minF32 => true
  | .maxF32 => true
  | _ => false

/-- RED (R221): it performs once every older store of the group has drained (R200). -/
def execRed (op : RedOp) (ord : Order) (d base idx : Reg) (off : BitVec 16) (g : Guard) (s : State) : Result :=
  issue (.red op ord d base idx off g) s (fun c s =>
    let addr := c.addrAt base idx off
    if c.reckon && redRefused op then takeTrap c { cause := 0x06, sub := 1, lanes := c.act, addr := addr c.lowLane } s
    else if c.grp.fifo.isEmpty then
      access c s c.act addr (redSize op) .atomic (.red (redFn op)) true (redShadowed op) true (fun s1 =>
        let places := lanePlaces c s addr (redSize op) .atomic
        match (if c.reckon && redShadowed op then redNoRoom c s1 op places else []) with
        | l :: ls =>
          takeTrap c { cause := 0x06, sub := 2, lanes := maskOfLanes (fun k => (l :: ls).contains k), addr := addr l }
            (s.countMgmt 0)
        | [] => retire c (c.marks (redLanes c op d places s1)))
    else s)

/-! ### FENCE and PREF (R222, R223) -/

/-- FENCE (R207, R222): it retires once the group's FIFO has drained; every earlier access has performed by then, and the
writes it acquires at its scope are visible (assumption log 7). At GROUP scope only the group itself is meant, which sees its
own stores in its FIFO. -/
def execFence (sc : Scope) (g : Guard) (s : State) : Result :=
  issue (.fence sc g) s (fun c s =>
    if c.grp.fifo.isEmpty then retire c (s.acquire c.grp.core c.team.cluster sc) else s)

/-- A lane of PREF whose address is global and inside the accessible set (R223). -/
def prefLane (c : Ctx) (s : State) (a : DWord) : Option Nat :=
  match s.aperture c.team none a 1 with
  | some (.glob va) => s.resolve c.grid va 1 .read
  | _ => none

/-- PREF (R223): lines come into the L2, leaving the tier cache, and nothing else happens. -/
def execPref (base idx : Reg) (off : BitVec 16) (g : Guard) (s : State) : Result :=
  issue (.pref base idx off g) s (fun c s =>
    let pas := (lanesIn c.act).filterMap (fun l => prefLane c s (c.addrAt base idx off l))
    retire c ((pas.map (· / 128)).dedup.foldl (fun s line =>
      if s.owned (.global, line * 128) then s else s.touchLine (c.tag s) line) s))

/-! ### Events of the memory path -/

/-- STORE_DRAIN (R188, R199): the oldest entry of a group's FIFO performs, once no engine owns a unit it writes. -/
def execStoreDrain (grp : Nat) (s : State) : Result :=
  .next (match s.groups.find? grp with
  | none => s
  | some g =>
    match g.fifo with
    | [] => s
    | e :: es =>
      let ps := e.bytes.map Prod.fst
      if ps.any s.owned then s.callUnits ps
      else
        let team := s.teams.find? g.team
        let tag := match team.bind (fun (t : Team) => s.grids.find? t.grid) with
          | some gr => s.asidTag gr.asid
          | none => 0
        let s := ((s.performed g.core ps).touchPlaces (some g.core) tag ps).putBytes e.bytes
        let s := match team with
          | some t => if s.teamReckon t then s.keyMarks t.cluster e.key else s
          | none => s
        (s.modGroup grp (fun g => { g with fifo := es })).settle grp)

/-- Lines that the tier cache can hold (R514). -/
def tcLines (ms : MemSys) : Nat := ms.tcsize * gb / 128

/-- L2_LINE_EVICT (R514): a capacity-tier line leaves the L2 for the tier cache, clean or dirty; a full tier cache
displaces one line, whichever (free picks, assumption log 3). -/
def execL2LineEvict (line : Nat) (s : State) : Result :=
  .next (if isCapacityPa s.ms (line * 128) && decide (0 < tcLines s.ms) && (s.ms.tcache.find? line).isNone then
    let t := s.ms.tcache
    let t := if t.length < tcLines s.ms then t
      else t.eraseIdx ((Config.freeWord (s.fresh + 1)).toNat % t.length)
    { s with ms := { s.ms with tcache := t.set line (Config.freeBool s.fresh) }, fresh := s.fresh + 2 }
  else s)

/-- The key tag of a host port's accesses (R517). -/
def State.hostTag (s : State) (port : Nat) : Nat :=
  let h := (s.ms.hpasid.getD port 0).toNat
  if bit h 12 then s.asidTag (bits h 0 12) else 0

/-- HOST_MEMORY_ACCESS (R193, R508, R517): a host writes `data` at a physical address, or reads `len` bytes there when
it brings none; it waits while an engine owns a line of it, and recalls it (R31). -/
def execHostMemoryAccess (port pa : Nat) (data : List Byte) (len : Nat) (s : State) : Result :=
  .next (
    let n := if data.isEmpty then len else data.length
    let ps := (List.range n).map (fun k => ((.global, pa + k) : Place))
    if ps.any s.owned then s.callUnits ps
    else (s.touchPlaces none (s.hostTag port) ps).putBytes (ps.zip data))

/-- REGISTER_WRITE_LAND (R122): the oldest pending write of a group that has its value lands; a DRAINING group may
end (R103). -/
def execRegisterWriteLand (grp : Nat) (s : State) : Result :=
  .next (match s.groups.find? grp with
  | none => s
  | some g =>
    match g.pend.find? (fun p => p.ready) with
    | none => s.settle grp
    | some p => (s.modGroup grp (fun g => { g with pend := g.pend.erase p })).settle grp)

end Sys2Proof.Machine
end

