-- ==== Sys2Proof/Machine/MemWindow.lean ====
section
/-! DEFINITION. The memory window (spec/13_memory_tiers.md R524, R529 to R533): MEMCFG and its changes, invalidations, keys,
and the neighbour refresh. -/

namespace Sys2Proof.Machine

/-- The memory system changed. -/
def State.modMs (s : State) (f : MemSys → MemSys) : State := { s with ms := f s.ms }

/-- Some ASID table entry, or some Chart pool, has EN = 1 (R533). -/
def State.inUse (s : State) : Bool :=
  (List.range 4096).any s.asidEn || s.charts.any (fun e => e.2.pools.any (fun p => p.2.en))

/-- Two ranges share a byte. -/
def overlap (a n b m : Nat) : Bool := decide (0 < n) && decide (0 < m) && decide (a < b + m) && decide (b < a + n)

/-- The regions of the device lie in the fast tier outside the tier cache, apart from each other and from the staging pool
(R533). -/
def MemSys.regionsOk (ms : MemSys) : Bool :=
  let top := 768 * gb - ms.tcsize * gb
  (ms.shdSize == 0 || decide (ms.shdBase + ms.shdSize ≤ top)) && (ms.rmdSize == 0 || decide (ms.rmdBase + ms.rmdSize ≤ top)) &&
    !overlap ms.shdBase ms.shdSize ms.rmdBase ms.rmdSize && !overlap ms.shdBase ms.shdSize ms.stgBase ms.stgSize &&
    !overlap ms.rmdBase ms.rmdSize ms.stgBase ms.stgSize

/-- REJ of MEMSTAT. -/
def State.reject (s : State) : State := s.modMs (fun m => { m with rej := true })

/-- A write of SHDBASE, SHDSIZE, RMDBASE or RMDSIZE (R533). -/
def State.setRegion (s : State) (f : MemSys → MemSys) : State :=
  if f s.ms = s.ms then s else if s.inUse || !(f s.ms).regionsOk then s.reject else s.modMs f

/-- A write of STGBASE or STGSIZE, which may not bring the staging pool onto a region (R533). -/
def State.setStaging (s : State) (f : MemSys → MemSys) : State := if (f s.ms).regionsOk then s.modMs f else s.reject

/-! ### Neighbour refresh (R529, R530) -/

/-- The seed of a pseudo-channel under NRTEST (R530). -/
def testSeed (seed : DWord) (pc : Nat) : Word :=
  let w := seed.extractLsb' 0 32 ^^^ BitVec.ofNat 32 (pc * 0x9E3779B9)
  if w = 0 then 1 else w

/-- The generators take new seeds: from NRSEED under NRTEST, else random ones (R530; assumption log 3). -/
def State.reseed (s : State) : State :=
  if s.ms.nrtest then s.modMs (fun m => { m with nrgen := (List.range 768).map (fun pc => (pc, testSeed m.nrseed pc)) })
  else
    { s with fresh := s.fresh + 768 }.modMs (fun m =>
      { m with nrgen := (List.range 768).map (fun pc => (pc, Config.freeWord (s.fresh + pc))) })

/-- One step of a generator (R529). -/
def nrStep (w : Word) : Word := (w >>> 1) ^^^ (if w.getLsbD 0 then 0x80200003 else 0)

/-- ROW_ACTIVATE (R529). -/
def execRowActivate (pc bank row : Nat) (s : State) : Result :=
  .next (if 768 ≤ pc then s
  else
    let w := nrStep (s.ms.nrgen.getD pc 0)
    s.modMs (fun m => { m with
      nrgen := m.nrgen.set pc w
      refreshed := m.refreshed ++ (if w.toNat % 2 ^ m.nrk = 0 then
        (if 0 < row then [(pc, bank, row - 1)] else []) ++ [(pc, bank, row + 1)] else []) }))

/-- NRSEED (R530). -/
def execNrseed (port : Nat) (val : DWord) (s : State) : Result :=
  .next (s.guarded port 4 (fun s => (s.modMs (fun m => { m with nrseed := val })).reseed))

/-! ### MEMCFG (R532, R533) -/

/-- NRK and NRTEST take effect at once; NRTEST from 0 to 1 seeds the generators (R530, R533). -/
def State.setRefresh (s : State) (v : Nat) : State :=
  let was := s.ms.nrtest
  let k := bits v 19 4
  let s := s.modMs (fun m => { m with nrtest := bit v 23, nrk := if 4 ≤ k ∧ k ≤ 12 then k else m.nrk })
  if bit v 23 ∧ ¬was then s.reseed else s

/-- MEMCFG (R532, R533): a change of TCSIZE or ILV starts, or is refused. -/
def execMemcfg (port : Nat) (val : DWord) (s : State) : Result :=
  .next (s.guarded port 4 (fun s =>
    let v := val.toNat
    let c : MemChange := { tcsize := bits v 9 9, ilv := bit v 0 }
    if 256 < c.tcsize ∨ ¬({ s.ms with tcsize := c.tcsize }).regionsOk then s.reject
    else if c.tcsize = s.ms.tcsize ∧ c.ilv = s.ms.ilv then s.setRefresh v
    else if s.inUse ∨ s.ms.change.isSome then (s.setRefresh v).reject
    else (s.setRefresh v).modMs (fun m => { m with change := some c })))

/-- Every fast-tier byte outside the tier cache is written 0 (R533). -/
def State.zeroFast (s : State) (top : Nat) : State :=
  { s with
    mem := s.mem.filter (fun c => !(isFastPa c.1 && decide (c.1 < top)))
    lineKey := s.lineKey.filter (fun e => !(isFastPa (e.1 * 128) && decide (e.1 * 128 < top)))
    shadows := s.shadows.filter (fun e => !(isFastPa e.1 && decide (e.1 < top))) }

/-- MEMCFG_CHANGE_COMPLETE (R533): the tier cache is written back and resized, then an ILV change clears the fast tier. -/
def execMemcfgChangeComplete (s : State) : Result :=
  .next (match s.ms.change with
  | none => s
  | some c =>
    let moved := c.ilv ≠ s.ms.ilv
    let s := s.modMs (fun m => { m with
      change := none, ilv := c.ilv, tcsize := c.tcsize, tcache := if c.tcsize = m.tcsize then m.tcache else [] })
    if moved then s.zeroFast (768 * gb - c.tcsize * gb) else s)

/-! ### Invalidations (R524) -/

/-- TLBINVC (R524). -/
def execTlbinvc (port : Nat) (val : DWord) (s : State) : Result :=
  .next (s.guarded port 4 (fun s =>
    let v := val.toNat
    s.modMs (fun m => { m with
      tlbinvc := val
      inval := m.inval ++
        [{ asid := bits v 0 12, all := bit v 12, unit := m.tlbinva.toNat / 65536, count := bits v 16 32 }] })))

/-- INVALIDATION_COMPLETE (R524): the oldest one has completed; what it covers is kept no more, but for leases. -/
def execInvalidationComplete (s : State) : Result :=
  .next (match s.ms.inval with
  | [] => s
  | i :: is => (s.dropKept i).modMs (fun m => { m with inval := is }))

/-! ### Keys (R516, R531) -/

/-- The key pair that the eight double words of KEYDATA hold, data key first. -/
def keyPair (buf : Map DWord) : BitVec 512 := BitVec.ofNat 512 (leNat ((List.range 8).flatMap (fun i => leBytes 8 (buf.getD i 0).toNat)))

/-- KEYDATA (R531): the write of 0x0088 loads slot KEYSEL. -/
def execKeydata (port off : Nat) (val : DWord) (s : State) : Result :=
  .next (if off < 0x50 ∨ 0x88 < off ∨ off % 8 ≠ 0 then s
  else
    s.guarded port 4 (fun s =>
      let s := s.modMs (fun m => { m with keyBuf := m.keyBuf.put 0 ((off - 0x50) / 8) val })
      if off = 0x88 then
        { s.modMs (fun m => { m with keys := m.keys.put 0 m.keysel (keyPair m.keyBuf) }) with
          pkg := { s.pkg with loaded := if s.pkg.loaded.contains s.ms.keysel then s.pkg.loaded else s.pkg.loaded ++ [s.ms.keysel] } }
      else s))

end Sys2Proof.Machine
end

