-- ==== Sys2Proof/Machine/Partition.lean ====
section
/-! DEFINITION. Partitions: changes of k (spec/01_machine.md R12 to R14, spec/11_helm.md R430, R461), partition halt, the
shadow swap, the slow path and resume (R458 to R460, spec/03_sequencer.md R173, R174). -/

namespace Sys2Proof.Machine

/-! ### k (R12, R14, R430) -/

/-- PARTK (R430): the k that the host asks for; a field above 8 is ignored. -/
def execPartk (port : Nat) (val : DWord) (s : State) : Result :=
  .next (s.guarded port 0 (fun s =>
    let ask := fun (s : State) (die v : Nat) => if 8 < v then s else s.modHelm (fun h => { h with want := h.want.put 0 die v })
    ask (ask s 0 (bits val.toNat 0 4)) 1 (bits val.toNat 8 4)))

/-- K_CHANGE_APPLY (R14, R458, R461): once no moving column has a resident group or a queued team, and no partition of the
die is halted. DESIGN CHOICE (assumption log 33): a team that was in the dispatch queue of a core of a moving column before the
move still starts there, and the change waits for it. -/
def execKChangeApply (die : Nat) (s : State) : Result :=
  .next (
    let cores := (List.range 48).map (fun c => die * 48 + c)
    if 2 ≤ die ∨ s.k die = s.kWant die ∨ (s.part (2 * die)).halt ≠ .run ∨ (s.part (2 * die + 1)).halt ≠ .run ∨
        cores.any (fun c => s.moving c && (!(s.groupsOn c).isEmpty || !(s.core c).dispatchQ.isEmpty)) then s
    else s.modHelm (fun h => { h with k := h.k.put 0 die (s.kWant die) }))

/-! ### PHALT (R458) -/

/-- A halt or resume of the partition is in progress. -/
def Part.busy (p : Part) : Bool :=
  match p.halt with
  | .run => false
  | .halting => true
  | .halted => true
  | .shadow => p.resuming || p.swapOut

/-- What PHALT reads (R458). -/
def State.phaltValue (s : State) : Nat :=
  (List.range 4).foldl (fun n p => n + b2n (decide ((s.part p).halt ≠ .run)) * 2 ^ p) 0 + s.helm.partQ * 2 ^ 16

/-- A halt or a resume starts; one that asks for what stands already does nothing. -/
def Part.start (p : Part) (halt swap : Bool) (q : Nat) : Part :=
  match p.halt, halt with
  | .run, true => { p with halt := .halting, swapOut := swap, partQ := q }
  | .shadow, false => { p with resuming := true, partQ := q }
  | _, _ => p

/-- A write for one partition: at once, or after what is in progress. -/
def Part.ask (p : Part) (halt swap : Bool) (q : Nat) : Part :=
  if p.busy then { p with next := p.next ++ [(halt, swap, q)] } else p.start halt swap q

/-- What was written meanwhile starts, as soon as nothing is in progress. -/
def Part.goOn (p : Part) : Nat → Part
  | 0 => p
  | fuel + 1 =>
    if p.busy then p
    else
      match p.next with
      | [] => p
      | (h, w, q) :: ns => (({ p with next := ns } : Part).start h w q).goOn fuel

/-- PHALT (R458). -/
def execPhalt (port : Nat) (val : DWord) (s : State) : Result :=
  .next (s.guarded port 0 (fun s =>
    let v := val.toNat
    let q := bits v 16 6
    let s := s.modHelm (fun h => { h with partQ := q })
    (List.range 4).foldl (fun (s : State) p => s.modPart p (fun x => x.ask (bit v p) (bit v (8 + p)) q)) s))

/-- The PART event of a halt or resume that has completed; none when its queue is not in use (R436, R458). -/
def State.partEvent (s : State) (q : Nat) : State :=
  if (s.queue q).en then s.postOpen q 8 none none (some (BitVec.ofNat 64 s.phaltValue)) none 0 else s

/-! ### Halting (R173, R225, R380, R459) -/

/-- Everything that a halting core lets finish has finished: register writes and stores of its groups, and its commands but
for the loops that stop at a step, which have nothing else behind them in ACC order (R173, R225, R314, R354, R356, R380,
R426); Meridian's go on meanwhile. -/
def State.coreQuiet (s : State) (core : Nat) : Bool :=
  s.groups.all (fun e => e.2.core != core || e.2.st == .ended || e.2.quiet) &&
  s.cmds.all (fun e => e.2.core != core || e.2.stops || s.awaitsKey e.2 || match e.2.work with
    | .net _ => true
    | _ => false)

/-- A halted core's groups, engines and caches: the register context goes to shadow storage, GROW requests lose their places,
tables lose their entries, and the atomic line buffer is given up (R173, R174, R225, R380). -/
def State.haltCore (s : State) (core : Nat) : State :=
  let tids := (s.teamsOn core).map Prod.fst
  let s := tids.foldl (fun (s : State) (t : Nat) => s.modTeam t Team.loseTables) s
  let s := s.modCore core (fun k => { k with growQ := [], alb := [], compass := [] })
  { s with groups := s.groups.map (fun (e : Nat × Group) =>
      if e.2.core = core ∧ e.2.inBarriers then (e.1, { e.2.interrupt with st := .halted }) else e) }

/-- PARTITION_HALT (R173, R459): the cores stop issuing; once everything in flight has finished, they have halted. -/
def execPartitionHalt (p : Nat) (s : State) : Result :=
  .next (
    let cores := s.partCores p
    if 4 ≤ p ∨ (s.part p).halt ≠ .halting then s
    else if cores.any (fun c => !(s.core c).halted) then
      cores.foldl (fun (s : State) c => s.modCore c (fun k => { k with halted := true })) s
    else if cores.all s.coreQuiet then
      (cores.foldl State.haltCore s).modPart p (fun x => { x with halt := .halted })
    else s)

/-- SHADOW_SWAP (R174, R459): the contexts are in shadow storage, and the halt has completed. -/
def execShadowSwap (p : Nat) (s : State) : Result :=
  .next (if 4 ≤ p ∨ (s.part p).halt ≠ .halted then s
    else
      let s := s.modPart p (fun x => { x with halt := .shadow, swapOut := x.swapOut && x.running.isNone })
      let s := s.partEvent (s.part p).partQ
      s.modPart p (fun x => x.goOn x.next.length))

/-- The cores of a partition issue again. -/
def State.unhalt (s : State) (p : Nat) : State :=
  let cores := s.partCores p
  let s := { s with groups := s.groups.map (fun (e : Nat × Group) =>
    if cores.contains e.2.core ∧ e.2.st = .halted then (e.1, { e.2 with st := if e.2.intrap then .handler else .resident }) else e) }
  cores.foldl (fun (s : State) c => s.modCore c (fun k => { k with halted := false })) s

/-- HALT_SLOW_PATH (R460): every halted team is written out; the cores are free, and the PHALT bit reads 0. -/
def execHaltSlowPath (p : Nat) (s : State) : Result :=
  .next (
    let x := s.part p
    let tids := (s.partCores p).flatMap (fun c => (s.teamsOn c).map Prod.fst)
    if 4 ≤ p ∨ s.pkg.trip ∨ x.halt ≠ .shadow ∨ ¬x.swapOut ∨ ¬tids.all (fun t => s.teamQuiet t && s.spadQuiet t) then s
    else
      let s := (tids.foldl (fun (s : State) t => s.swapOut t false true) s).unhalt p
      s.modPart p (fun x => ({ x with halt := .run, swapOut := false } : Part).goOn x.next.length))

/-- PARTITION_RESUME (R458, R459). -/
def execPartitionResume (p : Nat) (s : State) : Result :=
  .next (if 4 ≤ p ∨ (s.part p).halt ≠ .shadow ∨ ¬(s.part p).resuming ∨ s.pkg.trip then s
    else
      let s := (s.unhalt p).modPart p (fun x => { x with halt := .run, resuming := false, swapOut := false })
      let s := s.partEvent (s.part p).partQ
      s.modPart p (fun x => x.goOn x.next.length))

end Sys2Proof.Machine
end

