-- ==== Sys2Proof/Machine/Package.lean ====
section
/-! DEFINITION. The package (spec/14_package.md R535 to R545): bring-up, attestation, power, the governor, thermal limits;
and the write of any register of the four host windows (R430, R476, R531, R544). -/

namespace Sys2Proof.Machine

/-- The management state changed. -/
def State.modPkg (s : State) (f : Pkg → Pkg) : State := { s with pkg := f s.pkg }

/-- A guarded register of the management window, which is open before READY too (R432, R535). -/
def State.guardedMgmt (s : State) (port sem : Nat) (f : State → State) : State :=
  if 2 ≤ port then s
  else if s.helm.sems.find? sem = some port then f s
  else s.modHelm (fun h => { h with semViol := h.semViol.set port true })

/-! ### Bring-up (R535 to R538) -/

/-- An image's fields are those of its header (R536). -/
def imageSound (i : Image) : Bool :=
  i.header.length == 0x250 && leAt i.header 0 4 == i.magic.toNat && leAt i.header 4 4 == i.kind && leAt i.header 8 4 == i.svn &&
    leAt i.header 0x0C 4 == i.body.length && i.body.length % 64 == 0 && leAt i.header 0x10 64 == i.digest.toNat &&
    (i.header.drop 0x50).take 512 == i.modulus && i.signature.length == 512

/-- An image is accepted (R537). -/
def imageAccepted (i : Image) (fuse : Nat) : Bool :=
  imageSound i && i.magic == 0x4D55444E && decide (1 ≤ i.kind) && decide (i.kind ≤ 5) && decide (i.svn ≤ 63) &&
    digest i.modulus == Config.rootKeyHash && pssVerifies i.modulus i.header i.signature &&
    digest i.body == i.digest && decide (fuse ≤ i.svn)

/-- The management image first, then the others in the order of the directory (R535). -/
def bootOrder (is : List Image) : List Image := is.filter (fun i => i.kind == 1) ++ is.filter (fun i => i.kind != 1)

/-- The population a board may have (R513). -/
def boardOk (b : Board) : Bool :=
  decide (b.lpddrGb ≤ 256) && decide (b.cxlGb.length ≤ 8) && b.cxlGb.all (fun g => decide (g ≤ 3584))

/-- The machine as RESET# leaves it: memory keeps what it stores, lines in plaintext written back under their keys; fuses
and junction temperatures stay (assumption log 41). -/
def State.powerOn (s : State) : State :=
  let s := s.lineKey.foldl (fun s e => s.retag 0 e.1) s
  { State.reset with
    mem := s.mem
    agenda := s.agenda
    fresh := s.fresh
    uid := s.uid
    pkg := { Pkg.reset with fuse := s.pkg.fuse, temp := s.pkg.temp } }

/-- RESET (R535 to R538): bring-up, which a rejected image, or a directory without management firmware, stops. -/
def execReset (board : Board) (s : State) : Result :=
  .next (if ¬boardOk board then s
  else
    let s := s.powerOn
    let fail := fun (k : Nat) => s.modPkg (fun p => { p with fail := true, stage := k % 16 })
    let is := bootOrder board.images
    match is.head? with
    | none => fail 1
    | some m =>
      if m.kind ≠ 1 then fail 1
      else
        match is.find? (fun i => !imageAccepted i s.pkg.fuse) with
        | some i => fail i.kind
        | none =>
          let s := s.modMs (fun x => { x with
            lpddrMask := board.lpddrChannels, lpddrGb := board.lpddrGb, cxlGb := board.cxlGb })
          s.reseed.modPkg (fun p => { p with
            ready := true
            fuse := max p.fuse m.svn
            digests := is.foldl (fun (d : Map (BitVec 512)) i =>
              d.set i.kind (digest (i.header ++ List.replicate 432 0 ++ i.body))) [] }))

/-! ### Attestation (R539) -/

/-- HID (R430); bit 24 names the port it is read through, which a report does not have. -/
def hid (port : Bool) : Nat := 0x4832 + 0x10000 + b2n port * 2 ^ 24

/-- MEMCFG as it reads (R532). -/
def MemSys.cfgValue (m : MemSys) : Nat := b2n m.nrtest * 2 ^ 23 + m.nrk * 2 ^ 19 + m.tcsize * 2 ^ 9 + b2n m.ilv

/-- CHPOL as it reads (R388). -/
def Chart.pol (k : Chart) : Nat := b2n k.scrub * 2 + b2n k.lowStrict

/-- What the configuration hash covers: MEMCFG, CHPOL of both dies, MERCFG, then ENC and KEYSLOT of every ASID; how it is
laid out is not stated (assumption log 41). -/
def State.configBytes (s : State) : List Byte :=
  leBytes 8 s.ms.cfgValue ++ leBytes 4 (s.chart 0).pol ++ leBytes 4 (s.chart 1).pol ++ leBytes 8 s.mer.cfg.toNat ++
    (List.range 4096).flatMap (fun i =>
      let e := s.asidEntry i
      leBytes 2 (bits e 64 12 + b2n (bit e 47) * 2 ^ 12))

/-- The report but for its signature (R539); bit 24 of its HID is open. -/
def State.reportBody (s : State) : List Byte :=
  leBytes 4 1 ++ leBytes 4 (hid (Config.freeBool s.fresh)) ++ leBytes 16 Config.serialNumber.toNat ++ leBytes 8 s.pkg.fuse ++
    (List.range 8).flatMap (fun i => leBytes 8 (s.pkg.nonce.getD i 0).toNat) ++
    (List.range 5).flatMap (fun i => leBytes 64 (s.pkg.digests.getD (i + 1) 0).toNat) ++
    leBytes 64 (digest s.configBytes).toNat ++
    leBytes 512 (s.pkg.loaded.foldl (fun a k => a + 2 ^ k) 0) ++ List.replicate 32 0

/-- ATTCTL (R539): a request, unless one is being served. -/
def execAttctl (port : Nat) (val : DWord) (s : State) : Result :=
  .next (s.guardedMgmt port 4 (fun s =>
    if val.getLsbD 0 ∧ ¬s.pkg.attBusy then s.modPkg (fun p => { p with attBusy := true, attDone := false }) else s))

/-- ATTESTATION_REPORT_DONE (R539). -/
def execAttestationReportDone (s : State) : Result :=
  .next (if s.pkg.attBusy ∧ s.pkg.ready then
      let body := s.reportBody
      (s.bump.writePhys s.pkg.attaddr.toNat (body ++ Config.deviceSignature body)).modPkg
        (fun p => { p with attBusy := false, attDone := true })
    else s)

/-! ### Power and the governor (R540 to R542, R545) -/

/-- PCLK and PCLKMAX of a partition, in MHz (R541, R544). -/
def Pkg.clock (p : Pkg) (i : Nat) : Nat := p.pclk.getD i 950
def Pkg.limit (p : Pkg) (i : Nat) : Nat := p.pclkmax.getD i 1900

/-- A partition is ACTIVE: it works, and is not halted (R540). -/
def State.active (s : State) (p : Nat) : Bool := s.pkg.power.getD p .idle == .active && (s.part p).halt == .run

/-- The partition that comes first among some, by a measure; ties to the lowest number (R541). -/
def firstBy (before : Nat → Nat → Bool) (ps : List Nat) : Option Nat :=
  ps.foldl (fun (b : Option Nat) p =>
    match b with
    | none => some p
    | some x => some (if before p x then p else x)) none

/-- A clock set. -/
def State.setClock (s : State) (p mhz : Nat) : State := s.modPkg (fun k => { k with pclk := k.pclk.put 950 p mhz })

/-- GOVERNOR_INTERVAL (R541, R543, R545): the last interval's power, in 0.1 W. -/
def execGovernorInterval (power : Nat) (s : State) : Result :=
  .next (if s.pkg.trip then s
  else
    let s := s.modPkg (fun p => { p with pwrnow := power })
    let s := (List.range 4).foldl (fun s p => if s.pkg.limit p < s.pkg.clock p then s.setClock p (s.pkg.limit p) else s) s
    let act := (List.range 4).filter s.active
    if ¬s.pkg.hotDies.isEmpty ∨ s.pkg.plimit * 10 < power then
      match firstBy (fun a b => decide (s.pkg.clock b < s.pkg.clock a)) act with
      | some p =>
        if s.pkg.clock p ≤ 950 then s.modPkg (fun k => { k with floor := true })
        else s.setClock p (max 950 (s.pkg.clock p - 50))
      | none => s.modPkg (fun k => { k with floor := true })
    else if power < s.pkg.plimit * 10 - 250 then
      match firstBy (fun a b => decide (s.pkg.clock a < s.pkg.clock b)) (act.filter (fun p => decide (s.pkg.clock p < s.pkg.limit p))) with
      | some p => s.setClock p (s.pkg.clock p + 50)
      | none => s
    else s)

/-- PLIMIT (R541). -/
def execPlimit (port : Nat) (val : DWord) (s : State) : Result :=
  .next (s.guardedMgmt port 0 (fun s => s.modPkg (fun p => { p with plimit := min 2400 (max 600 val.toNat) })))

/-- PCLKMAX (R544). -/
def execPclkmax (port p : Nat) (val : DWord) (s : State) : Result :=
  .next (if 4 ≤ p then s else s.guardedMgmt port 0 (fun s =>
    if val.toNat % 50 = 0 ∧ 950 ≤ val.toNat ∧ val.toNat ≤ 1900 then
      s.modPkg (fun k => { k with pclkmax := k.pclkmax.put 1900 p val.toNat })
    else s))

/-- PWRCTL (R540): OFF written 0 brings partitions that are OFF back to IDLE. -/
def execPwrctl (port : Nat) (val : DWord) (s : State) : Result :=
  .next (s.guardedMgmt port 0 (fun s => s.modPkg (fun p => { p with
    pwrOff := val.getLsbD 0
    power := if val.getLsbD 0 then p.power else p.power.filter (fun e => e.2 ≠ PState.off) })))

/-- No group is resident in a partition. -/
def State.vacant (s : State) (p : Nat) : Bool := (s.partCores p).all (fun c => (s.groupsOn c).isEmpty && (s.teamsOn c).isEmpty)

/-- PARTITION_IDLE (R540). -/
def execPartitionIdle (p : Nat) (s : State) : Result :=
  .next (if p < 4 ∧ s.active p ∧ s.vacant p then s.modPkg (fun k => { k with power := k.power.put .idle p .idle }) else s)

/-- PARTITION_OFF (R540): the rail is off, and the cores' SPAD, WBUF, ACC and caches are empty. -/
def execPartitionOff (p : Nat) (s : State) : Result :=
  .next (if p < 4 ∧ s.pkg.pwrOff ∧ s.pkg.power.getD p .idle = .idle ∧ (s.part p).halt = .run ∧ s.vacant p ∧
      ¬s.cmds.any (fun e => (s.partCores p).contains e.2.core) then
    let s := (s.partCores p).foldl (fun s c => s.modCore c (fun k => { k with
      spad := [], wbuf := [], wbufTag := [], acc := [], accMode := [], accTag := [], recCache := [], opCache := [], alb := [],
      compass := [] })) s
    s.modPkg (fun k => { k with power := k.power.put .idle p .off })
  else s)

/-! ### Thermal limits (R543) -/

/-- THERMAL_HOT (R543): a die's hottest junction, in 0.125 °C. -/
def execThermalHot (die temp : Nat) (s : State) : Result :=
  .next (if 2 ≤ die then s
  else s.modPkg (fun p => { p with
    temp := p.temp.put 0 die temp
    hot := p.hot || decide (840 ≤ temp)
    hotDies := if 840 ≤ temp then (if p.hotDies.contains die then p.hotDies else p.hotDies ++ [die])
      else if temp < 800 then p.hotDies.filter (fun d => d ≠ die) else p.hotDies }))

/-- THERMTRIP (R543): every core stops, and every grid is lost with its commands. -/
def execThermtrip (die : Nat) (s : State) : Result :=
  .next (if 2 ≤ die then s
  else
    let s := (List.range 96).foldl (fun s c => s.modCore c (fun k => { k with halted := true })) s
    { s with groups := [], teams := [], clusters := [], grids := [], cmds := [], undo := [], pkg := { s.pkg with trip := true } })

/-! ### Register writes (R430 to R433, R476, R477, R531, R544) -/

/-- What the meaning of an event makes of a state; host windows never stop the machine. -/
def after (r : Result) (s : State) : State :=
  match r with
  | .next t => t
  | _ => s

/-- Bits written 1 clear. -/
def clears (v : DWord) (b : Nat) (now : Bool) : Bool := now && !v.getLsbD b

/-- QCFG (R433): ignored while the queue holds a grid or a live request. -/
def State.setQcfg (s : State) (q v : Nat) : State :=
  if ¬(s.queueGrids q).isEmpty ∨ s.requests.any (fun e => e.2.evq == q && e.2.st.live) then s
  else s.modQueue q (fun k => { k with
    en := bit v 0, rlog := bits v 1 4, elog := bits v 5 4, prefill := bit v 9, asid := bits v 10 12, wdog := bits v 22 10 })

/-- A register of a queue (R433). -/
def queueWrite (port q off : Nat) (val : DWord) (s : State) : State :=
  match off with
  | 0x00 => s.guarded port 3 (fun s => s.modQueue q (fun k => { k with rbase := val }))
  | 0x08 => s.guarded port 3 (fun s => s.modQueue q (fun k => { k with ebase := val }))
  | 0x10 => s.guarded port 3 (fun s => s.setQcfg q (val.toNat % 2 ^ 32))
  | 0x14 => after (execRtail port q (val.extractLsb' 0 32) s) s
  | 0x20 => after (execEhead port q (val.extractLsb' 0 32) s) s
  | _ => s

/-- A register of a Chart block (R388). -/
def chartWrite (port die off : Nat) (val : DWord) (s : State) : State :=
  match off with
  | 0x00 => s.guarded port (1 + die) (fun s =>
      s.modChart die (fun k => { k with scrub := val.getLsbD 1, lowStrict := val.getLsbD 0 }))
  | 0x08 => s.guarded port (1 + die) (fun s => s.modChart die (fun k => { k with poolBase := val }))
  | 0x10 => s.guarded port (1 + die) (fun s => s.modChart die (fun k => { k with keyBase := val }))
  | 0x18 =>
    let s := s.guarded port (1 + die) (fun s => s.modChart die (fun k => { k with rej := clears val 1 k.rej }))
    if val.getLsbD 0 then after (execChcfgReload port die s) s else s
  | _ => s

/-- A register of the main window (R430). -/
def mainWrite (port off : Nat) (val : DWord) (s : State) : State :=
  if off = 0x08 then
    if s.open port then s.modHelm (fun h => { h with semViol := h.semViol.put false port (clears val 0 (h.semViol.getD port false)) })
    else s
  else if off = 0x10 then after (execPartk port val s) s
  else if off = 0x18 then after (execPhalt port val s) s
  else if off = 0x20 then s.guarded port 4 (fun s => s.modHelm (fun h => { h with btBase := h.btBase.put 0 0 val }))
  else if off = 0x28 then s.guarded port 4 (fun s => s.modHelm (fun h => { h with btSize := h.btSize.put 0 0 val }))
  else if off = 0x30 then s.guarded port 4 (fun s => s.modHelm (fun h => { h with btBase := h.btBase.put 0 1 val }))
  else if off = 0x38 then s.guarded port 4 (fun s => s.modHelm (fun h => { h with btSize := h.btSize.put 0 1 val }))
  else if off = 0x40 then s.guarded port 4 (fun s => s.modHelm (fun h => { h with savBase := val }))
  else if off = 0x48 then s.guarded port 4 (fun s => s.modHelm (fun h => { h with savSize := val }))
  else if 0x100 ≤ off ∧ off < 0x180 ∧ off % 8 = 0 then after (execSemaphoreWrite port ((off - 0x100) / 8) val s) s
  else if 0x1000 ≤ off ∧ off < 0x2000 then chartWrite port 0 (off - 0x1000) val s
  else if 0x2000 ≤ off ∧ off < 0x3000 then chartWrite port 1 (off - 0x2000) val s
  else if 0x10000 ≤ off ∧ off < 0x11000 then queueWrite port ((off - 0x10000) / 64) (off % 64) val s
  else s

/-- A register of the Meridian window (R476, R477). -/
def meridianWrite (port off : Nat) (val : DWord) (s : State) : State :=
  let g := fun (f : Mer → Mer) => s.guarded port 1 (fun s => s.modMer f)
  if off = 0x00 then g (fun m => { m with mepid := val.toNat % 65536 })
  else if off = 0x08 then g (fun m => { m with cfg := val &&& 0x7FFFFFFFF })
  else if off = 0x10 then
    if s.open port then s.modMer (fun m => { m with
      stall := clears val 1 m.stall, abandon := clears val 2 m.abandon, rej := clears val 3 m.rej })
    else s
  else if 0x20 ≤ off ∧ off < 0xA0 ∧ off % 8 = 0 then g (fun m => { m with spaces := m.spaces.put 0 ((off - 0x20) / 8) (val &&& 0x1FFF) })
  else if 0x100 ≤ off ∧ off < 0x500 ∧ off % 16 = 0 then
    let q := (off - 0x100) / 16
    s.guarded port (if q < 32 then 1 else 2) (fun s => s.modMer (fun m => { m with qbase := m.qbase.put 0 q val }))
  else if 0x100 ≤ off ∧ off < 0x500 ∧ off % 16 = 8 then after (execMqcfg port ((off - 0x108) / 16) val s) s
  else if off = 0x800 then after (execMroute port val s) s
  else if off = 0x808 then g (fun m => { m with mexpose := val })
  else if off = 0x810 then g (fun m => { m with mrepset := val })
  else if off = 0x818 then g (fun m => { m with errBase := val })
  else if off = 0x820 then g (fun m => { m with errSize := val })
  else if off = 0x828 then (if s.open port then s.modMer (fun m => { m with errHead := val }) else s)
  else s

/-- A register of the memory window (R531, R533); bases and sizes hold multiples of 64 KiB. -/
def memoryWrite (port off : Nat) (val : DWord) (s : State) : State :=
  let g := fun (f : MemSys → MemSys) => s.guarded port 4 (fun s => s.modMs f)
  let v := val.toNat / 65536 * 65536
  if off = 0x00 then after (execMemcfg port val s) s
  else if off = 0x08 then
    if s.open port then s.modMs (fun m => { m with rej := clears val 2 m.rej, paerr := clears val 3 m.paerr }) else s
  else if off = 0x18 then g (fun m => { m with asidBase := val &&& 0x3FFFFFFF0001 })
  else if off = 0x20 then s.guarded port 4 (fun s => s.setStaging (fun m => { m with stgBase := v }))
  else if off = 0x28 then s.guarded port 4 (fun s => s.setStaging (fun m => { m with stgSize := v }))
  else if off = 0x30 then g (fun m => { m with tlbinva := val })
  else if off = 0x38 then after (execTlbinvc port val s) s
  else if off = 0x40 then after (execNrseed port val s) s
  else if off = 0x48 then g (fun m => { m with keysel := val.toNat % 4096 })
  else if 0x50 ≤ off ∧ off < 0x90 then after (execKeydata port off val s) s
  else if off = 0x90 then g (fun m => { m with hpasid := m.hpasid.put 0 0 (val &&& 0x1FFF) })
  else if off = 0x98 then g (fun m => { m with hpasid := m.hpasid.put 0 1 (val &&& 0x1FFF) })
  else if off = 0x150 then s.guarded port 4 (fun s => s.setRegion (fun m => { m with shdBase := v }))
  else if off = 0x158 then s.guarded port 4 (fun s => s.setRegion (fun m => { m with shdSize := v }))
  else if off = 0x160 then s.guarded port 4 (fun s => s.setRegion (fun m => { m with rmdBase := v }))
  else if off = 0x168 then s.guarded port 4 (fun s => s.setRegion (fun m => { m with rmdSize := v }))
  else s

/-- A register of the management window (R544). -/
def mgmtWrite (port off : Nat) (val : DWord) (s : State) : State :=
  if off = 0x08 then after (execPlimit port val s) s
  else if 0x10 ≤ off ∧ off < 0x30 ∧ off % 8 = 0 then after (execPclkmax port ((off - 0x10) / 8) val s) s
  else if off = 0x58 then
    if port < 2 then s.modPkg (fun p => { p with floor := clears val 0 p.floor, hot := clears val 1 p.hot }) else s
  else if off = 0x70 then after (execPwrctl port val s) s
  else if 0x80 ≤ off ∧ off < 0xC0 ∧ off % 8 = 0 then
    s.guardedMgmt port 4 (fun s => s.modPkg (fun p => { p with nonce := p.nonce.put 0 ((off - 0x80) / 8) val }))
  else if off = 0xC0 then s.guardedMgmt port 4 (fun s => s.modPkg (fun p => { p with attaddr := val }))
  else if off = 0xC8 then after (execAttctl port val s) s
  else s

/-- REGISTER_WRITE (R430, R476, R531, R544): a host port writes a register of a window; what a window does not list
ignores it. -/
def execRegisterWrite (port : Nat) (win : Window) (off : Nat) (val : DWord) (s : State) : Result :=
  .next (match win with
  | .main => mainWrite port off val s
  | .meridian => meridianWrite port off val s
  | .memory => memoryWrite port off val s
  | .mgmt => mgmtWrite port off val s)

end Sys2Proof.Machine
end

