-- ==== Sys2Proof/Machine/Select.lean ====
section
/-! DEFINITION. Meanings of the select unit and the counter-based generator: SELK.LD, SELK.RUN, SELK.RD
(spec/06_float.md R274 to R280, R283) and RNGX (R281, R282). -/

namespace Sys2Proof.Machine

/-! ### Fields (R275) -/

/-- The geometry word: ROWS, COLS, K = min(KSEL, ROWS) and DESC (R274, R275). -/
structure SelGeom where
  rows : Nat
  cols : Nat
  k : Nat
  desc : Bool
deriving DecidableEq, Repr

/-- A geometry word's fields (R275). -/
def selGeom (w : Word) : SelGeom :=
  let n := w.toNat
  let rows := bits n 0 11 + 1
  { rows := rows, cols := bits n 11 5 + 1, k := min (bits n 16 11 + 1) rows, desc := bit n 27 }

/-- COLUMN and BLOCK of a slot word (R275). -/
def selSlot (w : Word) : Nat × Nat := (bits w.toNat 8 5, bits w.toNat 0 6)

/-- The generic SPAD address of an offset from a select area (R180, R274). -/
def selAddr (loc : Word) (off : Nat) : DWord := BitVec.ofNat 64 (0xFE * 2 ^ 56 + loc.toNat + off)

/-- The locator checks of R280 before lanes' accesses of the area, which check their own reach. -/
def selLocate (c : Ctx) (s : State) (loc : Word) (k : State) : State :=
  match locateTeam c s loc 128 true with
  | .error t => takeTrap c t s
  | .ok _ => k

/-- SELK.LD (R277, R279): a plain ST.W by each participating lane. -/
def execSelkLd (a loc slot : Reg) (g : Guard) (s : State) : Result :=
  issue (.selkLd a loc slot g) s (fun c s =>
    selLocate c s (c.uni loc) (
      let cb := selSlot (c.uni slot)
      let addr := fun l => selAddr (c.uni loc) (128 * (32 * cb.2 + l) + 4 * cb.1)
      if fifoRoom c.grp then
        access c s c.act addr 4 .write .write true false false (fun s =>
          retire c (pushStore c.gid ((lanesIn c.act).flatMap (fun l =>
            (lanePlaces c s addr 4 .write l).zip (leBytes 4 (c.rd a l).toNat))) s))
      else s))

/-- Whether row `x` ranks before row `y` under R278. -/
def rowBefore (desc : Bool) (key : Nat → FVal) (x y : Nat) : Bool :=
  match (key x).isNan, (key y).isNan with
  | true, true => decide (x < y)
  | true, false => false
  | false, true => true
  | false, false =>
    let o := cmpF (key x) (key y)
    if o = 0 then decide (x < y) else if desc then decide (o < 0) else decide (0 < o)

/-- A row put into its place among ranked rows. -/
def rankInsert (before : Nat → Nat → Bool) (x : Nat) : List Nat → List Nat
  | [] => [x]
  | y :: ys => if before x y then x :: y :: ys else y :: rankInsert before x ys

/-- Rows 0 to n − 1 in rank order (R278). -/
def ranked (before : Nat → Nat → Bool) (n : Nat) : List Nat := (List.range n).foldr (rankInsert before) []

/-- The words that SELK.RUN writes: offset and value (R277). `key r c` is the key at row r, column c. -/
def selectWords (q : SelGeom) (key : Nat → Nat → FVal) : List (Nat × Nat) :=
  let order := (List.range q.cols).map (fun c => (ranked (rowBefore q.desc (fun r => key r c)) q.rows).take q.k)
  let ranks := ((List.range q.cols).zip order).flatMap (fun e =>
    ((List.range q.k).zip e.2).map (fun ir => (128 * (q.rows + ir.1) + 4 * e.1, ir.2)))
  let masks := (List.range q.rows).map (fun r =>
    (128 * (q.rows + q.k) + 4 * r,
     ((List.range q.cols).zip order).foldl (fun m e => if e.2.contains r then m + 2 ^ e.1 else m) 0))
  ranks ++ masks

/-- Offsets of the key words that SELK.RUN reads (R283). -/
def keyOffsets (q : SelGeom) : List Nat :=
  (List.range q.rows).flatMap (fun r => (List.range q.cols).map (fun c => 128 * r + 4 * c))

/-- The accesses of SELK.RUN on its core's SPAD, for the race trap (R211, R283). -/
def runAccesses (c : Ctx) (core base : Nat) (q : SelGeom) : List Access :=
  let word := fun (k : AccessKind) (off : Nat) =>
    (List.range 4).map (fun j => Access.mk (.byte (.spad core, base + off + j)) c.grp.ggid k)
  (keyOffsets q).flatMap (word .read) ++ (selectWords q (fun _ _ => oneF)).flatMap (fun e => word .write e.1)

/-- SELK.RUN (R277 to R280): once the group's FIFO has drained and no engine owns a sector of the area. -/
def execSelkRun (loc geom : Reg) (g : Guard) (s : State) : Result :=
  issue (.selkRun loc geom g) s (fun c s =>
    let q := selGeom (c.uni geom)
    match locate c s (c.uni loc) (128 * (q.rows + q.k) + 4 * q.rows) 128 true with
    | .error t => takeTrap c t s
    | .ok p =>
      let as := if c.reckon then runAccesses c p.1 p.2 q else []
      match raceOnce c s as (fun b => selAddr (c.uni loc) (b.2 - p.2)) with
      | some t => takeTrap c t s
      | none =>
        let sectors := (List.range ((4 * q.rows + 128 * (q.rows + q.k) + 31) / 32)).map (fun k =>
          ((.spad p.1, p.2 + 32 * k) : Place))
        if ¬ c.grp.fifo.isEmpty ∨ sectors.any s.owned then s
        else
          let s := if c.reckon then s.record c.team.cluster as else s
          let sp := (s.core p.1).spad
          let words := selectWords q (fun r k => fval (BitVec.ofNat 32 (sp.nat (p.2 + 128 * r + 4 * k) 4)))
          retire c (c.marks ((s.performed c.grp.core sectors).putBytes (words.flatMap (fun e =>
            (List.range 4).zip (leBytes 4 e.2) |>.map (fun jb => ((.spad p.1, p.2 + e.1 + jb.1), jb.2)))))))

/-- What lane `l` of SELK.RD reads: the offset of its word, or the value it takes without one (R277). -/
def selRead (mask : Bool) (q : SelGeom) (cb : Nat × Nat) (l : Nat) : Except Word Nat :=
  let i := 32 * cb.2 + l
  if mask then (if i < q.rows then .ok (128 * (q.rows + q.k) + 4 * i) else .error 0)
  else if i < q.k ∧ cb.1 < q.cols then .ok (128 * (q.rows + i) + 4 * cb.1) else .error 0xFFFFFFFF

/-- SELK.RD (R277, R279): a plain LD.W by each participating lane that reads a word. -/
def execSelkRd (mask : Bool) (d loc geom slot : Reg) (g : Guard) (s : State) : Result :=
  issue (.selkRd mask d loc geom slot g) s (fun c s =>
    selLocate c s (c.uni loc) (
      let q := selGeom (c.uni geom)
      let cb := selSlot (c.uni slot)
      let what := selRead mask q cb
      let reads := fun l => match what l with
        | .ok _ => true
        | .error _ => false
      let addr := fun l => match what l with
        | .ok off => selAddr (c.uni loc) off
        | .error _ => 0
      access c s (maskOfLanes (fun l => laneIn c.act l && reads l)) addr 4 .read .read true false true (fun s =>
        retire c (addPend c.gid (regCodes (d, 1)) (writeReg c d (fun l => match what l with
          | .ok _ => BitVec.ofNat 32 (s.loadNat c.grp.fifo (lanePlaces c s addr 4 .read l))
          | .error w => w) s)))))

/-! ### RNGX (R282) -/

/-- The counter and key of the generator. -/
abbrev Philox := (Word × Word × Word × Word) × (Word × Word)

/-- One round (R282). -/
def philoxRound (x : Philox) : Philox :=
  let c := x.1
  let k := x.2
  let p0 := c.1.toNat * 0xD2511F53
  let p1 := c.2.2.1.toNat * 0xCD9E8D57
  let hi := fun (p : Nat) => BitVec.ofNat 32 (p / 2 ^ 32)
  let lo := fun (p : Nat) => BitVec.ofNat 32 p
  ((hi p1 ^^^ c.2.1 ^^^ k.1, lo p1, hi p0 ^^^ c.2.2.2 ^^^ k.2, lo p0), (k.1 + 0x9E3779B9, k.2 + 0xBB67AE85))

/-- Ten rounds; the four words (R282). -/
def philox (c0 c1 c2 : Word) (k : Word × Word) : List Word :=
  let c := ((List.range 10).foldl (fun x _ => philoxRound x) ((c0, c1, c2, 0), k)).1
  [c.1, c.2.1, c.2.2.1, c.2.2.2]

/-- frac24 (R282). -/
def frac24 (w : Word) : Word := toF32 .rn (.fin false (w.toNat / 256) (-24))

/-- RNGX (R281, R282). -/
def execRngx (cnt : RngCount) (frac : Bool) (d a : Reg) (key : Fin 24) (cc : Reg) (stream : BitVec 8) (g : Guard)
    (s : State) : Result :=
  issue (.rngx cnt frac d a key cc stream g) s (fun c s =>
    let k := (c.uni (.s (pairLo key)), c.uni (.s (pairHi key)))
    let ws := fun l => philox (c.rd a l) (c.rd cc l) (stream.zeroExtend 32) k
    retire c ((List.range cnt.num).foldl (fun s i =>
      writeReg c (regIn d i) (fun l =>
        let w := (ws l).getD i 0
        if frac then frac24 w else w) s) s))

end Sys2Proof.Machine
end

