-- ==== Sys2Proof/Machine/Service.lean ====
section
/-! DEFINITION. Meanings of MOVS (spec/03_sequencer.md R152 to R155) and SYSC (R160), and of a soft error in a group's state
(R157). -/

namespace Sys2Proof.Machine

/-- A core's cycle counter moves on, by an amount that is open (R153; assumption log 3). -/
def State.cycleOn (s : State) (core : Nat) : State :=
  s.bump.modCore core (fun k => { k with cycle := k.cycle + 1 + (Config.freeWord s.fresh).zeroExtend 64 })

/-- TAGS of the core, bit t set for a READY tag, as of the issuer's key (R25, R153). -/
def tagsValue (c : Ctx) (s : State) : DWord :=
  tagMask ((List.range 64).filter (fun t => (tagAsOf c s t).st = .ready))

/-- Groups now in a team: those that have not exited (R153). -/
def State.groupCount (s : State) (tid : Nat) : Nat := ((s.teamGroups tid).filter (fun e => e.2.alive)).length

/-- Half of a 64-bit value. -/
def half (hi : Bool) (v : DWord) : Word := if hi then v.extractLsb' 32 32 else v.extractLsb' 0 32

/-- What lane `l` reads of a special register (R153, R154). -/
def srValue (c : Ctx) (s : State) (sr : BitVec 8) (l : Nat) : Word :=
  let g := c.grp
  let n := fun (k : Nat) => BitVec.ofNat 32 k
  match sr.toNat with
  | 0x00 => n l
  | 0x01 => n g.num
  | 0x02 => n (s.groupCount g.team)
  | 0x03 => n c.team.member
  | 0x04 => n c.cl.index
  | 0x05 => g.ggid
  | 0x06 => n (if c.reckon then c.team.member else g.core)
  | 0x07 => n (if c.reckon then g.num % 4 else g.seq)
  | 0x08 => c.sp.mask
  | 0x09 => g.live
  | 0x0A => half false g.icnt
  | 0x0B => half true g.icnt
  | 0x0C => half false g.ltime
  | 0x0D => half true g.ltime
  | 0x0E => half false (if c.reckon then g.ltime else (s.core g.core).cycle)
  | 0x0F => half true (if c.reckon then g.ltime else (s.core g.core).cycle)
  | 0x10 => half false (if c.reckon then g.ltime else s.mer.time)
  | 0x11 => half true (if c.reckon then g.ltime else s.mer.time)
  | 0x12 => half false (tagsValue c s)
  | 0x13 => half true (tagsValue c s)
  | 0x14 => n (gstat g c.reckon c.grid.record.maint)
  | 0x15 => n g.vallot
  | 0x16 => half false c.grid.record.paramPtr
  | 0x17 => half true c.grid.record.paramPtr
  | 0x18 => half false (BitVec.ofNat 64 g.saveSlot)
  | 0x19 => half true (BitVec.ofNat 64 g.saveSlot)
  | 0x1A => if c.reckon then 0 else (s.core g.core).slip.getD g.seq 0
  | 0x1B => n c.grid.asid
  | 0x1C => if c.reckon then 0 else n (s.partOf g.core)
  | _ => 0

/-- Clocks move on before they are read (R153). -/
def srClock (c : Ctx) (sr : BitVec 8) (s : State) : State :=
  if sr = 0x0E#8 ∨ sr = 0x0F#8 then s.cycleOn c.grp.core
  else if sr = 0x10#8 ∨ sr = 0x11#8 then s.tick
  else s

/-- MOVS (R153, R155). -/
def execMovs (d : Reg) (sr : BitVec 8) (g : Guard) (s : State) : Result :=
  issueAs (isTagsReg sr) (.movs d sr g) s (fun c s =>
    let s := srClock c sr s
    retire c (writeReg c d (srValue c s sr) s))

/-- SYSC (R160, R436): a notification to the grid's queue, after the group's earlier stores; STATUS of the event is open. -/
def execSysc (svc : BitVec 8) (a b : Reg) (g : Guard) (s : State) : Result :=
  issue (.sysc svc a b g) s (fun c s =>
    if svc ≠ 0 then trap c 0x01 s
    else if ¬c.grp.fifo.isEmpty then s
    else
      retire c (s.postOpen c.grid.queue 6 none (some c.grp.ggid.toNat) (some ((c.uni a).zeroExtend 64))
        (some ((c.uni b).zeroExtend 64)) 0))

/-- SRAM_SOFT_ERROR (R157): an uncorrectable error in a group's SRAM state ends its grid; no frame is written. -/
def execSramSoftError (grp : Nat) (s : State) : Result :=
  .next (match s.groups.find? grp with
  | none => s
  | some g =>
    if g.alive then
      match s.teams.find? g.team with
      | some t => (s.countMgmt 6).endGrid t.grid { status := 6, ggid := g.ggid, cause := 0, epc := 0 }
      | none => s
    else s)

end Sys2Proof.Machine
end

