-- ==== Sys2Proof/Machine/StepOps.lean ====
section
/-! DEFINITION. Meanings of SQGET, TOKEMIT, SQSTOP, SQROLL and SQYIELD (spec/11_helm.md R463 to R471). -/

namespace Sys2Proof.Machine

/-- A result of Helm: a pending write of D, and the instruction retires at acceptance (R463). -/
def helmResult (c : Ctx) (d : Reg) (w : Word) (s : State) : State :=
  retire c (addPend c.gid (regCodes (d, 1)) (writeUni c d w s))

/-- A status word (R464). -/
def helmStatus (code count : Nat) (stop : Bool) : Word := BitVec.ofNat 32 (code + count * 2 ^ 8 + b2n stop * 2 ^ 16)

/-- The checks NOSTEP, BADREQ, FAILED and ENDED, in this order: the request of a handle, or a code (R464). -/
def stepCheck (c : Ctx) (s : State) (h : Nat) : Except Nat Request :=
  if ¬(c.grid.step.map (fun x => x.2.contains h)).getD false then .error 0x60
  else
    match s.liveReq h c.grid.asid with
    | none => .error 0x63
    | some r => if r.cancel then .error 0x64 else if r.ended ∨ r.inStep.isNone then .error 0x61 else .ok r

/-- SQGET (R465): a word of a live request's record, as it stands. -/
def execSqget (d hd : Reg) (w : Fin 64) (g : Guard) (s : State) : Result :=
  issueSync (.sqget d hd w g) s (fun c s =>
    let h := (c.uni hd).toNat
    helmResult c d (match s.liveReq h c.grid.asid with
      | some r => (r.words h).getD w.val 0
      | none => 0xFFFFFFFF) s)

/-- The emission loop of R466: request, tokens written with their addresses, and whether a stop was met. -/
def emitTokens (r : Request) : List Word → Request × List (Nat × Word) × Bool
  | [] => (r, [], false)
  | t :: ts =>
    let at' := r.outAddr.toNat + 4 * r.gen
    let r := { r with gen := r.gen + 1, lastTok := t, emitted := r.emitted + 1 }
    if (r.stopset.take r.stopcnt).contains t then (r.mark 0x01, [(at', t)], true)
    else if r.gen = r.maxgen then (r.mark 0x02, [(at', t)], true)
    else
      let x := emitTokens r ts
      (x.1, (at', t) :: x.2.1, x.2.2)

/-- TOKEMIT past its locator: the checks, the token reads, the emission (R466, R470). -/
def emitEffect (c : Ctx) (d : Reg) (h n : Nat) (core off : Nat) (locator : Word) (s : State) : State :=
  match stepCheck c s h with
  | .error code => helmResult c d (helmStatus code 0 false) s
  | .ok r =>
    if n = 0 ∨ 16 < n then helmResult c d (helmStatus 0x62 0 false) s
    else
      let ps := (List.range (4 * n)).map (fun k => ((.spad core, off + k) : Place))
      let addr := BitVec.ofNat 64 (0xFE * 2 ^ 56 + 0x0F000000 + bits locator.toNat 0 21)
      spanAccess c s addr ps .read true (fun s =>
        let toks := (List.range n).map (fun i => BitVec.ofNat 32 ((s.core core).spad.nat (off + 4 * i) 4))
        let vocab := ((s.model? r.model).map (fun m => m.vocab)).getD 0
        if toks.any (fun t => decide (vocab ≤ t.toNat)) then helmResult c d (helmStatus 0x62 0 false) s
        else
          let x := emitTokens r toks
          let s := x.2.1.foldl (fun (s : State) (e : Nat × Word) => s.writeVa c.grid.asid e.1 (leBytes 4 e.2.toNat)) s
          let s := s.modReq h (fun _ => { x.1 with ended := true })
          helmResult c d (helmStatus 0 x.2.1.length x.2.2) s)

/-- TOKEMIT (R466): with a count outside 1 to 16 its locator is checked for one word (assumption log 31). -/
def execTokemit (d hd loc cnt : Reg) (g : Guard) (s : State) : Result :=
  issueSync (.tokemit d hd loc cnt g) s (fun c s =>
    let n := (c.uni cnt).toNat
    match locate c s (c.uni loc) (4 * if n = 0 ∨ 16 < n then 1 else n) 4 true with
    | .error t => takeTrap c t s
    | .ok (core, off) => if c.grp.fifo.isEmpty then emitEffect c d (c.uni hd).toNat n core off (c.uni loc) s else s)

/-- SQSTOP (R467). -/
def execSqstop (d hd reason : Reg) (g : Guard) (s : State) : Result :=
  issueSync (.sqstop d hd reason g) s (fun c s =>
    let h := (c.uni hd).toNat
    match stepCheck c s h with
    | .error code => helmResult c d (helmStatus code 0 false) s
    | .ok r => helmResult c d 0 (s.modReq h (fun _ =>
        { r.mark (BitVec.ofNat 32 (3 + bits (c.uni reason).toNat 0 24 * 256)) with ended := true })))

/-- A Chart command of a group in flight that names a request; one whose work is done counts whatever it named, for only its
completion is left (R468; assumption log 31). -/
def Cmd.namesReq (x : Cmd) (gid h : Nat) : Bool :=
  x.grp == gid && match x.work with
    | .chart k => k.op == .settled || k.op.names h
    | _ => false

/-- What SQROLL does to each entry of a block table, as `l` positions stay: entry, page, and its new FILL, or none when the
entry becomes null (R468). -/
def rollPlan (r : Request) (m : Model) (l : Nat) (s : State) : List (Nat × Nat × Option Nat) :=
  r.bt.filterMap (fun e =>
    let first := e.1 % m.maxpg * m.tok
    if l ≤ first then some (e.1, e.2, none)
    else
      match s.pages.find? e.2 with
      | some p => if l - first < p.fill then some (e.1, e.2, some (l - first)) else none
      | none => none)

/-- SQROLL's page work and KVLEN; none is RANGE (R468). -/
def State.rollBack (s : State) (h n : Nat) (r : Request) (m : Model) : Option State :=
  let l := r.kvlen - n
  let plan := rollPlan r m l s
  if plan.any (fun e => e.2.2.isSome && (s.pages.find? e.2.1).any (fun p => decide (1 < p.refcnt) || p.inserted)) then none
  else
    let s := plan.foldl (fun (s : State) (e : Nat × Nat × Option Nat) =>
      match e.2.2 with
      | some f => s.modPage e.2.1 (fun p => { p with fill := f })
      | none => (s.install h e.1 none).getD s) s
    some (s.modReq h (fun x => { x with kvlen := l, inStep := x.inStep.map (fun i => (i.1 - n, i.2)) }))

/-- SQROLL (R468): positions already rolled back in the step no longer count. -/
def execSqroll (d hd n : Reg) (g : Guard) (s : State) : Result :=
  issueSync (.sqroll d hd n g) s (fun c s =>
    let h := (c.uni hd).toNat
    let k := (c.uni n).toNat
    match stepCheck c s h with
    | .error code => helmResult c d (helmStatus code 0 false) s
    | .ok r =>
      if ((r.inStep.map (fun i => i.1)).getD 0) < k then helmResult c d (helmStatus 0x62 0 false) s
      else if s.cmds.any (fun e => e.2.namesReq c.gid h) ∨ s.chartHeld [h] (r.bt.map Prod.snd) then s
      else if k = 0 then helmResult c d 0 s
      else
        match (s.model? r.model).bind (s.rollBack h k r) with
        | some s => helmResult c d 0 s
        | none => helmResult c d (helmStatus 0x62 0 false) s)

/-- SQYIELD (R469); `.SKIP` keeps the request out of the partition's next step. -/
def execSqyield (skip : Bool) (d hd : Reg) (g : Guard) (s : State) : Result :=
  issueSync (.sqyield skip d hd g) s (fun c s =>
    let h := (c.uni hd).toNat
    match stepCheck c s h with
    | .error code => helmResult c d (helmStatus code 0 false) s
    | .ok _ =>
      let s := s.modReq h (fun r => { r with ended := true })
      let s := match skip, c.grid.step with
        | true, some (p, _) => s.modPart p (fun x => { x with skip := x.skip ++ [h] })
        | _, _ => s
      helmResult c d 0 s)

end Sys2Proof.Machine
end

