-- ==== Sys2Proof/Machine/System.lean ====
section
/-! DEFINITION. Meanings of TRAP, BKPT, ERET, CSAVE, CLOAD and MOVSW (spec/03_sequencer.md R152 to R166). -/

namespace Sys2Proof.Machine

/-- TRAP (R160). -/
def execTrap (code : BitVec 8) (g : Guard) (s : State) : Result :=
  issue (.trap code g) s (fun c s => takeTrap c { cause := 0x18, sub := code.toNat, lanes := c.act } s)

/-- BKPT (R160). -/
def execBkpt (code : BitVec 8) (g : Guard) (s : State) : Result :=
  issue (.bkpt code g) s (fun c s => takeTrap c { cause := 0x17, sub := code.toNat, lanes := c.act } s)

/-- MOVSW (R152 to R155): GSTAT's GROWZ is cleared by writing 1, SLIPCLEAR clears the sequencer's SLIP, every other
register denies the write. -/
def execMovsw (sr : BitVec 8) (a : Reg) (g : Guard) (s : State) : Result :=
  issue (.movsw sr a g) s (fun c s =>
    if sr = 0x14#8 then
      retire c (if (c.uni a).getLsbD 0 then s.modGroup c.gid (fun g => { g with growz := false }) else s)
    else if sr = 0x40#8 then retire c (s.modCore c.grp.core (fun k => { k with slip := k.slip.put 0 c.grp.seq 0 }))
    else trap c 0x0E s)

/-! ### Returning from a trap (R160) -/

/-- The lanes of a group that other splits than one, and serial stacks, hold. -/
def Group.heldLanes (g : Group) (slot : Nat) : Word :=
  g.splits.foldl (fun m e =>
    if e.1 = slot then e.2.stack.foldl (fun m x => m ||| x.2) m else m ||| e.2.lanes) 0

/-- Return from the handler: INTRAP is cleared, the split resumes at RESUMEPC with the lanes of M that SPLITMASK names and
no other split or stack holds, and the other splits are un-suspended; with no such lane the split ends (R115, R160). -/
def Group.leave (g : Group) (slot : Nat) (pc : DWord) (mask : Word) : Group :=
  let g1 := { g with intrap := false, st := .resident, splits := g.splits.map (fun e =>
    if e.1 = slot then (e.1, { e.2 with pc := pc, mask := mask, wait := .none })
    else (e.1, { e.2 with suspended := false })) }
  if mask = 0 then g1.endSplit slot else g1

/-- ERET (R160): the frame is read as the group's own loads would read it. One that ends the group's last lanes waits for its
commands in Reckoning mode and takes a trap the group owes, as EXIT does (R130, R213; assumption log 29). -/
def execEret (g : Guard) (s : State) : Result :=
  issue (.eret g) s (fun c s =>
    let at' := fun (o n : Nat) => (List.range n).map (fun k => ((.global, c.grp.saveSlot + o + k) : Place))
    let pc := BitVec.ofNat 64 (s.loadNat c.grp.fifo (at' 0x10 8))
    let mask := BitVec.ofNat 32 (s.loadNat c.grp.fifo (at' 0x20 4)) &&& c.grp.trapMask &&& ~~~c.grp.heldLanes c.slot
    if (at' 0 128).any s.owned then s.callUnits (at' 0 128)
    else if pc.toNat % 8 ≠ 0 then takeTrap c { cause := 0x04, lanes := c.act, addr := pc } s
    else
      let after := c.grp.leave c.slot pc mask
      if after.splits.isEmpty ∧ ((¬c.grp.members.isEmpty ∧ ¬c.grp.fifo.isEmpty) ∨
          (c.reckon ∧ (s.busy c.gid ∨ ¬s.smallest c.team.cluster c.grp.key))) then s
      else
        match (if after.splits.isEmpty then c.grp.owed else []) with
        | o :: _ => takeOwed c o s
        | [] =>
        let s := s.touchPlaces (some c.grp.core) (c.tag s) (at' 0 128)
        let s := (s.modGroup c.gid (fun g => (g.leave c.slot pc mask).count c.reckon 1 none)).issued c.grp.core
          c.grp.seq c.gid c.slot
        (s.lostLanes c.gid c.team.cluster c.reckon c.grp).retireGroup c.gid c.team.cluster c.reckon c.grp.key)

/-! ### Compact context images (R164 to R166) -/

/-- Bytes of a v register under an encoding code (R119, R165). -/
def vImage (code : Nat) (f : Nat → Word) : List Byte :=
  match code with
  | 0 => leBytes 4 (f 0).toNat
  | 1 => leBytes 4 (f 0).toNat ++ leBytes 4 (f 1 - f 0).toNat
  | 2 => leBytes 4 (f 0).toNat ++ (List.range 32).map (fun l => (f l - f 0).extractLsb' 0 8)
  | _ => (List.range 32).flatMap (fun l => leBytes 4 (f l).toNat)

/-- Bytes that a code takes (R165). -/
def vImageSize : Nat → Nat
  | 0 => 4
  | 1 => 8
  | 2 => 36
  | _ => 128

/-- Lane `l` of a v register read from its image (R165). -/
def vOfImage (code : Nat) (bs : List Byte) (l : Nat) : Word :=
  let w := fun k => BitVec.ofNat 32 (leNat ((bs.drop (4 * k)).take 4))
  match code with
  | 0 => w 0
  | 1 => w 0 + BitVec.ofNat 32 l * w 1
  | 2 => w 0 + (bs.getD (4 + l) 0).signExtend 32
  | _ => w l

/-- The compact image of a group (R165). -/
def imageOf (g : Group) : List Byte :=
  let v := fun n l => laneOf (g.v.getD n []) l
  let codes := (List.range g.vallot).map (fun n => encCode (v n))
  let body := ((List.range g.vallot).zip codes).flatMap (fun e => vImage e.2 (v e.1))
  leBytes 4 1 ++ leBytes 4 (0x250 + body.length) ++ leBytes 1 (g.vallot / 8) ++ List.replicate 55 0 ++
  (List.range 48).flatMap (fun n => leBytes 4 (g.s.getD n 0).toNat) ++
  (List.range 15).flatMap (fun n => leBytes 4 (g.x.getD n (0, 0)).1.toNat ++ leBytes 4 (g.x.getD n (0, 0)).2.toNat) ++
  List.replicate 8 0 ++
  (List.range 8).flatMap (fun n => leBytes 4 (if n = 0 then 0xFFFFFFFF else g.m.getD n 0 : Word).toNat) ++
  codes.map (BitVec.ofNat 8) ++ List.replicate (176 - g.vallot) 0xFF ++ body

/-- CSAVE (R164, R165): the image enters the store FIFO as the group's plain stores. -/
def execCsave (d : Reg) (p : Fin 24) (g : Guard) (s : State) : Result :=
  issue (.csave d p g) s (fun c s =>
    let addr := readPair c.grp p
    let image := imageOf c.grp
    if fifoRoom c.grp then
      match spanPlaces c s addr image.length 256 .write with
      | .error t => takeTrap c t s
      | .ok ps => spanAccess c s addr ps .write false (fun s =>
          retire c (writeUni c d (BitVec.ofNat 32 image.length) (pushStore c.gid (ps.zip image) s)))
    else s)

/-- Codes of the registers an image holds: a header's VUNITS and codes (R165). -/
def imageCodes (h : List Byte) : List Nat := ((h.drop 0x1A0).take (8 * (h.getD 8 0).toNat)).map BitVec.toNat

/-- Size of the image that a header describes: none when the header breaks R166's second check. -/
def imageSize (h : List Byte) : Option Nat :=
  let codes := imageCodes h
  let n := 0x250 + (codes.map vImageSize).sum
  if leNat (h.take 4) = 1 ∧ leNat ((h.drop 4).take 4) = n ∧ codes.all (· ≤ 3) then some n
  else none

/-- The v registers of an image, read in ascending order. -/
def imageV (codes : List Nat) (body : List Byte) : Map Lanes → Map Lanes :=
  fun v => ((codes.foldl (fun (x : Nat × List Byte × Map Lanes) code =>
    (x.1 + 1, x.2.1.drop (vImageSize code),
     x.2.2.put (lanesOf (fun _ => 0)) x.1 (lanesOf (vOfImage code x.2.1)))) (0, body, v))).2.2

/-- A group with the registers of an image (R166); m0 keeps reading as all ones. -/
def Group.restore (g : Group) (bs : List Byte) : Group :=
  let w := fun o => BitVec.ofNat 32 (leNat ((bs.drop o).take 4))
  { g with
    s := (List.range 48).foldl (fun m n => m.put 0 n (w (0x40 + 4 * n))) g.s
    x := (List.range 15).foldl (fun m n => m.put (0, 0) n (w (0x100 + 8 * n), w (0x104 + 8 * n))) g.x
    m := (List.range 7).foldl (fun m n => m.put 0 (n + 1) (w (0x184 + 4 * n))) g.m
    v := imageV (imageCodes bs) (bs.drop 0x250) g.v }

/-- CLOAD (R164, R166): the addresses first, then the header, then the allotment. The body of an image whose header is
well formed counts among the addresses (assumption log 20). -/
def execCload (p : Fin 24) (g : Guard) (s : State) : Result :=
  issue (.cload p g) s (fun c s =>
    let addr := readPair c.grp p
    match spanPlaces c s addr 0x250 256 .read with
    | .error t => takeTrap c t s
    | .ok hps =>
      let h := hps.map (s.loadByte c.grp.fifo)
      if hps.any s.owned then s.callUnits hps
      else
        match imageSize h with
        | none => takeTrap c { cause := 0x01, sub := 1, lanes := c.act } s
        | some n =>
          match spanPlaces c s addr n 256 .read with
          | .error t => takeTrap c t s
          | .ok ps =>
            if c.grp.vallot < 8 * (h.getD 8 0).toNat then trap c 0x02 s
            else spanAccess c s addr ps .read true (fun s =>
              let s := spanMarks c s addr n
              let bs := ps.map (s.loadByte c.grp.fifo)
              retire c (s.modGroup c.gid (fun g => g.restore bs))))

end Sys2Proof.Machine
end

