-- ==== Sys2Proof/Machine/Dispatch.lean ====
section
/-! DEFINITION. The dispatch: one arm a constructor of `Instr`, each one direct call of its meaning. -/

namespace Sys2Proof.Machine

def exec (i : Instr) (s : State) : Host.Outcome State Fault Refusal :=
  match i with
  | .mov d a g => Sys2Proof.Machine.execMov d a g s
  | .movImm d imm g => Sys2Proof.Machine.execMovImm d imm g s
  | .iadd m d a b g => Sys2Proof.Machine.execIadd m d a b g s
  | .iaddImm m d a imm g => Sys2Proof.Machine.execIaddImm m d a imm g s
  | .isub m d a b g => Sys2Proof.Machine.execIsub m d a b g s
  | .isubImm m d a imm g => Sys2Proof.Machine.execIsubImm m d a imm g s
  | .iand d a b g => Sys2Proof.Machine.execIand d a b g s
  | .iandImm d a imm g => Sys2Proof.Machine.execIandImm d a imm g s
  | .ior d a b g => Sys2Proof.Machine.execIor d a b g s
  | .iorImm d a imm g => Sys2Proof.Machine.execIorImm d a imm g s
  | .ixor d a b g => Sys2Proof.Machine.execIxor d a b g s
  | .ixorImm d a imm g => Sys2Proof.Machine.execIxorImm d a imm g s
  | .shl d a b g => Sys2Proof.Machine.execShl d a b g s
  | .shlImm d a imm g => Sys2Proof.Machine.execShlImm d a imm g s
  | .shr d a b g => Sys2Proof.Machine.execShr d a b g s
  | .shrImm d a imm g => Sys2Proof.Machine.execShrImm d a imm g s
  | .sar d a b g => Sys2Proof.Machine.execSar d a b g s
  | .sarImm d a imm g => Sys2Proof.Machine.execSarImm d a imm g s
  | .imin u d a b g => Sys2Proof.Machine.execImin u d a b g s
  | .iminImm u d a imm g => Sys2Proof.Machine.execIminImm u d a imm g s
  | .imax u d a b g => Sys2Proof.Machine.execImax u d a b g s
  | .imaxImm u d a imm g => Sys2Proof.Machine.execImaxImm u d a imm g s
  | .imul m d a b g => Sys2Proof.Machine.execImul m d a b g s
  | .imulImm m d a imm g => Sys2Proof.Machine.execImulImm m d a imm g s
  | .fadd r d a b g => Sys2Proof.Machine.execFadd r d a b g s
  | .faddImm r d a imm g => Sys2Proof.Machine.execFaddImm r d a imm g s
  | .fmul r d a b g => Sys2Proof.Machine.execFmul r d a b g s
  | .fmulImm r d a imm g => Sys2Proof.Machine.execFmulImm r d a imm g s
  | .fmin d a b g => Sys2Proof.Machine.execFmin d a b g s
  | .fminImm d a imm g => Sys2Proof.Machine.execFminImm d a imm g s
  | .fmax d a b g => Sys2Proof.Machine.execFmax d a b g s
  | .fmaxImm d a imm g => Sys2Proof.Machine.execFmaxImm d a imm g s
  | .pairWord p q => Sys2Proof.Machine.execPairWord p q s
  | .andn d a b g => Sys2Proof.Machine.execAndn d a b g s
  | .inot d a g => Sys2Proof.Machine.execInot d a g s
  | .rotl d a b g => Sys2Proof.Machine.execRotl d a b g s
  | .shf left d a b c g => Sys2Proof.Machine.execShf left d a b c g s
  | .imulh d a b g => Sys2Proof.Machine.execImulh d a b g s
  | .imulhu d a b g => Sys2Proof.Machine.execImulhu d a b g s
  | .imad sat d a b c g => Sys2Proof.Machine.execImad sat d a b c g s
  | .iabs sat d a g => Sys2Proof.Machine.execIabs sat d a g s
  | .ineg sat d a g => Sys2Proof.Machine.execIneg sat d a g s
  | .sel d a b c g => Sys2Proof.Machine.execSel d a b c g s
  | .bysel d a b c g => Sys2Proof.Machine.execBysel d a b c g s
  | .clz d a g => Sys2Proof.Machine.execClz d a g s
  | .popc d a g => Sys2Proof.Machine.execPopc d a g s
  | .brev d a g => Sys2Proof.Machine.execBrev d a g s
  | .bfe sg d a b g => Sys2Proof.Machine.execBfe sg d a b g s
  | .bfi d a b c g => Sys2Proof.Machine.execBfi d a b c g s
  | .movw d imm g => Sys2Proof.Machine.execMovw d imm g s
  | .movx d imm g => Sys2Proof.Machine.execMovx d imm g s
  | .iset cond u d a b g => Sys2Proof.Machine.execIset cond u d a b g s
  | .mand d a b g => Sys2Proof.Machine.execMand d a b g s
  | .mor d a b g => Sys2Proof.Machine.execMor d a b g s
  | .mxor d a b g => Sys2Proof.Machine.execMxor d a b g s
  | .mnot d a g => Sys2Proof.Machine.execMnot d a g s
  | .mmov d a g => Sys2Proof.Machine.execMmov d a g s
  | .mget d a g => Sys2Proof.Machine.execMget d a g s
  | .mpop d a g => Sys2Proof.Machine.execMpop d a g s
  | .mffs d a g => Sys2Proof.Machine.execMffs d a g s
  | .shape d a g => Sys2Proof.Machine.execShape d a g s
  | .lxch op d a b c g => Sys2Proof.Machine.execLxch op d a b c g s
  | .lpred op inv d a g => Sys2Proof.Machine.execLpred op inv d a g s
  | .scan op ty d a g => Sys2Proof.Machine.execScan op ty d a g s
  | .rdux op u d a g => Sys2Proof.Machine.execRdux op u d a g s
  | .matchLanes d a g => Sys2Proof.Machine.execMatchLanes d a g s
  | .fsub r d a b g => Sys2Proof.Machine.execFsub r d a b g s
  | .ffma r d a b c g => Sys2Proof.Machine.execFfma r d a b c g s
  | .fabs d a g => Sys2Proof.Machine.execFabs d a g s
  | .fneg d a g => Sys2Proof.Machine.execFneg d a g s
  | .fcps d a b g => Sys2Proof.Machine.execFcps d a b g s
  | .frnd r d a g => Sys2Proof.Machine.execFrnd r d a g s
  | .fclass d a g => Sys2Proof.Machine.execFclass d a g s
  | .fset cond u d a b g => Sys2Proof.Machine.execFset cond u d a b g s
  | .frcp d a g => Sys2Proof.Machine.execFrcp d a g s
  | .frsq d a g => Sys2Proof.Machine.execFrsq d a g s
  | .fsqrt d a g => Sys2Proof.Machine.execFsqrt d a g s
  | .fex2 d a g => Sys2Proof.Machine.execFex2 d a g s
  | .flg2 d a g => Sys2Proof.Machine.execFlg2 d a g s
  | .ftanh d a g => Sys2Proof.Machine.execFtanh d a g s
  | .fsin d a g => Sys2Proof.Machine.execFsin d a g s
  | .fcos d a g => Sys2Proof.Machine.execFcos d a g s
  | .hadd2 r d a b g => Sys2Proof.Machine.execHadd2 r d a b g s
  | .hmul2 r d a b g => Sys2Proof.Machine.execHmul2 r d a b g s
  | .hfma2 r d a b c g => Sys2Proof.Machine.execHfma2 r d a b c g s
  | .hmax2 d a b g => Sys2Proof.Machine.execHmax2 d a b g s
  | .hmin2 d a b g => Sys2Proof.Machine.execHmin2 d a b g s
  | .cvtfi u r d a g => Sys2Proof.Machine.execCvtfi u r d a g s
  | .cvtif u r d a g => Sys2Proof.Machine.execCvtif u r d a g s
  | .cvtfh r d a b g => Sys2Proof.Machine.execCvtfh r d a b g s
  | .cvthf hi d a g => Sys2Proof.Machine.execCvthf hi d a g s
  | .cvtn8 byte nan e5 d a b g => Sys2Proof.Machine.execCvtn8 byte nan e5 d a b g s
  | .cvtf8 byte e5 d a g => Sys2Proof.Machine.execCvtf8 byte e5 d a g s
  | .qnt4 sf bsv d a b c nib g => Sys2Proof.Machine.execQnt4 sf bsv d a b c nib g s
  | .dq4 sf d a b c nib g => Sys2Proof.Machine.execDq4 sf d a b c nib g s
  | .scale bf tf d a b c g => Sys2Proof.Machine.execScale bf tf d a b c g s
  | .selkLd a loc slot g => Sys2Proof.Machine.execSelkLd a loc slot g s
  | .selkRun loc geom g => Sys2Proof.Machine.execSelkRun loc geom g s
  | .selkRd mask d loc geom slot g => Sys2Proof.Machine.execSelkRd mask d loc geom slot g s
  | .rngx cnt frac d a key c stream g => Sys2Proof.Machine.execRngx cnt frac d a key c stream g s
  | .ld sz ord d base idx off g => Sys2Proof.Machine.execLd sz ord d base idx off g s
  | .st sz ord d base idx off g => Sys2Proof.Machine.execSt sz ord d base idx off g s
  | .ldu sz ord d base idx off g => Sys2Proof.Machine.execLdu sz ord d base idx off g s
  | .atom op ord d base idx off g => Sys2Proof.Machine.execAtom op ord d base idx off g s
  | .red op ord d base idx off g => Sys2Proof.Machine.execRed op ord d base idx off g s
  | .fence sc g => Sys2Proof.Machine.execFence sc g s
  | .pref base idx off g => Sys2Proof.Machine.execPref base idx off g s
  | .bra off g => Sys2Proof.Machine.execBra off g s
  | .bru k off g => Sys2Proof.Machine.execBru k off g s
  | .brd m off g => Sys2Proof.Machine.execBrd m off g s
  | .call p off g => Sys2Proof.Machine.execCall p off g s
  | .ret p g => Sys2Proof.Machine.execRet p g s
  | .brx p g => Sys2Proof.Machine.execBrx p g s
  | .exit g => Sys2Proof.Machine.execExit g s
  | .nop => Sys2Proof.Machine.execNop s
  | .icpf n off => Sys2Proof.Machine.execIcpf n off s
  | .hint w => Sys2Proof.Machine.execHint w s
  | .binit lane cluster loc arr bytes g => Sys2Proof.Machine.execBinit lane cluster loc arr bytes g s
  | .bjoin loc g => Sys2Proof.Machine.execBjoin loc g s
  | .barv d loc g => Sys2Proof.Machine.execBarv d loc g s
  | .barx d loc bytes g => Sys2Proof.Machine.execBarx d loc bytes g s
  | .bwait loc ph g => Sys2Proof.Machine.execBwait loc ph g s
  | .btest d loc ph g => Sys2Proof.Machine.execBtest d loc ph g s
  | .bwaitt d loc ph t g => Sys2Proof.Machine.execBwaitt d loc ph t g s
  | .bleave loc g => Sys2Proof.Machine.execBleave loc g s
  | .tbar g => Sys2Proof.Machine.execTbar g s
  | .cbar g => Sys2Proof.Machine.execCbar g s
  | .sleep a g => Sys2Proof.Machine.execSleep a g s
  | .yield g => Sys2Proof.Machine.execYield g s
  | .grow d n g => Sys2Proof.Machine.execGrow d n g s
  | .shrink n g => Sys2Proof.Machine.execShrink n g s
  | .fork p g => Sys2Proof.Machine.execFork p g s
  | .joinw d g => Sys2Proof.Machine.execJoinw d g s
  | .spawn d idx cnt g => Sys2Proof.Machine.execSpawn d idx cnt g s
  | .movs d sr g => Sys2Proof.Machine.execMovs d sr g s
  | .movsw sr a g => Sys2Proof.Machine.execMovsw sr a g s
  | .trap code g => Sys2Proof.Machine.execTrap code g s
  | .sysc svc a b g => Sys2Proof.Machine.execSysc svc a b g s
  | .eret g => Sys2Proof.Machine.execEret g s
  | .bkpt code g => Sys2Proof.Machine.execBkpt code g s
  | .csave d p g => Sys2Proof.Machine.execCsave d p g s
  | .cload p g => Sys2Proof.Machine.execCload p g s
  | .xferCopy x g => Sys2Proof.Machine.execXferCopy x g s
  | .xferTranspose x g => Sys2Proof.Machine.execXferTranspose x g s
  | .xferRepack x g => Sys2Proof.Machine.execXferRepack x g s
  | .xferQuant x g => Sys2Proof.Machine.execXferQuant x g s
  | .xferDequant x g => Sys2Proof.Machine.execXferDequant x g s
  | .xferGather x g => Sys2Proof.Machine.execXferGather x g s
  | .xferScatter x g => Sys2Proof.Machine.execXferScatter x g s
  | .xferFill x g => Sys2Proof.Machine.execXferFill x g s
  | .xmcast x g => Sys2Proof.Machine.execXmcast x g s
  | .twaita trp sc d m g => Sys2Proof.Machine.execTwaita trp sc d m g s
  | .twaitl trp sc d m g => Sys2Proof.Machine.execTwaitl trp sc d m g s
  | .tffr sc d m g => Sys2Proof.Machine.execTffr sc d m g s
  | .tclr m g => Sys2Proof.Machine.execTclr m g s
  | .xstat trp d tag g => Sys2Proof.Machine.execXstat trp d tag g s
  | .rfence rec g => Sys2Proof.Machine.execRfence rec g s
  | .spfence loc len g => Sys2Proof.Machine.execSpfence loc len g s
  | .mfmt role d loc g => Sys2Proof.Machine.execMfmt role d loc g s
  | .mloop nan d o g => Sys2Proof.Machine.execMloop nan d o g s
  | .accz tm a g => Sys2Proof.Machine.execAccz tm a g s
  | .accrd raw d a g => Sys2Proof.Machine.execAccrd raw d a g s
  | .accwr a b g => Sys2Proof.Machine.execAccwr a b g s
  | .mwait trp d a g => Sys2Proof.Machine.execMwait trp d a g s
  | .mstat d a g => Sys2Proof.Machine.execMstat d a g s
  | .mhad p sc d loc geom g => Sys2Proof.Machine.execMhad p sc d loc geom g s
  | .tbld d o g => Sys2Proof.Machine.execTbld d o g s
  | .tlook d o g => Sys2Proof.Machine.execTlook d o g s
  | .tval d num g => Sys2Proof.Machine.execTval d num g s
  | .tspill d num loc g => Sys2Proof.Machine.execTspill d num loc g s
  | .tfill d num g => Sys2Proof.Machine.execTfill d num g s
  | .tdrop num g => Sys2Proof.Machine.execTdrop num g s
  | .kvgath fetch bar o tag g => Sys2Proof.Machine.execKvgath fetch bar o tag g s
  | .kvapp o tag g => Sys2Proof.Machine.execKvapp o tag g s
  | .pgalloc d req idx tag g => Sys2Proof.Machine.execPgalloc d req idx tag g s
  | .pgrefQ d page tag g => Sys2Proof.Machine.execPgrefQ d page tag g s
  | .pgrefQf d page tag g => Sys2Proof.Machine.execPgrefQf d page tag g s
  | .pgrefInc d page tag g => Sys2Proof.Machine.execPgrefInc d page tag g s
  | .pgrefDec d page tag g => Sys2Proof.Machine.execPgrefDec d page tag g s
  | .pgfetch page tag g => Sys2Proof.Machine.execPgfetch page tag g s
  | .btset d req idx page tag g => Sys2Proof.Machine.execBtset d req idx page tag g s
  | .btget d req idx tag g => Sys2Proof.Machine.execBtget d req idx tag g s
  | .kvsend req dest rreq tag g => Sys2Proof.Machine.execKvsend req dest rreq tag g s
  | .pfxh d ids par mdl tag g => Sys2Proof.Machine.execPfxh d ids par mdl tag g s
  | .pfxlook d key req idx tag g => Sys2Proof.Machine.execPfxlook d key req idx tag g s
  | .pfxins d key page tag g => Sys2Proof.Machine.execPfxins d key page tag g s
  | .pfxinsDel d page tag g => Sys2Proof.Machine.execPfxinsDel d page tag g s
  | .sqget d hd w g => Sys2Proof.Machine.execSqget d hd w g s
  | .tokemit d hd loc cnt g => Sys2Proof.Machine.execTokemit d hd loc cnt g s
  | .sqstop d hd reason g => Sys2Proof.Machine.execSqstop d hd reason g s
  | .sqroll d hd n g => Sys2Proof.Machine.execSqroll d hd n g s
  | .sqyield skip d hd g => Sys2Proof.Machine.execSqyield skip d hd g s
  | .nsend nm len dq src tag g => Sys2Proof.Machine.execNsend nm len dq src tag g s
  | .nput rep nm len dest src raddr tag g => Sys2Proof.Machine.execNput rep nm len dest src raddr tag g s
  | .nget rod len dest raddr dst tag g => Sys2Proof.Machine.execNget rod len dest raddr dst tag g s
  | .nred op blk tag g => Sys2Proof.Machine.execNred op blk tag g s
  | .npoll d q g => Sys2Proof.Machine.execNpoll d q g s
  | .nrecv q dst mx tag g => Sys2Proof.Machine.execNrecv q dst mx tag g s
  | .ntime hor d g => Sys2Proof.Machine.execNtime hor d g s
  | .splitMerge grp i1 j => Sys2Proof.Machine.execSplitMerge grp i1 j s
  | .icacheMissFill core seq cycles => Sys2Proof.Machine.execIcacheMissFill core seq cycles s
  | .yieldTimeout grp slot => Sys2Proof.Machine.execYieldTimeout grp slot s
  | .sleepExpire grp slot => Sys2Proof.Machine.execSleepExpire grp slot s
  | .bwaittTimeout grp slot => Sys2Proof.Machine.execBwaittTimeout grp slot s
  | .growGrant core => Sys2Proof.Machine.execGrowGrant core s
  | .growDeadlockResolve core => Sys2Proof.Machine.execGrowDeadlockResolve core s
  | .syncOpEffect grp slot => Sys2Proof.Machine.execSyncOpEffect grp slot s
  | .exitUnblock grp slot => Sys2Proof.Machine.execExitUnblock grp slot s
  | .registerWriteLand grp => Sys2Proof.Machine.execRegisterWriteLand grp s
  | .forkSwapOut team => Sys2Proof.Machine.execForkSwapOut team s
  | .forkResume team => Sys2Proof.Machine.execForkResume team s
  | .storeDrain grp => Sys2Proof.Machine.execStoreDrain grp s
  | .l2LineEvict line => Sys2Proof.Machine.execL2LineEvict line s
  | .hostMemoryAccess port pa data len => Sys2Proof.Machine.execHostMemoryAccess port pa data len s
  | .engineLineRelease cmd sp unit => Sys2Proof.Machine.execEngineLineRelease cmd sp unit s
  | .commandComplete cmd => Sys2Proof.Machine.execCommandComplete cmd s
  | .traverseRefusalRetry cmd sp unit hint => Sys2Proof.Machine.execTraverseRefusalRetry cmd sp unit hint s
  | .loopStep core idx => Sys2Proof.Machine.execLoopStep core idx s
  | .tableBuild core idx => Sys2Proof.Machine.execTableBuild core idx s
  | .tlookStep core idx => Sys2Proof.Machine.execTlookStep core idx s
  | .loopComplete core idx => Sys2Proof.Machine.execLoopComplete core idx s
  | .kvgathPageStep cmd err => Sys2Proof.Machine.execKvgathPageStep cmd err s
  | .evictionComplete die page => Sys2Proof.Machine.execEvictionComplete die page s
  | .fetchComplete die page err => Sys2Proof.Machine.execFetchComplete die page err s
  | .chartScrub die page err => Sys2Proof.Machine.execChartScrub die page err s
  | .chcfgReload port die => Sys2Proof.Machine.execChcfgReload port die s
  | .blockTableRecord ho => Sys2Proof.Machine.execBlockTableRecord ho s
  | .kvsendAck cmd ok => Sys2Proof.Machine.execKvsendAck cmd ok s
  | .launch q => Sys2Proof.Machine.execLaunch q s
  | .admitReq q => Sys2Proof.Machine.execAdmitReq q s
  | .cancel q => Sys2Proof.Machine.execCancel q s
  | .model q => Sys2Proof.Machine.execModel q s
  | .modeldel q => Sys2Proof.Machine.execModeldel q s
  | .badcmd q => Sys2Proof.Machine.execBadcmd q s
  | .rtail port q val => Sys2Proof.Machine.execRtail port q val s
  | .ehead port q val => Sys2Proof.Machine.execEhead port q val s
  | .semaphoreRead port n tie => Sys2Proof.Machine.execSemaphoreRead port n tie s
  | .semaphoreWrite port n val => Sys2Proof.Machine.execSemaphoreWrite port n val s
  | .hostLinkDown port => Sys2Proof.Machine.execHostLinkDown port s
  | .partk port val => Sys2Proof.Machine.execPartk port val s
  | .kChangeApply die => Sys2Proof.Machine.execKChangeApply die s
  | .phalt port val => Sys2Proof.Machine.execPhalt port val s
  | .partitionHalt part => Sys2Proof.Machine.execPartitionHalt part s
  | .shadowSwap part => Sys2Proof.Machine.execShadowSwap part s
  | .haltSlowPath part => Sys2Proof.Machine.execHaltSlowPath part s
  | .partitionResume part => Sys2Proof.Machine.execPartitionResume part s
  | .gridDispatch q => Sys2Proof.Machine.execGridDispatch q s
  | .leaseStage grid => Sys2Proof.Machine.execLeaseStage grid s
  | .saveAreaAllocate grid => Sys2Proof.Machine.execSaveAreaAllocate grid s
  | .holdAcquire grid => Sys2Proof.Machine.execHoldAcquire grid s
  | .clusterPlace grid => Sys2Proof.Machine.execClusterPlace grid s
  | .teamStart core => Sys2Proof.Machine.execTeamStart core s
  | .workSteal core => Sys2Proof.Machine.execWorkSteal core s
  | .teamSwapOut grid => Sys2Proof.Machine.execTeamSwapOut grid s
  | .gridCompletion grid => Sys2Proof.Machine.execGridCompletion grid s
  | .watchdogTrap grid => Sys2Proof.Machine.execWatchdogTrap grid s
  | .watchdogEnd grid => Sys2Proof.Machine.execWatchdogEnd grid s
  | .batchForm part => Sys2Proof.Machine.execBatchForm part s
  | .swappedReturn handle => Sys2Proof.Machine.execSwappedReturn handle s
  | .blockHandOver handle => Sys2Proof.Machine.execBlockHandOver handle s
  | .sramSoftError grp => Sys2Proof.Machine.execSramSoftError grp s
  | .linkTraining port huaxel => Sys2Proof.Machine.execLinkTraining port huaxel s
  | .mroute port val => Sys2Proof.Machine.execMroute port val s
  | .mqcfg port q val => Sys2Proof.Machine.execMqcfg port q val s
  | .sextantFrame port time master => Sys2Proof.Machine.execSextantFrame port time master s
  | .sextantFrameSend port => Sys2Proof.Machine.execSextantFrameSend port s
  | .orderedPacketArrival inp pkt => Sys2Proof.Machine.execOrderedPacketArrival inp pkt s
  | .beacon inp keys => Sys2Proof.Machine.execBeacon inp keys s
  | .beaconSend out => Sys2Proof.Machine.execBeaconSend out s
  | .orderedEmit out space => Sys2Proof.Machine.execOrderedEmit out space s
  | .stallDeclare inp space => Sys2Proof.Machine.execStallDeclare inp space s
  | .stallNotice space => Sys2Proof.Machine.execStallNotice space s
  | .messageDelivery pkt => Sys2Proof.Machine.execMessageDelivery pkt s
  | .putGetServe inp src req reply => Sys2Proof.Machine.execPutGetServe inp src req reply s
  | .reductionContribution pkt => Sys2Proof.Machine.execReductionContribution pkt s
  | .reductionCombine asid coll round => Sys2Proof.Machine.execReductionCombine asid coll round s
  | .reductionAbandon asid coll round mismatch => Sys2Proof.Machine.execReductionAbandon asid coll round mismatch s
  | .reductionResult cmd stamp data => Sys2Proof.Machine.execReductionResult cmd stamp data s
  | .abandonNotice cmd mismatch => Sys2Proof.Machine.execAbandonNotice cmd mismatch s
  | .tlbinvc port val => Sys2Proof.Machine.execTlbinvc port val s
  | .invalidationComplete => Sys2Proof.Machine.execInvalidationComplete s
  | .memcfg port val => Sys2Proof.Machine.execMemcfg port val s
  | .memcfgChangeComplete => Sys2Proof.Machine.execMemcfgChangeComplete s
  | .nrseed port val => Sys2Proof.Machine.execNrseed port val s
  | .keydata port off val => Sys2Proof.Machine.execKeydata port off val s
  | .rowActivate pc bank row => Sys2Proof.Machine.execRowActivate pc bank row s
  | .reset board => Sys2Proof.Machine.execReset board s
  | .attctl port val => Sys2Proof.Machine.execAttctl port val s
  | .attestationReportDone => Sys2Proof.Machine.execAttestationReportDone s
  | .governorInterval power => Sys2Proof.Machine.execGovernorInterval power s
  | .plimit port val => Sys2Proof.Machine.execPlimit port val s
  | .pclkmax port p val => Sys2Proof.Machine.execPclkmax port p val s
  | .pwrctl port val => Sys2Proof.Machine.execPwrctl port val s
  | .partitionIdle part => Sys2Proof.Machine.execPartitionIdle part s
  | .partitionOff part => Sys2Proof.Machine.execPartitionOff part s
  | .thermalHot die temp => Sys2Proof.Machine.execThermalHot die temp s
  | .thermtrip die => Sys2Proof.Machine.execThermtrip die s
  | .registerWrite port win off val => Sys2Proof.Machine.execRegisterWrite port win off val s
  | .illegalInstruction w => Sys2Proof.Machine.execIllegalInstruction w s
  | .linkFailure port => Sys2Proof.Machine.execLinkFailure port s
  | .retransmission cmd exhausted => Sys2Proof.Machine.execRetransmission cmd exhausted s

end Sys2Proof.Machine
end

