-- ==== Sys2Proof/Machine/Schedule.lean ====
section
/-! DEFINITION. Turns: what the machine does when a split issues (spec/03_sequencer.md R105, R106, R113, R114), and what
it does when no turn is named: the events that have come due, then the splits in the order of R106 (assumption log 4). -/

namespace Sys2Proof.Machine

/-- A word executes: its meaning, or trap 0x01 where it decodes to nothing (R77). -/
def runWord (w : DWord) (s : State) : Result :=
  match decode w with
  | .ok i => exec i s
  | .error _ => execIllegalInstruction w s

/-- The machine after a turn: no split issues. -/
def endTurn : Result → Result
  | .next s => .next { s with cur := none }
  | .fault f => .fault f
  | .refused r => .refused r

/-- A walk for a fetch in the global aperture that failed (R508). -/
def State.lostPc (s : State) (asid : Nat) (pc : DWord) : State := if bits pc.toNat 56 8 = 0 then s.lostWalk asid pc.toNat else s

/-- A fetch that fails raises trap 0x03 at the word, which nobody read: WORD of the frame is free (R56, R159; assumption
log 3). -/
def fetchTrap (gid slot : Nat) (g : Group) (pc : DWord) (s : State) : State :=
  match s.ctxAt gid slot (s.unread g) Guard.always with
  | none => s
  | some c => takeTrap c { cause := 0x03, lanes := c.act, addr := pc } (s.lostPc c.grid.asid pc).bump

/-- The split fetches and executes its word. -/
def issueWord (gid slot : Nat) (g : Group) (sp : Split) (asid : Nat) (s : State) : Result :=
  match s.fetch g.core g.seq asid sp.pc with
  | .miss pa tag => .next (s.freeze g.core g.seq asid pa tag sp.pc)
  | .bad => .next (fetchTrap gid slot g sp.pc s)
  | .word w line => endTurn (runWord w { s.buffer g.core g.seq line with cur := some { grp := gid, slot := slot, word := w } })

/-- An issue turn: merges and the serial stack first (R113, R114), then the word; a split that is not ready does
nothing. -/
def issueTurn (gid slot : Nat) (s : State) : Result :=
  match s.groups.find? gid with
  | none => .next s
  | some g0 =>
    if (g0.splits.find? slot).any (fun sp => s.ready g0 sp) then
      let s := (s.mergeAll gid).modSplit gid slot Split.beforeIssue
      match s.groups.find? gid with
      | none => .next s
      | some g =>
        match g.splits.find? slot with
        | none => .next s
        | some sp => issueWord gid slot g sp (s.asidOf g) s
    else .next s

/-- A machine event, not an instruction of the Bamion set (95): it has no encoding. -/
def isEvent (i : Instr) : Bool := (encode i).isNone

/-- A turn. -/
def runTurn (t : Turn) (s : State) : Result :=
  match t with
  | .issue g k => issueTurn g k s
  | .event e => if isEvent e then endTurn (exec e { s with cur := none }) else .next s
  | .icacheDrop die line =>
    .next (s.modDie die (fun d => { d with icache := d.icache.filter (fun e => e.1 / 131072 ≠ line) }))
  | .lineDrop core seq line =>
    .next (s.modCore core (fun c => { c with lines := c.lines.set seq ((c.lineBuf seq).filter (fun e => e.1 / 131072 ≠ line)) }))
  | .arena spills full => .next { s with ms := { s.ms with arenaSpills := spills, arenaFull := full } }
  | .lag core u => .next (s.lag core u)
  | .see core u => .next (s.see core u)
  | .keep asid unit => .next (s.keep asid unit)
  | .useKept asid unit on => .next (s.useKept asid unit on)

/-- The first of some turns that changes the state. -/
def firstChange (s : State) : List (State → Result) → Option Result
  | [] => none
  | f :: fs =>
    match f s with
    | .next s' => if s' = s then firstChange s fs else some (.next s')
    | r => some r

/-- What the groups and cores bring about. -/
def coreEvents (s : State) : List (State → Result) :=
  s.groups.flatMap (fun e => [execRegisterWriteLand e.1, execStoreDrain e.1]) ++
  s.groups.flatMap (fun e => e.2.splits.flatMap (fun x =>
    [execSyncOpEffect e.1 x.1, execExitUnblock e.1 x.1, execYieldTimeout e.1 x.1, execSleepExpire e.1 x.1])) ++
  s.cores.flatMap (fun e => [0, 1, 2, 3].map (fun q => execIcacheMissFill e.1 q 1) ++
    [execGrowGrant e.1, execGrowDeadlockResolve e.1])

/-- What the engines bring about: units that are due, steps in ACC order, then the ends of commands. -/
def engineEvents (s : State) : List (State → Result) :=
  s.cmds.flatMap (fun e => match s.nextUnit e.1 e.2 with
    | some u => [execEngineLineRelease e.1 u.1 u.2]
    | none => []) ++
  s.cores.flatMap (fun e => (List.range e.2.accQ.length).flatMap (fun i =>
    [execLoopStep e.1 i, execTableBuild e.1 i, execTlookStep e.1 i, execLoopComplete e.1 i])) ++
  s.cmds.flatMap (fun e => [execKvgathPageStep e.1 .none, execCommandComplete e.1]) ++
  s.pages.flatMap (fun e => match e.2.st with
    | .evicting => [execEvictionComplete (pageDie e.1) e.1]
    | .fetching => [execFetchComplete (pageDie e.1) e.1 .none]
    | _ => [])

/-- What Helm brings about, in the order of a grid's stages (R428). -/
def helmEvents (s : State) : List (State → Result) :=
  s.helm.queues.flatMap (fun e => [execLaunch e.1, execAdmitReq e.1, execCancel e.1, execModel e.1, execModeldel e.1,
    execBadcmd e.1]) ++
  s.teams.flatMap (fun e => [execForkSwapOut e.1, execForkResume e.1]) ++
  [0, 1].map execKChangeApply ++
  [0, 1, 2, 3].flatMap (fun p => [execPartitionHalt p, execShadowSwap p, execHaltSlowPath p, execPartitionResume p]) ++
  s.grids.map (fun e => execGridCompletion e.1) ++
  s.cores.map (fun e => execTeamStart e.1) ++
  s.grids.flatMap (fun e => [execLeaseStage e.1, execSaveAreaAllocate e.1, execHoldAcquire e.1, execClusterPlace e.1,
    execTeamSwapOut e.1]) ++
  (List.range 68).map execGridDispatch ++
  s.requests.flatMap (fun e => [execSwappedReturn e.1, execBlockHandOver e.1]) ++
  [0, 1, 2, 3].map execBatchForm

/-- What Meridian and the management firmware bring about. -/
def netEvents (s : State) : List (State → Result) :=
  s.mer.staged.map (fun p => execOrderedPacketArrival (s.inputOf p.reply) p) ++
  s.mer.queued.map (fun q => execOrderedEmit q.out q.pkt.space) ++
  (s.mer.inbound ++ s.mer.flight).flatMap (fun p => [execMessageDelivery p, execReductionContribution p]) ++
  s.mer.asked.map (fun a => execPutGetServe 16 s.mer.mepid a.2 a.1) ++
  s.mer.rounds.flatMap (fun r => [execReductionCombine r.asid r.coll r.round, execReductionAbandon r.asid r.coll r.round true]) ++
  s.mer.inbound.flatMap (fun p =>
    [execReductionResult p.reply p.key.stamp p.payload, execAbandonNotice p.reply (p.queue == 1), execStallNotice p.space]) ++
  [execMemcfgChangeComplete, execInvalidationComplete, execAttestationReportDone]

/-- Events that the machine itself brings about, each doing nothing unless it is due; what only its surroundings or the
passage of time decide comes from the agenda alone (assumption log 4). -/
def dueEvents (s : State) : List (State → Result) := coreEvents s ++ engineEvents s ++ helmEvents s ++ netEvents s

/-- The splits that may issue, in the order of R106, cores and sequencers ascending. -/
def readyTurns (s : State) : List (State → Result) :=
  ((s.groups.map (fun e => (e.2.core, e.2.seq))).dedup.flatMap (fun cq => s.issueOrder cq.1 cq.2)).map
    (fun t => issueTurn t.1 t.2)

/-- Waits that run out when nothing else moves. -/
def timeouts (s : State) : List (State → Result) :=
  s.groups.flatMap (fun e => e.2.splits.map (fun x => execBwaittTimeout e.1 x.1))

/-- The machine's own next turn when none is named; with nothing to do it idles (assumption log 4). -/
def autoTurn (s : State) : Result :=
  match firstChange s (dueEvents s ++ readyTurns s ++ timeouts s) with
  | some r => r
  | none => .next s

end Sys2Proof.Machine
end

