-- ==== Sys2Proof/Machine/Step.lean ====
section
/-! DEFINITION. One step of the machine: the first turn of the agenda, else the machine's own choice (assumption log 4);
and how the host places an instruction to be run next (assumption log 5). -/

namespace Sys2Proof.Machine

/-- One step. -/
def step (s : State) : Host.Outcome State Fault Refusal :=
  match s.agenda with
  | t :: ts => runTurn t { s with agenda := ts }
  | [] => autoTurn s

/-! ### A program placed from outside (assumption log 5) -/

/-- The launch record of the placed grid: one cluster of one team of one group, every register, a large SPAD. -/
def placedRecord : LaunchRecord :=
  { LaunchRecord.empty with
    entry := 0x10000, trapEntry := 0x20000, clusters := 1, teams := 1, groups := 1, rectW := 1, rectH := 1, vcnt := 176,
    scnt := 48, xcnt := 15, spadb := 0x180000 }

/-- The placed grid, in ASID 0, running, with the first GiB of memory for its lease. -/
def placedGrid : Grid where
  record := placedRecord
  recAddr := 0x30000
  queue := 0
  asid := 0
  decodeRole := true
  stage := .running
  leases := [(0, 0x40000000)]
  pins := []
  saves := []
  arena := none
  slots := 1
  reads := []
  holds := []
  holding := false
  ending := none
  nextCluster := 1
  parent := none
  depth := 0
  cookie := 0
  step := none
  slices := []
  sliceOff := 0
  dog := none

/-- The placed split: all lanes at the entry. -/
def placedSplit : Split where
  pc := 0x10000
  mask := 0xFFFFFFFF
  stack := []
  wait := .none
  suspended := false

/-- The placed group of a team: registers zero, all of them allotted. -/
def placedGroup (team : Nat) : Group :=
  { Group.empty with
    team := team, st := .resident, vallot := 176, splits := [(0, placedSplit)], saveSlot := 0x40000, stackBase := 0x80000 }

/-- The page tables of ASID 0 (R519 to R521): the first GiB maps to itself, readable, writable and executable. -/
def placedTables (m : Mem) : Mem :=
  ((m.storeNat 0x100000 16 (2 ^ 46 + 0x110000)).storeNat 0x110000 8 (2 ^ 54 + 0x120000)).storeNat 0x120000 8
    (2 ^ 54 + 2 ^ 55 + 2 ^ 56 + 2 ^ 57 + 2 ^ 58 + 2 ^ 59 + 2 ^ 60)

/-- The machine, brought up, with a grid whose only group is about to issue a word on core 0: the word in memory and in the
die's instruction cache, and its split first on the agenda. -/
def State.place (s : State) (w : DWord) : State :=
  let g := s.uid + 1
  { s with
    agenda := .issue (g + 3) 0 :: s.agenda
    cur := none
    uid := s.uid + 4
    mem := (placedTables s.mem).storeNat 0x10000 8 w.toNat
    cores := s.cores.put Core.reset 0 { s.core 0 with poolFree := (s.core 0).poolFree - 22, lines := [] }
    grids := s.grids.set g placedGrid
    clusters := s.clusters.set (g + 1) { grid := g, index := 0, stamp := g, epoch := 0, accesses := [], exits := [] }
    teams := s.teams.set (g + 2) { Team.empty with grid := g, cluster := g + 1, saveArea := 0x60000, started := true }
    groups := s.groups.set (g + 3) (placedGroup (g + 2))
    dies := s.dies.put { icache := [] } 0 { icache := (s.die 0).icache.set (icKey 0x10000 0) w }
    ms := { s.ms with asidBase := 0x100001 }
    pkg := { s.pkg with ready := true } }

/-- The instruction whose bits are `w`, placed where the next step issues (assumption log 5). -/
def State.withFetchWord (s : State) (nbits w : Nat) : State := s.place (BitVec.ofNat 64 (w % 2 ^ nbits))

end Sys2Proof.Machine
end

