-- ==== Sys2Proof/Safety.lean ====
section
/-! DEFINITION. What the statements about the machine are said in: when an instruction has its own effect, what it may
leave changed, and what a state of the machine keeps. -/

namespace Sys2Proof.Machine

/-- What the prelude of an instruction notes with its effect: in Reckoning mode its h registers, but not again when its wait
has ended (R134, R162, R211). -/
def State.noted (s : State) (c : Ctx) (i : Instr) : State :=
  if c.reckon = true ∧ c.resumed = false then s.record c.team.cluster (hAccesses c.grp.team c.grp.ggid i) else s

/-- An instruction issues with nothing in its way (R79, R105, R134): `c` is what it sees, no register of it has a pending
write, it is neither privileged here nor out of the allotment, some lane participates, its split is in no wait that has yet to
end, and in Reckoning mode no h register conflicts, and, when it is a synchronising operation, its key is the smallest
(R36). -/
abbrev Clear (sync : Bool) (i : Instr) (c : Ctx) (s : State) : Prop :=
  s.ctx? i = some c ∧ s.scoreboardBusy i c.grp = false ∧ privilegedUse i c = false ∧ i.rangeBad c.grp.vallot = false ∧
  c.act ≠ 0 ∧ c.sp.wait.over = true ∧
  (c.reckon = true → (sync = true → s.smallest c.team.cluster (c.effectKey s) = true) ∧
    (c.resumed = false → firstRace c.cl (hAccesses c.grp.team c.grp.ggid i) = none))

/-- What lane `l` of a group reads from a register (R64). -/
def State.lane (s : State) (gid : Nat) (r : Reg) (l : Nat) : Word :=
  match s.groups.find? gid with
  | none => 0
  | some g => readReg g (((s.teams.find? g.team).map (fun t => t.h)).getD []) r l

/-- What a group reads from a mask register (R66). -/
def State.mask (s : State) (gid : Nat) (n : Fin 8) : Word :=
  match s.groups.find? gid with
  | none => 0
  | some g => readMask g n

/-- What lane `l` reads from register `r` after `f` is written to `d`, where it read `old` before: a v register takes
`f` in the participating lanes, an s or h register the one value, an x register the affine values that `f` begins, zero
nothing; every other register keeps its value (R64, R65, R67, R70, R118). -/
def wrote (act : Word) (d : Reg) (f : Nat → Word) (r : Reg) (l : Nat) (old : Word) : Word :=
  if r = d then
    match d with
    | .v _ => if laneIn act l then f l else old
    | .s _ => f 0
    | .h _ => f 0
    | .x _ => f 0 + BitVec.ofNat 32 l * (f 1 - f 0)
    | .zero => 0
  else old

/-- What a lane reads after `n` registers from `d` on have taken values, low register first. -/
def wroteMany (act : Word) (d : Reg) (n : Nat) (f : Nat → Nat → Word) (r : Reg) (l : Nat) (old : Word) : Word :=
  (List.range n).foldl (fun w i => wrote act (regIn d i) (f i) r l w) old

/-- No register changes. -/
def keepRegs : Reg → Nat → Word → Word := fun _ _ w => w

/-- No mask register changes. -/
def keepMasks : Fin 8 → Word → Word := fun _ w => w

/-- One mask register takes a value; m0 keeps its own (R66). -/
def wroteMask (d : Fin 8) (w : Word) : Fin 8 → Word → Word := fun n old => if n = d ∧ d ≠ 0 then w else old

/-- The fields of a group that reading its registers, its counters, its splits and its choice of them does not show. -/
def Group.rest (g : Group) : Group := { g with v := [], s := [], x := [], m := [], icnt := 0, ltime := 0, splits := [], lastSlot := none }

/-- Of the group's other fields nothing changes. -/
def keepRest : Group → Group := fun g => g

/-- An instruction of `c` has completed, from `s` to `t`, and changed its group alone: `n` instructions retire, and the
split goes on at `pc`. Every register reads as `regs` says, every mask register as `masks` says; ICNT and LTIME advance
(R58, R167); the split waits for nothing; the sequencer's other splits that YIELDed become eligible (R109); the group's other
fields are as `upd` makes them; no other group, team, core or cluster changes, no byte of memory and nothing else of the
machine. -/
structure Done (c : Ctx) (n : Nat) (pc : DWord) (regs : Reg → Nat → Word → Word) (masks : Fin 8 → Word → Word)
    (upd : Group → Group) (s t : State) : Prop where
  lanes : ∀ r l, l < 32 → t.lane c.gid r l = regs r l (s.lane c.gid r l)
  masks : ∀ k, t.mask c.gid k = masks k (s.mask c.gid k)
  group : ∃ g, t.groups.find? c.gid = some g ∧ g.rest = (upd c.grp).rest ∧ g.lastSlot = some c.slot ∧ g.icnt = c.grp.icnt + BitVec.ofNat 64 n ∧
    g.ltime = nextLtime c.reckon c.grp.icnt c.grp.ltime n c.observed ∧
    g.splits.find? c.slot = some { c.sp with pc := pc, wait := .none } ∧
    ∀ k, k ≠ c.slot → g.splits.find? k = (c.grp.splits.find? k).map Split.rouse
  groups : ∀ k, k ≠ c.gid → t.groups.find? k = (s.groups.find? k).map (fun g => g.rouse c.grp.core c.grp.seq none)
  teams : ∀ k, (t.teams.find? k).map (fun x => { x with h := [] }) = (s.teams.find? k).map (fun x => { x with h := [] })
  others : { t with groups := s.groups, teams := s.teams } = s

/-- An instruction issues clear: it completes, and register `d` alone takes `f`. -/
def Gives (i : Instr) (d : Reg) (f : Ctx → Nat → Word) : Prop :=
  ∀ c s, Clear false i c s → ∃ t, exec i s = .next t ∧ Done c 1 (c.sp.pc + 8) (wrote c.act d (f c)) keepMasks keepRest
    (s.noted c i) t

/-- Registers of a group get writes that have their values and have yet to land (R122). -/
def pendAlso (regs : List Nat) (g : Group) : Group :=
  { g with pend := g.pend ++ regs.map (fun r => { reg := r, ready := true }) }

/-- A lane operation issues clear: it completes, and register `d` alone takes `f`, its write pending (R122, R228). -/
def GivesLate (i : Instr) (d : Reg) (f : Ctx → Nat → Word) : Prop :=
  ∀ c s, Clear false i c s → ∃ t, exec i s = .next t ∧ Done c 1 (c.sp.pc + 8) (wrote c.act d (f c)) keepMasks
    (pendAlso (regCodes (d, 1))) (s.noted c i) t

/-- An instruction issues clear: it completes, and mask register `d` alone takes `f`. -/
def GivesMask (i : Instr) (d : Fin 8) (f : Ctx → Word) : Prop :=
  ∀ c s, Clear false i c s → ∃ t, exec i s = .next t ∧ Done c 1 (c.sp.pc + 8) keepRegs (wroteMask d (f c)) keepRest
    (s.noted c i) t

/-- An instruction issues clear, and `p` holds of what it sees: it completes with the state `f` gives. -/
def Yields (sync : Bool) (i : Instr) (p : Ctx → State → Prop) (f : Ctx → State → State) : Prop :=
  ∀ c s, Clear sync i c s → p c (s.noted c i) → exec i s = .next (f c (s.noted c i))

/-- An instruction issues clear, and `p` holds of what it sees: it traps, or waits at issue, with the state `f` gives, and
notes nothing (R134, R156). -/
def Diverts (sync : Bool) (i : Instr) (p : Ctx → State → Prop) (f : Ctx → State → State) : Prop :=
  ∀ c s, Clear sync i c s → p c s → exec i s = .next (f c s)

/-- A memory access of the participating lanes passes R224's rows 4 to 7 and need not wait: no lane fails a check, none
conflicts, no team it reaches is swapped out, and, where the access waits for engines, none owns a unit of it. -/
structure AccessOk (c : Ctx) (s : State) (act : Word) (addr : Nat → DWord) (size : Nat) (need : Need) (k : AccessKind)
    (noStack noSpad waits : Bool) : Prop where
  legal : accessTrap c s act addr size need noStack noSpad = none
  race : raceTrap c s act addr (laneAccesses c s addr size need k) = none
  held : (lanesIn act).any (laneHeld c s addr size) = false
  owned : waits = true → ((lanesIn act).flatMap (lanePlaces c s addr size need)).any s.owned = false

/-- A place that a write reaches: outside the global space, or a physical address that exists (R508). -/
def placeOk (s : State) (p : Place) : Bool :=
  match p.1 with
  | .global => paOk s.ms p.2
  | _ => true

/-- Every line of some places bears the key of an access, or is host memory, which has none: the access leaves its bytes
(R517, R518). -/
def KeyHeld (s : State) (tag : Nat) (ps : List Place) : Prop :=
  ∀ p ∈ ps, p.1 = .global → isHostPa (p.2 / 128 * 128) = true ∨ s.lineKey.getD (p.2 / 128) 0 = tag

/-- A locator register names an object of a SPAD that is neither in a team swapped out nor in a sector an engine owns
(R31, R136, R226). -/
structure ObjectAt (c : Ctx) (s : State) (loc : Reg) (core off : Nat) : Prop where
  located : locate c s (c.rd loc 0) 16 16 false = .ok (core, off)
  here : objectHeld c s loc = false
  free : s.owned (.spad core, off) = false

/-- An access of places that no lane makes meets no conflict and need not wait. -/
structure SpanOk (c : Ctx) (s : State) (addr : DWord) (ps : List Place) (k : AccessKind) (waits : Bool) : Prop where
  race : raceOnce c s (placeAccesses c ps k) (fun p => addr + BitVec.ofNat 64 (ps.idxOf p)) = none
  held : spanHeld c s addr 1 = false
  owned : waits = true → ps.any s.owned = false

/-- What XFER, or XMCAST, asks for with the record bytes it reads (R287, R296, R306). -/
def xferOf (fn : Nat) (a : XArgs) (mcast : Bool) (c : Ctx) (bs : List Byte) : Xfer :=
  { fn := fn, sacc := a.sacc, wbuf := a.wbuf, shape := parseShape (leNat bs), src := readPair c.grp a.src,
    dst := if mcast then ((readPair c.grp a.dst).setWidth 32).setWidth 64 else readPair c.grp a.dst,
    replicas := if mcast then (List.range 12).filter (fun k => bit (readPair c.grp a.dst >>> 32).toNat k) else [],
    idx := none, fixed := 0, tile := [], scales := [] }

/-- XFER of a function, or XMCAST, need not wait and passes every check of R298: `ps` are the places of its record, `bs`
the bytes read there, `u` the machine after that read, `bar` the offset of its barrier object. -/
structure XferOk (fn : Nat) (a : XArgs) (mcast : Bool) (c : Ctx) (s : State) (ps : List Place) (bs : List Byte) (u : State)
    (bar : Option Nat) : Prop where
  free : s.tagFree c.grp.core a.tag.val = true
  drained : c.grp.fifo = []
  places : spanPlaces c s (readPair c.grp a.recp) 192 64 .read = .ok ps
  bytes : (s.readRecord c.reckon c.grp.core c.grid.asid (readPair c.grp a.recp) ps).1 = bs
  after : (s.readRecord c.reckon c.grp.core c.grid.asid (readPair c.grp a.recp) ps).2.touchPlaces (some c.grp.core) (c.tag s) ps = u
  record : recordOk fn a.sacc (!mcast && !a.wbuf && bits (readPair c.grp a.dst).toNat 56 8 == 0) (parseShape (leNat bs)) =
    true
  object : if a.bar = .zero then bar = none else
    (mcast = true → bits (c.rd a.bar 0).toNat 24 4 = 15) ∧
    ∃ p, locate c u (c.rd a.bar 0) 16 16 true = .ok p ∧ bar = some (p.2 - c.team.spadBase)
  members : mcast = true →
    (readPair c.grp a.dst >>> 32).toNat ≠ 0 ∧ (readPair c.grp a.dst >>> 32).toNat < 4096 ∧
    (∀ k ∈ (xferOf fn a mcast c bs).replicas, (memberIn (viewOf c s) k).isSome = true) ∧
    (a.wbuf = false → (xferOf fn a mcast c bs).dst.toNat < 2097152)
  addresses : addressTrap (viewOf c s) (xferOf fn a mcast c bs) = none
  here : (xferOf fn a mcast c bs).replicas.any (fun k => (u.memberTeam c.team k).any (fun m => m.swapped)) = false ∧
    ((reaches (xferOf fn a mcast c bs)).1 ++ (reaches (xferOf fn a mcast c bs)).2).any
      (fun e => u.namesAway c.team e.1 e.2) = false

/-- XFER of a function, or XMCAST, taken: the command is accepted in the state `u` after its record is read, and the
instruction retires; one that its tag had held back observes the completion that freed the tag (R313). -/
def xferTaken (fn : Nat) (a : XArgs) (mcast : Bool) (c : Ctx) (s : State) (ps : List Place) (bs : List Byte) (u : State)
    (bar : Option Nat) : State :=
  retireTo c 1 (if c.sp.wait = .stalled then some (s.tag c.grp.core a.tag.val).key else none) (c.sp.pc + 8)
    (acceptXfer c a.tag.val bar (viewOf c s)
      (ps.zipIdx.map (fun p => (p.1, readPair c.grp a.recp + BitVec.ofNat 64 p.2))) (xferOf fn a mcast c bs) u)

/-- A loop as its group starts it, with its next id (R343, R344). -/
def newLoop (op : LoopOp) (c : Ctx) (octet : List Word) (fa fb : List Byte) (mod : Nat) : Loop :=
  { op := op, id := c.grp.aloop, octet := octet, fa := fa, fb := fb, mod := mod, progress := 0, sat := false,
    iovf := false, done := none, victims := [], pendTabs := [], decided := none }

/-- The format block of an octet word's half: 32 bytes of SPAD at 32 times the half (R323, R341, R368). -/
def fmtAt (c : Ctx) (s : State) (w : Word) (half : Nat) : List Byte := spadBytes c s (32 * bits w.toNat (16 * half) 16) 32

/-- An Almanac command that reads SPAD, with a loop to start, need not wait: the stores have drained and fewer than eight
loops are in flight (R22, R344). -/
def LoopRoom (c : Ctx) (s : State) : Prop := c.grp.fifo = [] ∧ (s.loopsOf c.gid).length < 8

/-- A Chart command can be accepted: its tag is free and no waiting acceptance step holds its requests or pages back (R292,
R393). -/
def ChartFree (c : Ctx) (s : State) (tag : Nat) (hs ps : List Nat) : Prop :=
  s.tagFree c.grp.core tag = true ∧ s.chartHeld hs ps = false

/-- A Chart command has taken its CSEQ on the issuing die, and on a page's die (R390). -/
def Ctx.sequenced (c : Ctx) (s : State) (n : Nat) : State × Word :=
  (s.takeSeq c.die).1.seqFor c.die (s.takeSeq c.die).2 n

/-- The bytes of a SPAD range count as source reads of the newest command in Reckoning mode (R212). -/
def readsFrom (c : Ctx) (off n : Nat) (s : State) : State :=
  if c.reckon then s.sourceAccess s.uid (spadPlaces c (runOf off n)) else s

/-- The entries of a gather's list: handle, layer group, first token and count (R411). -/
def gatherList (c : Ctx) (s : State) (off n : Nat) : List (List Word) :=
  (List.range n).map (fun i => (List.range 4).map (fun j =>
    BitVec.ofNat 32 (leNat (((spadBytes c s off (16 * n)).drop (16 * i + 4 * j)).take 4))))

/-- Word `i` of an octet, as a number. -/
def octetAt (c : Ctx) (o : Fin 6) (i : Nat) : Nat := ((octetOf c o).getD i 0).toNat

/-- KVGATH's octet passes every check at issue, and the stores have drained: `b` is the offset of its barrier object, `sd` that
of the scales it gathers (R411, R412). -/
structure GatherOctet (c : Ctx) (s : State) (bar : Reg) (o : Fin 6) (b sd : Option Nat) : Prop where
  scales : sd = if octetAt c o 4 = 0xFFFFFFFF then none else some (octetAt c o 4)
  fields : octetAt c o 6 = 0 ∧ octetAt c o 7 = 0 ∧ 1 ≤ octetAt c o 1 ∧ octetAt c o 1 ≤ 64
  inside : octetAt c o 0 + 16 * octetAt c o 1 ≤ s.spadb c.team ∧ octetAt c o 2 < s.spadb c.team ∧
    octetAt c o 3 < s.spadb c.team ∧ ∀ x, sd = some x → x < s.spadb c.team
  aligned : octetAt c o 0 % 16 = 0 ∧ octetAt c o 2 % 32 = 0 ∧ octetAt c o 3 % 32 = 0 ∧ ∀ x, sd = some x → x % 2 = 0
  object : if bar = .zero then b = none else
    ∃ p, locate c s (c.rd bar 0) 16 16 true = .ok p ∧ b = some (p.2 - c.team.spadBase)
  drained : c.grp.fifo = []

/-- The entries of a gather's list, its tokens and its destinations are in range of a model (R412). -/
structure GatherFits (c : Ctx) (s : State) (o : Fin 6) (sd : Option Nat) (es : List (List Word)) (m : Model) (total : Nat) :
    Prop where
  entries : ∀ e ∈ es, (e.getD 1 0).toNat < m.nlg ∧ (e.getD 3 0).toNat ≠ 0
  tokens : total ≤ 65535
  rows : octetAt c o 2 + total * m.rowb ≤ s.spadb c.team ∧ octetAt c o 3 + total * m.rowb ≤ s.spadb c.team
  scales : ∀ x, sd = some x → m.kvtype ≠ 3 ∧ x + 2 * total ≤ s.spadb c.team

/-- KVAPP's octet passes every check at issue, and the stores have drained: `ss` is the offset of its scales (R415, R416). -/
structure AppendOctet (c : Ctx) (s : State) (o : Fin 6) (ss : Option Nat) : Prop where
  scales : ss = if octetAt c o 6 = 0xFFFFFFFF then none else some (octetAt c o 6)
  fields : octetAt c o 1 < 65536 ∧ octetAt c o 7 = 0
  inside : octetAt c o 4 < s.spadb c.team ∧ octetAt c o 5 < s.spadb c.team ∧ ∀ x, ss = some x → x < s.spadb c.team
  aligned : octetAt c o 4 % 32 = 0 ∧ octetAt c o 5 % 32 = 0
  drained : c.grp.fifo = []

/-- KVAPP as it is accepted, and the machine once it has taken its CSEQ, also on the die of the page it starts in (R390). -/
def appendStart (c : Ctx) (s : State) (o : Fin 6) (ss : Option Nat) (m : Model) : State × Append :=
  let q := s.takeSeq c.die
  let a : Append :=
    { handle := octetAt c o 0, lg := octetAt c o 1, pos := octetAt c o 2, n := octetAt c o 3, ksrc := octetAt c o 4,
      vsrc := octetAt c o 5, ssrc := ss, waitFor := none, starter := false, seq := q.2, there := q.2, plan := [], next := 0 }
  match q.1.appendFirst a m with
  | some n => ((q.1.seqFor c.die q.2 n).1, { a with there := (q.1.seqFor c.die q.2 n).2 })
  | none => (q.1, a)

/-- KVAPP taken: accepted, and in Reckoning mode its rows and scales are source reads (R212, R417). -/
def appendTaken (c : Ctx) (tag : Nat) (a : Append) (m : Model) (k : ChartCmd) (s : State) : State :=
  let t := chartAccept c tag none [] k s
  retire c (if c.reckon then
    t.sourceAccess t.uid (spadPlaces c (runOf a.ksrc (a.n * m.rowb) ++ runOf a.vsrc (a.n * m.rowb) ++
      (match a.ssrc with
      | some x => runOf x (2 * a.n)
      | none => [])))
  else t)

/-- A Meridian command with a local range is neither held back by its tag, by a store of its group or by a team swapped out,
nor stopped by R498: the range lies in an aperture (R292, R498, R499). -/
structure NetReady (c : Ctx) (s : State) (tag : Nat) (addr : DWord) (n : Nat) : Prop where
  free : s.tagFree c.grp.core tag = true
  drained : c.grp.fifo = []
  inside : (viewPlace (viewOf c s) addr n).isSome = true
  here : s.namesAway c.team addr n = false

/-- The status that a Meridian command has as it is accepted: the first of RANGE, NOROUTE and LEASE that applies, or 0 (R496). -/
def netCode (range : Prop) [Decidable range] (route : Nat) (access : Bool) : Nat :=
  if range then 0x86 else if route ≠ 0 then route else if access then 0 else 0x12

/-- What NRED's operand block asks for (R497, R500). -/
def nredOf (op : NredOp) (blk : List Byte) : Net :=
  let w := fun (o n : Nat) => leNat ((blk.drop o).take n)
  { Net.blank .red with
    src := BitVec.ofNat 64 (w 0x20 8), dst := BitVec.ofNat 64 (w 0x28 8), len := w 0x10 4 * (if op = .addBf16 then 2 else 4),
    waits := [w 0x08 4], coll := w 0x00 4, round := w 0x04 4, npart := w 0x0C 4, count := w 0x10 4, op := nredCode op, ord := true }

/-- NRED's operand block is read: no store of its group and no tag holds it back, and its locator names the 48 bytes `ps`
(R498, R500). -/
structure NredBlock (c : Ctx) (s : State) (tag : Nat) (blk : Reg) (core off : Nat) (ps : List Place) : Prop where
  free : s.tagFree c.grp.core tag = true
  drained : c.grp.fifo = []
  located : locate c s (c.rd blk 0) 48 16 true = .ok (core, off)
  places : ps = (List.range 48).map (fun i => ((.spad core, off + i) : Place))
  accessible : SpanOk c s (ownSpad c off) ps .read true

/-- Helm takes the next entry of ring `q`: the entry, and the machine with the ring's head and the rotation moved on (R435). -/
def State.ringEntry (s : State) (q : Nat) : Entry × State :=
  let k := s.queue q
  let r := s.readPhys (k.rbase.toNat + 64 * (k.rhead.toNat % 2 ^ k.rlog)) 64
  (parseEntry r.2, (r.1.modQueue q (fun k => { k with rhead := k.rhead + 1 })).modHelm (fun h =>
    { h with turn := (q + 1) % 64 }))

/-- It is ring `q`'s turn, and its entry has this command: `e` is the entry and `u` the machine once it is taken. -/
structure RingGives (s : State) (q cmd : Nat) (e : Entry) (u : State) : Prop where
  ready : s.pkg.ready = true
  turn : s.ringTurn = some q
  entry : s.ringEntry q = (e, u)
  command : e.cmd = cmd

end Sys2Proof.Machine
end

