-- ==== Sys2Proof/Certificates/Slice0/Obligations.lean ====
section
/-! DEFINITION. The statements for the provers (OBLIGATIONS.json), each with the rules of spec/ it rests on. -/

open Sys2Proof Sys2Proof.Machine

/-- MOV, IADD, ISUB, AND, OR, XOR, SHL, SHR, SAR, IMIN, IMAX and IMUL, with a register or an immediate, complete with
their result in D and nothing else changed. For each of the 23 forms of opcodes 0x00 to 0x0B that issues with nothing
in its way (Clear), exec answers a next state in which D alone reads as the result (a v register in the participating
lanes, an s or h register the one value, x the affine values, zero nothing), the split stands at the next word, ICNT
and LTIME have advanced by one instruction, and no other register, mask register, byte of memory or other state has
changed (Done). The immediate is sign-extended. What the named functions compute is IntegerValues. (R58; R62; R64;
R65; R70; R167; R234) -/
def Obligations.IntegerResults : Prop :=
  (∀ (d a : Reg) (g : Guard),
    Gives (.mov d a g) d (fun c l => c.rd a l)) ∧
  (∀ (d : Reg) (imm : BitVec 24) (g : Guard),
    Gives (.movImm d imm g) d (fun _ _ => immInt imm)) ∧
  (∀ (m : SatMode) (d a b : Reg) (g : Guard),
    Gives (.iadd m d a b g) d (fun c l => iadd32 m (c.rd a l) (c.rd b l))) ∧
  (∀ (m : SatMode) (d a : Reg) (imm : BitVec 24) (g : Guard),
    Gives (.iaddImm m d a imm g) d (fun c l => iadd32 m (c.rd a l) (immInt imm))) ∧
  (∀ (m : SatMode) (d a b : Reg) (g : Guard),
    Gives (.isub m d a b g) d (fun c l => isub32 m (c.rd a l) (c.rd b l))) ∧
  (∀ (m : SatMode) (d a : Reg) (imm : BitVec 24) (g : Guard),
    Gives (.isubImm m d a imm g) d (fun c l => isub32 m (c.rd a l) (immInt imm))) ∧
  (∀ (d a b : Reg) (g : Guard),
    Gives (.iand d a b g) d (fun c l => c.rd a l &&& c.rd b l)) ∧
  (∀ (d a : Reg) (imm : BitVec 24) (g : Guard),
    Gives (.iandImm d a imm g) d (fun c l => c.rd a l &&& immInt imm)) ∧
  (∀ (d a b : Reg) (g : Guard),
    Gives (.ior d a b g) d (fun c l => c.rd a l ||| c.rd b l)) ∧
  (∀ (d a : Reg) (imm : BitVec 24) (g : Guard),
    Gives (.iorImm d a imm g) d (fun c l => c.rd a l ||| immInt imm)) ∧
  (∀ (d a b : Reg) (g : Guard),
    Gives (.ixor d a b g) d (fun c l => c.rd a l ^^^ c.rd b l)) ∧
  (∀ (d a : Reg) (imm : BitVec 24) (g : Guard),
    Gives (.ixorImm d a imm g) d (fun c l => c.rd a l ^^^ immInt imm)) ∧
  (∀ (d a b : Reg) (g : Guard),
    Gives (.shl d a b g) d (fun c l => shl32 (c.rd a l) (c.rd b l))) ∧
  (∀ (d a : Reg) (imm : BitVec 24) (g : Guard),
    Gives (.shlImm d a imm g) d (fun c l => shl32 (c.rd a l) (immInt imm))) ∧
  (∀ (d a b : Reg) (g : Guard),
    Gives (.shr d a b g) d (fun c l => shr32 (c.rd a l) (c.rd b l))) ∧
  (∀ (d a : Reg) (imm : BitVec 24) (g : Guard),
    Gives (.shrImm d a imm g) d (fun c l => shr32 (c.rd a l) (immInt imm))) ∧
  (∀ (d a b : Reg) (g : Guard),
    Gives (.sar d a b g) d (fun c l => sar32 (c.rd a l) (c.rd b l))) ∧
  (∀ (d a : Reg) (imm : BitVec 24) (g : Guard),
    Gives (.sarImm d a imm g) d (fun c l => sar32 (c.rd a l) (immInt imm))) ∧
  (∀ (u : Bool) (d a b : Reg) (g : Guard),
    Gives (.imin u d a b g) d (fun c l => imin32 u (c.rd a l) (c.rd b l))) ∧
  (∀ (u : Bool) (d a : Reg) (imm : BitVec 24) (g : Guard),
    Gives (.iminImm u d a imm g) d (fun c l => imin32 u (c.rd a l) (immInt imm))) ∧
  (∀ (u : Bool) (d a b : Reg) (g : Guard),
    Gives (.imax u d a b g) d (fun c l => imax32 u (c.rd a l) (c.rd b l))) ∧
  (∀ (u : Bool) (d a : Reg) (imm : BitVec 24) (g : Guard),
    Gives (.imaxImm u d a imm g) d (fun c l => imax32 u (c.rd a l) (immInt imm))) ∧
  (∀ (m : SatMode) (d a b : Reg) (g : Guard),
    Gives (.imul m d a b g) d (fun c l => imul32 m (c.rd a l) (c.rd b l))) ∧
  (∀ (m : SatMode) (d a : Reg) (imm : BitVec 24) (g : Guard),
    Gives (.imulImm m d a imm g) d (fun c l => imul32 m (c.rd a l) (immInt imm)))

/-- The 0x10 group, MOVW and MOVX complete with their result in D and nothing else changed. For ANDN, NOT, ROTL, SHF,
IMULH, IMULHU, IMAD, IABS, INEG, SEL, BYSEL, CLZ, POPC, BREV, BFE, BFI, MOVW and MOVX that issue clear, exec answers a
next state in which D alone reads as the result, with the frame of Done. (R64; R70; R235; R236; R237) -/
def Obligations.IntegerGroupResults : Prop :=
  (∀ (d a b : Reg) (g : Guard),
    Gives (.andn d a b g) d (fun c l => c.rd a l &&& ~~~(c.rd b l))) ∧
  (∀ (d a : Reg) (g : Guard),
    Gives (.inot d a g) d (fun c l => ~~~(c.rd a l))) ∧
  (∀ (d a b : Reg) (g : Guard),
    Gives (.rotl d a b g) d (fun c l => rotl32 (c.rd a l) (c.rd b l))) ∧
  (∀ (left : Bool) (d a b e : Reg) (g : Guard),
    Gives (.shf left d a b e g) d (fun c l => shf32 left (c.rd a l) (c.rd b l) (c.rd e l))) ∧
  (∀ (d a b : Reg) (g : Guard),
    Gives (.imulh d a b g) d (fun c l => imulh32 (c.rd a l) (c.rd b l))) ∧
  (∀ (d a b : Reg) (g : Guard),
    Gives (.imulhu d a b g) d (fun c l => imulhu32 (c.rd a l) (c.rd b l))) ∧
  (∀ (sat : Bool) (d a b e : Reg) (g : Guard),
    Gives (.imad sat d a b e g) d (fun c l => imad32 sat (c.rd a l) (c.rd b l) (c.rd e l))) ∧
  (∀ (sat : Bool) (d a : Reg) (g : Guard),
    Gives (.iabs sat d a g) d (fun c l => iabs32 sat (c.rd a l))) ∧
  (∀ (sat : Bool) (d a : Reg) (g : Guard),
    Gives (.ineg sat d a g) d (fun c l => ineg32 sat (c.rd a l))) ∧
  (∀ (d a b e : Reg) (g : Guard),
    Gives (.sel d a b e g) d (fun c l => sel32 (c.rd a l) (c.rd b l) (c.rd e l))) ∧
  (∀ (d a b e : Reg) (g : Guard),
    Gives (.bysel d a b e g) d (fun c l => bysel32 (c.rd a l) (c.rd b l) (c.rd e l))) ∧
  (∀ (d a : Reg) (g : Guard),
    Gives (.clz d a g) d (fun c l => clz32 (c.rd a l))) ∧
  (∀ (d a : Reg) (g : Guard),
    Gives (.popc d a g) d (fun c l => popc32 (c.rd a l))) ∧
  (∀ (d a : Reg) (g : Guard),
    Gives (.brev d a g) d (fun c l => brev32 (c.rd a l))) ∧
  (∀ (sg : Bool) (d a b : Reg) (g : Guard),
    Gives (.bfe sg d a b g) d (fun c l => bfe32 sg (c.rd a l) (c.rd b l))) ∧
  (∀ (d a b e : Reg) (g : Guard),
    Gives (.bfi d a b e g) d (fun c l => bfi32 (c.rd a l) (c.rd b l) (c.rd e l))) ∧
  (∀ (d : Reg) (imm : BitVec 32) (g : Guard),
    Gives (.movw d imm g) d (fun _ _ => imm)) ∧
  (∀ (d : Reg) (imm : BitVec 32) (g : Guard),
    Gives (.movx d imm g) d (fun _ l => (imm.extractLsb' 0 16).signExtend 32 + BitVec.ofNat 32 l * (imm.extractLsb' 16 16).signExtend 32))

/-- The integer operations compute the exact result, wrapped, saturated or shifted as the spec's equations say. For all
32-bit a, b: wrapping IADD, ISUB and IMUL are the sum, difference and product modulo 2^32; with .SAT the signed exact
result clamped to the signed range; with .USAT the unsigned exact result clamped to the unsigned range; SHL multiplies
by 2^(b mod 32) modulo 2^32, SHR divides by it, SAR divides the signed value rounding down; IMIN and IMAX are the
lesser and greater, signed or unsigned; IMULH and IMULHU are bits 63:32 of the exact product; IMAD.SAT, IABS.SAT and
INEG.SAT clamp; and the conditions of ISET compare signed or unsigned. (R234; R235; R238) -/
def Obligations.IntegerValues : Prop :=
  ∀ a b c : Word,
    (iadd32 .wrap a b).toNat = (a.toNat + b.toNat) % 2 ^ 32 ∧
    (iadd32 .sat a b).toInt = max (-2 ^ 31) (min (2 ^ 31 - 1) (a.toInt + b.toInt)) ∧
    (iadd32 .usat a b).toNat = min (2 ^ 32 - 1) (a.toNat + b.toNat) ∧
    (isub32 .wrap a b).toNat = (a.toNat + (2 ^ 32 - b.toNat)) % 2 ^ 32 ∧
    (isub32 .sat a b).toInt = max (-2 ^ 31) (min (2 ^ 31 - 1) (a.toInt - b.toInt)) ∧
    (isub32 .usat a b).toNat = a.toNat - b.toNat ∧
    (imul32 .wrap a b).toNat = (a.toNat * b.toNat) % 2 ^ 32 ∧
    (imul32 .sat a b).toInt = max (-2 ^ 31) (min (2 ^ 31 - 1) (a.toInt * b.toInt)) ∧
    (imul32 .usat a b).toNat = min (2 ^ 32 - 1) (a.toNat * b.toNat) ∧
    (shl32 a b).toNat = a.toNat * 2 ^ (b.toNat % 32) % 2 ^ 32 ∧
    (shr32 a b).toNat = a.toNat / 2 ^ (b.toNat % 32) ∧
    (sar32 a b).toInt = a.toInt / 2 ^ (b.toNat % 32) ∧
    (imin32 false a b).toInt = min a.toInt b.toInt ∧ (imin32 true a b).toNat = min a.toNat b.toNat ∧
    (imax32 false a b).toInt = max a.toInt b.toInt ∧ (imax32 true a b).toNat = max a.toNat b.toNat ∧
    (imulh32 a b).toInt = a.toInt * b.toInt / 2 ^ 32 ∧ (imulhu32 a b).toNat = a.toNat * b.toNat / 2 ^ 32 ∧
    (imad32 true a b c).toInt = max (-2 ^ 31) (min (2 ^ 31 - 1) (a.toInt * b.toInt + c.toInt)) ∧
    (iabs32 true a).toInt = min (2 ^ 31 - 1) (max a.toInt (-a.toInt)) ∧
    (ineg32 true a).toInt = min (2 ^ 31 - 1) (-a.toInt) ∧
    (icond .eq a b = decide (a = b)) ∧ (icond .ne a b = decide (a ≠ b)) ∧
    (icond .lt a b = decide (a.toInt < b.toInt)) ∧ (icond .le a b = decide (a.toInt ≤ b.toInt)) ∧
    (icond .gt a b = decide (b.toInt < a.toInt)) ∧ (icond .ge a b = decide (b.toInt ≤ a.toInt)) ∧
    (icond .ltu a b = decide (a.toNat < b.toNat)) ∧ (icond .leu a b = decide (a.toNat ≤ b.toNat)) ∧
    (icond .gtu a b = decide (b.toNat < a.toNat)) ∧ (icond .geu a b = decide (b.toNat ≤ a.toNat))

/-- A pair word reads all its sources before either slot writes, and retires as two instructions. A pair word that issues
clear completes: the second slot's D reads as its operation of the values before the word, the first slot's D likewise
where the second does not overwrite it, both in every lane of the split's mask, the counters advance by two, and
nothing else changes (Done). (R58; R73; R74) -/
def Obligations.PairWords : Prop :=
  ∀ p q c s, Clear false (.pairWord p q) c s → c.act = c.sp.mask ∧
    ∃ t, exec (.pairWord p q) s = .next t ∧
      Done c 2 (c.sp.pc + 8)
        (fun r l old => wrote c.sp.mask q.d (fun l => pairOp q.op (c.rd q.d l) (slotSrc c q l)) r l
          (wrote c.sp.mask p.d (fun l => pairOp p.op (c.rd p.d l) (slotSrc c p l)) r l old))
        keepMasks keepRest (s.noted c (.pairWord p q)) t

/-- ISET, FSET and the mask operations write one mask register and nothing else. ISET and FSET that issue clear complete,
and write the condition to the bits of the participating lanes alone, replaced, anded or ored with the old bits; MAND,
MOR, MXOR, MNOT and MMOV write all 32 bits, and a write to m0 is discarded; MGET, MPOP and MFFS write the mask, the
number of its set bits, or the number of its lowest set bit (32 when there is none) to D. Nothing else changes (Done).
(R66; R70; R238; R239; R264) -/
def Obligations.MaskOperations : Prop :=
  (∀ (cond : ICond) (u : MaskUpd) (d : Fin 8) (a b : Reg) (g : Guard),
    GivesMask (.iset cond u d a b g) d (fun c => maskOfLanes (fun l =>
      let old := (readMask c.grp d).getLsbD l
      let new := icond cond (c.rd a l) (c.rd b l)
      if laneIn c.act l then (match u with | .replace => new | .and => old && new | .or => old || new) else old))) ∧
  (∀ (cond : FCond) (u : MaskUpd) (d : Fin 8) (a b : Reg) (g : Guard),
    GivesMask (.fset cond u d a b g) d (fun c => maskOfLanes (fun l =>
      let old := (readMask c.grp d).getLsbD l
      let new := fcond cond (c.rd a l) (c.rd b l)
      if laneIn c.act l then (match u with | .replace => new | .and => old && new | .or => old || new) else old))) ∧
  (∀ (d a b : Fin 8) (g : Guard),
    GivesMask (.mand d a b g) d (fun c => readMask c.grp a &&& readMask c.grp b) ∧
    GivesMask (.mor d a b g) d (fun c => readMask c.grp a ||| readMask c.grp b) ∧
    GivesMask (.mxor d a b g) d (fun c => readMask c.grp a ^^^ readMask c.grp b)) ∧
  (∀ (d a : Fin 8) (g : Guard), GivesMask (.mnot d a g) d (fun c => ~~~readMask c.grp a)) ∧
  (∀ (d : Fin 8) (a : Reg) (g : Guard), GivesMask (.mmov d a g) d (fun c => c.rd a 0)) ∧
  (∀ (d : Reg) (a : Fin 8) (g : Guard),
    Gives (.mget d a g) d (fun c _ => readMask c.grp a) ∧
    Gives (.mpop d a g) d (fun c _ => BitVec.ofNat 32 ((List.range 32).countP (fun l => (readMask c.grp a).getLsbD l))) ∧
    Gives (.mffs d a g) d (fun c _ =>
      BitVec.ofNat 32 (((List.range 32).find? (fun l => (readMask c.grp a).getLsbD l)).getD 32)))

/-- SHAPE, LXCH, LPRED, MATCH, SCAN and RDUX complete with the values of the participating lanes alone. Each that issues
clear completes with D alone changed (Done), and for all but SHAPE the write of D pending until it lands (R122). LXCH
gives a lane the value of its source lane when that lane is in 0 to 31 and participates, else the lane's own fill;
LPRED, MATCH as their tables say; SCAN the tree of distances 1, 2, 4, 8, 16 and RDUX the pairwise tree, over the
values with the identity in the lanes that do not participate; SHAPE the encoding code of a v register, 1 for x, else
0. (R119; R228; R240; R241; R242; R243; R244; R245) -/
def Obligations.LaneOperations : Prop :=
  (∀ (d a : Reg) (g : Guard), Gives (.shape d a g) d (fun c _ =>
    match a with
    | .v _ => BitVec.ofNat 32 (encCode (c.rd a))
    | .x _ => 1
    | _ => 0)) ∧
  (∀ (op : LxchOp) (d a b fill : Reg) (g : Guard), GivesLate (.lxch op d a b fill g) d (fun c l =>
    let n : Nat := (c.rd b l).toNat
    let j : Int := match op with
      | .at => n
      | .back => l - n
      | .ahead => l + n
      | .flip => ((l ^^^ (n % 32) : Nat) : Int)
    if 0 ≤ j ∧ j ≤ 31 ∧ laneIn c.act j.toNat then c.rd a j.toNat else c.rd fill l)) ∧
  (∀ (inv : Bool) (d a : Reg) (g : Guard),
    GivesLate (.lpred .some inv d a g) d (fun c _ => if (List.range 32).any (fun l => laneIn c.act l && (c.rd a l != 0) != inv) then 1 else 0) ∧
    GivesLate (.lpred .every inv d a g) d (fun c _ => if (List.range 32).all (fun l => !laneIn c.act l || (c.rd a l != 0) != inv) then 1 else 0) ∧
    GivesLate (.lpred .bits inv d a g) d (fun c _ => maskOfLanes (fun l => laneIn c.act l && (c.rd a l != 0) != inv)) ∧
    GivesLate (.lpred .same inv d a g) d (fun c _ =>
      if (List.range 32).all (fun l => (List.range 32).all (fun k =>
        !laneIn c.act l || !laneIn c.act k || c.rd a l == c.rd a k)) then 1 else 0) ∧
    GivesLate (.lpred .count inv d a g) d (fun c _ =>
      BitVec.ofNat 32 ((List.range 32).countP (fun l => laneIn c.act l && (c.rd a l != 0) != inv)))) ∧
  (∀ (d a : Reg) (g : Guard), GivesLate (.matchLanes d a g) d (fun c l =>
    maskOfLanes (fun k => laneIn c.act k && c.rd a k == c.rd a l))) ∧
  (∀ (op : ScanOp) (ty : ScanTy) (d a : Reg) (g : Guard), GivesLate (.scan op ty d a g) d (fun c l =>
    let e := scanIdent op ty
    let level := fun (t : Nat → Word) (n k : Nat) => if n ≤ k then scanOp op ty (t (k - n)) (t k) else t k
    let t := [1, 2, 4, 8, 16].foldl level (fun k => if laneIn c.act k then c.rd a k else e)
    if op = .addx then (if l = 0 then e else t (l - 1)) else t l)) ∧
  (∀ (op : RduxOp) (u : Bool) (d a : Reg) (g : Guard), GivesLate (.rdux op u d a g) d (fun c _ =>
    let up := fun (t : Nat → Word) (k : Nat) => rduxOp op u (t (2 * k)) (t (2 * k + 1))
    up (up (up (up (up (fun k => if laneIn c.act k then c.rd a k else rduxIdent op u))))) 0))

/-- The FP32 operations and the special functions complete with their result in D and nothing else changed. FADD, FMUL,
FMIN and FMAX with a register or an immediate, FSUB, FFMA, FABS, FNEG, FCPS, FRND, FCLASS, FRCP, FRSQ, FSQRT, FEX2,
FLG2, FTANH, FSIN and FCOS that issue clear complete with D alone changed (Done). The values of the special functions
within their bounds are free ones (assumption log 8), but for the results R266 fixes. (R62; R64; R70; R258; R261;
R262; R263; R265; R266) -/
def Obligations.FloatResults : Prop :=
  (∀ (r : Round) (d a b : Reg) (g : Guard),
    Gives (.fadd r d a b g) d (fun c l => fadd32 r (c.rd a l) (c.rd b l))) ∧
  (∀ (r : Round) (d a : Reg) (imm : BitVec 24) (g : Guard),
    Gives (.faddImm r d a imm g) d (fun c l => fadd32 r (c.rd a l) (immFloat imm))) ∧
  (∀ (r : Round) (d a b : Reg) (g : Guard),
    Gives (.fmul r d a b g) d (fun c l => fmul32 r (c.rd a l) (c.rd b l))) ∧
  (∀ (r : Round) (d a : Reg) (imm : BitVec 24) (g : Guard),
    Gives (.fmulImm r d a imm g) d (fun c l => fmul32 r (c.rd a l) (immFloat imm))) ∧
  (∀ (d a b : Reg) (g : Guard),
    Gives (.fmin d a b g) d (fun c l => fmin32 (c.rd a l) (c.rd b l))) ∧
  (∀ (d a : Reg) (imm : BitVec 24) (g : Guard),
    Gives (.fminImm d a imm g) d (fun c l => fmin32 (c.rd a l) (immFloat imm))) ∧
  (∀ (d a b : Reg) (g : Guard),
    Gives (.fmax d a b g) d (fun c l => fmax32 (c.rd a l) (c.rd b l))) ∧
  (∀ (d a : Reg) (imm : BitVec 24) (g : Guard),
    Gives (.fmaxImm d a imm g) d (fun c l => fmax32 (c.rd a l) (immFloat imm))) ∧
  (∀ (r : Round) (d a b : Reg) (g : Guard),
    Gives (.fsub r d a b g) d (fun c l => fsub32 r (c.rd a l) (c.rd b l))) ∧
  (∀ (r : Round) (d a b e : Reg) (g : Guard),
    Gives (.ffma r d a b e g) d (fun c l => ffma32 r (c.rd a l) (c.rd b l) (c.rd e l))) ∧
  (∀ (d a : Reg) (g : Guard),
    Gives (.fabs d a g) d (fun c l => c.rd a l &&& 0x7FFFFFFF)) ∧
  (∀ (d a : Reg) (g : Guard),
    Gives (.fneg d a g) d (fun c l => c.rd a l ^^^ 0x80000000)) ∧
  (∀ (d a b : Reg) (g : Guard),
    Gives (.fcps d a b g) d (fun c l => (c.rd a l &&& 0x7FFFFFFF) ||| (c.rd b l &&& 0x80000000))) ∧
  (∀ (r : Round) (d a : Reg) (g : Guard),
    Gives (.frnd r d a g) d (fun c l => frnd32 r (c.rd a l))) ∧
  (∀ (d a : Reg) (g : Guard),
    Gives (.fclass d a g) d (fun c l => BitVec.ofNat 32 (2 ^ fclassBit (c.rd a l)))) ∧
  (∀ (d a : Reg) (g : Guard),
    Gives (.frcp d a g) d (fun c l => frcp32 (c.rd a l))) ∧
  (∀ (d a : Reg) (g : Guard),
    Gives (.frsq d a g) d (fun c l => frsq32 (c.rd a l))) ∧
  (∀ (d a : Reg) (g : Guard),
    Gives (.fsqrt d a g) d (fun c l => fsqrt32 (c.rd a l))) ∧
  (∀ (d a : Reg) (g : Guard),
    Gives (.fex2 d a g) d (fun c l => fex232 (c.rd a l))) ∧
  (∀ (d a : Reg) (g : Guard),
    Gives (.flg2 d a g) d (fun c l => flg232 (c.rd a l))) ∧
  (∀ (d a : Reg) (g : Guard),
    Gives (.ftanh d a g) d (fun c l => ftanh32 (c.rd a l))) ∧
  (∀ (d a : Reg) (g : Guard),
    Gives (.fsin d a g) d (fun c l => fsin32 (c.rd a l))) ∧
  (∀ (d a : Reg) (g : Guard),
    Gives (.fcos d a g) d (fun c l => fcos32 (c.rd a l)))

/-- Packed BF16, the conversions, QNT4, DQ4 and SCALE complete with their result in D and nothing else changed. HADD2,
HMUL2, HFMA2, HMAX2, HMIN2, CVTFI, CVTIF, CVTFH, CVTHF, CVTN8, CVTF8, QNT4, DQ4 and SCALE that issue clear complete
with D alone changed (Done); CVTN8 and QNT4 keep the other bytes or nibbles of D. (R64; R70; R267; R269; R270; R271;
R272; R273) -/
def Obligations.PackedAndConversions : Prop :=
  (∀ (r : Round) (d a b : Reg) (g : Guard),
    Gives (.hadd2 r d a b g) d (fun c l => hadd2w r (c.rd a l) (c.rd b l))) ∧
  (∀ (r : Round) (d a b : Reg) (g : Guard),
    Gives (.hmul2 r d a b g) d (fun c l => hmul2w r (c.rd a l) (c.rd b l))) ∧
  (∀ (r : Round) (d a b e : Reg) (g : Guard),
    Gives (.hfma2 r d a b e g) d (fun c l => hfma2w r (c.rd a l) (c.rd b l) (c.rd e l))) ∧
  (∀ (d a b : Reg) (g : Guard),
    Gives (.hmax2 d a b g) d (fun c l => hminmax2w true (c.rd a l) (c.rd b l))) ∧
  (∀ (d a b : Reg) (g : Guard),
    Gives (.hmin2 d a b g) d (fun c l => hminmax2w false (c.rd a l) (c.rd b l))) ∧
  (∀ (u : Bool) (r : Round) (d a : Reg) (g : Guard),
    Gives (.cvtfi u r d a g) d (fun c l => cvtfi32 u r (c.rd a l))) ∧
  (∀ (u : Bool) (r : Round) (d a : Reg) (g : Guard),
    Gives (.cvtif u r d a g) d (fun c l => cvtif32 u r (c.rd a l))) ∧
  (∀ (r : Round) (d a b : Reg) (g : Guard),
    Gives (.cvtfh r d a b g) d (fun c l => toBf16 r (fval (c.rd b l)) ++ toBf16 r (fval (c.rd a l)))) ∧
  (∀ (hi : Bool) (d a : Reg) (g : Guard),
    Gives (.cvthf hi d a g) d (fun c l => cvthf32 (bfElem (c.rd a l) (if hi then 1 else 0)))) ∧
  (∀ (byte : Fin 4) (nan e5 : Bool) (d a b : Reg) (g : Guard),
    Gives (.cvtn8 byte nan e5 d a b g) d (fun c l => setByte (c.rd d l) byte.val (BitVec.ofNat 8 (quantise (fval (c.rd a l)) (scaleF32 c b l) (n8Fmt e5) nan false 0)))) ∧
  (∀ (byte : Fin 4) (e5 : Bool) (d a : Reg) (g : Guard),
    Gives (.cvtf8 byte e5 d a g) d (fun c l => cvtf832 e5 (byteOf (c.rd a l) byte.val))) ∧
  (∀ (sf : ScaleFmt) (bsv : Bool) (d a b e : Reg) (nib : Fin 8) (g : Guard),
    Gives (.qnt4 sf bsv d a b e nib g) d (fun c l => setNibble (c.rd d l) nib.val (BitVec.ofNat 4 (quantise (fval (c.rd a l)) (scaleVal sf c b l) .n4 false bsv (byteOf (c.rd e l) 0))))) ∧
  (∀ (sf : ScaleFmt) (d a b e : Reg) (nib : Fin 8) (g : Guard),
    Gives (.dq4 sf d a b e nib g) d (fun c l => toF32 .rn (mulF (scaleVal sf c b l) (fvalN4 ((c.rd a l).extractLsb' (4 * nib.val) 4) (byteOf (c.rd e l) 0))))) ∧
  (∀ (bf : ScaleFmt) (tf : TScaleFmt) (d a b e : Reg) (g : Guard),
    Gives (.scale bf tf d a b e g) d (fun c l => toF32 .rn (mulF (mulF (fval (c.rd a l)) (scaleVal bf c b l)) (tscaleVal tf c e l))))

/-- LD and LDU complete with the loaded values in D, their writes pending, and no other register changed. LD, of any size
and order, that issues clear and whose lanes' addresses pass every check of R224 and need not wait, completes: each
participating lane's destination registers read as the little-endian value of the bytes at its address, taken from the
group's youngest FIFO entry that holds each byte and otherwise as its core sees it (seenByte, which is the byte in
memory for a core that lags behind nowhere: log entry 7), once an ordered load has acquired at its scope, extended as
the size says; the writes of those registers are pending; every other register, every mask register and the rest of
the machine but for the access itself (accessed) are unchanged. LDU likewise, with the value at the lowest
participating lane's address for all lanes. (R64; R70; R122; R184; R188; R205; R206; R215; R216; R217; R218; R224) -/
def Obligations.LoadsComplete : Prop :=
  (∀ sz ord d base idx off g c s, Clear false (.ld sz ord d base idx off g) c s →
    let s' := s.noted c (.ld sz ord d base idx off g)
    let addr := c.addrAt base idx off
    AccessOk c s' c.act addr (ldBytes sz) .read .read false false true →
    let u := c.acquire ord (accessed c s' c.act addr (ldBytes sz) .read .read)
    ∃ t, exec (.ld sz ord d base idx off g) s = .next t ∧
      Done c 1 (c.sp.pc + 8)
        (wroteMany c.act d sz.regs (fun i l =>
          ldWord sz (u.seenNat c.grp.core c.grp.fifo (lanePlaces c u addr (ldBytes sz) .read l)) i))
        keepMasks (pendAlso (regCodes (d, sz.regs))) u t) ∧
  (∀ sz ord d base idx off g c s, Clear false (.ldu sz ord d base idx off g) c s →
    let s' := s.noted c (.ldu sz ord d base idx off g)
    let addr := c.addrAt base idx off
    let low := maskOfLanes (fun l => l == c.lowLane)
    AccessOk c s' low addr (ldBytes sz) .read .read false false true →
    let u := c.acquire ord (accessed c s' low addr (ldBytes sz) .read .read)
    ∃ t, exec (.ldu sz ord d base idx off g) s = .next t ∧
      Done c 1 (c.sp.pc + 8)
        (wroteMany c.act d sz.regs (fun i _ =>
          ldWord sz (u.seenNat c.grp.core c.grp.fifo (lanePlaces c u addr (ldBytes sz) .read c.lowLane)) i))
        keepMasks (pendAlso (regCodes (d, sz.regs))) u t) ∧
  (∀ (s : State) core es ps, (s.core core).views = [] → s.seenNat core es ps = s.loadNat es ps) ∧
  (∀ b i : Nat, ldWord .bs b i = (BitVec.ofNat 8 b).signExtend 32 ∧ ldWord .hs b i = (BitVec.ofNat 16 b).signExtend 32 ∧
    ∀ sz, sz ≠ .bs → sz ≠ .hs → ldWord sz b i = BitVec.ofNat 32 (b / 2 ^ (32 * i)))

/-- An access that stores nothing leaves every byte of every space, and every group, team, command and cluster but for its
metadata. What an access of lanes does besides its values (accessed), when its lines already bear the key of its
address space and the walker has no A bit to set: every byte of memory, SPAD and WBUF reads as before, and no group,
team, command, table or engine state changes. (R217; R514; R517; R518; R523) -/
def Obligations.ReadsKeepMemory : Prop :=
  ∀ c s act addr size need k,
    (∀ v, s.markRead c.grid v = s) →
    KeyHeld s (c.tag s) ((lanesIn act).flatMap (lanePlaces c s addr size need)) →
    c.reckon = false →
    let u := accessed c s act addr size need k
    (∀ p, u.byteAt p = s.byteAt p) ∧
    u.groups = s.groups ∧ u.teams = s.teams ∧ u.grids = s.grids ∧ u.clusters = s.clusters ∧ u.cmds = s.cmds ∧
    u.charts = s.charts ∧ u.pages = s.pages ∧ u.helm = s.helm ∧ u.mer = s.mer ∧ u.pkg = s.pkg ∧ u.lineKey = s.lineKey

/-- ST completes by entering the group's store FIFO: no register, and no byte of memory, changes yet. ST, of any size and
order, that issues clear while the group's FIFO has room and whose addresses pass every check of R224 completes: its
bytes, lowest lane first, are the youngest entry of the group's FIFO, and nothing else of the machine changes but for
the access itself (accessed). While the FIFO is full, ST changes nothing and stays at its word. (R22; R184; R188;
R219; R224) -/
def Obligations.StoresEnterTheFifo : Prop :=
  (∀ sz ord d base idx off g c s, Clear false (.st sz ord d base idx off g) c s →
    let s' := s.noted c (.st sz ord d base idx off g)
    let addr := c.addrAt base idx off
    c.grp.fifo.length < 16 → AccessOk c s' c.act addr (stBytes sz) .write .write false false false →
    let u := accessed c s' c.act addr (stBytes sz) .write .write
    let bytes := (lanesIn c.act).flatMap (fun l => (lanePlaces c u addr (stBytes sz) .write l).zip
      (((List.range sz.regs).flatMap (fun i => leBytes 4 (c.rd (regIn d i) l).toNat)).take (stBytes sz)))
    ∃ t, exec (.st sz ord d base idx off g) s = .next t ∧
      Done c 1 (c.sp.pc + 8) keepRegs keepMasks (fun g => { g with fifo := g.fifo ++ [{ bytes := bytes, key := g.key }] }) u t) ∧
  (∀ sz ord d base idx off g c s, Clear false (.st sz ord d base idx off g) c s → 16 ≤ c.grp.fifo.length →
    exec (.st sz ord d base idx off g) s = .next s)

/-- STORE_DRAIN writes the oldest FIFO entry's bytes, the last writer's staying, and no other; a load reads each byte from
the youngest entry that holds it. When a group's FIFO is not empty, no engine owns a unit its oldest entry writes, and
the entry's lines bear the group's key, STORE_DRAIN completes: every place that exists and that the entry holds reads
as the entry's last byte for it, every other byte of memory, SPAD and WBUF reads as before, and, when the group is not
draining, the entry alone leaves the FIFO. With a youngest entry e after the others, a byte loads as the last byte
that e holds for the place, else as it loads without e; with an empty FIFO it loads from memory. (R184; R188; R199;
R508) -/
def Obligations.StoreDrains : Prop :=
  (∀ grp g e es t s gr, s.groups.find? grp = some g → g.fifo = e :: es → s.teams.find? g.team = some t →
    s.grids.find? t.grid = some gr → (e.bytes.map Prod.fst).any s.owned = false →
    KeyHeld s (s.asidTag gr.asid) (e.bytes.map Prod.fst) →
    ∃ u, exec (.storeDrain grp) s = .next u ∧
      (∀ p, u.byteAt p = if placeOk s p = true then (e.byte? p).getD (s.byteAt p) else s.byteAt p) ∧
      (g.st ≠ .draining → g.releasing = 0 → u.groups = s.groups.modify grp (fun g => { g with fifo := es }))) ∧
  (∀ (s : State) (p : Place) (es : List StoreEntry) (e : StoreEntry),
    s.loadByte [] p = s.byteAt p ∧
    s.loadByte (es ++ [e]) p = (match e.byte? p with
      | some b => b
      | none => s.loadByte es p) ∧
    ∀ (bs : List (Place × Byte)) (b : Byte),
      ({ bytes := bs ++ [(p, b)], key := e.key } : StoreEntry).byte? p = some b ∧
      ({ bytes := [], key := e.key } : StoreEntry).byte? p = none)

/-- ATOM, RED and FENCE complete once the group's FIFO is empty: the lanes act one at a time, ascending. ATOM that issues
clear (in Reckoning mode with the smallest key), with an empty FIFO and every check passed, completes with each lane's
effect applied in ascending order (AtomicLanes says what one is), its old values in D, and no other register changed;
RED that Reckoning mode does not refuse and for which it finds room completes likewise and writes no register; FENCE
completes once the FIFO is empty and changes nothing but what the core's groups see of others' writes, at its scope.
(R50; R184; R189; R190; R200; R207; R220; R221; R222) -/
def Obligations.AtomicsComplete : Prop :=
  (∀ op ord d base idx off g c s, Clear true (.atom op ord d base idx off g) c s →
    let s' := s.noted c (.atom op ord d base idx off g)
    let addr := c.addrAt base idx off
    c.grp.fifo = [] → AccessOk c s' c.act addr 4 .atomic .atom true false true →
    let u := accessed c s' c.act addr 4 .atomic .atom
    let r := atomLanes c op d (lanePlaces c u addr 4 .atomic) (c.acquire ord u)
    exec (.atom op ord d base idx off g) s =
      .next (retire c (addPend c.gid (regCodes (d, 1)) (writeReg c d (fun l => r.2.getD l 0) (c.marks r.1))))) ∧
  (∀ op ord d base idx off g c s, Clear false (.red op ord d base idx off g) c s →
    let s' := s.noted c (.red op ord d base idx off g)
    let addr := c.addrAt base idx off
    c.grp.fifo = [] → (c.reckon = true → op = .addI32 ∨ op = .addN8e4 ∨ op = .addN8e5) →
    AccessOk c s' c.act addr (redSize op) .atomic (.red (redFn op)) true (redShadowed op) true →
    let u := accessed c s' c.act addr (redSize op) .atomic (.red (redFn op))
    (c.reckon = true → redNoRoom c u op (lanePlaces c s' addr (redSize op) .atomic) = []) →
    exec (.red op ord d base idx off g) s = .next (retire c (c.marks ((lanesIn c.act).foldl (fun s l =>
      redLane op c.reckon c.grp.core (c.rd d l) (lanePlaces c s' addr (redSize op) .atomic l) s) u)))) ∧
  (∀ sc g c s, Clear false (.fence sc g) c s → c.grp.fifo = [] →
    ∃ t, exec (.fence sc g) s = .next t ∧
      Done c 1 (c.sp.pc + 8) keepRegs keepMasks keepRest
        ((s.noted c (.fence sc g)).acquire c.grp.core c.team.cluster sc) t)

/-- One lane's ATOM or RED reads the word, writes the new one and no other byte; a shadowed RED goes on from its shadow.
At four consecutive places that exist, a lane's ATOM returns the old word and leaves the new one that its operation
gives (CAS writes only where the old word equals the operand), and every other byte reads as before; a RED of 32 bits
leaves the reduced word likewise; a RED into an element with a shadow of its kind leaves the shadow with the operand
added and the element holding its rounded value. (R193; R196; R220; R221) -/
def Obligations.AtomicLanes : Prop :=
  (∀ (op : AtomOp) (core : Nat) (a b : Word) (sp : Space) (o : Nat) (s : State),
    let ps : List Place := [(sp, o), (sp, o + 1), (sp, o + 2), (sp, o + 3)]
    (∀ p ∈ ps, placeOk s p = true) →
    let old := s.wordAt ps
    let r := atomLane op core a b ps s
    r.2 = old ∧
    r.1.wordAt ps = (match op with
      | .add => old + a
      | .min => if a.toInt < old.toInt then a else old
      | .max => if old.toInt < a.toInt then a else old
      | .minu => if a.toNat < old.toNat then a else old
      | .maxu => if old.toNat < a.toNat then a else old
      | .and => old &&& a
      | .or => old ||| a
      | .xor => old ^^^ a
      | .exch => a
      | .cas => if old = a then b else old) ∧
    ∀ p, p ∉ ps → r.1.byteAt p = s.byteAt p) ∧
  (∀ (op : RedOp) (reckon : Bool) (core : Nat) (a : Word) (sp : Space) (o : Nat) (s : State),
    redShadowed op = false →
    let ps : List Place := [(sp, o), (sp, o + 1), (sp, o + 2), (sp, o + 3)]
    (∀ p ∈ ps, placeOk s p = true) →
    let r := redLane op reckon core a ps s
    r.wordAt ps = (match op with
      | .addI32 => s.wordAt ps + a
      | .addF32 => fadd32 .rn (s.wordAt ps) a
      | .minF32 => fmin32 (s.wordAt ps) a
      | _ => fmax32 (s.wordAt ps) a) ∧
    ∀ p, p ∉ ps → r.byteAt p = s.byteAt p) ∧
  (∀ (op : RedOp) (reckon : Bool) (core : Nat) (a : Word) (pa : Nat) (ps : List Place) (s : State) (sh : Shadow),
    redShadowed op = true → paOk s.ms pa = true → s.shadows.find? pa = some sh → sh.op = op → sh.reckon = reckon →
    let r := redLane op reckon core a ((.global, pa) :: ps) s
    let sh' := sh.add (elemVal op (a.toNat % 2 ^ (8 * redSize op)))
    r.shadows.find? pa = some sh' ∧ r.physNat pa (redSize op) = sh'.round % 256 ^ redSize op)

/-- PREF retires with only lines brought in; a pending register write lands; a line leaves the L2 for the tier cache; a
host access writes exactly its bytes. PREF that issues clear completes with nothing but the touches of its lines;
REGISTER_WRITE_LAND removes the oldest pending write that has its value; L2_LINE_EVICT of a capacity-tier line, with
room in the tier cache, puts it there, clean or dirty being free; HOST_MEMORY_ACCESS to lines no engine owns and that
bear the port's key writes its bytes where they exist and leaves every other byte, and a read leaves them all. (R31;
R122; R223; R508; R514; R517) -/
def Obligations.MemoryEvents : Prop :=
  (∀ base idx off g c s, Clear false (.pref base idx off g) c s →
    let s' := s.noted c (.pref base idx off g)
    let pas := (lanesIn c.act).filterMap (fun l => prefLane c s' (c.addrAt base idx off l))
    exec (.pref base idx off g) s = .next (retire c ((pas.map (· / 128)).dedup.foldl (fun s line =>
      if s.owned (.global, line * 128) then s else s.touchLine (c.tag s) line) s'))) ∧
  (∀ grp g p s, s.groups.find? grp = some g → g.pend.find? (fun p => p.ready) = some p → g.st ≠ .draining →
    g.releasing = 0 →
    exec (.registerWriteLand grp) s = .next (s.modGroup grp (fun g => { g with pend := g.pend.erase p }))) ∧
  (∀ line s, isCapacityPa s.ms (line * 128) = true → s.ms.tcache.length < s.ms.tcsize * 1000000000 / 128 →
    s.ms.tcache.find? line = none →
    ∃ dirty n, exec (.l2LineEvict line) s =
      .next { s with ms := { s.ms with tcache := s.ms.tcache.set line dirty }, fresh := n }) ∧
  (∀ port pa data len s, let n := if data = [] then len else data.length
    ((List.range n).map (fun k => ((.global, pa + k) : Place))).any s.owned = false →
    KeyHeld s (s.hostTag port) ((List.range n).map (fun k => ((.global, pa + k) : Place))) →
    ∃ t, exec (.hostMemoryAccess port pa data len) s = .next t ∧
      ∀ p, t.byteAt p = if p.1 = .global ∧ pa ≤ p.2 ∧ p.2 < pa + data.length ∧ paOk s.ms p.2 = true
        then data.getD (p.2 - pa) 0 else s.byteAt p)

/-- SELK.LD stores keys, SELK.RUN writes ranks and masks, SELK.RD loads them, and RNGX gives the generator's words.
SELK.LD, SELK.RUN and SELK.RD that issue clear with a legal area and nothing in their way complete as the equations of
R277 say: LD enters the FIFO as a ST.W of each participating lane, RUN writes the rank and mask words of the select
area and nothing else, RD loads as a LD.W the lanes that have a word and gives the others the stated value; RNGX
completes with the words of Philox 4x32-10, or their fractions, in consecutive registers. (R188; R274; R275; R277;
R278; R279; R280; R281; R282) -/
def Obligations.SelectUnitCompletes : Prop :=
  (∀ a loc slot g c s p, Clear false (.selkLd a loc slot g) c s →
    let s' := s.noted c (.selkLd a loc slot g)
    locateTeam c s' (c.rd loc 0) 128 true = .ok p → c.grp.fifo.length < 16 →
    let addr := fun (l : Nat) => selAddr (c.rd loc 0)
      (128 * (32 * bits (c.rd slot 0).toNat 0 6 + l) + 4 * bits (c.rd slot 0).toNat 8 5)
    AccessOk c s' c.act addr 4 .write .write true false false →
    let u := accessed c s' c.act addr 4 .write .write
    exec (.selkLd a loc slot g) s = .next (retire c (pushStore c.gid ((lanesIn c.act).flatMap (fun l =>
      (lanePlaces c u addr 4 .write l).zip (leBytes 4 (c.rd a l).toNat))) u))) ∧
  (∀ loc geom g c s core base, Clear false (.selkRun loc geom g) c s →
    let s' := s.noted c (.selkRun loc geom g)
    let q := selGeom (c.rd geom 0)
    locate c s' (c.rd loc 0) (128 * (q.rows + q.k) + 4 * q.rows) 128 true = .ok (core, base) →
    c.reckon = false → c.grp.fifo = [] →
    (∀ k, s'.owned (.spad core, base + 32 * k) = false) →
    exec (.selkRun loc geom g) s = .next (retire c ((s'.performed c.grp.core
        ((List.range ((4 * q.rows + 128 * (q.rows + q.k) + 31) / 32)).map (fun k => ((.spad core, base + 32 * k) : Place)))).putBytes
      ((selectWords q (fun r k => fval (BitVec.ofNat 32 ((s'.core core).spad.nat (base + 128 * r + 4 * k) 4)))).flatMap
        (fun e => (List.range 4).zip (leBytes 4 e.2) |>.map (fun jb => ((.spad core, base + e.1 + jb.1), jb.2))))))) ∧
  (∀ mask d loc geom slot g c s p, Clear false (.selkRd mask d loc geom slot g) c s →
    let s' := s.noted c (.selkRd mask d loc geom slot g)
    locateTeam c s' (c.rd loc 0) 128 true = .ok p →
    let q := selGeom (c.rd geom 0)
    let what := selRead mask q (bits (c.rd slot 0).toNat 8 5, bits (c.rd slot 0).toNat 0 6)
    let reads := fun l => match what l with
      | .ok _ => true
      | .error _ => false
    let addr := fun l => match what l with
      | .ok off => selAddr (c.rd loc 0) off
      | .error _ => 0
    let act := maskOfLanes (fun l => laneIn c.act l && reads l)
    AccessOk c s' act addr 4 .read .read true false true →
    let u := accessed c s' act addr 4 .read .read
    ∃ t, exec (.selkRd mask d loc geom slot g) s = .next t ∧
      Done c 1 (c.sp.pc + 8) (wrote c.act d (fun l => match what l with
          | .ok _ => BitVec.ofNat 32 (u.loadNat c.grp.fifo (lanePlaces c u addr 4 .read l))
          | .error w => w))
        keepMasks (pendAlso (regCodes (d, 1))) u t) ∧
  (∀ cnt frac d a key cc stream g c s, Clear false (.rngx cnt frac d a key cc stream g) c s →
    ∃ t, exec (.rngx cnt frac d a key cc stream g) s = .next t ∧
      Done c 1 (c.sp.pc + 8) (wroteMany c.act d cnt.num (fun i l =>
          let w := (philox (c.rd a l) (c.rd cc l) (stream.zeroExtend 32)
            (c.rd (.s (pairLo key)) 0, c.rd (.s (pairHi key)) 0)).getD i 0
          if frac then frac24 w else w))
        keepMasks keepRest (s.noted c (.rngx cnt frac d a key cc stream g)) t)

/-- What keeps an instruction from its effect: a pending register, privilege, range, no participating lane, a key not the
smallest, a race on an h register. For every instruction i that some split issues, and whatever its own effect k,
issueAs answers a next state: with a pending write to one of its registers it is s; else a privileged use out of its
mode takes trap 0x1A; else a register out of the allotment takes trap 0x02; else with no participating lane it
retires, the pc at the next word and nothing else changed, but a MOVSW to a register not to be written takes trap
0x0E; else in Reckoning mode a synchronising operation whose key is not the smallest blocks for its key, or waits on
where its wait has begun; else it is k's state, with the h registers noted in Reckoning mode where k has effect, and
trap 0x06 with the earlier group in its place where one of them conflicts and k would have had effect. (R36; R58; R65;
R70; R79; R105; R134; R155; R162; R213) -/
def Obligations.IssueOutcomes : Prop :=
  ∀ (i : Instr) (sync : Bool) (c : Ctx) (s : State) (k : Ctx → State → State), s.ctx? i = some c →
    let hs := hAccesses c.grp.team c.grp.ggid i
    let free := s.scoreboardBusy i c.grp = false ∧ privilegedUse i c = false ∧ i.rangeBad c.grp.vallot = false
    let turn := c.reckon = true ∧ (sync = true → s.smallest c.team.cluster (c.effectKey s) = true)
    (s.scoreboardBusy i c.grp = true → issueAs sync i s k = .next s) ∧
    (s.scoreboardBusy i c.grp = false → privilegedUse i c = true →
      issueAs sync i s k = .next (takeTrap c { cause := 0x1A, lanes := c.act } s)) ∧
    (s.scoreboardBusy i c.grp = false → privilegedUse i c = false → i.rangeBad c.grp.vallot = true →
      issueAs sync i s k = .next (takeTrap c { cause := 0x02, lanes := c.act } s)) ∧
    (free → c.act = 0 → deniedWrite i = false →
      ∃ t, issueAs sync i s k = .next t ∧ Done c 1 (c.sp.pc + 8) keepRegs keepMasks keepRest s t) ∧
    (free → c.act = 0 → deniedWrite i = true →
      issueAs sync i s k = .next (takeTrap c { cause := 0x0E, lanes := c.act } s)) ∧
    (free → c.act ≠ 0 → c.reckon = true → sync = true → s.smallest c.team.cluster (c.effectKey s) = false →
      issueAs sync i s k = .next (if c.waiting then s else block c .key s)) ∧
    (free → c.act ≠ 0 → c.reckon = false → issueAs sync i s k = .next (k c s)) ∧
    (free → c.act ≠ 0 → turn → c.resumed = true → issueAs sync i s k = .next (k c s)) ∧
    (free → c.act ≠ 0 → turn → c.resumed = false → c.moved (k c (s.record c.team.cluster hs)) = true →
      firstRace c.cl hs = none → issueAs sync i s k = .next (k c (s.record c.team.cluster hs))) ∧
    (∀ o, free → c.act ≠ 0 → turn → c.resumed = false → c.moved (k c (s.record c.team.cluster hs)) = true →
      firstRace c.cl hs = some o →
      issueAs sync i s k = .next (takeTrap c { cause := 0x06, lanes := c.act, other := o } s)) ∧
    (free → c.act ≠ 0 → turn → c.resumed = false → c.moved (k c (s.record c.team.cluster hs)) = false → hs ≠ [] →
      issueAs sync i s k = .next (k c s))

/-- Taking a trap writes the frame, sets INTRAP, suspends the other splits and enters TRAPENTRY; no handler, a nested trap
or a lease violation ends the grid. A trap of a group that is not in its handler, whose record names a trap entry, and
that is no lease violation: the 128-byte frame is stored at the save slot, the group is a HANDLER with INTRAP set, its
trap slot and mask are the trapping split's, that split stands at TRAPENTRY waiting for nothing and every other split
is suspended, and nothing else of the group changes. In the other cases endGrid ends the group's grid, with status 3
for a lease violation, 5 for a watchdog trap and 4 otherwise, the cause, subcode and EPC, or zeros for a trap inside a
handler, of which no frame is stored; a lease violation's walk that read a page-table entry at an address that does
not exist is counted first. The frame is 128 bytes: cause, subcode, EPC, RESUMEPC (EPC + 8 for causes 0x17 and 0x18),
ADDR, SPLITMASK, LANES, OTHER, WORD, LTIME, ICNT and STATUS at their offsets, zeros elsewhere, as stored at any
address that exists. (R156; R157; R159) -/
def Obligations.TrapEntry : Prop :=
  (∀ c t s, c.grp.intrap = false → c.grid.record.trapEntry ≠ 0 → t.cause ≠ 5 →
    takeTrap c t s = (((s.arenaStore c.grid.asid c.grp.saveSlot
        (frameBytes t c.sp.pc c.sp.mask c.word c.grp.ltime c.grp.icnt)).issued c.grp.core c.grp.seq c.gid c.slot).modGroup
      c.gid (fun g => { g with
        intrap := true, st := .handler, trapSlot := c.slot, trapMask := c.sp.mask,
        splits := g.splits.map (fun e =>
          if e.1 = c.slot then (e.1, { e.2 with pc := c.grid.record.trapEntry, wait := .none })
          else (e.1, { e.2 with suspended := true })) }))) ∧
  (∀ c t s, c.grp.intrap = false → (c.grid.record.trapEntry = 0 ∨ t.cause = 5) →
    takeTrap c t s = (((s.lostAt c.grid.asid t).arenaStore c.grid.asid c.grp.saveSlot
        (frameBytes t c.sp.pc c.sp.mask c.word c.grp.ltime c.grp.icnt)).issued c.grp.core c.grp.seq c.gid c.slot).endGrid
      c.team.grid { status := if t.cause = 5 then 3 else if t.cause = 0x19 then 5 else 4, ggid := c.grp.ggid,
                    cause := t.cause + 256 * t.sub, epc := c.sp.pc }) ∧
  (∀ c t s, c.grp.intrap = true →
    takeTrap c t s = ((s.lostAt c.grid.asid t).issued c.grp.core c.grp.seq c.gid c.slot).endGrid c.team.grid
      { status := if t.cause = 5 then 3 else if t.cause = 0x19 then 5 else 4, ggid := c.grp.ggid, cause := 0, epc := 0 }) ∧
  (∀ t epc mask w lt ic, (frameBytes t epc mask w lt ic).length = 128 ∧
    ∀ s : State, ∀ a, paOk s.ms a = true →
      let m := (s.physStore a (frameBytes t epc mask w lt ic)).mem
      m.nat a 1 = t.cause % 256 ∧ m.nat (a + 1) 1 = t.sub % 256 ∧ m.nat (a + 8) 8 = epc.toNat ∧
      m.nat (a + 0x10) 8 = (if t.cause = 0x17 ∨ t.cause = 0x18 then epc + 8 else epc).toNat ∧
      m.nat (a + 0x18) 8 = t.addr.toNat ∧ m.nat (a + 0x20) 4 = mask.toNat ∧ m.nat (a + 0x24) 4 = t.lanes.toNat ∧
      m.nat (a + 0x28) 4 = t.other.toNat ∧ m.nat (a + 0x30) 8 = w.toNat ∧ m.nat (a + 0x38) 8 = lt.toNat ∧
      m.nat (a + 0x40) 8 = ic.toNat ∧ m.nat (a + 0x48) 8 = t.status % 2 ^ 64 ∧ m.nat (a + 0x02) 6 = 0 ∧
      m.nat (a + 0x2C) 4 = 0 ∧ ∀ k, k < 48 → m.nat (a + 0x50 + k) 1 = 0)

/-- TRAP, BKPT and an illegal word take their traps; ERET leaves the handler for RESUMEPC; a soft error ends the grid.
TRAP and BKPT that issue clear take traps 0x18 and 0x17 with their code as the subcode; a word that decodes to nothing
takes trap 0x01 at its participating lanes. ERET that issues clear (in a handler) with an engine in the frame calls
the units back and waits; with no engine there, a misaligned RESUMEPC takes trap 0x04; otherwise, with lanes left to
resume (those of M that the trapped mask names and no other split holds), INTRAP is cleared, the group is RESIDENT,
its split stands at RESUMEPC with those lanes and waits for nothing, every other split is un-suspended and one
instruction retires; with none left its split ends instead, once a last one owes no trap and its commands and stores
allow. A soft error in a live group ends its grid with status 6. (R70; R77; R115; R130; R157; R160; R213) -/
def Obligations.TrapsAndReturn : Prop :=
  (∀ code g, Yields false (.trap code g) (fun _ _ => True) (fun c s =>
    takeTrap c { cause := 0x18, sub := code.toNat, lanes := c.act } s)) ∧
  (∀ code g, Yields false (.bkpt code g) (fun _ _ => True) (fun c s =>
    takeTrap c { cause := 0x17, sub := code.toNat, lanes := c.act } s)) ∧
  (∀ w s loc c, s.cur = some loc → s.ctxAt loc.grp loc.slot w (wordGuard w) = some c →
    exec (.illegalInstruction w) s = .next (takeTrap c { cause := 0x01, lanes := c.act } s)) ∧
  (∀ g c s, Clear false (.eret g) c s →
    let frame := fun (o n : Nat) => (List.range n).map (fun k => ((.global, c.grp.saveSlot + o + k) : Place))
    let pc := BitVec.ofNat 64 (s.loadNat c.grp.fifo (frame 0x10 8))
    let mask := BitVec.ofNat 32 (s.loadNat c.grp.fifo (frame 0x20 4)) &&& c.grp.trapMask &&& ~~~c.grp.heldLanes c.slot
    let back : Group := { c.grp with intrap := false, st := .resident, splits := c.grp.splits.map (fun e =>
      if e.1 = c.slot then (e.1, { e.2 with pc := pc, mask := mask, wait := .none })
      else (e.1, { e.2 with suspended := false })) }
    let after : Group := if mask = 0 then back.endSplit c.slot else back
    ((frame 0 128).any s.owned = true → exec (.eret g) s = .next (s.callUnits (frame 0 128))) ∧
    ((frame 0 128).any s.owned = false → pc.toNat % 8 ≠ 0 →
      exec (.eret g) s = .next (takeTrap c { cause := 0x04, lanes := c.act, addr := pc } s)) ∧
    ((frame 0 128).any s.owned = false → pc.toNat % 8 = 0 →
      (after.splits = [] → c.grp.owed = [] ∧ (c.grp.members = [] ∨ c.grp.fifo = []) ∧
        (c.reckon = true → s.busy c.gid = false ∧ s.smallest c.team.cluster c.grp.key = true)) →
      exec (.eret g) s = .next
        (((((s.touchPlaces (some c.grp.core) (c.tag s) (frame 0 128)).modGroup c.gid (fun _ =>
          after.count c.reckon 1 none)).issued c.grp.core c.grp.seq c.gid c.slot).lostLanes c.gid c.team.cluster c.reckon
          c.grp).retireGroup c.gid c.team.cluster c.reckon c.grp.key)) ∧
    (∀ o os, (frame 0 128).any s.owned = false → pc.toNat % 8 = 0 → after.splits = [] → c.grp.owed = o :: os →
      (c.grp.members = [] ∨ c.grp.fifo = []) →
      (c.reckon = true → s.busy c.gid = false ∧ s.smallest c.team.cluster c.grp.key = true) →
      exec (.eret g) s = .next (takeOwed c o s))) ∧
  (∀ grp g t (s : State), s.groups.find? grp = some g → g.alive = true → s.teams.find? g.team = some t →
    exec (.sramSoftError grp) s =
      .next ((s.countMgmt 6).endGrid t.grid { status := 6, ggid := g.ggid, cause := 0, epc := 0 }))

/-- Branches, calls and returns move the split to their target; BRD divides it; the hints do nothing. BRA goes to pc + 8 +
8 × the offset, BRU there when its register is not 0 and to the next word when it is; CALL also writes pc + 8 to its
pair; RET and BRX go to the value of their pair, and trap 0x04 when it is not a multiple of 8; BRD with no taken lane
goes on, with no other lane goes to the target, and otherwise the taken lanes go to the target while the rest go on in
the lowest free split slot, or on the serial stack when there is none, and trap 0x10 when that is full; NOP, ICPF and
every other hint go on. Where a Done is stated nothing else changes. (R56; R63; R70; R78; R112; R129; R131) -/
def Obligations.ControlFlow : Prop :=
  (∀ off g c s, Clear false (.bra off g) c s → ∃ t, exec (.bra off g) s = .next t ∧
    Done c 1 (c.sp.pc + 8 + 8 * off.signExtend 64) keepRegs keepMasks keepRest (s.noted c (.bra off g)) t) ∧
  (∀ k off g c s, Clear false (.bru k off g) c s → ∃ t, exec (.bru k off g) s = .next t ∧
    Done c 1 (if c.rd k 0 = 0 then c.sp.pc + 8 else c.sp.pc + 8 + 8 * off.signExtend 64) keepRegs keepMasks keepRest
      (s.noted c (.bru k off g)) t) ∧
  (∀ p off g c s, Clear false (.call p off g) c s → ∃ t, exec (.call p off g) s = .next t ∧
    Done c 1 (c.sp.pc + 8 + 8 * off.signExtend 64)
      (fun r l old => if r = .s (pairLo p) then (c.sp.pc + 8).extractLsb' 0 32
        else if r = .s (pairHi p) then (c.sp.pc + 8).extractLsb' 32 32 else wrote c.act .zero (fun _ => 0) r l old)
      keepMasks keepRest (s.noted c (.call p off g)) t) ∧
  (∀ p g c s, Clear false (.ret p g) c s →
    ((readPair c.grp p).toNat % 8 = 0 → ∃ t, exec (.ret p g) s = .next t ∧
      Done c 1 (readPair c.grp p) keepRegs keepMasks keepRest (s.noted c (.ret p g)) t) ∧
    ((readPair c.grp p).toNat % 8 ≠ 0 → exec (.ret p g) s =
      .next (takeTrap c { cause := 0x04, lanes := c.act, addr := readPair c.grp p } s))) ∧
  (∀ p g c s, Clear false (.brx p g) c s →
    ((readPair c.grp p).toNat % 8 = 0 → ∃ t, exec (.brx p g) s = .next t ∧
      Done c 1 (readPair c.grp p) keepRegs keepMasks keepRest (s.noted c (.brx p g)) t) ∧
    ((readPair c.grp p).toNat % 8 ≠ 0 → exec (.brx p g) s =
      .next (takeTrap c { cause := 0x04, lanes := c.act, addr := readPair c.grp p } s))) ∧
  (∀ m off g c s, Clear false (.brd m off g) c s →
    let s' := s.noted c (.brd m off g)
    let tk := c.act &&& readMask c.grp m
    let nt := c.sp.mask &&& ~~~tk
    let target := c.sp.pc + 8 + 8 * off.signExtend 64
    (tk = 0 → ∃ t, exec (.brd m off g) s = .next t ∧ Done c 1 (c.sp.pc + 8) keepRegs keepMasks keepRest s' t) ∧
    (tk ≠ 0 → nt = 0 → ∃ t, exec (.brd m off g) s = .next t ∧ Done c 1 target keepRegs keepMasks keepRest s' t) ∧
    (∀ k, tk ≠ 0 → nt ≠ 0 → c.grp.freeSlot = some k → exec (.brd m off g) s =
      .next ((retireTo c 1 c.observed target s').modGroup c.gid (fun g =>
        { g with splits := Map.set (g.splits.modify c.slot (fun sp => { sp with mask := tk })) k
                   ({ pc := c.sp.pc + 8, mask := nt, stack := [], wait := .none, suspended := false } : Split) }))) ∧
    (tk ≠ 0 → nt ≠ 0 → c.grp.freeSlot = none → c.sp.stack.length ≠ 16 → exec (.brd m off g) s =
      .next ((retireTo c 1 c.observed target s').modSplit c.gid c.slot (fun sp =>
        { sp with mask := tk, stack := (c.sp.pc + 8, nt) :: sp.stack }))) ∧
    (tk ≠ 0 → nt ≠ 0 → c.grp.freeSlot = none → c.sp.stack.length = 16 → exec (.brd m off g) s =
      .next (takeTrap c { cause := 0x10, lanes := c.act } s))) ∧
  (∀ c s, Clear false .nop c s → ∃ t, exec .nop s = .next t ∧
    Done c 1 (c.sp.pc + 8) keepRegs keepMasks keepRest (s.noted c .nop) t) ∧
  (∀ n off c s, Clear false (.icpf n off) c s → ∃ t, exec (.icpf n off) s = .next t ∧
    Done c 1 (c.sp.pc + 8) keepRegs keepMasks keepRest (s.noted c (.icpf n off)) t) ∧
  (∀ w c s, Clear false (.hint w) c s → ∃ t, exec (.hint w) s = .next t ∧
    Done c 1 (c.sp.pc + 8) keepRegs keepMasks keepRest (s.noted c (.hint w)) t)

/-- EXIT ends the lanes of its split; splits merge; and the events of the sequencer. EXIT that issues clear, unless it
empties the group's live mask (a last EXIT) while the group has commands in Reckoning mode, owes a trap, or is a
member of barrier objects with stores in its FIFO or a key not the smallest, retires and ends its split: a split with
a serial stack goes on with the top entry's pc and lanes, any other frees its slot and leaves the other splits alone;
then the lanes lost are noted and a group with no split left ends (retireGroup). A last EXIT in Reckoning mode with
commands in flight blocks, and EXIT_UNBLOCK has its effect once they have completed; a last EXIT of a group that owes
a trap takes it. SPLIT_MERGE joins two idle splits at one pc, which no engine holds and of which one has no stack,
into the lower slot with both masks and the stack, and changes nothing else; ICACHE_MISS_FILL brings the line, thaws
the sequencer and adds the frozen cycles to SLIP; SYNC_OP_EFFECT readies an operation whose key has become the
smallest and issues it next; YIELD_TIMEOUT ends a YIELD's wait and changes no other state but the groups; SLEEP_EXPIRE
retires the SLEEP. (R36; R105; R107; R109; R113; R115; R130; R145; R168; R172; R213) -/
def Obligations.ExitAndSplits : Prop :=
  (∀ g, Yields false (.exit g)
    (fun c s => c.lastExit = true → (c.reckon = true → s.busy c.gid = false) ∧ c.grp.owed = [] ∧ (c.grp.members = [] ∨
      (c.grp.fifo = [] ∧ (c.reckon = true → s.smallest c.team.cluster c.grp.key = true))))
    (fun c s => ((((s.modGroup c.gid (fun g => (g.count c.reckon 1 none).endSplit c.slot)).issued c.grp.core c.grp.seq
      c.gid c.slot).lostLanes c.gid c.team.cluster c.reckon c.grp).retireGroup c.gid c.team.cluster c.reckon c.grp.key))) ∧
  (∀ g, Yields false (.exit g) (fun c s => c.reckon = true ∧ c.lastExit = true ∧ s.busy c.gid = true)
    (fun c s => block c (.exit c.word) s)) ∧
  (∀ g o os c s, Clear false (.exit g) c s → (c.reckon = true → s.busy c.gid = false) → c.lastExit = true →
    c.grp.owed = o :: os → exec (.exit g) s = .next (takeTrap c
      { cause := 0x06, sub := o.sub, lanes := c.act, addr := o.addr, other := o.other, status := o.status }
      (s.modGroup c.gid (fun g => { g with owed := os })))) ∧
  (∀ (g : Group) slot sp, g.splits.find? slot = some sp →
    (∀ e es, sp.stack = e :: es →
      (g.endSplit slot).splits.find? slot = some { sp with pc := e.1, mask := e.2, stack := es, wait := .none }) ∧
    (sp.stack = [] → (g.endSplit slot).splits.find? slot = none) ∧
    ∀ k, k ≠ slot → (g.endSplit slot).splits.find? k = g.splits.find? k) ∧
  (∀ grp slot w c (s : State), s.ctxAt grp slot 0 Guard.always = some c → c.sp.wait = .exit w → s.busy grp = false →
    (c.lastExit = true → c.grp.owed = [] ∧ (c.grp.members = [] ∨
      (c.grp.fifo = [] ∧ (c.reckon = true → s.smallest c.team.cluster c.grp.key = true)))) →
    exec (.exitUnblock grp slot) s = .next ((((s.modGroup c.gid (fun g =>
      (g.count c.reckon 1 none).endSplit c.slot)).issued c.grp.core c.grp.seq c.gid c.slot).lostLanes c.gid c.team.cluster
        c.reckon c.grp).retireGroup c.gid c.team.cluster c.reckon c.grp.key)) ∧
  (∀ grp i j a b g (s : State), s.groups.find? grp = some g → i < j → g.splits.find? i = some a → g.splits.find? j = some b →
    g.inBarriers = true → a.pc = b.pc → a.idle = true → b.idle = true → (a.stack = [] ∨ b.stack = []) →
    s.holds grp g a = false → s.holds grp g b = false →
    ∃ t g', exec (.splitMerge grp i j) s = .next t ∧ t.groups.find? grp = some g' ∧
      g'.splits.find? i = some { a with mask := a.mask ||| b.mask, stack := a.stack ++ b.stack } ∧
      g'.splits.find? j = none ∧ { g' with splits := g.splits } = g ∧
      { t with groups := s.groups } = s ∧ ∀ k, k ≠ grp → t.groups.find? k = s.groups.find? k) ∧
  (∀ core seq cycles pa tag (s : State), (s.core core).frozen.find? seq = some (pa, tag) →
    exec (.icacheMissFill core seq cycles) s = .next ((s.fillLine (core / 48) pa tag).modCore core (fun c =>
      { c with frozen := c.frozen.erase seq,
               slip := c.slip.put 0 seq (c.slip.getD seq 0 + BitVec.ofNat 32 cycles) }))) ∧
  (∀ grp slot c (s : State), s.ctxAt grp slot 0 Guard.always = some c → c.sp.wait = .key →
    s.smallest c.team.cluster c.grp.key = true →
    exec (.syncOpEffect grp slot) s = .next { s.modSplit grp slot (fun sp => { sp with wait := .none }) with
      agenda := .issue grp slot :: s.agenda }) ∧
  (∀ grp slot g sp (s : State), s.groups.find? grp = some g → g.splits.find? slot = some sp → sp.wait = .yield →
    ∃ t g', exec (.yieldTimeout grp slot) s = .next t ∧ t.groups.find? grp = some g' ∧
      g'.splits.find? slot = some { sp with wait := .none } ∧ { t with groups := s.groups } = s) ∧
  (∀ grp slot c (s : State), s.ctxAt grp slot 0 Guard.always = some c → c.sp.wait = .sleep →
    exec (.sleepExpire grp slot) s = .next (s.retireAt grp slot c.reckon 1 none (c.sp.pc + 8)))

/-- BINIT, BJOIN, BARV, BARX, BWAIT, BTEST, BWAITT and BLEAVE complete with the object, the membership set and D as the
spec says, and trap 0x0F where it says so. With the object located, its team in place, no engine in its sector, the
instruction issued clear: BINIT of counts in range, with the FIFO drained, writes the whole object and forgets the key
of its last phase; BJOIN takes the lowest free entry of the membership set, or none for a member; BARV and BARX, with
the FIFO drained, make the arrival, record it in the set and return the phase arrived in; an arrival that can be made
lowers PENDARR by the units and raises PENDBYTES by the bytes, and one that brings both to zero toggles the phase,
reloads the counts and completes the phase; one that cannot be made, as BINIT's counts out of range, BARX's of 2^31
bytes or more, BJOIN with no free entry, BLEAVE of no member and any use of a BROKEN object, traps 0x0F. A phase that
completes turns every wait on the object, and no other, into one released with the event's key. BWAIT, BWAITT and
BTEST of a phase that has ended retire, with 1 in D; a wait on the current phase blocks and BTEST gives 0; a BWAIT or
BWAITT that has been released retires with 1, one whose time ran out with 0. BLEAVE of an entry that arrived in this
phase lowers EXPARR, of another also arrives, and frees the entry. BWAITT_TIMEOUT ends the wait, in Reckoning mode
once its key is the smallest. (R130; R134; R135; R136; R137; R139; R141; R142; R143; R162; R169) -/
def Obligations.BarrierObjects : Prop :=
  (∀ lane cl loc arr bytes g core off, Yields true (.binit lane cl loc arr bytes g)
    (fun c s => ObjectAt c s loc core off ∧ 0 < (c.rd arr 0).toNat ∧ (c.rd arr 0).toNat ≤ 65535 ∧
      (c.rd bytes 0).toNat < 2 ^ 31 ∧ c.grp.fifo = [])
    (fun c s => retire c ((s.putObj core off
      { expBytes := (c.rd bytes 0).toNat, pendBytes := (c.rd bytes 0).toNat, expArr := (c.rd arr 0).toNat,
        pendArr := (c.rd arr 0).toNat, phase := false, unit := lane, scope := cl, broken := false, low := 0,
        high := 0 }).modCore core (fun k => { k with phaseKey := k.phaseKey.erase off })))) ∧
  (∀ lane cl loc arr bytes g core off, Diverts true (.binit lane cl loc arr bytes g)
    (fun c s => ObjectAt c s loc core off ∧ ((c.rd arr 0).toNat = 0 ∨ 65535 < (c.rd arr 0).toNat ∨
      2 ^ 31 ≤ (c.rd bytes 0).toNat))
    (fun c s => takeTrap c { cause := 0x0F, lanes := c.act } s)) ∧
  (∀ loc g core off e, Yields true (.bjoin loc g)
    (fun c s => ObjectAt c s loc core off ∧ (s.obj core off).broken = false ∧ c.grp.memberAt core off = none ∧
      c.grp.freeMember = some e)
    (fun c s => retire c (s.modGroup c.gid (fun g =>
      { g with members := Map.set g.members e
                 { core := core, off := off, locator := c.rd loc 0, arrived := false, aphase := false,
                   lanes := popMask g.live } })))) ∧
  (∀ loc g core off e, Yields true (.bjoin loc g)
    (fun c s => ObjectAt c s loc core off ∧ (s.obj core off).broken = false ∧ c.grp.memberAt core off = some e)
    (fun c s => retire c s)) ∧
  (∀ loc g core off, Diverts true (.bjoin loc g)
    (fun c s => ObjectAt c s loc core off ∧ ((s.obj core off).broken = true ∨
      (c.grp.memberAt core off = none ∧ c.grp.freeMember = none)))
    (fun c s => takeTrap c { cause := 0x0F, lanes := c.act } s)) ∧
  (∀ d loc g core off o1 done, Yields true (.barv d loc g)
    (fun c s => ObjectAt c s loc core off ∧ c.grp.fifo = [] ∧
      (s.obj core off).arrive (if (s.obj core off).unit then popMask c.act else 1) 0 0 = some (o1, done))
    (fun c s =>
      let p := (s.obj core off).phase
      let u := s.putObj core off o1
      let v := if done then u.phaseDone c.team.cluster core off o1 c.reckon c.grp.key else u
      retire c (writeReg c d (fun _ => if p then 1 else 0) (v.modGroup c.gid (fun g => g.noteArrival core off p))))) ∧
  (∀ d loc g core off, Diverts true (.barv d loc g)
    (fun c s => ObjectAt c s loc core off ∧
      (s.obj core off).arrive (if (s.obj core off).unit then popMask c.act else 1) 0 0 = none)
    (fun c s => takeTrap c { cause := 0x0F, lanes := c.act } s)) ∧
  (∀ d loc bytes g core off o1 done, Yields true (.barx d loc bytes g)
    (fun c s => ObjectAt c s loc core off ∧ c.grp.fifo = [] ∧ (c.rd bytes 0).toNat < 2 ^ 31 ∧
      (s.obj core off).arrive (if (s.obj core off).unit then popMask c.act else 1) (c.rd bytes 0).toNat 0 = some (o1, done))
    (fun c s =>
      let p := (s.obj core off).phase
      let u := s.putObj core off o1
      let v := if done then u.phaseDone c.team.cluster core off o1 c.reckon c.grp.key else u
      retire c (writeReg c d (fun _ => if p then 1 else 0) (v.modGroup c.gid (fun g => g.noteArrival core off p))))) ∧
  (∀ d loc bytes g core off, Diverts true (.barx d loc bytes g)
    (fun c s => ObjectAt c s loc core off ∧ (2 ^ 31 ≤ (c.rd bytes 0).toNat ∨
      (s.obj core off).arrive (if (s.obj core off).unit then popMask c.act else 1) (c.rd bytes 0).toNat 0 = none))
    (fun c s => takeTrap c { cause := 0x0F, lanes := c.act } s)) ∧
  (∀ (o : BarObj) (n b lower : Nat),
    let bad := o.broken = true ∨ o.pendArr = 0 ∨ o.pendArr < n ∨ 2 ^ 31 - 1 < o.pendBytes + (b : Int) ∨
      (o.pendArr = n ∧ o.pendBytes + (b : Int) < 0) ∨ o.expArr < lower
    (bad → o.arrive n b lower = none) ∧
    (¬bad → o.pendArr = n → o.pendBytes + (b : Int) = 0 → o.arrive n b lower = some
      ({ o with phase := !o.phase, expArr := o.expArr - lower, pendArr := o.expArr - lower,
                pendBytes := (BitVec.ofNat 32 o.expBytes).toInt }, true)) ∧
    (¬bad → ¬(o.pendArr = n ∧ o.pendBytes + (b : Int) = 0) → o.arrive n b lower = some
      ({ o with pendArr := o.pendArr - n, pendBytes := o.pendBytes + (b : Int), expArr := o.expArr - lower }, false))) ∧
  (∀ (s : State) cl core off o rk k gid g slot sp, s.groups.find? gid = some g → g.splits.find? slot = some sp →
    ∃ g', (s.phaseDone cl core off o rk k).groups.find? gid = some g' ∧ g'.splits.find? slot =
      some (if sp.wait.isOn core off then { sp with wait := .released k } else sp)) ∧
  (∀ loc ph g core off, Yields true (.bwait loc ph g)
    (fun c s => c.resumed = false ∧ ObjectAt c s loc core off ∧ (s.obj core off).broken = false ∧
      (s.obj core off).phase ≠ (c.rd ph 0).getLsbD 0)
    (fun c s => retireTo c 1 (phaseObserved c s core off) (c.sp.pc + 8) s)) ∧
  (∀ loc ph g core off, Yields true (.bwait loc ph g)
    (fun c s => c.resumed = false ∧ ObjectAt c s loc core off ∧ (s.obj core off).broken = false ∧
      (s.obj core off).phase = (c.rd ph 0).getLsbD 0)
    (fun c s => block c (.phase core off ((c.rd ph 0).getLsbD 0) none) s)) ∧
  (∀ loc ph g k, Yields true (.bwait loc ph g) (fun c _ => c.sp.wait = .released k)
    (fun c s => retireTo c 1 (some k) (c.sp.pc + 8) s)) ∧
  (∀ d loc ph tm g core off, Yields true (.bwaitt d loc ph tm g)
    (fun c s => c.resumed = false ∧ ObjectAt c s loc core off ∧ (s.obj core off).broken = false ∧
      (s.obj core off).phase ≠ (c.rd ph 0).getLsbD 0)
    (fun c s => retireTo c 1 (phaseObserved c s core off) (c.sp.pc + 8) (writeReg c d (fun _ => 1) s))) ∧
  (∀ d loc ph tm g core off, Yields true (.bwaitt d loc ph tm g)
    (fun c s => c.resumed = false ∧ ObjectAt c s loc core off ∧ (s.obj core off).broken = false ∧
      (s.obj core off).phase = (c.rd ph 0).getLsbD 0)
    (fun c s => block c (.phase core off ((c.rd ph 0).getLsbD 0) (some (c.grp.ltime.toNat + (c.rd tm 0).toNat))) s)) ∧
  (∀ d loc ph tm g k, Yields true (.bwaitt d loc ph tm g) (fun c _ => c.sp.wait = .released k)
    (fun c s => retireTo c 1 (some k) (c.sp.pc + 8) (writeReg c d (fun _ => 1) s))) ∧
  (∀ d loc ph tm g k, Yields true (.bwaitt d loc ph tm g) (fun c _ => c.sp.wait = .expired k)
    (fun c s => retireTo c 1 (some k) (c.sp.pc + 8) (writeReg c d (fun _ => 0) s))) ∧
  (∀ d loc ph g core off, Yields true (.btest d loc ph g)
    (fun c s => ObjectAt c s loc core off ∧ (s.obj core off).broken = false ∧
      (s.obj core off).phase ≠ (c.rd ph 0).getLsbD 0)
    (fun c s => retireTo c 1 (phaseObserved c s core off) (c.sp.pc + 8) (writeReg c d (fun _ => 1) s))) ∧
  (∀ d loc ph g core off, Yields true (.btest d loc ph g)
    (fun c s => ObjectAt c s loc core off ∧ (s.obj core off).broken = false ∧
      (s.obj core off).phase = (c.rd ph 0).getLsbD 0)
    (fun c s => retire c (writeReg c d (fun _ => 0) s))) ∧
  (∀ loc g core off e m o1 done, Yields true (.bleave loc g)
    (fun c s => ObjectAt c s loc core off ∧ c.grp.fifo = [] ∧
      c.grp.memberAt core off = some e ∧ c.grp.members.find? e = some m ∧ (s.obj core off).broken = false ∧
      let n := if (s.obj core off).unit then m.lanes else 1
      n ≤ (s.obj core off).expArr ∧
      (if m.arrived = true ∧ m.aphase = (s.obj core off).phase
        then some ({ s.obj core off with expArr := (s.obj core off).expArr - n }, false)
        else (s.obj core off).arrive n 0 n) = some (o1, done))
    (fun c s =>
      let u := s.putObj core off o1
      let v := if done then u.phaseDone c.team.cluster core off o1 c.reckon c.grp.key else u
      retire c (v.modGroup c.gid (fun g => { g with members := g.members.erase e })))) ∧
  (∀ loc g core off, Diverts true (.bleave loc g)
    (fun c s => ObjectAt c s loc core off ∧ c.grp.memberAt core off = none)
    (fun c s => takeTrap c { cause := 0x0F, lanes := c.act } s)) ∧
  (∀ loc g core off e m, Diverts true (.bleave loc g)
    (fun c s => ObjectAt c s loc core off ∧ c.grp.memberAt core off = some e ∧ c.grp.members.find? e = some m ∧
      let n := if (s.obj core off).unit then m.lanes else 1
      ((s.obj core off).broken = true ∨ (s.obj core off).expArr < n ∨
        (¬(m.arrived = true ∧ m.aphase = (s.obj core off).phase) ∧ (s.obj core off).arrive n 0 n = none)))
    (fun c s => takeTrap c { cause := 0x0F, lanes := c.act } s)) ∧
  (∀ loc ph g core off, Diverts true (.bwait loc ph g)
    (fun c s => c.sp.wait = .broken ∨ (c.resumed = false ∧ ObjectAt c s loc core off ∧ (s.obj core off).broken = true))
    (fun c s => takeTrap c { cause := 0x0F, lanes := c.act } s)) ∧
  (∀ d loc ph tm g core off, Diverts true (.bwaitt d loc ph tm g)
    (fun c s => c.sp.wait = .broken ∨ (c.resumed = false ∧ ObjectAt c s loc core off ∧ (s.obj core off).broken = true))
    (fun c s => takeTrap c { cause := 0x0F, lanes := c.act } s)) ∧
  (∀ d loc ph g core off, Diverts true (.btest d loc ph g)
    (fun c s => ObjectAt c s loc core off ∧ (s.obj core off).broken = true)
    (fun c s => takeTrap c { cause := 0x0F, lanes := c.act } s)) ∧
  (∀ grp slot c s core off ph tm, s.ctxAt grp slot 0 Guard.always = some c → c.sp.wait = .phase core off ph (some tm) →
    (c.reckon = true → s.smallest c.team.cluster (tm, c.grp.ggid.toNat) = true) →
    exec (.bwaittTimeout grp slot) s =
      .next (s.modSplit grp slot (fun sp => { sp with wait := .expired (tm, c.grp.ggid.toNat) })))

/-- A barrier object is its 16 bytes: reading the fields and writing them back gives the same 128 bits. For every 128-bit
number, the object read from it holds that number; and an object put at an offset of a SPAD reads back with those 128
bits, every other place of memory unchanged. (R135) -/
def Obligations.BarrierObjectLayout : Prop :=
  (∀ n, n < 2 ^ 128 → (BarObj.ofNat n).toNat = n) ∧
  (∀ (s : State) core off o, ((s.putObj core off o).core core).spad.nat off 16 = o.toNat ∧
    ∀ p : Place, (p.1 ≠ .spad core ∨ p.2 < off ∨ off + 16 ≤ p.2) → (s.putObj core off o).byteAt p = s.byteAt p)

/-- TBAR, CBAR, SLEEP, YIELD, GROW, SHRINK and JOINW complete as the spec says. TBAR and CBAR with the FIFO drained block
their split, and the barrier completes there and then if every group has arrived (tryTbar, tryCbar): of a team, or of
a cluster all of whose teams have started; completing retires it at every split with the largest of their keys, and in
Reckoning mode advances the race epoch; otherwise nothing else changes. SLEEP of 0, and in Reckoning mode of any
count, retires, and otherwise blocks; YIELD retires and, but for Reckoning mode, leaves the split waiting. GROW beyond
176 registers traps 0x02; in normal mode, with no one queued and units enough in the pool, it takes them, raises the
allotment by 8 registers each, clears GROWZ and returns them, and otherwise queues; in Reckoning mode the team's
reserve gives the units, once those it needs have drained, and a reserve that does not cover it gives 0 with GROWZ
set. GROW_GRANT grants the head of the queue when the pool covers it, or traps 0x02 where the allotment would pass
176; GROW_DEADLOCK_RESOLVE completes the youngest group's GROW with 0 and GROWZ set. SHRINK of more than the allotment
traps 0x02, and otherwise lowers the allotment and releases the units, to the reserve in Reckoning mode. JOINW gives
the child status once, and traps 0x1B without one. (R109; R120; R122; R124; R125; R126; R127; R145; R146; R150; R169;
R172) -/
def Obligations.TeamOperations : Prop :=
  (∀ g, Yields true (.tbar g) (fun c _ => c.grp.fifo = [])
    (fun c s => (block c .tbar s).tryTbar c.grp.team)) ∧
  (∀ g, Yields true (.cbar g) (fun c _ => c.grp.fifo = [])
    (fun c s => (block c .cbar s).tryCbar c.grp.team)) ∧
  (∀ team t (s : State), s.teams.find? team = some t →
    let gs := s.teamGroups team
    let u := s.releaseAll gs (s.teamReckon t) (lastKey gs)
    (allArrived gs .tbar = false → s.tryTbar team = s) ∧
    (allArrived gs .tbar = true →
      s.tryTbar team = if s.teamReckon t then u.advanceEpoch t.cluster else u)) ∧
  (∀ team t (s : State), s.teams.find? team = some t →
    let gs := s.clusterGroups t.cluster
    let u := (s.releaseAll gs (s.teamReckon t) (lastKey gs)).seeAll (s.clusterCores t.cluster)
    let all := allArrived gs .cbar = true ∧ (s.clusterTeams t.cluster).all (fun e => e.2.started) = true
    (¬all → s.tryCbar team = s) ∧
    (all → s.tryCbar team = if s.teamReckon t then u.advanceEpoch t.cluster else u)) ∧
  (∀ a g, Yields false (.sleep a g) (fun c _ => c.reckon = true ∨ c.rd a 0 = 0) (fun c s => retire c s)) ∧
  (∀ a g, Yields false (.sleep a g) (fun c _ => c.reckon = false ∧ c.rd a 0 ≠ 0) (fun c s => block c .sleep s)) ∧
  (∀ g, Yields false (.yield g) (fun _ _ => True) (fun c s =>
    if c.reckon then retire c s else (retire c s).modSplit c.gid c.slot (fun sp => { sp with wait := .yield }))) ∧
  (∀ d n g, Diverts true (.grow d n g) (fun c _ => 176 < c.grp.vallot + 8 * n.toNat)
    (fun c s => takeTrap c { cause := 0x02, lanes := c.act } s)) ∧
  (∀ d n g, Yields true (.grow d n g)
    (fun c s => c.grp.vallot + 8 * n.toNat ≤ 176 ∧ c.reckon = false ∧ (s.core c.grp.core).growQ = [] ∧
      n.toNat ≤ (s.core c.grp.core).poolFree)
    (fun c s => retire c (writeReg c d (fun _ => BitVec.ofNat 32 n.toNat)
      ((s.modCore c.grp.core (fun k => { k with poolFree := k.poolFree - n.toNat })).raise c.gid n.toNat)))) ∧
  (∀ d n g, Yields true (.grow d n g)
    (fun c s => c.grp.vallot + 8 * n.toNat ≤ 176 ∧ c.reckon = true ∧ n.toNat + s.returning c.grp.team ≤ c.team.reserve)
    (fun c s => retire c (writeReg c d (fun _ => BitVec.ofNat 32 n.toNat)
      ((s.modTeam c.grp.team (fun t => { t with reserve := t.reserve - n.toNat })).raise c.gid n.toNat)))) ∧
  (∀ d n g, Diverts true (.grow d n g)
    (fun c s => c.grp.vallot + 8 * n.toNat ≤ 176 ∧ c.reckon = true ∧ n.toNat ≤ c.team.reserve ∧
      c.team.reserve < n.toNat + s.returning c.grp.team)
    (fun _ s => s)) ∧
  (∀ d n g, Yields true (.grow d n g)
    (fun c _ => c.grp.vallot + 8 * n.toNat ≤ 176 ∧ c.reckon = true ∧ c.team.reserve < n.toNat)
    (fun c s => retire c (writeReg c d (fun _ => 0) (s.modGroup c.gid (fun g => { g with growz := true }))))) ∧
  (∀ d n g, Yields true (.grow d n g)
    (fun c s => c.grp.vallot + 8 * n.toNat ≤ 176 ∧ c.reckon = false ∧ ((s.core c.grp.core).growQ ≠ [] ∨
      (s.core c.grp.core).poolFree < n.toNat))
    (fun c s => (block c (.grow n.toNat d c.act) s).modCore c.grp.core (fun x =>
      { x with growQ := x.growQ ++ [{ grp := c.gid, slot := c.slot, n := n.toNat }] }))) ∧
  (∀ gid n g (s : State), s.groups.find? gid = some g → ∃ g', (s.raise gid n).groups.find? gid = some g' ∧
    g'.vallot = g.vallot + 8 * n ∧ g'.growz = false ∧
    ∀ k l, l < 32 → (k < g.vallot ∨ g.vallot + 8 * n ≤ k) → laneOf (g'.v.getD k []) l = laneOf (g.v.getD k []) l) ∧
  (∀ core r rs c d (s : State), (s.core core).growQ = r :: rs → s.growCtx r = some (c, d) →
    let rest := s.modCore core (fun k => { k with growQ := rs })
    (176 < c.grp.vallot + 8 * r.n → exec (.growGrant core) s =
      .next (takeTrap c { cause := 0x02, lanes := c.act } rest).bump) ∧
    (c.grp.vallot + 8 * r.n ≤ 176 → r.n ≤ (s.core core).poolFree →
      exec (.growGrant core) s = .next (finishGrow r r.n (rest.growBy r.grp core r.n))) ∧
    (c.grp.vallot + 8 * r.n ≤ 176 → (s.core core).poolFree < r.n → exec (.growGrant core) s = .next s)) ∧
  (∀ r grant c d (s : State), s.growCtx r = some (c, d) →
    finishGrow r grant s = (writeReg c d (fun _ => BitVec.ofNat 32 grant) s).retireAt r.grp r.slot c.reckon 1 none
      (c.sp.pc + 8)) ∧
  (∀ core r (s : State), s.growDeadlock core = true → youngest s (s.core core).growQ = some r →
    exec (.growDeadlockResolve core) s = .next (finishGrow r 0
      ((s.modCore core (fun k => { k with growQ := k.growQ.erase r })).modGroup r.grp (fun g =>
        { g with growz := true })))) ∧
  (∀ n g, Diverts true (.shrink n g) (fun c _ => c.grp.vallot < 8 * n.toNat)
    (fun c s => takeTrap c { cause := 0x02, lanes := c.act } s)) ∧
  (∀ n g, Yields true (.shrink n g) (fun c _ => 8 * n.toNat ≤ c.grp.vallot ∧ c.reckon = false)
    (fun c s => (retire c (s.modGroup c.gid (fun g =>
      { g with vallot := g.vallot - 8 * n.toNat, releasing := g.releasing + n.toNat }))).settle c.gid)) ∧
  (∀ n g, Yields true (.shrink n g) (fun c _ => 8 * n.toNat ≤ c.grp.vallot ∧ c.reckon = true)
    (fun c s => (retire c ((s.modTeam c.grp.team (fun t => { t with reserve := t.reserve + n.toNat })).modGroup c.gid
      (fun g => { g with vallot := g.vallot - 8 * n.toNat, returning := g.returning + n.toNat }))).settle c.gid)) ∧
  (∀ d g, Yields true (.joinw d g) (fun c _ => c.grp.forkres = true)
    (fun c s => retire c (writeReg c d (fun _ => c.grp.childStatus)
      (s.modGroup c.gid (fun g => { g with forkres := false }))))) ∧
  (∀ d g, Diverts true (.joinw d g) (fun c _ => c.grp.forkres = false)
    (fun c s => takeTrap c { cause := 0x1B, lanes := c.act } s))

/-- MOVS reads every special register, MOVSW writes the two that take writes and traps on the others, SYSC posts its
event. MOVS that issues clear, TAGSLO and TAGSHI as synchronising operations, writes D with the register's value in
each participating lane and changes nothing else; a CYCLE register first moves its core's cycle count on and a TIME
register the device's time. The values are: 0x00 the lane's number, 0x01 the group's number, 0x02 the groups of the
team that have not exited, 0x03 the member, 0x04 the cluster's index, 0x05 GGID, 0x06 the core and 0x07 the sequencer
(in Reckoning mode the member and the group's number modulo 4), 0x08 the split's mask, 0x09 the live mask, 0x0A and
0x0B ICNT, 0x0C and 0x0D LTIME, 0x0E to 0x11 the cycle count and the time (LTIME in Reckoning mode), 0x12 and 0x13 a 1
for each tag that is READY as of the issuer's key, 0x14 GSTAT, 0x15 the allotment, 0x16 and 0x17 the parameter
pointer, 0x18 and 0x19 the save slot's address, 0x1A SLIP and 0x1C the partition (0 in Reckoning mode), 0x1B the ASID,
and 0 for every number above. MOVSW to 0x14 clears GROWZ when bit 0 of its source is 1, to 0x40 clears SLIP of the
sequencer, and otherwise traps 0x0E. SYSC of service 0, once the group's FIFO is empty, posts its event to the grid's
queue and retires; with stores in the FIFO it waits; of every other service it traps 0x01. (R25; R152; R153; R154;
R155; R160; R436) -/
def Obligations.SpecialRegisters : Prop :=
  (∀ d sr g c s, Clear (sr == 0x12#8 || sr == 0x13#8) (.movs d sr g) c s →
    let s' := s.noted c (.movs d sr g)
    let u := if sr = 0x0E#8 ∨ sr = 0x0F#8 then s'.cycleOn c.grp.core
      else if sr = 0x10#8 ∨ sr = 0x11#8 then s'.tick else s'
    ∃ t, exec (.movs d sr g) s = .next t ∧ Done c 1 (c.sp.pc + 8) (wrote c.act d (srValue c u sr)) keepMasks keepRest u t) ∧
  (∀ c s l, srValue c s 0x00 l = BitVec.ofNat 32 l ∧ srValue c s 0x01 l = BitVec.ofNat 32 c.grp.num ∧
    srValue c s 0x02 l = BitVec.ofNat 32 ((s.teamGroups c.grp.team).filter (fun e => e.2.alive)).length ∧
    srValue c s 0x03 l = BitVec.ofNat 32 c.team.member ∧ srValue c s 0x04 l = BitVec.ofNat 32 c.cl.index ∧
    srValue c s 0x05 l = c.grp.ggid ∧
    srValue c s 0x06 l = BitVec.ofNat 32 (if c.reckon then c.team.member else c.grp.core) ∧
    srValue c s 0x07 l = BitVec.ofNat 32 (if c.reckon then c.grp.num % 4 else c.grp.seq) ∧
    srValue c s 0x08 l = c.sp.mask ∧ srValue c s 0x09 l = c.grp.live ∧
    srValue c s 0x0B l ++ srValue c s 0x0A l = c.grp.icnt ∧ srValue c s 0x0D l ++ srValue c s 0x0C l = c.grp.ltime ∧
    srValue c s 0x0F l ++ srValue c s 0x0E l = (if c.reckon then c.grp.ltime else (s.core c.grp.core).cycle) ∧
    srValue c s 0x11 l ++ srValue c s 0x10 l = (if c.reckon then c.grp.ltime else s.mer.time) ∧
    (∀ t, t < 64 → (srValue c s 0x13 l ++ srValue c s 0x12 l).getLsbD t = decide ((tagAsOf c s t).st = .ready)) ∧
    srValue c s 0x14 l = BitVec.ofNat 32 (gstat c.grp c.reckon c.grid.record.maint) ∧
    srValue c s 0x15 l = BitVec.ofNat 32 c.grp.vallot ∧
    srValue c s 0x17 l ++ srValue c s 0x16 l = c.grid.record.paramPtr ∧
    srValue c s 0x19 l ++ srValue c s 0x18 l = BitVec.ofNat 64 c.grp.saveSlot ∧
    srValue c s 0x1A l = (if c.reckon then 0 else (s.core c.grp.core).slip.getD c.grp.seq 0) ∧
    srValue c s 0x1B l = BitVec.ofNat 32 c.grid.asid ∧
    srValue c s 0x1C l = (if c.reckon then 0 else BitVec.ofNat 32 (s.partOf c.grp.core)) ∧
    ∀ sr : BitVec 8, 0x1C < sr.toNat → srValue c s sr l = 0) ∧
  (∀ a g, Yields false (.movsw 0x14#8 a g) (fun c _ => (c.rd a 0).getLsbD 0 = true)
    (fun c s => retire c (s.modGroup c.gid (fun g => { g with growz := false })))) ∧
  (∀ a g, Yields false (.movsw 0x14#8 a g) (fun c _ => (c.rd a 0).getLsbD 0 = false) (fun c s => retire c s)) ∧
  (∀ a g, Yields false (.movsw 0x40#8 a g) (fun _ _ => True)
    (fun c s => retire c (s.modCore c.grp.core (fun k => { k with slip := k.slip.put 0 c.grp.seq 0 })))) ∧
  (∀ sr a g, sr ≠ 0x14#8 → sr ≠ 0x40#8 → Diverts false (.movsw sr a g) (fun _ _ => True)
    (fun c s => takeTrap c { cause := 0x0E, lanes := c.act } s)) ∧
  (∀ a b g, Yields false (.sysc 0#8 a b g) (fun c _ => c.grp.fifo = []) (fun c s =>
    retire c (s.postOpen c.grid.queue 6 none (some c.grp.ggid.toNat) (some ((c.rd a 0).zeroExtend 64))
      (some ((c.rd b 0).zeroExtend 64)) 0))) ∧
  (∀ a b g, Diverts false (.sysc 0#8 a b g) (fun c _ => c.grp.fifo ≠ []) (fun _ s => s)) ∧
  (∀ svc a b g, svc ≠ 0#8 → Diverts false (.sysc svc a b g) (fun _ _ => True) (fun c s =>
    takeTrap c { cause := 0x01, lanes := c.act } s))

/-- CSAVE stores the group's compact image and returns its size; CLOAD restores the registers an image holds. CSAVE that
issues clear, with room in the FIFO and a legal 256-byte-aligned place for the whole image that meets no conflict,
puts the image in the FIFO and its size in D, and waits while the FIFO is full. CLOAD of a well-formed image that the
allotment covers restores the s, x, mask and v registers from its bytes; a malformed header traps 0x01 with subcode 1,
an image larger than the allotment traps 0x02, and one in units an engine owns calls them back and waits. The image of
a group begins with version 1, holds the s registers from offset 0x40 and the masks from 0x180, m0 as all ones, and,
for an allotment of whole units up to 176 registers, has the size that its own header states. (R164; R165; R166) -/
def Obligations.ContextImages : Prop :=
  (∀ d p g ps, Yields false (.csave d p g)
    (fun c s => c.grp.fifo.length < 16 ∧
      spanPlaces c s (readPair c.grp p) (imageOf c.grp).length 256 .write = .ok ps ∧
      SpanOk c s (readPair c.grp p) ps .write false)
    (fun c s => retire c (writeReg c d (fun _ => BitVec.ofNat 32 (imageOf c.grp).length)
      (pushStore c.gid (ps.zip (imageOf c.grp)) (spanAccessed c s ps .write))))) ∧
  (∀ d p g, Diverts false (.csave d p g) (fun c _ => 16 ≤ c.grp.fifo.length) (fun _ s => s)) ∧
  (∀ p g hps ps n, Yields false (.cload p g)
    (fun c s =>
      let h := hps.map (s.loadByte c.grp.fifo)
      spanPlaces c s (readPair c.grp p) 0x250 256 .read = .ok hps ∧ hps.any s.owned = false ∧
      imageSize h = some n ∧ spanPlaces c s (readPair c.grp p) n 256 .read = .ok ps ∧
      8 * (h.getD 8 0).toNat ≤ c.grp.vallot ∧ SpanOk c s (readPair c.grp p) ps .read true)
    (fun c s =>
      let u := spanMarks c (spanAccessed c s ps .read) (readPair c.grp p) n
      retire c (u.modGroup c.gid (fun g => g.restore (ps.map (u.loadByte c.grp.fifo)))))) ∧
  (∀ p g hps, Diverts false (.cload p g)
    (fun c s => spanPlaces c s (readPair c.grp p) 0x250 256 .read = .ok hps ∧ hps.any s.owned = true)
    (fun _ s => s.callUnits hps)) ∧
  (∀ p g hps, Diverts false (.cload p g)
    (fun c s => spanPlaces c s (readPair c.grp p) 0x250 256 .read = .ok hps ∧ hps.any s.owned = false ∧
      imageSize (hps.map (s.loadByte c.grp.fifo)) = none)
    (fun c s => takeTrap c { cause := 0x01, sub := 1, lanes := c.act } s)) ∧
  (∀ p g hps ps n, Diverts false (.cload p g)
    (fun c s =>
      let h := hps.map (s.loadByte c.grp.fifo)
      spanPlaces c s (readPair c.grp p) 0x250 256 .read = .ok hps ∧ hps.any s.owned = false ∧
      imageSize h = some n ∧ spanPlaces c s (readPair c.grp p) n 256 .read = .ok ps ∧
      c.grp.vallot < 8 * (h.getD 8 0).toNat)
    (fun c s => takeTrap c { cause := 0x02, lanes := c.act } s)) ∧
  (∀ g : Group, leNat ((imageOf g).take 4) = 1 ∧
    (∀ n, n < 48 → BitVec.ofNat 32 (leNat (((imageOf g).drop (0x40 + 4 * n)).take 4)) = g.s.getD n 0) ∧
    leNat (((imageOf g).drop 0x180).take 4) = 0xFFFFFFFF ∧
    (∀ n, 0 < n → n < 8 → BitVec.ofNat 32 (leNat (((imageOf g).drop (0x180 + 4 * n)).take 4)) = g.m.getD n 0) ∧
    (g.vallot % 8 = 0 → g.vallot ≤ 176 → imageSize (imageOf g) = some (imageOf g).length))

/-- FORK blocks at an aligned record; a team all of whose groups wait there is swapped out for the child grid and comes
back; SPAWN creates groups. FORK that issues clear blocks with its record's address, and traps 0x04 when that is not a
multiple of 256. FORK_SWAP_OUT of a team that is ready: a record that is readable and not refused, at a depth below 8,
retires every FORK, swaps the team out and enters the child at the tail of its queue; any other takes forkTraps, trap
0x1B at the FORK of every RESIDENT group. FORK_RESUME puts a team whose child has ended into the dispatch queue of the
first of the cores with room that have fewest resident and queued teams. SPAWN in a maintenance grid with a legal
index and count reads the entry table and creates that many groups at the entry, bits 2:0 dropped (the model's choice,
assumption log 28), no more than there is room for, and returns their number, in Reckoning mode where there is room
for all of them; an index or count that is not legal, and a grid that is no maintenance grid, traps 0x1B. (R56; R96;
R98; R147; R148; R151; R451; R452) -/
def Obligations.ForkAndSpawn : Prop :=
  (∀ p g, Yields true (.fork p g) (fun c _ => (readPair c.grp p).toNat % 256 = 0)
    (fun c s => block c (.fork (readPair c.grp p)) s)) ∧
  (∀ p g, Diverts true (.fork p g) (fun c _ => (readPair c.grp p).toNat % 256 ≠ 0)
    (fun c s => takeTrap c { cause := 0x04, lanes := c.act } s)) ∧
  (∀ tid t gr a bs (s s' : State), s.teams.find? tid = some t → s.grids.find? t.grid = some gr → s.forkAddr tid = some a →
    t.swapped = false → s.forkReady tid = true → s.readVa gr.asid a.toNat 256 = (s', bs) →
    (∀ b, bs = some b →
      let x := s'.refusedRecord gr.asid (parseLaunch b)
      (x.2 = false → gr.depth < 8 → exec (.forkSwapOut tid) s =
        .next (((x.1.forkRetire tid gr.record.reckon).swapOut tid true false).submitChild tid gr.asid (gr.depth + 1) a
          (parseLaunch b))) ∧
      (x.2 = true ∨ 8 ≤ gr.depth → exec (.forkSwapOut tid) s = .next (x.1.forkTraps tid))) ∧
    (bs = none → exec (.forkSwapOut tid) s = .next (s'.forkTraps tid))) ∧
  (∀ tid t gr core pre post (s : State), s.teams.find? tid = some t → s.grids.find? t.grid = some gr →
    t.swapped = true → t.forked = true → t.child = none → gr.ending = none →
    s.cores.any (fun e => e.2.dispatchQ.contains tid) = false →
    (s.gridParts gr).flatMap s.placeable = pre ++ core :: post → (s.roomAt core (s.teamNeed tid)).isSome = true →
    (∀ c ∈ pre, s.roomAt c (s.teamNeed tid) = none ∨
      (s.teamsOn core).length + (s.core core).dispatchQ.length < (s.teamsOn c).length + (s.core c).dispatchQ.length) →
    (∀ c ∈ post, s.roomAt c (s.teamNeed tid) = none ∨
      (s.teamsOn core).length + (s.core core).dispatchQ.length ≤ (s.teamsOn c).length + (s.core c).dispatchQ.length) →
    exec (.forkResume tid) s = .next (s.modCore core (fun k => { k with dispatchQ := k.dispatchQ ++ [tid] }))) ∧
  (∀ d idx cnt g pa, Yields true (.spawn d idx cnt g)
    (fun c s => c.grid.record.maint = true ∧ (c.rd idx 0).toNat < c.grid.record.entryCnt ∧ (c.rd cnt 0).toNat ≠ 0 ∧
      (c.rd cnt 0).toNat ≤ (s.freeNumbers c.grp.team).length ∧
      s.resolve c.grid (c.grid.record.entryTab.toNat + 8 * (c.rd idx 0).toNat) 8 .read = some pa ∧
      (c.reckon = true → (c.rd cnt 0).toNat ≤
        (((s.markRead c.grid (.glob (c.grid.record.entryTab.toNat + 8 * (c.rd idx 0).toNat))).touchPlaces (some c.grp.core)
          (c.tag s) [(.global, pa)])).spawnRoom c.grp.core (c.grid.record.vcnt / 8)))
    (fun c s =>
      let u := (s.markRead c.grid (.glob (c.grid.record.entryTab.toNat + 8 * (c.rd idx 0).toNat))).touchPlaces
        (some c.grp.core) (c.tag s) [(.global, pa)]
      let n := min (c.rd cnt 0).toNat (u.spawnRoom c.grp.core (c.grid.record.vcnt / 8))
      retire c (writeReg c d (fun _ => BitVec.ofNat 32 n)
        (spawnGroups c n (BitVec.ofNat 64 (u.physNat pa 8 / 8 * 8)) (if c.reckon then c.grp.ltime + 1 else 0) u)))) ∧
  (∀ d idx cnt g, Diverts true (.spawn d idx cnt g)
    (fun c s => c.grid.record.maint = false ∨ c.grid.record.entryCnt ≤ (c.rd idx 0).toNat ∨ (c.rd cnt 0).toNat = 0 ∨
      (s.freeNumbers c.grp.team).length < (c.rd cnt 0).toNat)
    (fun c s => takeTrap c { cause := 0x1B, lanes := c.act } s))

/-- XFER and XMCAST are accepted when the tag is free, stores have drained and R298's checks pass: the tag is PENDING with
status 2, the command in flight. XFER of each transform and XMCAST, issuing clear with a free tag, no store in the
FIFO and a record, addresses, object and members that pass R298 (XferOk), complete (xferTaken): the command is
accepted and the instruction retires at the next word, in Reckoning mode observing the completion that freed its tag
where the tag had held it back. Acceptance puts a new command in flight with the next id, the tag, the object, the
group, its key and the transfer that the record and the operands give, keeps every other command, makes the tag
PENDING with status word 2, and leaves every register and mask register as it was. A command whose tag is PENDING
stays at its word, in Reckoning mode marked as stalled by it, and one whose group has stores in the FIFO changes
nothing. (R22; R212; R292; R296; R297; R298; R299; R306; R307; R313; R321) -/
def Obligations.TransfersAreAccepted : Prop :=
  (∀ a g ps bs u bar, Yields true (.xferCopy a g) (fun c s => XferOk 0 a false c s ps bs u bar)
    (fun c s => xferTaken 0 a false c s ps bs u bar)) ∧
  (∀ a g ps bs u bar, Yields true (.xferTranspose a g) (fun c s => XferOk 1 a false c s ps bs u bar)
    (fun c s => xferTaken 1 a false c s ps bs u bar)) ∧
  (∀ a g ps bs u bar, Yields true (.xferRepack a g) (fun c s => XferOk 2 a false c s ps bs u bar)
    (fun c s => xferTaken 2 a false c s ps bs u bar)) ∧
  (∀ a g ps bs u bar, Yields true (.xferQuant a g) (fun c s => XferOk 3 a false c s ps bs u bar)
    (fun c s => xferTaken 3 a false c s ps bs u bar)) ∧
  (∀ a g ps bs u bar, Yields true (.xferDequant a g) (fun c s => XferOk 4 a false c s ps bs u bar)
    (fun c s => xferTaken 4 a false c s ps bs u bar)) ∧
  (∀ a g ps bs u bar, Yields true (.xferGather a g) (fun c s => XferOk 5 a false c s ps bs u bar)
    (fun c s => xferTaken 5 a false c s ps bs u bar)) ∧
  (∀ a g ps bs u bar, Yields true (.xferScatter a g) (fun c s => XferOk 6 a false c s ps bs u bar)
    (fun c s => xferTaken 6 a false c s ps bs u bar)) ∧
  (∀ a g ps bs u bar, Yields true (.xferFill a g) (fun c s => XferOk 7 a false c s ps bs u bar)
    (fun c s => xferTaken 7 a false c s ps bs u bar)) ∧
  (∀ a g ps bs u bar, Yields true (.xmcast a g) (fun c s => XferOk 0 a true c s ps bs u bar)
    (fun c s => xferTaken 0 a true c s ps bs u bar)) ∧
  (∀ a g, Diverts true (.xferCopy a g) (fun c s => s.tagFree c.grp.core a.tag.val = false)
    (fun c s => if c.reckon then s.modSplit c.gid c.slot (fun sp => { sp with wait := .stalled }) else s)) ∧
  (∀ a g, Diverts true (.xferTranspose a g) (fun c s => s.tagFree c.grp.core a.tag.val = false)
    (fun c s => if c.reckon then s.modSplit c.gid c.slot (fun sp => { sp with wait := .stalled }) else s)) ∧
  (∀ a g, Diverts true (.xferRepack a g) (fun c s => s.tagFree c.grp.core a.tag.val = false)
    (fun c s => if c.reckon then s.modSplit c.gid c.slot (fun sp => { sp with wait := .stalled }) else s)) ∧
  (∀ a g, Diverts true (.xferQuant a g) (fun c s => s.tagFree c.grp.core a.tag.val = false)
    (fun c s => if c.reckon then s.modSplit c.gid c.slot (fun sp => { sp with wait := .stalled }) else s)) ∧
  (∀ a g, Diverts true (.xferDequant a g) (fun c s => s.tagFree c.grp.core a.tag.val = false)
    (fun c s => if c.reckon then s.modSplit c.gid c.slot (fun sp => { sp with wait := .stalled }) else s)) ∧
  (∀ a g, Diverts true (.xferGather a g) (fun c s => s.tagFree c.grp.core a.tag.val = false)
    (fun c s => if c.reckon then s.modSplit c.gid c.slot (fun sp => { sp with wait := .stalled }) else s)) ∧
  (∀ a g, Diverts true (.xferScatter a g) (fun c s => s.tagFree c.grp.core a.tag.val = false)
    (fun c s => if c.reckon then s.modSplit c.gid c.slot (fun sp => { sp with wait := .stalled }) else s)) ∧
  (∀ a g, Diverts true (.xferFill a g) (fun c s => s.tagFree c.grp.core a.tag.val = false)
    (fun c s => if c.reckon then s.modSplit c.gid c.slot (fun sp => { sp with wait := .stalled }) else s)) ∧
  (∀ a g, Diverts true (.xmcast a g) (fun c s => s.tagFree c.grp.core a.tag.val = false)
    (fun c s => if c.reckon then s.modSplit c.gid c.slot (fun sp => { sp with wait := .stalled }) else s)) ∧
  (∀ a g, Diverts true (.xferCopy a g) (fun c s => s.tagFree c.grp.core a.tag.val = true ∧ c.grp.fifo ≠ []) (fun _ s => s)) ∧
  (∀ a g, Diverts true (.xferTranspose a g) (fun c s => s.tagFree c.grp.core a.tag.val = true ∧ c.grp.fifo ≠ []) (fun _ s => s)) ∧
  (∀ a g, Diverts true (.xferRepack a g) (fun c s => s.tagFree c.grp.core a.tag.val = true ∧ c.grp.fifo ≠ []) (fun _ s => s)) ∧
  (∀ a g, Diverts true (.xferQuant a g) (fun c s => s.tagFree c.grp.core a.tag.val = true ∧ c.grp.fifo ≠ []) (fun _ s => s)) ∧
  (∀ a g, Diverts true (.xferDequant a g) (fun c s => s.tagFree c.grp.core a.tag.val = true ∧ c.grp.fifo ≠ []) (fun _ s => s)) ∧
  (∀ a g, Diverts true (.xferGather a g) (fun c s => s.tagFree c.grp.core a.tag.val = true ∧ c.grp.fifo ≠ []) (fun _ s => s)) ∧
  (∀ a g, Diverts true (.xferScatter a g) (fun c s => s.tagFree c.grp.core a.tag.val = true ∧ c.grp.fifo ≠ []) (fun _ s => s)) ∧
  (∀ a g, Diverts true (.xferFill a g) (fun c s => s.tagFree c.grp.core a.tag.val = true ∧ c.grp.fifo ≠ []) (fun _ s => s)) ∧
  (∀ a g, Diverts true (.xmcast a g) (fun c s => s.tagFree c.grp.core a.tag.val = true ∧ c.grp.fifo ≠ []) (fun _ s => s)) ∧
  (∀ fn a mcast c s ps bs u bar, xferTaken fn a mcast c s ps bs u bar =
    retireTo c 1 (if c.sp.wait = .stalled then some (s.tag c.grp.core a.tag.val).key else none) (c.sp.pc + 8)
      (acceptXfer c a.tag.val bar (viewOf c s)
        (ps.zipIdx.map (fun p => (p.1, readPair c.grp a.recp + BitVec.ofNat 64 p.2))) (xferOf fn a mcast c bs) u)) ∧
  (∀ c tag bar view rp x s,
    let t := acceptXfer c tag bar view rp x s
    t.uid = s.uid + 1 ∧
    (∃ cmd y, t.cmds.find? (s.uid + 1) = some cmd ∧ cmd.tag = some tag ∧ cmd.bar = bar ∧ cmd.grp = c.gid ∧
      cmd.view = view ∧ cmd.key = c.grp.key ∧ cmd.work = .xfer y ∧
      { y with idx := none, fixed := 0 } = { x with idx := none, fixed := 0 } ∧ (c.reckon = false → y = x) ∧
      (∀ k, k ≠ s.uid + 1 → t.cmds.find? k = s.cmds.find? k)) ∧
    t.tag c.grp.core tag =
      { st := .pending, status := 2, cmd := s.uid + 1, team := c.grp.team, key := c.grp.key } ∧
    (∀ r l, t.lane c.gid r l = s.lane c.gid r l) ∧ ∀ k, t.mask c.gid k = s.mask c.gid k)

/-- TWAITA, TWAITL, TFFR, TCLR and XSTAT complete with the tags' states and statuses as R309 says. LIVE is the tags of the
mask that were not IDLE as the wait first issued; in Reckoning mode TWAITA and TFFR take the lowest of them alone.
TWAITA with no live tag returns 64; with a READY live tag it returns the lowest READY tag of its mask, in Reckoning
mode the live one; with none it waits with its live tags fixed. TWAITL waits until every live tag is READY, then
returns the lowest whose CODE is not 0, or 64. TFFR returns the lowest READY tag of its mask or 64 at once, but in
Reckoning mode waits while its live tag is PENDING. TCLR makes IDLE the tags of its mask that are READY as of the
issuer's key, and retires. XSTAT returns the tag's status word as of the issuer's key. A trap that the group owes for
a command whose completion is observed comes first, then under .TRAP that of a fault status; without either the
instruction retires and observes the completions. (R24; R292; R293; R294; R295; R308; R309; R313) -/
def Obligations.TagInstructions : Prop :=
  (∀ trp sc d m g, Yields true (.twaita trp sc d m g) (fun c s => liveTags c s (maskTags c m) = [])
    (fun c s => retire c (writeReg c d (fun _ => 64) s))) ∧
  (∀ trp sc d m g r rest tag, Yields true (.twaita trp sc d m g)
    (fun c s => tagsIn c s .ready (if c.reckon then (liveTags c s (maskTags c m)).take 1 else liveTags c s (maskTags c m)) = r :: rest ∧
      tag = (if c.reckon then r else ((tagsIn c s .ready (maskTags c m)).head?).getD r) ∧
      owedOn c s [tag] = none ∧ (trp = true → statusTrap c (s.tag c.grp.core tag).status = none))
    (fun c s => retireTo c 1 (seenKey c s [tag]) (c.sp.pc + 8) (writeReg c d (fun _ => BitVec.ofNat 32 tag) s))) ∧
  (∀ sc d m g r rest tag t, Diverts true (.twaita true sc d m g)
    (fun c s => tagsIn c s .ready (if c.reckon then (liveTags c s (maskTags c m)).take 1 else liveTags c s (maskTags c m)) = r :: rest ∧
      tag = (if c.reckon then r else ((tagsIn c s .ready (maskTags c m)).head?).getD r) ∧
      owedOn c s [tag] = none ∧ statusTrap c (s.tag c.grp.core tag).status = some t)
    (fun c s => takeTrap c t s)) ∧
  (∀ trp sc d m g r rest tag o, Diverts true (.twaita trp sc d m g)
    (fun c s => tagsIn c s .ready (if c.reckon then (liveTags c s (maskTags c m)).take 1 else liveTags c s (maskTags c m)) = r :: rest ∧
      tag = (if c.reckon then r else ((tagsIn c s .ready (maskTags c m)).head?).getD r) ∧ owedOn c s [tag] = some o)
    (fun c s => takeOwed c o s)) ∧
  (∀ trp sc d m g, Yields true (.twaita trp sc d m g)
    (fun c s => liveTags c s (maskTags c m) ≠ [] ∧ tagsIn c s .ready (if c.reckon then (liveTags c s (maskTags c m)).take 1 else liveTags c s (maskTags c m)) = [])
    (fun c s =>
      let w := Wait.tags (tagMask (if c.reckon then (liveTags c s (maskTags c m)).take 1 else liveTags c s (maskTags c m)))
      if c.sp.wait = w then s else block c w s)) ∧
  (∀ trp sc d m g, Yields true (.twaitl trp sc d m g)
    (fun c s => tagsIn c s .ready (liveTags c s (maskTags c m)) = liveTags c s (maskTags c m) ∧
      owedOn c s (liveTags c s (maskTags c m)) = none ∧
      ∀ k ∈ liveTags c s (maskTags c m), statusCode (s.tag c.grp.core k).status = 0)
    (fun c s => retireTo c 1 (seenKey c s (liveTags c s (maskTags c m))) (c.sp.pc + 8) (writeReg c d (fun _ => 64) s))) ∧
  (∀ trp sc d m g tag, Yields true (.twaitl trp sc d m g)
    (fun c s => tagsIn c s .ready (liveTags c s (maskTags c m)) = liveTags c s (maskTags c m) ∧
      owedOn c s (liveTags c s (maskTags c m)) = none ∧
      (liveTags c s (maskTags c m)).find? (fun k => statusCode (s.tag c.grp.core k).status ≠ 0) = some tag ∧
      (trp = true → statusTrap c (s.tag c.grp.core tag).status = none))
    (fun c s => retireTo c 1 (seenKey c s (liveTags c s (maskTags c m))) (c.sp.pc + 8)
      (writeReg c d (fun _ => BitVec.ofNat 32 tag) s))) ∧
  (∀ sc d m g tag t, Diverts true (.twaitl true sc d m g)
    (fun c s => tagsIn c s .ready (liveTags c s (maskTags c m)) = liveTags c s (maskTags c m) ∧
      owedOn c s (liveTags c s (maskTags c m)) = none ∧
      (liveTags c s (maskTags c m)).find? (fun k => statusCode (s.tag c.grp.core k).status ≠ 0) = some tag ∧
      statusTrap c (s.tag c.grp.core tag).status = some t)
    (fun c s => takeTrap c t s)) ∧
  (∀ trp sc d m g o, Diverts true (.twaitl trp sc d m g)
    (fun c s => tagsIn c s .ready (liveTags c s (maskTags c m)) = liveTags c s (maskTags c m) ∧
      owedOn c s (liveTags c s (maskTags c m)) = some o)
    (fun c s => takeOwed c o s)) ∧
  (∀ trp sc d m g, Yields true (.twaitl trp sc d m g)
    (fun c s => tagsIn c s .ready (liveTags c s (maskTags c m)) ≠ liveTags c s (maskTags c m))
    (fun c s =>
      let w := Wait.tags (tagMask (liveTags c s (maskTags c m)))
      if c.sp.wait = w then s else block c w s)) ∧
  (∀ sc d m g, Yields true (.tffr sc d m g)
    (fun c s => c.reckon = true ∧ tagsIn c s .pending ((liveTags c s (maskTags c m)).take 1) ≠ [])
    (fun c s =>
      let w := Wait.tags (tagMask ((liveTags c s (maskTags c m)).take 1))
      if c.sp.wait = w then s else block c w s)) ∧
  (∀ sc d m g, Yields true (.tffr sc d m g)
    (fun c s => (c.reckon = true → tagsIn c s .pending ((liveTags c s (maskTags c m)).take 1) = []) ∧
      tagsIn c s .ready (if c.reckon then (liveTags c s (maskTags c m)).take 1 else maskTags c m) = [])
    (fun c s => retire c (writeReg c d (fun _ => 64) s))) ∧
  (∀ sc d m g tag rest, Yields true (.tffr sc d m g)
    (fun c s => (c.reckon = true → tagsIn c s .pending ((liveTags c s (maskTags c m)).take 1) = []) ∧
      tagsIn c s .ready (if c.reckon then (liveTags c s (maskTags c m)).take 1 else maskTags c m) = tag :: rest ∧
      owedOn c s [tag] = none)
    (fun c s => retireTo c 1 (seenKey c s [tag]) (c.sp.pc + 8) (writeReg c d (fun _ => BitVec.ofNat 32 tag) s))) ∧
  (∀ m g, Yields true (.tclr m g) (fun _ _ => True)
    (fun c s => retire c (((maskTags c m).filter (fun k => (tagAsOf c s k).st = .ready)).foldl
      (fun s k => s.putTag c.grp.core k { st := .idle, status := 3, cmd := 0, team := 0, key := (0, 0) }) s))) ∧
  (∀ trp d tag g seen, Yields true (.xstat trp d tag g)
    (fun c s => seen = (if tagAsOf c s tag.val = s.tag c.grp.core tag.val then [tag.val] else []) ∧
      owedOn c s seen = none ∧ (trp = true → statusTrap c (tagAsOf c s tag.val).status = none))
    (fun c s => retireTo c 1 (seenKey c s seen) (c.sp.pc + 8)
      (writeReg c d (fun _ => (tagAsOf c s tag.val).status) s))) ∧
  (∀ d tag g t, Diverts true (.xstat true d tag g)
    (fun c s => tagAsOf c s tag.val = s.tag c.grp.core tag.val ∧ owedOn c s [tag.val] = none ∧
      statusTrap c (s.tag c.grp.core tag.val).status = some t)
    (fun c s => takeTrap c t s))

/-- A transfer writes and releases its units, then completes; completing any command makes its tag READY with its status
word and removes it. ENGINE_LINE_RELEASE of a unit of a running transfer whose turn it is, that may be written now
(unitDue) and whose bytes can be read, writes its bytes, releases it and counts them (releaseUnit), the command
keeping the rows and tile elements it used. COMMAND_COMPLETE of a transfer: of an ended grid, CODE 0x13; of one that
reaches outside the accessible set, CODE 0x12 and the end of its grid; else, in Reckoning mode at its key, CODE 0x11
where a source fails (whether one does is open, assumption log 3), and otherwise, once every unit is released, status
0, or the INDEX status of a gather or scatter that stopped. A completion leaves the command's tag READY with that
status word and the command gone, and the status word holds COUNT and CODE. A refusal with a legal hint is counted in
the management counters and changes nothing else. RFENCE, once the stores have drained, drops the record from the
core's cache, or every record without an operand; SPFENCE of a range that is not empty raises the generation of every
region it covers and marks the tables there STALE; with stores in the FIFO both wait. (R27; R28; R31; R33; R292; R293;
R302; R303; R304; R305; R311; R312) -/
def Obligations.CommandsGoOnAndComplete : Prop :=
  (∀ id sp unit cmd x x' ws (s : State), s.cmds.find? id = some cmd → cmd.work = .xfer x → s.gridOver cmd = false →
    x.turn id cmd s = true → x' = s.prepare id cmd x → x'.lost = false →
    s.unitDue id cmd (s.xferItems id cmd x') (sp, unit) = true → (sp, unit) ∈ itemUnits (s.xferItems id cmd x') →
    unitWrites (s.xferItems id cmd x') (sp, unit) = some ws →
    exec (.engineLineRelease id sp unit) s =
      .next (({ s with cmds := s.cmds.modify id (fun k => { k with work := .xfer (x'.used (s.xferItems id cmd x')
        (sp, unit) (unitRow (s.xferItems id cmd x') (sp, unit))) }) }).releaseUnit id cmd
        (!x'.replicas.isEmpty) (sp, unit) (s.mergeBytes ws))) ∧
  (∀ id cmd x (s : State), s.cmds.find? id = some cmd → cmd.work = .xfer x → s.gridOver cmd = true →
    exec (.commandComplete id) s = .next ((s.complete id cmd 0x13 []).drain cmd.core)) ∧
  (∀ id cmd x x' st (s : State), s.cmds.find? id = some cmd → cmd.work = .xfer x → s.gridOver cmd = false →
    x.turn id cmd s = true → x' = s.prepare id cmd x → x'.lost = false →
    leaseFault (s.xferItems id cmd x') = false → s.completable cmd = true →
    st = (if x'.fn = 5 ∨ x'.fn = 6 then stopRow x'.shape (x'.idx.getD []) else none) →
    exec (.commandComplete id) s = .next
      ((if s.sourceFails x' then s.complete id cmd 0x11
          ((writtenPlaces (s.xferItems id cmd x')).filter (fun w => !cmd.owns (unitOf w.1)))
        else if (itemUnits (s.xferItems id cmd x')).any cmd.owns then s
        else s.complete id cmd ((st.map (fun r => statusWord r 0x10)).getD 0)
          (writtenPlaces (s.xferItems id cmd x'))).drain cmd.core)) ∧
  (∀ id cmd x x' (s : State), s.cmds.find? id = some cmd → cmd.work = .xfer x → s.gridOver cmd = false →
    x.turn id cmd s = true → x' = s.prepare id cmd x → (x'.lost = true ∨ leaseFault (s.xferItems id cmd x') = true) →
    exec (.commandComplete id) s =
      .next (((s.complete id cmd 0x12 []).endGrid cmd.grid
        { status := 3, ggid := cmd.ggid, cause := 0x05, epc := 0 }).drain cmd.core)) ∧
  (∀ (s : State) id cmd st w, (s.complete id cmd st w).cmds.find? id = none ∧
    ∀ t, cmd.tag = some t → (s.tag cmd.core t).cmd = id →
      (s.complete id cmd st w).tag cmd.core t = { s.tag cmd.core t with st := .ready, status := st }) ∧
  (∀ n code, n < 2 ^ 24 → code < 256 →
    (statusWord n code).toNat % 256 = code ∧ (statusWord n code).toNat / 256 = n) ∧
  (∀ id cmd x unit hint (s : State), s.cmds.find? id = some cmd → cmd.work = .xfer x → 1 ≤ hint → hint ≤ 255 →
    unit < 2 ^ 39 → exec (.traverseRefusalRetry id .global unit hint) s = .next (s.countMgmt 1)) ∧
  (∀ recp g, Yields false (.rfence recp g) (fun c _ => c.grp.fifo = [])
    (fun c s => retire c (s.modCore c.grp.core (fun k => { k with recCache := k.recCache.filter (fun e => recp.any
      (fun p => decide (e.1 ≠ c.grid.asid) || decide (e.2.1 ≠ (readPair c.grp p).toNat))) })))) ∧
  (∀ recp g, Diverts false (.rfence recp g) (fun c _ => c.grp.fifo ≠ []) (fun _ s => s)) ∧
  (∀ loc len g core off, Yields false (.spfence loc len g)
    (fun c s => c.grp.fifo = [] ∧ (c.rd len 0).toNat ≠ 0 ∧ locate c s (c.rd loc 0) (c.rd len 0).toNat 1 true = .ok (core, off))
    (fun c s =>
      let u := (genRegions (off - c.team.spadBase) (c.rd len 0).toNat).foldl (fun s r => s.bumpGen c.grp.team r) s
      let v := u.markStale (.spad core) off (off + (c.rd len 0).toNat)
      retire c (if c.reckon then v.keyMarks c.team.cluster c.grp.key else v))) ∧
  (∀ loc len g p, Diverts false (.spfence loc len g)
    (fun c s => c.grp.fifo ≠ [] ∧ locate c s (c.rd loc 0) (c.rd len 0).toNat 1 true = .ok p) (fun _ s => s))

/-- MLOOP, MHAD, TBLD and TLOOK enter the ACC order when their checks pass with fewer than eight in flight, and return the
loop id; MFMT checks a block. MFMT of a block that can be read and is legal for its role returns the block's first
word, and of any other takes trap 0x0B. MLOOP, MHAD, TBLD and TLOOK that issue clear, with no store in the FIFO, fewer
than eight loops of the group in flight (LoopRoom), TBLD with no earlier command on tables, and every check passed,
accept their loop (acceptLoop) and retire; in Reckoning mode the SPAD bytes they read count as source reads. TBLD
first frees the old table of its number, and where room can be made (makeRoom) spills the tables that takes and puts
the new one in; where it cannot, its loop has stopped with CODE 0x23. The first check that fails takes its trap; MHAD
of a pitch of 0 or less than its width traps 0x0B; a ninth loop or a store in the FIFO keeps them at their word.
Accepting a loop puts it at the end of the core's ACC order with its units owned, its id in D, raises ALOOP by one and
makes the loop one of the group's unfinished ones. (R22; R316; R321; R340; R342; R343; R344; R351; R368; R370; R372;
R374) -/
def Obligations.LoopsAreAccepted : Prop :=
  (∀ role d loc g core off, Yields false (.mfmt role d loc g)
    (fun c s =>
      let ps : List Place := (List.range 32).map (fun k => (.spad core, off + k))
      let u := spanAccessed c s ps .read
      locate c s (c.rd loc 0) 32 32 true = .ok (core, off) ∧ SpanOk c s (ownSpad c off) ps .read true ∧
      (parseFmt (ps.map (u.loadByte c.grp.fifo))).ok (roleOf role) = true)
    (fun c s =>
      let ps : List Place := (List.range 32).map (fun k => (.spad core, off + k))
      let u := spanAccessed c s ps .read
      retire c (writeReg c d (fun _ => BitVec.ofNat 32 (leNat ((ps.map (u.loadByte c.grp.fifo)).take 4))) u))) ∧
  (∀ role d loc g core off, Diverts false (.mfmt role d loc g)
    (fun c s =>
      let ps : List Place := (List.range 32).map (fun k => (.spad core, off + k))
      let u := spanAccessed c s ps .read
      locate c s (c.rd loc 0) 32 32 true = .ok (core, off) ∧ SpanOk c s (ownSpad c off) ps .read true ∧
      (parseFmt (ps.map (u.loadByte c.grp.fifo))).ok (roleOf role) = false)
    (fun c s => takeTrap c { cause := 0x0B, lanes := c.act } s)) ∧
  (∀ nan d o g l, Yields true (.mloop nan d o g)
    (fun c s => LoopRoom c s ∧
      l = newLoop .mloop c (octetOf c o) (fmtAt c s ((octetOf c o).getD 7 0) 0) (fmtAt c s ((octetOf c o).getD 7 0) 1)
        (b2n nan) ∧ mloopCheck c s l = none)
    (fun c s => retire c (if c.reckon then
      (acceptLoop c d [] l s).sourceAccess (s.uid + 1) (spadPlaces c (mloopSources l)) else acceptLoop c d [] l s))) ∧
  (∀ nan d o g l k, Diverts true (.mloop nan d o g)
    (fun c s => LoopRoom c s ∧
      l = newLoop .mloop c (octetOf c o) (fmtAt c s ((octetOf c o).getD 7 0) 0) (fmtAt c s ((octetOf c o).getD 7 0) 1)
        (b2n nan) ∧ mloopCheck c s l = some k)
    (fun c s => takeTrap c { cause := k, lanes := c.act } s)) ∧
  (∀ nan d o g, Diverts true (.mloop nan d o g) (fun c s => ¬LoopRoom c s) (fun _ s => s)) ∧
  (∀ p sc d loc geom g, Diverts true (.mhad p sc d loc geom g) (fun c s => ¬LoopRoom c s) (fun _ s => s)) ∧
  (∀ d o g, Diverts true (.tbld d o g) (fun c s => ¬LoopRoom c s ∨ s.tablesQuiet c.grp.core = false) (fun _ s => s)) ∧
  (∀ d o g, Diverts true (.tlook d o g) (fun c s => ¬LoopRoom c s) (fun _ s => s)) ∧
  (∀ p sc d loc geom g core off q width, Yields true (.mhad p sc d loc geom g)
    (fun c s => LoopRoom c s ∧ q = hadGeom (c.rd geom 0) ∧ width = 4 * 2 ^ hadStageCount p * q.2.1 ∧ q.2.2 ≠ 0 ∧
      width ≤ q.2.2 ∧ locate c s (c.rd loc 0) ((q.1 - 1) * q.2.2 + width) 16 true = .ok (core, c.team.spadBase + off))
    (fun c s =>
      let u := acceptLoop c d
        ((List.range q.1).map (fun r => (.spad core, (c.team.spadBase + (off + r * q.2.2)) / 32,
          (c.team.spadBase + (off + r * q.2.2) + width - 1) / 32 + 1)))
        (newLoop .mhad c [BitVec.ofNat 32 off, c.rd geom 0] [] [] (hadMod p sc)) s
      retire c (if c.reckon then u.sourceAccess u.uid (spadPlaces c ((List.range q.1).flatMap (fun r =>
        runOf (off + r * q.2.2) width))) else u))) ∧
  (∀ p sc d loc geom g, Diverts true (.mhad p sc d loc geom g)
    (fun c s => LoopRoom c s ∧ ((hadGeom (c.rd geom 0)).2.2 = 0 ∨
      (hadGeom (c.rd geom 0)).2.2 < 4 * 2 ^ hadStageCount p * (hadGeom (c.rd geom 0)).2.1))
    (fun c s => takeTrap c { cause := 0x0B, lanes := c.act } s)) ∧
  (∀ d o g t k book, Diverts true (.tbld d o g)
    (fun c s => LoopRoom c s ∧ s.tablesQuiet c.grp.core = true ∧
      book = (bits ((octetOf c o).getD 1 0).toNat 16 16 != 0xFFFF) ∧
      t = tableOf (octetOf c o) (fmtAt c s ((octetOf c o).getD 1 0) 0)
        (if book then fmtAt c s ((octetOf c o).getD 1 0) 1 else List.replicate 32 0xFF) book ∧
      tbldCheck c s t = some k)
    (fun c s => takeTrap c { cause := k, lanes := c.act } s)) ∧
  (∀ d o g t book num room, Yields true (.tbld d o g)
    (fun c s => LoopRoom c s ∧ s.tablesQuiet c.grp.core = true ∧
      book = (bits ((octetOf c o).getD 1 0).toNat 16 16 != 0xFFFF) ∧
      t = tableOf (octetOf c o) (fmtAt c s ((octetOf c o).getD 1 0) 0)
        (if book then fmtAt c s ((octetOf c o).getD 1 0) 1 else List.replicate 32 0xFF) book ∧
      tbldCheck c s t = none ∧ num = bits (t.w 5) 0 6 ∧
      let u := s.modTeam c.grp.team (fun x => { x with tables := x.tables.erase num })
      room = (if 256 ≤ u.descriptorsUsed c.grp.core then none else
        u.makeRoom c.grp.core c.grp.team t.need (parseFmt t.afb).autospill num (u.pendingTables c.grp.team) c.reckon
          c.grp.key))
    (fun c s =>
      let u := s.modTeam c.grp.team (fun x => { x with tables := x.tables.erase num })
      let nt := { t with chunks := t.need, watch := t.watchAt c.team.core c.team.spadBase }
      let l := newLoop .tbld c (octetOf c o) t.afb t.cbfb 0
      match room with
      | some vs =>
        let v := acceptLoop c d [] { l with victims := vs }
          ((u.markSpilled c.grp.team vs c.reckon c.grp.key).modTeam c.grp.team (fun x => { x with tables := x.tables.set num nt }))
        let w := v.ownSpills v.uid vs
        retire c (if c.reckon then w.sourceAccess v.uid (spadPlaces c nt.sourceOffsets) else w)
      | none =>
        let v := acceptLoop c d [] { l with done := some (0x23, 0) } u
        retire c (v.ownSpills v.uid []))) ∧
  (∀ d o g l, Yields true (.tlook d o g)
    (fun c s => LoopRoom c s ∧
      l = { newLoop .tlook c (octetOf c o) (fmtAt c s ((octetOf c o).getD 5 0) 0) [] 0 with
            pendTabs := s.pendingTables c.grp.team } ∧ tlookCheck c s l = none)
    (fun c s =>
      let num := bits ((octetOf c o).getD 4 0).toNat 0 6
      let u := acceptLoop c d [] l s
      let v := u.modTable c.grp.team num (fun t => { t with looks := t.looks ++ [(c.gid, c.grp.aloop.toNat)] })
      retire c (if c.reckon then
        match v.table c.grp.team num with
        | some t => v.sourceAccess u.uid (spadPlaces c t.sourceOffsets)
        | none => v
      else v))) ∧
  (∀ d o g l k, Diverts true (.tlook d o g)
    (fun c s => LoopRoom c s ∧
      l = { newLoop .tlook c (octetOf c o) (fmtAt c s ((octetOf c o).getD 5 0) 0) [] 0 with
            pendTabs := s.pendingTables c.grp.team } ∧ tlookCheck c s l = some k)
    (fun c s => takeTrap c { cause := k, lanes := c.act } s)) ∧
  (∀ c d owned l (s : State) g, s.groups.find? c.gid = some g → l.id = g.aloop → g.team = c.grp.team →
    (s.teams.find? c.grp.team).isSome = true →
    let t := acceptLoop c d owned l s
    (t.core c.grp.core).accQ = (s.core c.grp.core).accQ ++ [s.uid + 1] ∧
    (∃ cmd, t.cmds.find? (s.uid + 1) = some cmd ∧ cmd.work = .loop l ∧ cmd.owned = owned ∧ cmd.grp = c.gid) ∧
    (∃ g', t.groups.find? c.gid = some g' ∧ g'.aloop = g.aloop + 1 ∧ g'.loops.find? g.aloop.toNat = some none) ∧
    ∀ r i, i < 32 → t.lane c.gid r i = wrote c.act d (fun _ => BitVec.ofNat 32 g.aloop.toNat) r i (s.lane c.gid r i))

/-- ACCZ, ACCRD and ACCWR enter the ACC order and, first in it, zero tiles and set their mode, read elements into D and
write elements. ACCZ with legal tiles, and ACCRD and ACCWR of an aligned address inside ACC, complete: they enter the
ACC order, ACCRD with D pending, and a command that is first in that order does its work. ACCZ's work gives every tile
of its range the mode, the tag of the ASID, and zeros; ACCWR's puts each participating lane's value in its element;
ACCRD's gives each participating lane of D the element as ACC reads it. ACCZ of illegal tiles or with reserved bits
set, and ACCRD and ACCWR of an address outside ACC, take trap 0x03, of an unaligned address trap 0x04. A tile that
does not bear the ASID's tag reads as 0. (R317; R318; R320; R321; R349; R350) -/
def Obligations.AccCommands : Prop :=
  (∀ tm a g v, Yields true (.accz tm a g)
    (fun c _ => v = (c.rd a 0).toNat ∧ bit v 7 = false ∧ bits v 16 16 = 0 ∧ bits v 8 8 ≠ 0 ∧ bits v 0 7 + bits v 8 8 ≤ 128 ∧
      (tm = .x2 → bits v 0 7 % 2 = 0 ∧ bits v 8 8 % 2 = 0))
    (fun c s => (retire c (s.submit c [] (.accz tm (bits v 0 7) (bits v 8 8)))).drain c.grp.core)) ∧
  (∀ tm a g, Diverts true (.accz tm a g)
    (fun c _ => bit (c.rd a 0).toNat 7 = true ∨ bits (c.rd a 0).toNat 16 16 ≠ 0 ∨ bits (c.rd a 0).toNat 8 8 = 0 ∨ 128 < bits (c.rd a 0).toNat 0 7 + bits (c.rd a 0).toNat 8 8 ∨
      (tm = .x2 ∧ (bits (c.rd a 0).toNat 0 7 % 2 = 1 ∨ bits (c.rd a 0).toNat 8 8 % 2 = 1)))
    (fun c s => takeTrap c { cause := 0x03, lanes := c.act } s)) ∧
  (∀ raw d a g, Yields true (.accrd raw d a g)
    (fun c _ => (c.rd a 0).toNat < 8388608 ∧ (c.rd a 0).toNat % 128 = 0)
    (fun c s => (retire c ((s.submit c [] (.accrd raw d (c.rd a 0).toNat)).modGroup c.gid
      (fun g => { g with pend := g.pend ++ (regCodes (d, 1)).map (fun r => { reg := r, ready := false }) }))).drain
        c.grp.core)) ∧
  (∀ raw d a g, Diverts true (.accrd raw d a g) (fun c _ => 8388608 ≤ (c.rd a 0).toNat)
    (fun c s => takeTrap c { cause := 0x03, lanes := c.act } s)) ∧
  (∀ raw d a g, Diverts true (.accrd raw d a g) (fun c _ => (c.rd a 0).toNat < 8388608 ∧ (c.rd a 0).toNat % 128 ≠ 0)
    (fun c s => takeTrap c { cause := 0x04, lanes := c.act } s)) ∧
  (∀ a b g, Yields true (.accwr a b g)
    (fun c _ => (c.rd a 0).toNat < 8388608 ∧ (c.rd a 0).toNat % 128 = 0)
    (fun c s => (retire c (s.submit c [] (.accwr (c.rd a 0).toNat c.act ((List.range 32).map (c.rd b))))).drain
      c.grp.core)) ∧
  (∀ a b g, Diverts true (.accwr a b g) (fun c _ => 8388608 ≤ (c.rd a 0).toNat)
    (fun c s => takeTrap c { cause := 0x03, lanes := c.act } s)) ∧
  (∀ a b g, Diverts true (.accwr a b g) (fun c _ => (c.rd a 0).toNat < 8388608 ∧ (c.rd a 0).toNat % 128 ≠ 0)
    (fun c s => takeTrap c { cause := 0x04, lanes := c.act } s)) ∧
  (∀ (s : State) core id cmd, (s.core core).accQ = [id] → s.cmds.find? id = some cmd →
    (∀ m f n, cmd.work = .accz m f n → s.drain core =
      (s.modCore cmd.core (fun k => k.applyAccz m f n cmd.asid cmd.team)).finishAcc id cmd []) ∧
    (∀ a act vals, cmd.work = .accwr a act vals → s.drain core =
      (s.modCore cmd.core (fun k => k.applyAccwr a act vals cmd.asid cmd.team)).finishAcc id cmd []) ∧
    (∀ raw d a, cmd.work = .accrd raw d a → s.drain core =
      (giveReg cmd d (fun l => (s.core cmd.core).accRead cmd.asid (a / 65536) (bits a 9 7) (bits a 2 7 + l) raw)
        s).finishAcc id cmd [])) ∧
  (∀ (k : Core) mode first count asid team t, first + count ≤ 128 → first ≤ t → t < first + count →
    (k.applyAccz mode first count asid team).mode t = mode ∧ (k.applyAccz mode first count asid team).tileOf t asid = true ∧
    ∀ m n, m < 128 → n < 128 → (k.applyAccz mode first count asid team).acc.getD (accIndex t m n) 0 = 0) ∧
  (∀ (k : Core) addr act vals asid team l, addr < 8388608 → addr % 128 = 0 → l < 32 → laneIn act l = true →
    (k.applyAccwr addr act vals asid team).acc.getD (accIndex (addr / 65536) (bits addr 9 7) (bits addr 2 7 + l)) 0 =
      laneOf vals l) ∧
  (∀ (k : Core) asid t m n, k.tileOf t asid = false → ∀ raw, k.accRead asid t m n raw = 0)

/-- Loops step in ACC order, complete with their status merged into ASTAT in age order; MWAIT and MSTAT observe them.
LOOP_STEP of an unfinished MLOOP whose turn it is, on a core that has not stopped it, and of an MHAD runs its next
step (mloopStep, mhadStep); a step of a dense MLOOP raises the progress by one and finishes the loop at its last step.
TABLE_BUILD of a TBLD, once it owns its victims' spill areas alone, writes them and computes its table from its
sources. TLOOK_STEP zeroes the tile first where the loop asks for it and judges its table: one that is gone or FREE,
or STALE without REBUILD, stops the loop with CODE 0x21; a VALID one with its entries takes the step (lookStep), one
that lost them is rebuilt first; where room is needed it decides on the spills, and makes them at the next turn that
owns them alone, and then judges again. LOOP_COMPLETE of a loop that has stopped, in Reckoning mode at its key,
completes it. A single finished loop's status is merged into ASTAT: a first CODE that is not 0 stands and the flags
are ORed. MWAIT waits for the loop and all older ones, then returns ASTAT and clears it, or under .TRAP takes the
status's trap; MSTAT returns the progress of a loop in flight with CODE 2, else ASTAT; a trap the group owes for a
loop they observe comes first. (R343; R344; R345; R346; R347; R352; R370; R371; R375) -/
def Obligations.LoopResults : Prop :=
  (∀ core idx id cmd l (s : State), s.accTurn core idx = some (id, cmd) → cmd.work = .loop l → l.done = none →
    (l.op = .mloop → s.stopped core = false → exec (.loopStep core idx) s = .next (s.mloopStep id cmd l)) ∧
    (l.op = .mhad → exec (.loopStep core idx) s = .next (s.mhadStep id cmd l)) ∧
    (l.op = .tbld → s.spillBlocked id cmd l.victims = false →
      let u := s.writeSpills id cmd l.victims
      ∀ t, u.table cmd.team (bits (l.w 5).toNat 0 6) = some t → exec (.tableBuild core idx) s =
        .next ({ (u.modTable cmd.team (bits (l.w 5).toNat 0 6) (fun x => { x with entries := u.buildTable id cmd t })).setLoop
          id { l with done := some (0, 0) } with fresh := u.fresh + 2 ^ 33 })) ∧
    (l.op = .tlook → s.stopped core = false → l.decided = none →
      let num := bits (l.w 4).toNat 0 6
      let u := s.modCore cmd.core (fun k => k.zeroFirst l cmd.asid cmd.team)
      (u.table cmd.team num = none →
        exec (.tlookStep core idx) s = .next (u.setLoop id { l with done := some (0x21, l.progress) })) ∧
      ∀ t, u.table cmd.team num = some t →
        (∀ code, u.judge cmd l num t = .stop code →
          exec (.tlookStep core idx) s = .next (u.setLoop id { l with done := some (code, l.progress) })) ∧
        (u.judge cmd l num t = .go → exec (.tlookStep core idx) s = .next (u.lookStep id cmd l t)) ∧
        (u.judge cmd l num t = .build → exec (.tlookStep core idx) s =
          .next ((u.rebuilt id cmd num t).lookStep id cmd l (((u.rebuilt id cmd num t).table cmd.team num).getD t))) ∧
        (∀ vs, u.judge cmd l num t = .room vs →
          exec (.tlookStep core idx) s = .next (u.decideRoom id cmd l num vs))) ∧
    (∀ fill vs, l.op = .tlook → s.stopped core = false → l.decided = some (fill, vs) →
      let num := bits (l.w 4).toNat 0 6
      let u := s.modCore cmd.core (fun k => k.zeroFirst l cmd.asid cmd.team)
      exec (.tlookStep core idx) s = .next (if u.spillBlocked id cmd vs then u
        else (u.doRoom id cmd l num fill vs).tlookFrom id cmd { l with decided := none } num))) ∧
  (∀ (s : State) cmd l num t,
    (t.asOf cmd.reckon cmd.key = .valid → s.judge cmd l num t = if t.lost then .build else .go) ∧
    (t.asOf cmd.reckon cmd.key = .free → s.judge cmd l num t = .stop 0x21) ∧
    (t.asOf cmd.reckon cmd.key = .stale → (parseFmt l.fa).rebuild = false → s.judge cmd l num t = .stop 0x21)) ∧
  (∀ core idx id cmd l d (s : State), s.accTurn core idx = some (id, cmd) → cmd.work = .loop l → l.done = some d →
    s.completable cmd = true →
    exec (.loopComplete core idx) s = .next ((s.completeLoop id cmd l
      (if l.op = .mhad then hadPlaces cmd l else s.spilledPlaces cmd l.victims)).drain core)) ∧
  (∀ (s : State) id cmd l, l.sparse = 0 → (∃ u : State, s.mloopStep id cmd l = u ∧ ∃ l' : Loop,
      u.cmds = s.cmds.modify id (fun k => { k with work := .loop l' }) ∧ l'.progress = l.progress + 1 ∧
      l'.done = (if l.progress + 1 = l.steps then some (0, 0) else none) ∧ l'.octet = l.octet)) ∧
  (∀ (g : Group) id w, g.loops = [(id, some w)] → g.mergeDone = { g with astat := mergeStatus g.astat w, loops := [] }) ∧
  (∀ a w : Word, (statusCode a ≠ 0 → statusCode (mergeStatus a w) = statusCode a) ∧
    (statusCode a = 0 → statusCode (mergeStatus a w) = statusCode w) ∧
    (mergeStatus a w).getLsbD 8 = (a.getLsbD 8 || w.getLsbD 8) ∧
    (mergeStatus a w).getLsbD 9 = (a.getLsbD 9 || w.getLsbD 9)) ∧
  (∀ trp d a g, Yields true (.mwait trp d a g)
    (fun c _ =>
      let k := c.grp.loopAge (c.rd a 0).toNat
      (7 < k ∨ c.grp.loops.any (fun e => decide (k ≤ c.grp.loopAge e.1)) = false) ∧
      c.grp.owed.find? (fun o => o.loop.any (fun i => decide (c.grp.loopAge (c.rd a 0).toNat ≤ c.grp.loopAge i))) = none ∧
      (trp = true → almanacCause c.grp.astat = none))
    (fun c s => retire c (writeReg c d (fun _ => c.grp.astat)
      ((s.coverLooks c (c.grp.loopAge (c.rd a 0).toNat)).modGroup c.gid (fun g => { g with astat := 0 }))))) ∧
  (∀ d a g cause, Diverts true (.mwait true d a g)
    (fun c _ =>
      let k := c.grp.loopAge (c.rd a 0).toNat
      (7 < k ∨ c.grp.loops.any (fun e => decide (k ≤ c.grp.loopAge e.1)) = false) ∧
      c.grp.owed.find? (fun o => o.loop.any (fun i => decide (c.grp.loopAge (c.rd a 0).toNat ≤ c.grp.loopAge i))) = none ∧ almanacCause c.grp.astat = some cause)
    (fun c s => takeTrap c { cause := cause, lanes := c.act, status := c.grp.astat.toNat } s)) ∧
  (∀ trp d a g o, Diverts true (.mwait trp d a g)
    (fun c _ =>
      let k := c.grp.loopAge (c.rd a 0).toNat
      (7 < k ∨ c.grp.loops.any (fun e => decide (k ≤ c.grp.loopAge e.1)) = false) ∧
      c.grp.owed.find? (fun o => o.loop.any (fun i => decide (c.grp.loopAge (c.rd a 0).toNat ≤ c.grp.loopAge i))) = some o)
    (fun c s => takeOwed c o s)) ∧
  (∀ trp d a g, Diverts true (.mwait trp d a g)
    (fun c _ =>
      let k := c.grp.loopAge (c.rd a 0).toNat
      k ≤ 7 ∧ c.grp.loops.any (fun e => decide (k ≤ c.grp.loopAge e.1)) = true)
    (fun _ s => s)) ∧
  (∀ d a g id l, Yields true (.mstat d a g)
    (fun c s => c.grp.owed.find? (fun o => o.loop = some ((c.rd a 0).toNat % 65536)) = none ∧
      c.grp.loopAge ((c.rd a 0).toNat % 65536) ≤ 7 ∧
      (s.loopsOf c.gid).find? (fun e => e.2.id.toNat = (c.rd a 0).toNat % 65536) = some (id, l))
    (fun c s => retire c (writeReg c d (fun _ => BitVec.ofNat 32 (l.progress % 65536 * 65536 + 2)) s))) ∧
  (∀ d a g, Yields true (.mstat d a g)
    (fun c s => c.grp.owed.find? (fun o => o.loop = some ((c.rd a 0).toNat % 65536)) = none ∧
      (7 < c.grp.loopAge ((c.rd a 0).toNat % 65536) ∨
        (s.loopsOf c.gid).find? (fun e => e.2.id.toNat = (c.rd a 0).toNat % 65536) = none))
    (fun c s => retire c (writeReg c d (fun _ => c.grp.astat) s))) ∧
  (∀ d a g o, Diverts true (.mstat d a g)
    (fun c _ => c.grp.owed.find? (fun o => o.loop = some ((c.rd a 0).toNat % 65536)) = some o)
    (fun c s => takeOwed c o s))

/-- TVAL, TSPILL, TFILL and TDROP complete: the descriptor in D, the table SPILLED and its entries written, the table
VALID again, or FREE. A table is judged as of the command's key in Reckoning mode. TVAL of a table number enters the
ACC order with D pending, and first in it gives D bits 31:0 of the descriptor, 0 for a FREE table; those bits hold the
state and whether there is a codebook. TSPILL, with the FIFO drained and no earlier command on tables, enters the ACC
order with D pending: a VALID table becomes SPILLED, gives up its chunks and has its spill area owned by the command,
which first in order, and once it owns the area alone, writes its entries there and gives D 0; of a SPILLED one D is
0, of a STALE one 0x21. TFILL of a SPILLED table for which room can be made makes it VALID and, in its turn, reads its
entries from the spill area, of one for which it cannot D is 0x23, of a VALID one 0, of a STALE one 0x21. TDROP frees
the table, or with the zero register every table of the team. A table number above 63 takes trap 0x0B, and TSPILL or
TFILL of a FREE table trap 0x03; earlier commands on tables, and of TSPILL and TFILL a store in the FIFO, keep them
waiting. (R361; R362; R367; R371; R376; R377; R378; R379) -/
def Obligations.TableCommands : Prop :=
  (∀ d num g, Yields true (.tval d num g) (fun c _ => (c.rd num 0).toNat < 64)
    (fun c s => (retire c (holdRegs c.gid (regCodes (d, 1)) (s.submit c [] (.tval (c.rd num 0).toNat d)))).drain
      c.grp.core)) ∧
  (∀ d num g, Diverts true (.tval d num g) (fun c _ => 64 ≤ (c.rd num 0).toNat)
    (fun c s => takeTrap c { cause := 0x0B, lanes := c.act } s)) ∧
  (∀ (s : State) core id cmd, (s.core core).accQ = [id] → s.cmds.find? id = some cmd →
    (∀ num d, cmd.work = .tval num d → s.drain core = (giveReg cmd d (fun _ =>
      match s.table cmd.team num with
      | some t => t.low (t.asOf cmd.reckon cmd.key)
      | none => 0) s).finishAcc id cmd []) ∧
    (∀ num d res, cmd.work = .tspill num false d res → s.drain core = (giveReg cmd d (fun _ => res) s).finishAcc id cmd []) ∧
    (∀ num d res, cmd.work = .tspill num true d res → s.spillBlocked id cmd [num] = false →
      let u := s.writeSpills id cmd [num]
      s.drain core = (giveReg cmd d (fun _ => res) u).finishAcc id cmd (u.spilledPlaces cmd [num])) ∧
    (∀ num vs d res, cmd.work = .tfill num true vs d res → s.spillBlocked id cmd vs = false →
      let u := s.writeSpills id cmd vs
      let bs := (u.spillPlaces cmd num).map (u.sourceByte id cmd)
      let v := u.modTable cmd.team num (fun t => { t with
        entries := ((List.range t.count).map (fun i =>
          (i, BitVec.ofNat 32 (leNat ((bs.drop (4 * i)).take 4))))).filter (fun e => e.2 ≠ 0) })
      s.drain core = (giveReg cmd d (fun _ => res) v).finishAcc id cmd (v.spilledPlaces cmd vs)) ∧
    (∀ num d res, cmd.work = .tfill num false [] d res → s.drain core = (giveReg cmd d (fun _ => res) s).finishAcc id cmd [])) ∧
  (∀ (t : Table) st, t.chunks ≤ 1024 → (t.low st).getLsbD 3 = t.codebook ∧ (t.low st).toNat % 8 = (match st with
    | .free => 0
    | .valid => 1
    | .stale => 2
    | .spilled => 3)) ∧
  (∀ d num loc g n t core off, Yields true (.tspill d num loc g)
    (fun c s => n = (c.rd num 0).toNat ∧ n < 64 ∧ c.grp.fifo = [] ∧ s.tablesQuiet c.grp.core = true ∧
      s.table c.grp.team n = some t ∧ t.asOf c.reckon c.grp.key = .valid ∧
      locate c s (c.rd loc 0) (4 * t.count) 128 true = .ok (core, off))
    (fun c s =>
      let u := holdRegs c.gid (regCodes (d, 1)) ((s.modTable c.grp.team n (fun t => { t.become c.reckon c.grp.key .spilled with
          chunks := 0, octet := t.octet.set 6 (BitVec.ofNat 32 (off - c.team.spadBase)) })).submit c
        [(.spad core, off / 32, (off + 4 * t.count + 31) / 32)] (.tspill n true d 0))
      (retire c (if c.reckon then u.sourceAccess u.uid (spadPlaces c t.sourceOffsets) else u)).drain c.grp.core)) ∧
  (∀ d num loc g n t p, Yields true (.tspill d num loc g)
    (fun c s => n = (c.rd num 0).toNat ∧ n < 64 ∧ c.grp.fifo = [] ∧ s.tablesQuiet c.grp.core = true ∧
      s.table c.grp.team n = some t ∧ t.asOf c.reckon c.grp.key ≠ .valid ∧
      locate c s (c.rd loc 0) (4 * t.count) 128 true = .ok p)
    (fun c s => (retire c (holdRegs c.gid (regCodes (d, 1)) (s.submit c [] (.tspill n false d
      (if t.asOf c.reckon c.grp.key = .spilled then 0 else 0x21))))).drain c.grp.core)) ∧
  (∀ d num loc g, Diverts true (.tspill d num loc g)
    (fun c s => (c.rd num 0).toNat < 64 ∧ c.grp.fifo = [] ∧ s.tablesQuiet c.grp.core = true ∧
      s.table c.grp.team (c.rd num 0).toNat = none)
    (fun c s => takeTrap c { cause := 0x03, lanes := c.act } s)) ∧
  (∀ d num loc g, Diverts true (.tspill d num loc g) (fun c _ => 64 ≤ (c.rd num 0).toNat)
    (fun c s => takeTrap c { cause := 0x0B, lanes := c.act } s)) ∧
  (∀ d num loc g, Diverts true (.tspill d num loc g)
    (fun c s => (c.rd num 0).toNat < 64 ∧ (c.grp.fifo ≠ [] ∨ s.tablesQuiet c.grp.core = false)) (fun _ s => s)) ∧
  (∀ d num g n t vs, Yields true (.tfill d num g)
    (fun c s => n = (c.rd num 0).toNat ∧ n < 64 ∧ c.grp.fifo = [] ∧ s.tablesQuiet c.grp.core = true ∧
      s.table c.grp.team n = some t ∧ t.asOf c.reckon c.grp.key = .spilled ∧
      s.makeRoom c.grp.core c.grp.team t.need (parseFmt t.afb).autospill n (s.pendingTables c.grp.team) c.reckon
        c.grp.key = some vs)
    (fun c s =>
      let u := holdRegs c.gid (regCodes (d, 1)) (((s.markSpilled c.grp.team vs c.reckon c.grp.key).modTable c.grp.team n
        (fun t => { t.become c.reckon c.grp.key .valid with lost := false, chunks := t.need })).submit c []
          (.tfill n true vs d 0))
      let v := u.ownSpills u.uid vs
      (retire c (if c.reckon then v.sourceAccess v.uid (spadPlaces c (runOf (t.spill.getD 0) (4 * t.count))) else v)).drain
        c.grp.core)) ∧
  (∀ d num g n t res, Yields true (.tfill d num g)
    (fun c s => n = (c.rd num 0).toNat ∧ n < 64 ∧ c.grp.fifo = [] ∧ s.tablesQuiet c.grp.core = true ∧ s.table c.grp.team n = some t ∧
      ((t.asOf c.reckon c.grp.key = .valid ∧ res = 0) ∨
       (t.asOf c.reckon c.grp.key = .spilled ∧ res = 0x23 ∧ s.makeRoom c.grp.core c.grp.team t.need
          (parseFmt t.afb).autospill n (s.pendingTables c.grp.team) c.reckon c.grp.key = none) ∨
       (t.asOf c.reckon c.grp.key = .stale ∧ res = 0x21)))
    (fun c s =>
      let u := holdRegs c.gid (regCodes (d, 1)) (s.submit c [] (.tfill n false [] d res))
      (retire c (u.ownSpills u.uid [])).drain c.grp.core)) ∧
  (∀ d num g, Diverts true (.tfill d num g)
    (fun c s => (c.rd num 0).toNat < 64 ∧ c.grp.fifo = [] ∧ s.tablesQuiet c.grp.core = true ∧
      s.table c.grp.team (c.rd num 0).toNat = none)
    (fun c s => takeTrap c { cause := 0x03, lanes := c.act } s)) ∧
  (∀ d num g, Diverts true (.tfill d num g) (fun c _ => 64 ≤ (c.rd num 0).toNat)
    (fun c s => takeTrap c { cause := 0x0B, lanes := c.act } s)) ∧
  (∀ d num g, Diverts true (.tfill d num g)
    (fun c s => (c.rd num 0).toNat < 64 ∧ (c.grp.fifo ≠ [] ∨ s.tablesQuiet c.grp.core = false)) (fun _ s => s)) ∧
  (∀ num g, Yields true (.tdrop num g)
    (fun c s => num ≠ .zero ∧ (c.rd num 0).toNat < 64 ∧ s.tablesQuiet c.grp.core = true)
    (fun c s => retire c (s.modTeam c.grp.team (fun t => { t with tables := t.tables.erase (c.rd num 0).toNat })))) ∧
  (∀ g, Yields true (.tdrop .zero g) (fun c s => s.tablesQuiet c.grp.core = true)
    (fun c s => retire c (s.modTeam c.grp.team (fun t => { t with tables := [] })))) ∧
  (∀ num g, Diverts true (.tdrop num g) (fun c _ => num ≠ .zero ∧ 64 ≤ (c.rd num 0).toNat)
    (fun c s => takeTrap c { cause := 0x0B, lanes := c.act } s)) ∧
  (∀ num g, Diverts true (.tdrop num g)
    (fun c s => (num = .zero ∨ (c.rd num 0).toNat < 64) ∧ s.tablesQuiet c.grp.core = false) (fun _ s => s))

/-- PGALLOC, PGREF, PGFETCH, BTSET and BTGET are accepted with their results, or with the status their operands meet. Each
page operation that issues clear, with its tag free and no waiting acceptance step holding back its request or pages
(ChartFree), completes: it takes a CSEQ on the issuing die, and on the other die where the page is there, and is
accepted with its status and results. PGREF.Q and PGREF.QF give the header's bits 31:0 and 63:32; PGREF.INC raises
REFCNT and XREF and gives the new REFCNT, or 0x46 at the limit of either; PGREF.DEC lowers XREF, drops a reference and
gives REFCNT less one; a page that cannot be used gives PGREF its status. BTSET installs a page, or null for
0xFFFFFFFF, and gives the old entry; BTGET gives the entry with its status; PGALLOC with a frame and a header free
installs a new page and pins it, and of a request that is not live has status 0x44; PGFETCH of a RESIDENT page has
status 0 and of a CAPACITY page starts its fetch. Acceptance makes the tag PENDING and puts the command in flight with
its status, its pins and its results, all ones with a fault. COMMAND_COMPLETE of such a command finishes it, in
Reckoning mode at its key; its result is then in its register. (R390; R396; R408; R409; R419; R420; R425) -/
def Obligations.ChartPageOperations : Prop :=
  (∀ d page tag g n p, Yields true (.pgrefQ d page tag g)
    (fun c s => n = (c.rd page 0).toNat ∧ ChartFree c s tag.val [] [n] ∧ pageCode c s n false = 0 ∧ s.pages.find? n = some p)
    (fun c s => chartSettle c tag.val 0 [(d, BitVec.ofNat 32 p.low)] [] (c.sequenced s n).1)) ∧
  (∀ d page tag g n p, Yields true (.pgrefQf d page tag g)
    (fun c s => n = (c.rd page 0).toNat ∧ ChartFree c s tag.val [] [n] ∧ pageCode c s n false = 0 ∧ s.pages.find? n = some p)
    (fun c s => chartSettle c tag.val 0 [(d, BitVec.ofNat 32 (p.low / 2 ^ 32))] [] (c.sequenced s n).1)) ∧
  (∀ d page tag g n k, k ≠ 0 → Yields true (.pgrefQ d page tag g)
    (fun c s => n = (c.rd page 0).toNat ∧ ChartFree c s tag.val [] [n] ∧ pageCode c s n false = k)
    (fun c s => chartSettle c tag.val k [(d, 0)] [] (c.sequenced s n).1)) ∧
  (∀ d page tag g n k, k ≠ 0 → Yields true (.pgrefQf d page tag g)
    (fun c s => n = (c.rd page 0).toNat ∧ ChartFree c s tag.val [] [n] ∧ pageCode c s n false = k)
    (fun c s => chartSettle c tag.val k [(d, 0)] [] (c.sequenced s n).1)) ∧
  (∀ d page tag g n k, k ≠ 0 → Yields true (.pgrefInc d page tag g)
    (fun c s => n = (c.rd page 0).toNat ∧ ChartFree c s tag.val [] [n] ∧ pageCode c s n true = k)
    (fun c s => chartSettle c tag.val k [(d, 0)] [] (c.sequenced s n).1)) ∧
  (∀ d page tag g n k, k ≠ 0 → Yields true (.pgrefDec d page tag g)
    (fun c s => n = (c.rd page 0).toNat ∧ ChartFree c s tag.val [] [n] ∧ pageCode c s n true = k)
    (fun c s => chartSettle c tag.val k [(d, 0)] [] (c.sequenced s n).1)) ∧
  (∀ d page tag g n p, Yields true (.pgrefInc d page tag g)
    (fun c s => n = (c.rd page 0).toNat ∧ ChartFree c s tag.val [] [n] ∧ pageCode c s n true = 0 ∧
      s.pages.find? n = some p ∧ p.refcnt < 65535 ∧ p.xref < 65535)
    (fun c s => chartSettle c tag.val 0 [(d, BitVec.ofNat 32 (p.refcnt + 1))] []
      ((c.sequenced s n).1.modPage n (fun p => { p with refcnt := p.refcnt + 1, xref := p.xref + 1 })))) ∧
  (∀ d page tag g n p, Yields true (.pgrefInc d page tag g)
    (fun c s => n = (c.rd page 0).toNat ∧ ChartFree c s tag.val [] [n] ∧ pageCode c s n true = 0 ∧
      s.pages.find? n = some p ∧ (65535 ≤ p.refcnt ∨ 65535 ≤ p.xref))
    (fun c s => chartSettle c tag.val 0x46 [(d, 0)] [] (c.sequenced s n).1)) ∧
  (∀ d page tag g n p, Yields true (.pgrefDec d page tag g)
    (fun c s => n = (c.rd page 0).toNat ∧ ChartFree c s tag.val [] [n] ∧ pageCode c s n true = 0 ∧
      s.pages.find? n = some p ∧ 0 < p.xref)
    (fun c s => chartSettle c tag.val 0 [(d, BitVec.ofNat 32 (p.refcnt - 1))] []
      (((c.sequenced s n).1.modPage n (fun p => { p with xref := p.xref - 1 })).decRef n))) ∧
  (∀ d req idx page tag g h e n s1, Yields true (.btset d req idx page tag g)
    (fun c s => h = (c.rd req 0).toNat ∧ e = (c.rd idx 0).toNat ∧ c.rd page 0 ≠ 0xFFFFFFFF ∧ n = (c.rd page 0).toNat ∧
      ChartFree c s tag.val [h] (n :: (s.entry h e).toList) ∧ entryCode c s h e = 0 ∧ pageCode c s n true = 0 ∧
      ((s.takeSeq c.die).1.seqThere c.die (n :: (s.entry h e).toList)).install h e (some n) = some s1)
    (fun c s => chartSettle c tag.val 0 [(d, s.entryWord h e)] [] s1)) ∧
  (∀ d req idx page tag g h e s1, Yields true (.btset d req idx page tag g)
    (fun c s => h = (c.rd req 0).toNat ∧ e = (c.rd idx 0).toNat ∧ c.rd page 0 = 0xFFFFFFFF ∧
      ChartFree c s tag.val [h] (s.entry h e).toList ∧ entryCode c s h e = 0 ∧
      ((s.takeSeq c.die).1.seqThere c.die (s.entry h e).toList).install h e none = some s1)
    (fun c s => chartSettle c tag.val 0 [(d, s.entryWord h e)] [] s1)) ∧
  (∀ d req idx tag g h e, Yields true (.btget d req idx tag g)
    (fun c s => h = (c.rd req 0).toNat ∧ e = (c.rd idx 0).toNat ∧ ChartFree c s tag.val [h] [])
    (fun c s => chartSettle c tag.val (entryCode c s h e) [(d, s.entryWord h e)] [] (s.takeSeq c.die).1)) ∧
  (∀ d req idx tag g h e r m u n, Yields true (.pgalloc d req idx tag g)
    (fun c s => h = (c.rd req 0).toNat ∧ e = (c.rd idx 0).toNat ∧ ChartFree c s tag.val [h] (s.entry h e).toList ∧
      s.liveReq h c.grid.asid = some r ∧ s.model? r.model = some m ∧ e < m.nlg * m.maxpg ∧
      0 < (s.pool c.die (m.pool c.die)).spare ∧ 0 < s.freeHeaders c.die (m.pool c.die) ∧
      ((s.takeSeq c.die).1.seqThere c.die (s.entry h e).toList).allocAt c.die c.team.grid h e m r.model
        (s.takeSeq c.die).2 1 = some (u, n))
    (fun c _ => chartSettle c tag.val 0 [(d, BitVec.ofNat 32 n)] [n] (u.runEvict c.die (m.pool c.die)))) ∧
  (∀ d req idx tag g h, Yields true (.pgalloc d req idx tag g)
    (fun c s => h = (c.rd req 0).toNat ∧ ChartFree c s tag.val [h] (s.entry h (c.rd idx 0).toNat).toList ∧
      s.liveReq h c.grid.asid = none)
    (fun c s => chartSettle c tag.val 0x44 [(d, 0)] []
      ((s.takeSeq c.die).1.seqThere c.die (s.entry h (c.rd idx 0).toNat).toList))) ∧
  (∀ page tag g n p, Yields true (.pgfetch page tag g)
    (fun c s => n = (c.rd page 0).toNat ∧ ChartFree c s tag.val [] [n] ∧ pageCode c s n true = 0 ∧
      s.pages.find? n = some p ∧ p.st = .resident)
    (fun c s => chartSettle c tag.val 0 [] [] (c.sequenced s n).1)) ∧
  (∀ page tag g n p, Yields true (.pgfetch page tag g)
    (fun c s => n = (c.rd page 0).toNat ∧ ChartFree c s tag.val [] [n] ∧ pageCode c s n true = 0 ∧
      s.pages.find? n = some p ∧ p.st = .capacity)
    (fun c s => retire c (chartAccept c tag.val none []
      { op := .fetch n true (c.sequenced s n).2, results := [], status := none, pins := [] }
      ((c.sequenced s n).1.startFetch n (c.sequenced s n).2)))) ∧
  (∀ c tag code rs pins (s : State), code ≠ 0x4D →
    let t := chartSettle c tag code rs pins s
    t.tag c.grp.core tag = { st := .pending, status := 2, cmd := s.uid + 1, team := c.grp.team, key := c.grp.key } ∧
    ∃ cmd, t.cmds.find? (s.uid + 1) = some cmd ∧ cmd.tag = some tag ∧ cmd.grp = c.gid ∧
      cmd.work = .chart { op := .settled, results := if isFault code then rs.map (fun r => (r.1, 0xFFFFFFFF)) else rs,
                          status := some (statusWord 0 code), pins := pins }) ∧
  (∀ id cmd k (s : State), s.cmds.find? id = some cmd → cmd.work = .chart k → k.op = .settled → s.gridOver cmd = false →
    s.completable cmd = true → exec (.commandComplete id) s = .next (finishChart id cmd k (k.status.getD 0) [] s)) ∧
  (∀ id cmd k n w g (s : State), s.groups.find? cmd.grp = some g → g.alive = true → k.pins = [] → k.results = [(.s n, w)] →
    (s.teams.find? cmd.team).any (fun t => t.ended) = false →
    ∀ l, (finishChart id cmd k 0 [] s).lane cmd.grp (.s n) l = w)

/-- KVGATH, KVAPP and KVSEND are accepted with the plan their operands and block table give; a gather's page step copies
the next page or stops it. KVGATH whose octet is legal (GatherOctet), whose stores have drained and whose requests are
live with one model and every range in bounds, is accepted as a gather of its list's tokens; with a request that is
not live its status is 0x44, with a range or model out of bounds 0x45. KVAPP whose octet is legal (AppendOctet) with a
live request: with a check of R416 failed it has that status; with nothing lacking it takes its acceptance step and is
accepted with the pages it writes, but for an error in the page it copies, which quarantines that page and has status
0x41 (whether there is one is open, assumption log 3); with its first page away it is accepted, waits for it and
starts its fetch; with too few frames or headers its status is 0x40, or in Reckoning mode it waits for them; of a
request that is not live its status is 0x44. KVSEND pins its request's pages, starts the fetch of those in the
capacity tier and is accepted; an endpoint number above 65,535 has status 0x45, and a request that is not live 0x44.
KVGATH_PAGE_STEP of an ordinal that no earlier command or waiting step holds back: a page that passes its checks is
pinned and copied, and one that fails stops the gather with its code. (R390; R393; R400; R404; R411; R412; R413; R415;
R416; R417; R421; R425) -/
def Obligations.ChartGatherAppend : Prop :=
  (∀ fetch bar o tag g b sd es hs mnum m total, Yields true (.kvgath fetch bar o tag g)
    (fun c s => GatherOctet c s bar o b sd ∧ es = gatherList c s (octetAt c o 0) (octetAt c o 1) ∧
      hs = es.map (fun e => (e.getD 0 0).toNat) ∧ ChartFree c s tag.val hs [] ∧
      (∀ h ∈ hs, ∃ r, s.liveReq h c.grid.asid = some r ∧ r.model = mnum) ∧ s.model? mnum = some m ∧
      total = es.foldl (fun n e => n + (e.getD 3 0).toNat) 0 ∧ GatherFits c s o sd es m total)
    (fun c s => acceptGather c tag.val b
      { fetch := fetch, rowb := m.rowb, kdst := octetAt c o 2, vdst := octetAt c o 3, sdst := sd, first := octetAt c o 5,
        ords := gatherOrds m.tok m.maxpg 0 es, next := octetAt c o 5, walk := none, seqs := [(c.die, (s.takeSeq c.die).2)],
        stop := none, spoiled := [] } (spadPlaces c (runOf (octetAt c o 0) (16 * octetAt c o 1))) (s.takeSeq c.die).1)) ∧
  (∀ fetch bar o tag g b sd es hs, Yields true (.kvgath fetch bar o tag g)
    (fun c s => GatherOctet c s bar o b sd ∧ es = gatherList c s (octetAt c o 0) (octetAt c o 1) ∧
      hs = es.map (fun e => (e.getD 0 0).toNat) ∧ ChartFree c s tag.val hs [] ∧ ∃ h ∈ hs, s.liveReq h c.grid.asid = none)
    (fun c s => readsFrom c (octetAt c o 0) (16 * octetAt c o 1)
      (chartSettle c tag.val 0x44 [] [] (s.takeSeq c.die).1))) ∧
  (∀ fetch bar o tag g b sd es hs r m total, Yields true (.kvgath fetch bar o tag g)
    (fun c s => GatherOctet c s bar o b sd ∧ es = gatherList c s (octetAt c o 0) (octetAt c o 1) ∧
      hs = es.map (fun e => (e.getD 0 0).toNat) ∧ ChartFree c s tag.val hs [] ∧
      (∀ h ∈ hs, (s.liveReq h c.grid.asid).isSome = true) ∧ s.liveReq (hs.headD 0) c.grid.asid = some r ∧
      s.model? r.model = some m ∧ total = es.foldl (fun n e => n + (e.getD 3 0).toNat) 0 ∧
      ((∃ h ∈ hs, ∃ q, s.liveReq h c.grid.asid = some q ∧ q.model ≠ r.model) ∨ ¬GatherFits c s o sd es m total))
    (fun c s => readsFrom c (octetAt c o 0) (16 * octetAt c o 1)
      (chartSettle c tag.val 0x45 [] [] (s.takeSeq c.die).1))) ∧
  (∀ o tag g ss r m u a code, Yields true (.kvapp o tag g)
    (fun c s => AppendOctet c s o ss ∧ ChartFree c s tag.val [octetAt c o 0] [] ∧
      s.liveReq (octetAt c o 0) c.grid.asid = some r ∧ s.model? r.model = some m ∧ appendStart c s o ss m = (u, a) ∧
      u.chartHeld [] (u.appendFirst a m).toList = false ∧ appendCode c u a m = code ∧ code ≠ 0)
    (fun c _ => chartSettle c tag.val code [] [] u)) ∧
  (∀ o tag g ss r m u a, Yields true (.kvapp o tag g)
    (fun c s => AppendOctet c s o ss ∧ ChartFree c s tag.val [octetAt c o 0] [] ∧
      s.liveReq (octetAt c o 0) c.grid.asid = some r ∧ s.model? r.model = some m ∧ appendStart c s o ss m = (u, a) ∧
      u.chartHeld [] (u.appendFirst a m).toList = false ∧ appendCode c u a m = 0 ∧
      u.appendLack c.die a m (u.pool c.die (m.pool c.die)).spare = .nothing)
    (fun c _ =>
      match (u.appendRead a m).2 with
      | some n => chartSettle c tag.val 0x41 [] [] ((u.appendRead a m).1.quarantine n)
      | none =>
        let p := (u.appendRead a m).1.appendPlan c.die c.team.grid a m r.model a.seq
        appendTaken c tag.val a m
          { op := .append { a with plan := p.2 }, results := [], status := none, pins := p.2.map Prod.fst } p.1)) ∧
  (∀ o tag g ss r m u a n, Yields true (.kvapp o tag g)
    (fun c s => AppendOctet c s o ss ∧ ChartFree c s tag.val [octetAt c o 0] [] ∧
      s.liveReq (octetAt c o 0) c.grid.asid = some r ∧ s.model? r.model = some m ∧ appendStart c s o ss m = (u, a) ∧
      u.chartHeld [] (u.appendFirst a m).toList = false ∧ appendCode c u a m = 0 ∧
      u.appendLack c.die a m (u.pool c.die (m.pool c.die)).spare = .page n)
    (fun c _ => appendTaken c tag.val a m
      { op := .append { a with waitFor := some n,
                               starter := (u.pages.find? n).any (fun p => decide (p.st = .capacity)) },
        results := [], status := none, pins := [] } (u.startFetch n a.there))) ∧
  (∀ o tag g ss r m u a need, Yields true (.kvapp o tag g)
    (fun c s => AppendOctet c s o ss ∧ ChartFree c s tag.val [octetAt c o 0] [] ∧
      s.liveReq (octetAt c o 0) c.grid.asid = some r ∧ s.model? r.model = some m ∧ appendStart c s o ss m = (u, a) ∧
      u.chartHeld [] (u.appendFirst a m).toList = false ∧ appendCode c u a m = 0 ∧
      u.appendLack c.die a m (u.pool c.die (m.pool c.die)).spare = .room need)
    (fun c _ =>
      if c.reckon then
        let v := appendTaken c tag.val a m { op := .append a, results := [], status := none, pins := [] } u
        v.awaitFrames c.die (m.pool c.die) v.uid need
      else chartSettle c tag.val 0x40 [] [] u)) ∧
  (∀ o tag g ss, Yields true (.kvapp o tag g)
    (fun c s => AppendOctet c s o ss ∧ ChartFree c s tag.val [octetAt c o 0] [] ∧
      s.liveReq (octetAt c o 0) c.grid.asid = none)
    (fun c s => chartSettle c tag.val 0x44 [] [] (s.takeSeq c.die).1)) ∧
  (∀ req dest rreq tag g r ps u sq f, Yields true (.kvsend req dest rreq tag g)
    (fun c s => s.liveReq (c.rd req 0).toNat c.grid.asid = some r ∧ ps = (r.bt.map Prod.snd).dedup ∧
      ChartFree c s tag.val [(c.rd req 0).toNat] ps ∧ (c.rd dest 0).toNat < 65536 ∧
      (∀ n ∈ ps, pageCode c s n true = 0) ∧ (s.takeSeq c.die).1.seqsFor c.die (s.takeSeq c.die).2 ps = (u, sq) ∧
      (ps.foldl (fun s n => s.pin n) u).fetchPages sq ps = f)
    (fun c _ => retire c (chartAccept c tag.val none []
      { op := .send { handle := (c.rd req 0).toNat, dest := (c.rd dest 0).toNat, rreq := (c.rd rreq 0).toNat, seqs := sq,
                      started := f.2, acks := none, recorded := false },
        results := [], status := none, pins := ps } f.1))) ∧
  (∀ req dest rreq tag g ps, Yields true (.kvsend req dest rreq tag g)
    (fun c s => ps = (((s.requests.find? (c.rd req 0).toNat).map (fun r => (r.bt.map Prod.snd).dedup)).getD []) ∧
      ChartFree c s tag.val [(c.rd req 0).toNat] ps ∧
      (65536 ≤ (c.rd dest 0).toNat ∨ s.liveReq (c.rd req 0).toNat c.grid.asid = none))
    (fun c s => chartSettle c tag.val (if 65536 ≤ (c.rd dest 0).toNat then 0x45 else 0x44) [] []
      ((s.takeSeq c.die).1.seqsFor c.die (s.takeSeq c.die).2 ps).1)) ∧
  (∀ id cmd k gth err n ord (s : State), s.cmds.find? id = some cmd → cmd.work = .chart k → k.op = .gather gth →
    s.gridOver cmd = false → gth.ords[gth.next]? = some ord → gth.stop = none → s.ordBlocked id cmd gth ord = false →
    gth.walk = none → s.chartHeld [ord.handle] (s.entry ord.handle ord.entry).toList = false →
    (s.gatherCheck cmd.asid none ord = (0, n) → exec (.kvgathPageStep id err) s =
      .next (copyOrd id cmd k { gth with seqs := (s.gatherPin gth.seqs n).2 } ord n err (s.gatherPin gth.seqs n).1)) ∧
    (∀ code, code ≠ 0 → s.gatherCheck cmd.asid none ord = (code, n) → exec (.kvgathPageStep id err) s =
      .next (s.putChart id { k with op := .gather { gth with stop := some (code, gth.next) } })))

/-- PFXH hashes, PFXLOOK finds, PFXINS inserts and PFXINS.DEL removes a prefix page. With the FIFO drained and nothing
holding it back, PFXH of token ids inside SPAD gives the SipHash of the parent's hash, the ids and the model's salt
under the ASID's key, of an offset outside SPAD traps 0x03; PFXLOOK of a key block that a page carries, one the group
may use and not quarantined, installs that page in the block table and gives its number, and of one that none carries
gives status 0x49 and null; PFXINS of a full page not yet inserted, with no page of that key and a free way, stores
the key's planes in the page, counts a reference and enters it in the bucket's lowest free way (the model's choice,
assumption log 30), of a page not full or already inserted has status 0x4A; PFXINS.DEL of an inserted page that no
grid holds takes it out and drops the reference, of one that a grid holds has status 0x4B, with a result that the spec
leaves open (openResult, assumption log 3). In Reckoning mode the bytes read count as source reads. (R212; R390; R405;
R406; R407; R408; R422; R423; R425) -/
def Obligations.ChartPrefixOperations : Prop :=
  (∀ d ids par mdl tag g off m, Yields true (.pfxh d ids par mdl tag g)
    (fun c s => off = (c.rd ids 0).toNat ∧ off < s.spadb c.team ∧ off % 4 = 0 ∧ c.grp.fifo = [] ∧
      ChartFree c s tag.val [] [] ∧ ownModel c s (c.rd mdl 0).toNat = some m ∧ off + 4 * m.tok ≤ s.spadb c.team)
    (fun c s =>
      let h := sipHash ((s.chart c.die).keys.getD c.grid.asid 0)
        (leBytes 8 (readPair c.grp par).toNat ++ spadBytes c s off (4 * m.tok) ++ leBytes 8 m.salt.toNat)
      readsFrom c off (4 * m.tok) (chartSettle c tag.val 0
        [(.s (pairLo d), h.extractLsb' 0 32), (.s (pairHi d), h.extractLsb' 32 32)] [] (s.takeSeq c.die).1))) ∧
  (∀ d ids par mdl tag g, Diverts true (.pfxh d ids par mdl tag g) (fun c s => s.spadb c.team ≤ (c.rd ids 0).toNat)
    (fun c s => takeTrap c { cause := 0x03, lanes := c.act } s)) ∧
  (∀ d key req idx tag g off h e m k n s1, Yields true (.pfxlook d key req idx tag g)
    (fun c s => off = (c.rd key 0).toNat ∧ h = (c.rd req 0).toNat ∧ e = (c.rd idx 0).toNat ∧
      keyOperand c s off = .ok (some (m, k)) ∧ c.grp.fifo = [] ∧ s.hashFind c.die c.grid.asid k = some n ∧
      ChartFree c s tag.val [h] (n :: (s.entry h e).toList) ∧ entryCode c s h e = 0 ∧ c.outside n = false ∧
      (∀ p, s.pages.find? n = some p → p.st ≠ .quarantined) ∧
      ((s.takeSeq c.die).1.seqThere c.die (s.entry h e).toList).install h e (some n) = some s1)
    (fun c _ => readsFrom c off (16 + 4 * m.tok) (chartSettle c tag.val 0 [(d, BitVec.ofNat 32 n)] [] s1))) ∧
  (∀ d key req idx tag g off h e m k, Yields true (.pfxlook d key req idx tag g)
    (fun c s => off = (c.rd key 0).toNat ∧ h = (c.rd req 0).toNat ∧ e = (c.rd idx 0).toNat ∧
      keyOperand c s off = .ok (some (m, k)) ∧ c.grp.fifo = [] ∧ s.hashFind c.die c.grid.asid k = none ∧
      ChartFree c s tag.val [h] (s.entry h e).toList ∧ entryCode c s h e = 0)
    (fun c s => readsFrom c off (16 + 4 * m.tok) (chartSettle c tag.val 0x49 [(d, 0xFFFFFFFF)] []
      ((s.takeSeq c.die).1.seqThere c.die (s.entry h e).toList)))) ∧
  (∀ d key page tag g off n m k p way, Yields true (.pfxins d key page tag g)
    (fun c s => off = (c.rd key 0).toNat ∧ n = (c.rd page 0).toNat ∧ keyOperand c s off = .ok (some (m, k)) ∧
      c.grp.fifo = [] ∧ ChartFree c s tag.val [] [n] ∧ pageCode c s n true = 0 ∧ s.pages.find? n = some p ∧
      p.tok ≤ p.fill ∧ p.inserted = false ∧ p.refcnt < 65535 ∧ s.hashFind (pageDie n) c.grid.asid k = none ∧
      (bucketWays k.1).find? (fun x => ((s.chart (pageDie n)).hash.find? x).isNone) = some way)
    (fun c s =>
      let u := (c.sequenced s n).1.modPlanes n (fun p =>
        { p with ids := (k.2.2.2.zipIdx).foldl (fun m e => m.put 0 e.2 e.1) [],
                 phash := k.1, parent := k.2.1, inserted := true, refcnt := p.refcnt + 1 })
      readsFrom c off (16 + 4 * m.tok) (chartSettle c tag.val 0 [(d, BitVec.ofNat 32 n)] []
        (u.modChart (pageDie n) (fun x => { x with hash := x.hash.set way n }))))) ∧
  (∀ d key page tag g off n m k p, Yields true (.pfxins d key page tag g)
    (fun c s => off = (c.rd key 0).toNat ∧ n = (c.rd page 0).toNat ∧ keyOperand c s off = .ok (some (m, k)) ∧
      c.grp.fifo = [] ∧ ChartFree c s tag.val [] [n] ∧ pageCode c s n true = 0 ∧ s.pages.find? n = some p ∧
      (p.fill < p.tok ∨ p.inserted = true))
    (fun c s => readsFrom c off (16 + 4 * m.tok) (chartSettle c tag.val 0x4A [(d, 0)] [] (c.sequenced s n).1))) ∧
  (∀ d page tag g n p, Yields true (.pfxinsDel d page tag g)
    (fun c s => n = (c.rd page 0).toNat ∧ ChartFree c s tag.val [] [n] ∧ pageCode c s n true = 0 ∧
      s.pages.find? n = some p ∧ p.inserted = true ∧ p.holds = 0)
    (fun c s => chartSettle c tag.val 0 [(d, s.openResult c)] []
      ((((c.sequenced s n).1.bump.modChart (pageDie n) (fun x =>
        { x with hash := x.hash.filter (fun e => e.2 ≠ n) })).modPage n (fun p =>
          { p with inserted := false, phash := 0 })).decRef n))) ∧
  (∀ d page tag g n p, Yields true (.pfxinsDel d page tag g)
    (fun c s => n = (c.rd page 0).toNat ∧ ChartFree c s tag.val [] [n] ∧ pageCode c s n true = 0 ∧
      s.pages.find? n = some p ∧ p.inserted = true ∧ 0 < p.holds)
    (fun c s => chartSettle c tag.val 0x4B [(d, s.openResult c)] [] (c.sequenced s n).1.bump))

/-- Evictions and fetches end as the tiers say; the background read, CHCFG and the two ends of a hand-over do what the
spec gives them. EVICTION_COMPLETE of an EVICTING page and FETCH_COMPLETE of a FETCHING one with a frame read the
payload (payloadError, which the event's error drives; what an eviction's read meets is open, assumption log 3): an
uncorrectable error quarantines the page, and otherwise the eviction ends (finishEviction), a referenced page left in
CAPACITY without a frame, or the fetch ends (finishFetch). CHART_SCRUB of a resident page under CHPOL.SCRUB, or of a
header slot, does the same read and quarantines on an uncorrectable error. A quarantined page that nothing else refers
to keeps its contents and becomes QUARANTINED. CHCFG_RELOAD by the port that owns the semaphore reads the die's
descriptors and keys again, and by another port sets SEMVIOL alone. A block-table record for a request that waits for
one, of its ASID, with room, is installed there and acknowledged with 0; one that no request waits for is refused with
0x81, and one of another ASID is refused and fails the waiting request with 0x13. KVSEND_ACK of a hand-over whose
pages have gone out: a refusal fails it (peerEnd), and an acceptance, once the record has left, completes it and
leaves the request REMOTE. (R388; R391; R399; R400; R403; R404; R421; R431; R442; R443; R503) -/
def Obligations.ChartEvents : Prop :=
  (∀ n p (s : State), s.pages.find? n = some p → p.st = .evicting →
    exec (.evictionComplete (pageDie n) n) s = .next (if (s.readPages [n]).2.isSome
      then ((s.readPages [n]).1.quarantine n).runEvict (pageDie n) (pagePool n)
      else (s.readPages [n]).1.finishEviction n)) ∧
  (∀ n p f (s : State), s.pages.find? n = some p → p.st = .evicting → p.frame = some f → p.refcnt ≠ 0 →
    (s.pool (pageDie n) (pagePool n)).waiters = [] →
    (s.finishEviction n).pages.find? n = some { p with st := .capacity, frame := none } ∧
    ((s.finishEviction n).pool (pageDie n) (pagePool n)).used = (s.pool (pageDie n) (pagePool n)).used.erase f) ∧
  (∀ n p f err (s : State), s.pages.find? n = some p → p.st = .fetching → p.frame = some f →
    exec (.fetchComplete (pageDie n) n err) s = .next (if (s.payloadError n err).2
      then (s.payloadError n err).1.quarantine n else (s.payloadError n err).1.finishFetch n)) ∧
  (∀ n p err (s : State), s.pages.find? n = some p → (s.chart (pageDie n)).scrub = true → p.st = .resident →
    exec (.chartScrub (pageDie n) n err) s = .next (if (s.payloadError n err).2
      then (s.payloadError n err).1.quarantine n else (s.payloadError n err).1)) ∧
  (∀ n p a b (s : State), s.pages.find? n = some p →
    exec (.chartScrub (pageDie n) n (.header a b)) s = .next (if (s.payloadError n (.header a b)).2
      then (s.payloadError n (.header a b)).1.quarantine n else (s.payloadError n (.header a b)).1)) ∧
  (∀ n p (s : State), s.pages.find? n = some p → p.st = .resident → p.refcnt ≠ 0 →
    (∀ e ∈ s.requests, ∀ b ∈ e.2.bt, b.2 ≠ n) →
    (s.quarantine n).pages.find? n = some { p with st := .quarantined }) ∧
  (∀ port die (s : State), die < 2 → s.pkg.ready = true → port < 2 →
    (s.helm.sems.find? (1 + die) = some port → exec (.chcfgReload port die) s = .next (s.reloadChart die)) ∧
    (s.helm.sems.find? (1 + die) ≠ some port → exec (.chcfgReload port die) s =
      .next (s.modHelm (fun h => { h with semViol := h.semViol.set port true })))) ∧
  (∀ ho p r m (s : State), s.mer.recordOf ho = some p → s.requests.find? ho.handle = some r → s.model? r.model = some m →
    r.st = .remote → r.imported = true → m.asid = p.asid →
    ho.pages.length ≤ (s.pool (ho.handle / 16384) (m.pool (ho.handle / 16384))).spare →
    ho.pages.length ≤ s.freeHeaders (ho.handle / 16384) (m.pool (ho.handle / 16384)) →
    exec (.blockTableRecord ho) s =
      .next (((s.takeIn p).installRecord ho r m).tell p.key.src p.reply p.dest 0 [])) ∧
  (∀ ho p r m (s : State), s.mer.recordOf ho = some p → s.requests.find? ho.handle = some r → s.model? r.model = some m →
    r.st = .remote → r.imported = true → m.asid ≠ p.asid →
    exec (.blockTableRecord ho) s =
      .next (((s.takeIn p).tell p.key.src p.reply p.dest 0x81 []).failReq ho.handle 0x13)) ∧
  (∀ ho p (s : State), s.mer.recordOf ho = some p → s.requests.find? ho.handle = none →
    exec (.blockTableRecord ho) s = .next ((s.takeIn p).tell p.key.src p.reply p.dest 0x81 [])) ∧
  (∀ id cmd k x n (s : State), s.cmds.find? id = some cmd → cmd.work = .chart k → k.op = .send x → x.acks = some n →
    s.gridOver cmd = false → s.completable cmd = true →
    exec (.kvsendAck id false) s = .next (peerEnd id cmd k x.handle s) ∧
    (x.recorded = true → s.mer.carries id = false →
      ∀ r, (finishChart id cmd k 0 [] s).requests.find? x.handle = some r → r.st = .decode → r.inStep = none →
        exec (.kvsendAck id true) s =
          .next (((finishChart id cmd k 0 [] s).modReq x.handle (fun r => Request.mark r 0x04)).endReq x.handle .remote)))

/-- SQGET, TOKEMIT, SQSTOP, SQROLL and SQYIELD complete with their status in D. SQGET gives a word of a live request's
record and all ones for any other handle; TOKEMIT of 1 to 16 tokens below the vocabulary, for a request of the step
that has not ended, writes the tokens up to the first stop at the request's output, ends the request's part of the
step and returns the count, and RANGE (0x62) with a count outside 1 to 16 or a token at or above the vocabulary;
SQSTOP records its reason; SQROLL, once no Chart command of the group that may name the request is in flight and no
waiting acceptance step holds it or its pages, takes positions back as rollBack does its page work, with 0 positions
nothing, and RANGE when there are fewer or the page work is refused; SQYIELD ends the request's part of the step, with
.SKIP out of the next one too. Each but SQGET gives the code of the step's checks: a handle outside the step NOSTEP
(0x60), one of no live request BADREQ (0x63), a cancelled one FAILED (0x64) and one whose part has ended ENDED (0x61).
TOKEMIT's locator takes its trap. (R463; R464; R465; R466; R467; R468; R469; R470) -/
def Obligations.SequenceInstructions : Prop :=
  (∀ d hd w g r, Yields true (.sqget d hd w g) (fun c s => s.liveReq (c.rd hd 0).toNat c.grid.asid = some r)
    (fun c s => helmResult c d ((r.words (c.rd hd 0).toNat).getD w.val 0) s)) ∧
  (∀ d hd w g, Yields true (.sqget d hd w g) (fun c s => s.liveReq (c.rd hd 0).toNat c.grid.asid = none)
    (fun c s => helmResult c d 0xFFFFFFFF s)) ∧
  (∀ d hd loc cnt g n core off r m ps u toks, Yields true (.tokemit d hd loc cnt g)
    (fun c s => n = (c.rd cnt 0).toNat ∧ 1 ≤ n ∧ n ≤ 16 ∧ locate c s (c.rd loc 0) (4 * n) 4 true = .ok (core, off) ∧
      c.grp.fifo = [] ∧ stepCheck c s (c.rd hd 0).toNat = .ok r ∧ s.model? r.model = some m ∧
      ps = (List.range (4 * n)).map (fun k => ((.spad core, off + k) : Place)) ∧
      SpanOk c s (BitVec.ofNat 64 (0xFE * 2 ^ 56 + 0x0F000000 + bits (c.rd loc 0).toNat 0 21)) ps .read true ∧
      u = spanAccessed c s ps .read ∧
      toks = (List.range n).map (fun i => BitVec.ofNat 32 ((u.core core).spad.nat (off + 4 * i) 4)) ∧
      (u.model? r.model).map (fun m => m.vocab) = some m.vocab)
    (fun c _ => if toks.all (fun t => decide (t.toNat < m.vocab)) = true then
        helmResult c d (helmStatus 0 (emitTokens r toks).2.1.length (emitTokens r toks).2.2)
          (((emitTokens r toks).2.1.foldl (fun (s : State) (e : Nat × Word) =>
            s.writeVa c.grid.asid e.1 (leBytes 4 e.2.toNat)) u).modReq (c.rd hd 0).toNat
              (fun _ => { (emitTokens r toks).1 with ended := true }))
      else helmResult c d (helmStatus 0x62 0 false) u)) ∧
  (∀ d hd loc cnt g core off r, Yields true (.tokemit d hd loc cnt g)
    (fun c s => ((c.rd cnt 0).toNat = 0 ∨ 16 < (c.rd cnt 0).toNat) ∧ locate c s (c.rd loc 0) 4 4 true = .ok (core, off) ∧
      c.grp.fifo = [] ∧ stepCheck c s (c.rd hd 0).toNat = .ok r)
    (fun c s => helmResult c d (helmStatus 0x62 0 false) s)) ∧
  (∀ d hd loc cnt g n core off code, Yields true (.tokemit d hd loc cnt g)
    (fun c s => n = (if (c.rd cnt 0).toNat = 0 ∨ 16 < (c.rd cnt 0).toNat then 1 else (c.rd cnt 0).toNat) ∧
      locate c s (c.rd loc 0) (4 * n) 4 true = .ok (core, off) ∧
      c.grp.fifo = [] ∧ stepCheck c s (c.rd hd 0).toNat = .error code)
    (fun c s => helmResult c d (helmStatus code 0 false) s)) ∧
  (∀ d hd loc cnt g n e, Diverts true (.tokemit d hd loc cnt g)
    (fun c s => n = (if (c.rd cnt 0).toNat = 0 ∨ 16 < (c.rd cnt 0).toNat then 1 else (c.rd cnt 0).toNat) ∧
      locate c s (c.rd loc 0) (4 * n) 4 true = .error e)
    (fun c s => takeTrap c e s)) ∧
  (∀ (r : Request) toks,
    let x := emitTokens r toks
    x.2.1.length ≤ toks.length ∧ x.1.gen = r.gen + x.2.1.length ∧ x.1.outAddr = r.outAddr ∧
    x.2.1 = (toks.take x.2.1.length).zipIdx.map (fun e => (r.outAddr.toNat + 4 * (r.gen + e.2), e.1)) ∧
    (x.2.2 = false → x.2.1.length = toks.length ∧ x.1.status = r.status)) ∧
  (∀ d hd reason g r, Yields true (.sqstop d hd reason g) (fun c s => stepCheck c s (c.rd hd 0).toNat = .ok r)
    (fun c s => helmResult c d 0 (s.modReq (c.rd hd 0).toNat (fun _ =>
      { r.mark (BitVec.ofNat 32 (3 + bits (c.rd reason 0).toNat 0 24 * 256)) with ended := true })))) ∧
  (∀ d hd n g r i m, Yields true (.sqroll d hd n g)
    (fun c s => stepCheck c s (c.rd hd 0).toNat = .ok r ∧ r.inStep = some i ∧ (c.rd n 0).toNat ≤ i.1 ∧
      s.cmds.any (fun e => e.2.namesReq c.gid (c.rd hd 0).toNat) = false ∧
      s.chartHeld [(c.rd hd 0).toNat] (r.bt.map Prod.snd) = false ∧
      (c.rd n 0).toNat ≠ 0 ∧ s.model? r.model = some m)
    (fun c s => match s.rollBack (c.rd hd 0).toNat (c.rd n 0).toNat r m with
      | some u => helmResult c d 0 u
      | none => helmResult c d (helmStatus 0x62 0 false) s)) ∧
  (∀ d hd n g r i, Yields true (.sqroll d hd n g)
    (fun c s => stepCheck c s (c.rd hd 0).toNat = .ok r ∧ r.inStep = some i ∧
      s.cmds.any (fun e => e.2.namesReq c.gid (c.rd hd 0).toNat) = false ∧
      s.chartHeld [(c.rd hd 0).toNat] (r.bt.map Prod.snd) = false ∧ (c.rd n 0).toNat = 0)
    (fun c s => helmResult c d 0 s)) ∧
  (∀ d hd n g r i, Yields true (.sqroll d hd n g)
    (fun c s => stepCheck c s (c.rd hd 0).toNat = .ok r ∧ r.inStep = some i ∧ i.1 < (c.rd n 0).toNat)
    (fun c s => helmResult c d (helmStatus 0x62 0 false) s)) ∧
  (∀ d hd g r, Yields true (.sqyield false d hd g) (fun c s => stepCheck c s (c.rd hd 0).toNat = .ok r)
    (fun c s => helmResult c d 0 (s.modReq (c.rd hd 0).toNat (fun r => { r with ended := true })))) ∧
  (∀ d hd g r p hs, Yields true (.sqyield true d hd g)
    (fun c s => stepCheck c s (c.rd hd 0).toNat = .ok r ∧ c.grid.step = some (p, hs))
    (fun c s => helmResult c d 0 ((s.modReq (c.rd hd 0).toNat (fun r => { r with ended := true })).modPart p
      (fun x => { x with skip := x.skip ++ [(c.rd hd 0).toNat] })))) ∧
  (∀ d hd o g code skip i, i = .sqstop d hd o g ∨ i = .sqroll d hd o g ∨ i = .sqyield skip d hd g →
    Yields true i (fun c s => stepCheck c s (c.rd hd 0).toNat = .error code)
      (fun c s => helmResult c d (helmStatus code 0 false) s)) ∧
  (∀ c (s : State) h,
    (c.grid.step = none → stepCheck c s h = .error 0x60) ∧
    (∀ p hs, c.grid.step = some (p, hs) → h ∉ hs → stepCheck c s h = .error 0x60) ∧
    (∀ p hs, c.grid.step = some (p, hs) → h ∈ hs →
      (s.liveReq h c.grid.asid = none → stepCheck c s h = .error 0x63) ∧
      ∀ r, s.liveReq h c.grid.asid = some r →
        (r.cancel = true → stepCheck c s h = .error 0x64) ∧
        (r.cancel = false → (r.ended = true ∨ r.inStep = none) → stepCheck c s h = .error 0x61) ∧
        (r.cancel = false → r.ended = false → r.inStep.isSome = true → stepCheck c s h = .ok r)))

/-- Helm takes the entry of the ring whose turn it is and does its command: LAUNCH, ADMIT, CANCEL, MODEL, MODELDEL, or
BADCMD. When it is a ring's turn and its entry names the command: LAUNCH of an aligned readable record that R98 does
not refuse and that names this queue, in an enabled ASID, enters the grid at the queue's tail; a misaligned or
unreadable one, or one that breaks R98 or names another queue, is REFUSED with 0x01, the last two after the add of
R429; in an ASID that is not enabled with 0x02. ADMIT of a legal image of a model of the ring's ASID makes the
request, its block table all null, and posts ADMITTED, or with no free record or no room for the block table is
REFUSED with 0x11, and otherwise with 0x12; CANCEL fails the request with 0x10, once, and is REFUSED with 0x13 for a
handle of no request or of another ASID's; MODEL registers a model with the templates it names, or is REFUSED with
0x12; MODELDEL erases one that no live request names, is REFUSED with 0x14 where one does and with 0x12 for no model
of the ASID; any other command is REFUSED with 0x10. While it is another ring's turn nothing changes. Which free
record a die gives is the model's open choice (log 3); that an ASID not enabled is 0x02, and an unreadable image 0x01
or 0x12, is the model's choice (log 31). (R98; R429; R434; R435; R438; R439; R440; R441; R443) -/
def Obligations.RingCommands : Prop :=
  (∀ q e (s u v x : State) bs b, RingGives s q 1 e u → e.addr.toNat % 256 = 0 → u.asidEn (u.queue q).asid = true →
    u.readVa (u.queue q).asid e.addr.toNat 256 = (v, some bs) →
    v.refusedRecord (u.queue q).asid (parseLaunch bs) = (x, b) →
    exec (.launch q) s = .next (if b = false ∧ (parseLaunch bs).queue = q then
      x.enqueue q (Grid.enter (parseLaunch bs) e.addr q (u.queue q).asid (!(u.queue q).prefill) e.cookie)
      else (x.addCounter (u.queue q).asid (parseLaunch bs).doneAddr (parseLaunch bs).doneAdd).refuse q 0x01 e.cookie)) ∧
  (∀ q e (s u : State), RingGives s q 1 e u → e.addr.toNat % 256 ≠ 0 →
    exec (.launch q) s = .next (u.refuse q 0x01 e.cookie)) ∧
  (∀ q e (s u : State), RingGives s q 1 e u → e.addr.toNat % 256 = 0 → u.asidEn (u.queue q).asid = false →
    exec (.launch q) s = .next (u.refuse q 0x02 e.cookie)) ∧
  (∀ q e (s u v : State), RingGives s q 1 e u → e.addr.toNat % 256 = 0 → u.asidEn (u.queue q).asid = true →
    u.readVa (u.queue q).asid e.addr.toNat 256 = (v, none) → exec (.launch q) s = .next (v.refuse q 0x01 e.cookie)) ∧
  (∀ q e (s u v : State) bs r m die, RingGives s q 2 e u → e.addr.toNat % 256 = 0 →
    u.readVa (u.queue q).asid e.addr.toNat 256 = (v, some bs) → r = parseRequest bs q → v.model? r.model = some m →
    m.asid = (u.queue q).asid → r.ok = true →
    die = (if (v.records 1).length < (v.records 0).length then 1 else 0) →
    exec (.admitReq q) s = .next (match v.freeRecord die, v.tablePlace die m with
      | some h, some bt => ((((({ v.bump with
          requests := v.requests.set h { r with btBase := bt, btBytes := m.tableBytes, admseq := v.helm.admseq.toNat }
          } : State).modHelm (fun x => { x with admseq := x.admseq + 1 })).touch 0 bt m.tableBytes).physStore bt
            (List.replicate m.tableBytes 0xFF)).postOpen q 3 none (some h) none none e.cookie)
      | _, _ => v.refuse q 0x11 e.cookie)) ∧
  (∀ q e (s u : State), RingGives s q 2 e u → e.addr.toNat % 256 ≠ 0 →
    exec (.admitReq q) s = .next (u.refuse q 0x12 e.cookie)) ∧
  (∀ q e (s u v : State) bs, RingGives s q 2 e u → e.addr.toNat % 256 = 0 →
    u.readVa (u.queue q).asid e.addr.toNat 256 = (v, bs) →
    (∀ b m, bs = some b → v.model? (parseRequest b q).model = some m → m.asid = (u.queue q).asid →
      (parseRequest b q).ok = false) →
    exec (.admitReq q) s = .next (v.refuse q 0x12 e.cookie)) ∧
  (∀ q e (s u : State) r, RingGives s q 3 e u → u.requests.find? e.arg0 = some r →
    exec (.cancel q) s = .next (
      if (u.model? r.model).any (fun m => m.asid ≠ (u.queue q).asid) = true then u.refuse q 0x13 e.cookie
      else if r.cancel = true then u else u.failReq e.arg0 0x10)) ∧
  (∀ q e (s u : State), RingGives s q 3 e u → u.requests.find? e.arg0 = none →
    exec (.cancel q) s = .next (u.refuse q 0x13 e.cookie)) ∧
  (∀ q e (s u v v1 v2 v3 : State) bs m x y z, RingGives s q 4 e u → e.addr.toNat % 256 = 0 → e.arg0 ≤ 255 →
    u.model? e.arg0 = none → u.readVa (u.queue q).asid e.addr.toNat 1024 = (v, some bs) →
    m = parseModel bs (u.queue q).asid →
    v.template m.asid m.pflrAt = (v1, some x) → v1.template m.asid m.declrAt = (v2, some y) →
    v2.template m.asid m.mixedlrAt = (v3, some z) →
    exec (.model q) s = .next (
      if leAt bs 0 1 = 1 ∧ m.pflrAt.toNat % 256 = 0 ∧ m.declrAt.toNat % 256 = 0 ∧ m.mixedlrAt.toNat % 256 = 0 ∧ m.ok = true ∧
        v3.poolsOk m = true ∧ templateBad m x = false ∧ templateBad m y = false ∧ templateBad m z = false then
        ({ v3 with models := v3.models.set e.arg0 { m with pflr := x, declr := y, mixedlr := z } }).postOpen q 7 none
          (some e.arg0) none none e.cookie
      else v3.refuse q 0x12 e.cookie)) ∧
  (∀ q e (s u : State), RingGives s q 4 e u → (e.addr.toNat % 256 ≠ 0 ∨ 255 < e.arg0 ∨ (u.model? e.arg0).isSome) →
    exec (.model q) s = .next (u.refuse q 0x12 e.cookie)) ∧
  (∀ q e (s u v : State), RingGives s q 4 e u → e.addr.toNat % 256 = 0 → e.arg0 ≤ 255 → u.model? e.arg0 = none →
    u.readVa (u.queue q).asid e.addr.toNat 1024 = (v, none) → exec (.model q) s = .next (v.refuse q 0x12 e.cookie)) ∧
  (∀ q e (s u : State) m, RingGives s q 5 e u → u.model? e.arg0 = some m → m.asid = (u.queue q).asid →
    exec (.modeldel q) s = .next (if u.requests.any (fun r => r.2.st.live && r.2.model == e.arg0) = true then
      u.refuse q 0x14 e.cookie
    else ({ u with models := u.models.erase e.arg0 }).postOpen q 7 none (some e.arg0) none none e.cookie)) ∧
  (∀ q e (s u : State), RingGives s q 5 e u → (∀ m, u.model? e.arg0 = some m → m.asid ≠ (u.queue q).asid) →
    exec (.modeldel q) s = .next (u.refuse q 0x12 e.cookie)) ∧
  (∀ q e (s u : State), RingGives s q e.cmd e u → (e.cmd = 0 ∨ 5 < e.cmd) →
    exec (.badcmd q) s = .next (u.refuse q 0x10 e.cookie)) ∧
  (∀ q (s : State), s.ringTurn ≠ some q → exec (.launch q) s = .next s ∧ exec (.admitReq q) s = .next s ∧
    exec (.cancel q) s = .next s ∧ exec (.model q) s = .next s ∧ exec (.modeldel q) s = .next s ∧
    exec (.badcmd q) s = .next s)

/-- Doorbells, semaphores, PARTK and PHALT do what a host port's access does; a halt runs through its stages and back.
RTAIL and EHEAD from a port of a package that is ready store the tail and the head, EHEAD writing held events as far
as there is room; a semaphore read takes a free semaphore, one that ties with the other port's gives it to the port
that lost the tie before, a write of 0 by its owner frees it and any other write does nothing, a link that goes down
loses the port's; PARTK by the owner of SEM0 sets the k that is asked for, a field above 8 being ignored, and
K_CHANGE_APPLY puts it in force once the moving columns are empty of groups and queued teams and no partition of the
die is halted, and not before; PARTK and PHALT by another are guarded; PHALT starts a halt or a resume, or queues it
behind one in progress; PARTITION_HALT stops the cores and, once they are quiet, halts them; SHADOW_SWAP, the slow
path and PARTITION_RESUME end the stages. That a moving column's queued teams delay the change is the model's choice
(log 33). (R12; R14; R173; R430; R431; R432; R433; R437; R458; R459; R460; R461) -/
def Obligations.HostDoorbells : Prop :=
  (∀ port q val (s : State), s.pkg.ready = true → port < 2 → q < 64 →
    exec (.rtail port q val) s = .next (s.modQueue q (fun k => { k with rtail := val })) ∧
    exec (.ehead port q val) s = .next ((s.modQueue q (fun k => { k with ehead := val })).flush q)) ∧
  (∀ port n (s : State), s.pkg.ready = true → port < 2 → n < 16 →
    (s.helm.sems.find? n = none → exec (.semaphoreRead port n false) s =
      .next (s.modHelm (fun h => { h with sems := h.sems.set n port }))) ∧
    (s.helm.sems.find? n = none → exec (.semaphoreRead port n true) s =
      .next (s.modHelm (fun h => { h with sems := h.sems.set n (h.tie.getD n 0), tie := h.tie.put 0 n (1 - h.tie.getD n 0) }))) ∧
    (∀ o tie, s.helm.sems.find? n = some o → exec (.semaphoreRead port n tie) s = .next s) ∧
    (s.helm.sems.find? n = some port → exec (.semaphoreWrite port n 0) s =
      .next (s.modHelm (fun h => { h with sems := h.sems.erase n }))) ∧
    (∀ val, s.helm.sems.find? n ≠ some port ∨ val ≠ 0 → exec (.semaphoreWrite port n val) s = .next s)) ∧
  (∀ port (s : State), ∃ t, exec (.hostLinkDown port) s = .next t ∧
    ∀ n, t.helm.sems.find? n ≠ some port ∧ (Map.sorted s.helm.sems = true → s.helm.sems.find? n ≠ some port →
      t.helm.sems.find? n = s.helm.sems.find? n)) ∧
  (∀ port (s : State) val, s.pkg.ready = true → port < 2 → s.helm.sems.find? 0 = some port →
    ∃ t, exec (.partk port val) s = .next t ∧
      t.kWant 0 = (if bits val.toNat 0 4 ≤ 8 then bits val.toNat 0 4 else s.kWant 0) ∧
      t.kWant 1 = (if bits val.toNat 8 4 ≤ 8 then bits val.toNat 8 4 else s.kWant 1) ∧ t.helm.k = s.helm.k) ∧
  (∀ port (s : State) val, s.pkg.ready = true → port < 2 → s.helm.sems.find? 0 ≠ some port →
    exec (.partk port val) s = .next (s.modHelm (fun h => { h with semViol := h.semViol.set port true })) ∧
    exec (.phalt port val) s = .next (s.modHelm (fun h => { h with semViol := h.semViol.set port true }))) ∧
  (∀ die (s : State), die < 2 → s.k die ≠ s.kWant die → (s.part (2 * die)).halt = .run →
    (s.part (2 * die + 1)).halt = .run →
    ((List.range 48).map (fun c => die * 48 + c)).any (fun c =>
      s.moving c && (!(s.groupsOn c).isEmpty || !(s.core c).dispatchQ.isEmpty)) = false →
    exec (.kChangeApply die) s = .next (s.modHelm (fun h => { h with k := h.k.put 0 die (s.kWant die) }))) ∧
  (∀ die (s : State), ((s.part (2 * die)).halt ≠ .run ∨ (s.part (2 * die + 1)).halt ≠ .run ∨
      ((List.range 48).map (fun c => die * 48 + c)).any (fun c =>
        s.moving c && (!(s.groupsOn c).isEmpty || !(s.core c).dispatchQ.isEmpty)) = true) →
    exec (.kChangeApply die) s = .next s) ∧
  (∀ port val (s : State), s.pkg.ready = true → port < 2 → s.helm.sems.find? 0 = some port → ∃ t,
    exec (.phalt port val) s = .next t ∧ ∀ p, p < 4 →
      t.part p = (s.part p).ask (bit val.toNat p) (bit val.toNat (8 + p)) (bits val.toNat 16 6)) ∧
  (∀ (p : Part) swap q,
    (p.halt = .run → p.ask true swap q = { p with halt := .halting, swapOut := swap, partQ := q } ∧
      p.ask false swap q = p) ∧
    (p.halt = .shadow → p.resuming = false → p.swapOut = false →
      p.ask false swap q = { p with resuming := true, partQ := q } ∧ p.ask true swap q = p) ∧
    ∀ h, (p.halt = .halting ∨ p.halt = .halted) → p.ask h swap q = { p with next := p.next ++ [(h, swap, q)] }) ∧
  (∀ p (s : State), p < 4 → (s.part p).halt = .halting →
    ((s.partCores p).any (fun c => !(s.core c).halted) = true → exec (.partitionHalt p) s =
      .next ((s.partCores p).foldl (fun (s : State) c => s.modCore c (fun k => { k with halted := true })) s)) ∧
    ((s.partCores p).any (fun c => !(s.core c).halted) = false → (s.partCores p).all s.coreQuiet = true →
      exec (.partitionHalt p) s =
        .next (((s.partCores p).foldl State.haltCore s).modPart p (fun x => { x with halt := .halted })))) ∧
  (∀ p (s u v : State), p < 4 → (s.part p).halt = .halted →
    u = s.modPart p (fun x => { x with halt := .shadow, swapOut := x.swapOut && x.running.isNone }) →
    v = u.partEvent (u.part p).partQ →
    exec (.shadowSwap p) s = .next (v.modPart p (fun x => x.goOn x.next.length))) ∧
  (∀ p (s : State) tids, p < 4 → s.pkg.trip = false → (s.part p).halt = .shadow → (s.part p).swapOut = true →
    tids = (s.partCores p).flatMap (fun c => (s.teamsOn c).map Prod.fst) →
    tids.all (fun t => s.teamQuiet t && s.spadQuiet t) = true →
    exec (.haltSlowPath p) s = .next (((tids.foldl (fun (s : State) t => s.swapOut t false true) s).unhalt p).modPart p
      (fun x => ({ x with halt := .run, swapOut := false } : Part).goOn x.next.length))) ∧
  (∀ p (s u v : State), p < 4 → (s.part p).halt = .shadow → (s.part p).resuming = true → s.pkg.trip = false →
    u = (s.unhalt p).modPart p (fun x => { x with halt := .run, resuming := false, swapOut := false }) →
    v = u.partEvent (u.part p).partQ →
    exec (.partitionResume p) s = .next (v.modPart p (fun x => x.goOn x.next.length)))

/-- A grid goes through dispatch, leases, save arena, holds, placement and completion, which removes it; the watchdog
traps it and then ends it. GRID_DISPATCH of the head that the priorities choose, or of a partition's step grid, makes
it dispatched; LEASE_STAGE stages every page of its lease list, and refuses with 0x02 a grid whose ASID is not
enabled, whose list cannot be read or leaves the address space, or one of whose pages is refused; SAVE_AREA_ALLOCATE
takes a place in the arena, waits for one, or refuses a grid that no arena could hold; HOLD_ACQUIRE lets a grid that
is not in Reckoning mode pass, and one that is takes its holds unless a page has 255 and passes once every page is
RESIDENT; CLUSTER_PLACE places the next cluster, or brings one back, and does nothing while MEMCFG changes; TEAM_START
starts the head of a core's queue where there is room; WORK_STEAL moves the tail of the longest neighbouring queue;
TEAM_SWAP_OUT takes out the grid's last placed cluster; GRID_COMPLETION completes the grid, and one that is no step
grid is then gone; the watchdog raises trap 0x19 once in every live group of a grid whose first group has issued, each
as soon as it can take it, and a period later ends the grid. Refusal codes of stages 2 and 3, and the placement of the
arena, are the model's choice (log 33). (R94; R95; R425; R428; R436; R437; R451; R452; R453; R454; R456; R525) -/
def Obligations.GridLife : Prop :=
  (∀ q q' gid prio g (s : State), q < 64 → bestHead s.heads = some (q', gid, prio) → q' = q → s.grids.find? gid = some g →
    [b2n g.decodeRole, b2n g.decodeRole + 2].any (fun p => (s.stepGrid p).any s.candidate) = false →
    exec (.gridDispatch q) s = .next (s.dispatch gid)) ∧
  (∀ p gid (s : State), s.stepGrid p = some gid → s.candidate gid = true →
    exec (.gridDispatch (64 + p)) s = .next (s.dispatch gid)) ∧
  (∀ gid g (s : State), s.grids.find? gid = some g →
    s.dispatch gid = ((g.record.used.foldl (fun (s : State) d => (s.natVa g.asid d.1.toNat 8).1) s).modGrid gid
      (fun x => { x with stage := .dispatched })).keepFetched ∧
    (g.record.used = [] → (s.dispatch gid).grids.find? gid = some { g with stage := .dispatched } ∧
      ∀ k, k ≠ gid → (s.dispatch gid).grids.find? k = s.grids.find? k)) ∧
  (∀ gid g (s u v : State) rs us, s.grids.find? gid = some g → g.stage = .dispatched → s.asidEn g.asid = true →
    s.leaseList g = (u, some rs) → leaseUnits rs = some us → u.stageAll gid g.asid us = (v, true) →
    exec (.leaseStage gid) s = .next ((v.markParts g).modGrid gid (fun y => { y with stage := .leased, leases := rs }))) ∧
  (∀ gid g (s : State), s.grids.find? gid = some g → g.stage = .dispatched → s.asidEn g.asid = false →
    exec (.leaseStage gid) s = .next (s.refuseGrid gid 0x02)) ∧
  (∀ gid g (s u : State), s.grids.find? gid = some g → g.stage = .dispatched → s.asidEn g.asid = true →
    s.leaseList g = (u, none) → exec (.leaseStage gid) s = .next (u.refuseGrid gid 0x02)) ∧
  (∀ gid g (s u : State) rs, s.grids.find? gid = some g → g.stage = .dispatched → s.asidEn g.asid = true →
    s.leaseList g = (u, some rs) → leaseUnits rs = none → exec (.leaseStage gid) s = .next (u.refuseGrid gid 0x02)) ∧
  (∀ gid g (s u v : State) rs us, s.grids.find? gid = some g → g.stage = .dispatched → s.asidEn g.asid = true →
    s.leaseList g = (u, some rs) → leaseUnits rs = some us → u.stageAll gid g.asid us = (v, false) →
    exec (.leaseStage gid) s = .next (v.refuseGrid gid 0x02)) ∧
  (∀ gid g (s : State) base, s.grids.find? gid = some g → g.stage = .leased →
    (s.helm.savSize.toNat < g.arenaNeed → exec (.saveAreaAllocate gid) s = .next (s.refuseGrid gid 0x02)) ∧
    (g.arenaNeed ≤ s.helm.savSize.toNat → firstFit s.helm.savBase.toNat s.helm.savSize.toNat 256 g.arenaNeed
      (s.grids.filterMap (fun e => e.2.arena)) = some base →
      exec (.saveAreaAllocate gid) s = .next (s.modGrid gid (fun x => { x with
        stage := .saved, arena := some (base, g.arenaNeed), saves := [(base, g.teamCount * areaSize g.slots)] }))) ∧
    (g.arenaNeed ≤ s.helm.savSize.toNat → firstFit s.helm.savBase.toNat s.helm.savSize.toNat 256 g.arenaNeed
      (s.grids.filterMap (fun e => e.2.arena)) = none → exec (.saveAreaAllocate gid) s = .next s)) ∧
  (∀ gid g (s : State), s.grids.find? gid = some g → g.stage = .saved →
    (g.record.reckon = false → exec (.holdAcquire gid) s = .next (s.modGrid gid (fun x => { x with stage := .held }))) ∧
    (g.record.reckon = true → g.holding = true →
      g.holds.any (fun n => (s.pages.find? n).any (fun (p : Page) => decide (p.st ≠ .resident))) = false →
      exec (.holdAcquire gid) s = .next (s.modGrid gid (fun x => { x with stage := .held }))) ∧
    (g.record.reckon = true → g.holding = true →
      g.holds.any (fun n => (s.pages.find? n).any (fun (p : Page) => decide (p.st ≠ .resident))) = true →
      exec (.holdAcquire gid) s = .next (s.fetchAll g.holds)) ∧
    (∀ u ns, g.record.reckon = true → g.holding = false → s.holdPages g = (u, ns) →
      exec (.holdAcquire gid) s = .next (
        if ns.any (fun n => (u.pages.find? n).any (fun (p : Page) => decide (255 ≤ p.holds))) = true then u
        else ((ns.foldl (fun (s : State) (n : Nat) => s.modPage n (fun q => { q with holds := q.holds + 1 })) u).modGrid gid
          (fun y => { y with holds := ns, holding := true })).fetchAll ns))) ∧
  (∀ gid g (s : State), s.grids.find? gid = some g → s.ms.change = none →
    (s.awayClusters gid = [] → g.placing = true → s.returnFirst gid g = false →
      exec (.clusterPlace gid) s = .next (s.placeNext gid g)) ∧
    (∀ cl cls, s.awayClusters gid = cl :: cls → g.ending = none → s.headWaits g = false →
      exec (.clusterPlace gid) s = .next (s.returnCluster gid g cl))) ∧
  (∀ gid (s : State), s.ms.change.isSome = true → exec (.clusterPlace gid) s = .next s) ∧
  (∀ core tid ts base (s : State), (s.core core).dispatchQ = tid :: ts → (s.part (s.partOf core)).halt = .run →
    (s.core core).halted = false → s.roomAt core (s.teamNeed tid) = some base →
    exec (.teamStart core) s =
      .next ((s.modCore core (fun k => { k with dispatchQ := ts })).enterCore tid core base)) ∧
  (∀ core c tid (s : State), (s.placeable (s.partOf core)).contains core = true → s.groupsOn core = [] →
    (s.core core).dispatchQ = [] → s.longQueue core = some c → (s.core c).dispatchQ.getLast? = some tid →
    exec (.workSteal core) s = .next ((s.modCore c (fun k => { k with dispatchQ := k.dispatchQ.dropLast })).modCore core
      (fun k => { k with dispatchQ := k.dispatchQ ++ [tid] }))) ∧
  (∀ gid g cl ts (s : State), s.grids.find? gid = some g →
    s.grids.any (fun e => s.stuck e.2 && e.2.decodeRole == g.decodeRole &&
      (s.yielders g.decodeRole e.2.record.prio).any (fun y => y.1 = gid) &&
      (s.yielders g.decodeRole e.2.record.prio).all (fun y => decide (g.record.prio ≤ y.2.record.prio))) = true →
    s.lastPlaced gid = some cl → ts = (s.clusterTeams cl).filter (fun t => t.2.started && !t.2.swapped) →
    ts.all (fun t => s.teamIdle t.1) = true →
    exec (.teamSwapOut gid) s = .next (ts.foldl (fun (s : State) (t : Nat × Team) => s.swapOut t.1 false false) s)) ∧
  (∀ gid g (s : State), s.grids.find? gid = some g → s.gridEnded gid g = true →
    exec (.gridCompletion gid) s = .next (s.completeGrid gid g) ∧
    (g.step = none → (s.completeGrid gid g).grids.find? gid = none)) ∧
  (∀ gid g (s : State), s.grids.find? gid = some g → s.gridEnded gid g = false → exec (.gridCompletion gid) s = .next s) ∧
  (∀ gid g (s : State), s.grids.find? gid = some g → g.ending = none → (s.queue g.queue).wdog ≠ 0 → g.dog = none →
    s.gridBegun gid g = true →
    exec (.watchdogTrap gid) s = .next ((s.modGrid gid (fun x => { x with
      dog := some (Map.keys ((s.gridGroups gid).filter (fun e => e.2.alive))) })).dogTraps gid
        (Map.keys ((s.gridGroups gid).filter (fun e => e.2.alive))))) ∧
  (∀ gid g dog (s : State), s.grids.find? gid = some g → g.ending = none → (s.queue g.queue).wdog ≠ 0 → g.dog = some dog →
    exec (.watchdogTrap gid) s = .next (s.dogTraps gid dog)) ∧
  (∀ gid g (s : State), s.grids.find? gid = some g →
    (s.gridGroups gid).any (fun e => e.2.lastSlot.isSome) = true → s.gridBegun gid g = true) ∧
  (∀ gid g dog (s : State), s.grids.find? gid = some g → g.ending = none → g.dog = some dog →
    exec (.watchdogEnd gid) s = .next (s.endGrid gid { status := 0x05, ggid := 0xFFFFFFFF, cause := 0, epc := 0 }))

/-- A batch is formed for a partition that runs none, in the order of effective priority; swapped requests return and
prefilled ones move to a decode partition. BATCH_FORM in a partition that exists, is not halted and runs no step, on a
die whose k is in force, launches the batch that the ranking gives and clears the SKIP set, and with no batch launches
nothing; the ranking goes by effective priority, ties to the state that ranks first, then to the lower ADMSEQ; a
request that fails keeps its first code; SWAPPED_RETURN of a request, once frames suffice, fetches its pages and makes
it DECODE when they are resident; BLOCK_HAND_OVER of a request whose pages no one pins, and which no Chart command in
flight works on, makes it DECODE on the decode partition chosen, with a record of that die, and waits otherwise. What
a step clears of the SKIP set, and what a hand-over waits for, is the model's choice (log 31, log 32). (R15; R16;
R442; R443; R444; R445; R446; R447; R448; R449; R450) -/
def Obligations.StepsOfRequests : Prop :=
  (∀ p (s : State), s.pkg.ready = true → p < 4 → s.partExists p = true → (s.part p).halt = .run →
    (s.part p).running = none → s.k (p / 2) = s.kWant (p / 2) →
    let u := s.relieve p
    (u.batchOf (u.ranking p) = none → exec (.batchForm p) s = .next u) ∧
    (∀ m b, u.batchOf (u.ranking p) = some (m, b) → b.seqs ≠ [] →
      exec (.batchForm p) s = .next ((u.modPart p (fun x => { x with skip := [] })).launchBatch p m b)) ∧
    (∀ m b, u.batchOf (u.ranking p) = some (m, b) → b.seqs = [] → exec (.batchForm p) s = .next u)) ∧
  (∀ p (s : State), (s.part p).running.isSome = true → exec (.batchForm p) s = .next s) ∧
  (∀ (s : State) (a b : Request),
    (s.effPrio b < s.effPrio a → s.before a b = true ∧ s.before b a = false) ∧
    (s.effPrio b = s.effPrio a → a.st.rank < b.st.rank → s.before a b = true ∧ s.before b a = false) ∧
    (s.effPrio b = s.effPrio a → a.st.rank = b.st.rank → a.admseq < b.admseq → s.before a b = true ∧ s.before b a = false)) ∧
  (∀ (s : State) (r : Request) m, s.model? r.model = some m → m.ageQ ≠ 0 →
    s.effPrio r = min 15 (r.prio + r.age / m.ageQ)) ∧
  (∀ (r : Request) code, (r.status ≠ 0 → r.mark code = r) ∧ (r.status = 0 → (r.mark code).status = code)) ∧
  (∀ h r m (s : State), s.requests.find? h = some r → s.model? r.model = some m → r.st = .swapped → r.cancel = false →
    (r.returning = true ∨
      2 * (s.pool (h / 16384) (m.poolOn (h / 16384))).low ≤ (s.pool (h / 16384) (m.poolOn (h / 16384))).free) →
    (r.pages.all (fun n => (s.pages.find? n).any (fun q => decide (q.st = .resident))) = true →
      exec (.swappedReturn h) s = .next (s.modReq h (fun r => { r with st := .decode, returning := false }))) ∧
    (r.pages.all (fun n => (s.pages.find? n).any (fun q => decide (q.st = .resident))) = false →
      exec (.swappedReturn h) s = .next ((s.modReq h (fun r => { r with returning := true })).fetchAll r.pages))) ∧
  (∀ h r d (s : State), s.requests.find? h = some r → r.st = .handoff → r.cancel = false → s.chartNames h = false →
    r.pages.any (fun n => (s.pages.find? n).any (fun q => decide (0 < q.pins))) = false → s.decodeTarget = some d →
    (d = h / 16384 → exec (.blockHandOver h) s =
      .next (s.modReq h (fun _ => { r with st := .decode, placed := true, decodePart := true, placeDie := d }))) ∧
    (∀ h', d ≠ h / 16384 → s.freeRecord d = some h' → exec (.blockHandOver h) s =
      .next (s.moveRecord h { r with st := .decode, placed := true, decodePart := true, placeDie := d } h')))  ∧
  (∀ h r (s : State), s.requests.find? h = some r → (s.chartNames h = true ∨
      r.pages.any (fun n => (s.pages.find? n).any (fun q => decide (0 < q.pins))) = true) →
    exec (.blockHandOver h) s = .next s)

/-- NSEND, NPUT, NGET, NRED and NRECV are accepted on their tag, with the first of RANGE, NOROUTE and LEASE that applies;
NPOLL and NTIME give their results. Each command that issues clear with a free tag, no store in the FIFO and a local
range inside an aperture (NetReady) completes: it is accepted with the first of RANGE 0x86, NOROUTE 0x80 and LEASE
0x12 that applies (netCode), or 0, and when that is 0 and it is ordered it stages a packet for each target; NPUT.REP
takes its targets from the replica set. NRED reads its operand block first, and goes on as the block says; NRECV has
RANGE for a queue above 63, REFUSED 0x81 for one closed to the issuer, and otherwise joins the queue's waiters. A
local range outside every aperture takes trap 0x03 and a locator its own trap. NPOLL of a queue closed to the issuer
gives 0, of one with a message its poll word and of one without 0; in Reckoning mode, where it need not wait, an
ordered message counts when its stamp is below LTIME. NTIME gives Meridian time or the receive horizon, LTIME in
Reckoning mode. (R197; R475; R478; R480; R496; R497; R498; R499; R500; R501; R502; R504) -/
def Obligations.MeridianCommands : Prop :=
  (∀ nm len dq src tag g a l, Yields true (.nsend nm len dq src tag g)
    (fun c s => a = (c.rd dq 0).toNat ∧ l = (c.rd len 0).toNat ∧ NetReady c s tag.val (readPair c.grp src) l)
    (fun c s =>
      let ps := netPlaces c s (readPair c.grp src) l .read
      retire c (acceptNet c tag.val
        (netCode (8192 ≤ bits a 0 16 ∨ 2 ^ 22 ≤ a ∨ l = 0 ∨ 65536 < l ∨ (c.reckon = true ∧ nm ≠ .ord))
          (routeCode c s [bits a 0 16] (nm == .ord)) ps.isSome)
        { (Net.blank .send).via nm with src := readPair c.grp src, len := l, waits := [bits a 0 16], queue := bits a 16 6 }
        (ps.getD []) [] (if nm = .ord then [c.packet s 0 (bits a 0 16) (bits a 16 6) 0] else []) s))) ∧
  (∀ rep nm len dest src raddr tag g a l u ds, Yields true (.nput rep nm len dest src raddr tag g)
    (fun c s => a = (c.rd dest 0).toNat ∧ l = (c.rd len 0).toNat ∧ NetReady c s tag.val (readPair c.grp src) l ∧
      (if rep = true then (if a < 256 then s.replicaSet a else (s, none)) else (s, if a < 8192 then some [a] else none)) =
        (u, ds))
    (fun c _ =>
      let ps := netPlaces c u (readPair c.grp src) l .read
      let es := (ds.getD []).dedup
      retire c (acceptNet c tag.val
        (netCode (ds = none ∨ (∃ d ∈ ds.getD [], 8192 ≤ d) ∨ l = 0 ∨ 16777216 < l ∨ (c.reckon = true ∧ nm ≠ .ord))
          (routeCode c u es (nm == .ord)) ps.isSome)
        { (Net.blank .put).via nm with
          src := readPair c.grp src, len := l, waits := es, raddr := (readPair c.grp raddr).toNat }
        (ps.getD []) []
        (if nm = .ord then es.map (fun d => c.packet u 0 d 64 (readPair c.grp raddr).toNat) else []) u))) ∧
  (∀ rod len dest raddr dst tag g a l, Yields true (.nget rod len dest raddr dst tag g)
    (fun c s => a = (c.rd dest 0).toNat ∧ l = (c.rd len 0).toNat ∧ NetReady c s tag.val (readPair c.grp dst) l)
    (fun c s =>
      let ps := netPlaces c s (readPair c.grp dst) l .write
      retire c (acceptNet c tag.val
        (netCode (8192 ≤ a ∨ l = 0 ∨ 16777216 < l ∨ c.reckon = true) (routeCode c s [a] false) ps.isSome)
        { Net.blank .get with
          dst := readPair c.grp dst, len := l, waits := [a], raddr := (readPair c.grp raddr).toNat, rod := rod }
        [] (ps.getD []) [] s))) ∧
  (∀ op blk tag g core off ps n, Yields true (.nred op blk tag g)
    (fun c s =>
      let u := spanAccessed c s ps .read
      NredBlock c s tag.val blk core off ps ∧ n = nredOf op (ps.map u.byteAt) ∧
      (viewPlace (viewOf c u) n.src n.len).isSome = true ∧ u.namesAway c.team n.src n.len = false ∧
      (viewPlace (viewOf c u) n.dst n.len).isSome = true ∧ u.namesAway c.team n.dst n.len = false)
    (fun c s =>
      let u := spanAccessed c s ps .read
      let sp := netPlaces c u n.src n.len .read
      let dp := netPlaces c u n.dst n.len .write
      retire c (acceptNet c tag.val
        (netCode (65536 ≤ n.coll ∨ (∃ d ∈ n.waits, 8192 ≤ d) ∨ n.npart < 2 ∨ 8192 < n.npart ∨ n.count < 1 ∨
          1048576 < n.count) (routeCode c u n.waits true) (sp.isSome && dp.isSome))
        n (sp.getD []) (dp.getD []) (n.waits.map (fun d => c.packet u 2 d 0 0)) u))) ∧
  (∀ op blk tag g core off ps n, Diverts true (.nred op blk tag g)
    (fun c s =>
      let u := spanAccessed c s ps .read
      NredBlock c s tag.val blk core off ps ∧ n = nredOf op (ps.map u.byteAt) ∧
      (viewPlace (viewOf c u) n.src n.len).isSome = false)
    (fun c s => takeTrap c { cause := 0x03, lanes := c.act, addr := n.src } (spanAccessed c s ps .read))) ∧
  (∀ op blk tag g e, Diverts true (.nred op blk tag g)
    (fun c s => s.tagFree c.grp.core tag.val = true ∧ c.grp.fifo = [] ∧ locate c s (c.rd blk 0) 48 16 true = .error e)
    (fun c s => takeTrap c e s)) ∧
  (∀ q dst mx tag g a l, Yields true (.nrecv q dst mx tag g)
    (fun c s => a = (c.rd q 0).toNat ∧ l = (c.rd mx 0).toNat ∧ NetReady c s tag.val (readPair c.grp dst) (16 + l))
    (fun c s =>
      let code := if 64 ≤ a then 0x86 else if c.mayPoll s a = false then 0x81
        else if netPlaces c s (readPair c.grp dst) (16 + l) .write = none then 0x12 else 0
      let u := acceptNet c tag.val code { Net.blank .recv with dst := readPair c.grp dst, len := l, queue := a } [] [] [] s
      retire c (if code = 0 then u.modDqueue a (fun x => { x with waiting := x.waiting ++ [u.uid] }) else u))) ∧
  (∀ i lr (a : Fin 24) (tag : Fin 64) n, (∃ nm dq g, i = .nsend nm lr dq a tag g ∧ n = 0) ∨
      (∃ rep nm dest ra g, i = .nput rep nm lr dest a ra tag g ∧ n = 0) ∨
      (∃ rod dest ra g, i = .nget rod lr dest ra a tag g ∧ n = 0) ∨ (∃ q g, i = .nrecv q a lr tag g ∧ n = 16) →
    Diverts true i
      (fun c s => s.tagFree c.grp.core tag.val = true ∧ c.grp.fifo = [] ∧
        (viewPlace (viewOf c s) (readPair c.grp a) (n + (c.rd lr 0).toNat)).isSome = false)
      (fun c s => takeTrap c { cause := 0x03, lanes := c.act, addr := readPair c.grp a } s)) ∧
  (∀ d q g, Yields true (.npoll d q g) (fun c s => c.mayPoll s (c.rd q 0).toNat = false)
    (fun c s => retire c (writeReg c d (fun _ => 0) s))) ∧
  (∀ d q g, Yields true (.npoll d q g)
    (fun c s => c.mayPoll s (c.rd q 0).toNat = true ∧ pollWaits c s (c.rd q 0).toNat = false)
    (fun c s => match (s.dqueue (c.rd q 0).toNat).msgs with
      | [] => retire c (writeReg c d (fun _ => 0) s)
      | m :: _ =>
        if c.reckon = true ∧ m.ord = true ∧ c.grp.key.1 ≤ m.stamp then retire c (writeReg c d (fun _ => 0) s)
        else retire c (writeReg c d (fun _ => BitVec.ofNat 32 (2 ^ 31 + (if m.ord then 2 ^ 30 else 0) + m.payload.length))
          (s.modDqueue (c.rd q 0).toNat (fun x => { x with marked := false }))))) ∧
  (∀ hor d g, Yields false (.ntime hor d g) (fun c _ => c.reckon = true)
    (fun c s => retire c (writePair c d c.grp.ltime s))) ∧
  (∀ d g, Yields false (.ntime false d g) (fun c _ => c.reckon = false)
    (fun c s => retire c (writePair c d s.tick.mer.time s.tick))) ∧
  (∀ d g, Yields false (.ntime true d g) (fun c _ => c.reckon = false)
    (fun c s => retire c (writePair c d (BitVec.ofNat 64 s.tick.receiveStamp) s.tick)))

/-- Ordered packets arrive, beacons raise horizons, an output emits its smallest key once every input has promised, and an
input that holds a space back is fenced. In a package that is active: ORDERED_PACKET_ARRIVAL on a port that is up with
a Huaxel partner, of another endpoint's packet above the input's horizon, on a fenced input or marked late, enters the
switch, and on a die's input the staged packet of a command is injected when it may be; a packet that enters is queued
for the output that leads to its destination, is LATE where a fenced input brings it behind that output's last key, or
is told 0x80 to its source where it has no output or its space is not enabled, and in each case raises its input's
horizon; a packet numbered here bears the package as its source and the space's next sequence number. BEACON on such a
port raises the horizon it names; BEACON_SEND sends the promise of an output; ORDERED_EMIT of an output whose smallest
key every input has passed, and below which nothing is queued for the other die, takes it out as the last key of that
output; STALL_DECLARE fences an input that holds a packet back and sends every reachable endpoint, and its own, a
notice; a notice taken in is noted. A horizon never goes back, and keys compare by stamp, source and sequence number.
The stamp of a notice, and that the own endpoint gets one, are the model's choice (log 40). (R472; R475; R480; R481;
R482; R483; R484; R485; R486; R487; R488; R489) -/
def Obligations.OrderedSwitch : Prop :=
  (∀ inp pkt p (s : State), s.mer.active = true → inp < 16 → s.mer.ports.find? inp = some p → p.up = true → p.huaxel = true →
    pkt.ord = true → pkt.key.src ≠ s.mer.mepid → pkt.key.src < 8192 → pkt.kind ≠ 1 → pkt.kind < 7 →
    (pkt.late = true ∨ s.mer.fenced.contains (inp, pkt.space) = true ∨
      (s.mer.horizon.find? (linkSpace inp pkt.space)).all (fun h => pkLt h pkt.key) = true) →
    exec (.orderedPacketArrival inp pkt) s = .next (s.enter inp pkt)) ∧
  (∀ inp pkt staged (s : State), s.mer.active = true → 16 ≤ inp →
    s.mer.staged.find? (fun p => p.reply = pkt.reply) = some staged → s.inputOf staged.reply = inp →
    exec (.orderedPacketArrival inp pkt) s = .next (if s.injectable staged = true then s.inject staged else s)) ∧
  (∀ inp (p : Packet) (s : State), s.mer.outputFor p = none →
    s.enter inp p = (s.tellOf p 0x80).modMer (fun m => m.raise inp p.space p.key)) ∧
  (∀ inp (p : Packet) out (s : State), s.mer.outputFor p = some out →
    s.enter inp p = (if s.mer.enabled p.space = false then s.tellOf p 0x80
      else if s.mer.late inp out p = true then s.lateMark out p
      else s.modMer (fun m => { m with queued := m.queued ++ [{ out := out, inp := inp, pkt := p }] })).modMer
        (fun m => m.raise inp p.space p.key)) ∧
  (∀ (p : Packet) (s : State), (s.number p).2.key.src = s.mer.mepid ∧
    (s.number p).2.key.seq = (s.mer.seq.getD p.space 0).toNat ∧
    (s.number p).1.mer.seq.getD p.space 0 = s.mer.seq.getD p.space 0 + 1 ∧
    (4096 ≤ p.space → (s.number p).2.key.stamp = p.key.stamp) ∧
    (p.space < 4096 → (s.number p).2.key.stamp = s.tick.mer.time.toNat)) ∧
  (∀ inp space key p (s : State), s.mer.active = true → inp < 16 → s.mer.ports.find? inp = some p → p.up = true →
    p.huaxel = true → s.mer.enabled space = true →
    exec (.beacon inp [(space, key)]) s = .next (s.modMer (fun m => m.raise inp space key))) ∧
  (∀ (m : Mer) inp space k, ∃ h, (m.raise inp space k).horizon.find? (linkSpace inp space) = some h ∧
    pkLt h k = false ∧ (∀ h', m.horizon.find? (linkSpace inp space) = some h' → pkLt h h' = false)) ∧
  (∀ out p (s : State), s.mer.active = true → out < 16 → s.mer.ports.find? out = some p → p.huaxel = true →
    let u := s.tick
    let wall := u.beaconDue out 0
    let logs := u.mer.logicals.filterMap (fun sp => (u.beaconDue out sp).map (fun k => (sp, k)))
    exec (.beaconSend out) s = .next (if wall = none ∧ logs = [] then u
      else u.send out (.packet (beaconPacket u.mer.mepid wall logs)))) ∧
  (∀ out space q (s : State), s.mer.active = true → smallestOf (s.mer.queuedFor out space) = some q →
    s.emittable out space q.pkt.key = true → s.mer.leads out space q.pkt.key = true →
    (16 ≤ out → exec (.orderedEmit out space) s =
      .next ((s.modMer (fun m => { m with
          queued := m.queued.erase q, last := m.last.set (linkSpace out space) q.pkt.key })).modMer (fun m =>
        { m with inbound := m.inbound ++ [q.pkt] }))) ∧
    (∀ p, out < 16 → s.mer.ports.find? out = some p → p.up = true → exec (.orderedEmit out space) s =
      .next ((s.modMer (fun m => { m with
          queued := m.queued.erase q, last := m.last.set (linkSpace out space) q.pkt.key })).send out (.packet q.pkt)))) ∧
  (∀ out space q (s : State), smallestOf (s.mer.queuedFor out space) = some q →
    (s.mer.active = false ∨ s.emittable out space q.pkt.key = false ∨ s.mer.leads out space q.pkt.key = false) →
    exec (.orderedEmit out space) s = .next s) ∧
  (∀ qs q, smallestOf qs = some q → q ∈ qs ∧ ∀ x ∈ qs, pkLt x.pkt.key q.pkt.key = false) ∧
  (∀ inp space (s : State), s.mer.active = true → s.mer.inputs.contains inp = true →
    s.mer.fenced.contains (inp, space) = false →
    s.mer.queued.any (fun q => q.pkt.space == space &&
      !(s.mer.queuedFor q.out space).any (fun x => x.inp == inp) && !s.promises inp space q.pkt.key) = true →
    let u := s.modMer (fun m => { m with fenced := m.fenced ++ [(inp, space)], stall := true })
    exec (.stallDeclare inp space) s = .next ((u.mer.mepid :: u.mer.reached).foldl (fun t d =>
      t.switchSend 5 space ((u.sourceStamp space).getD 0) d 0 0 0 []) u)) ∧
  (∀ space p (s : State), s.mer.active = true → s.mer.nextIn space = some p → p.kind = 5 →
    exec (.stallNotice space) s = .next ((s.takeIn p).noteStall p)) ∧
  (∀ a b : PKey, pkLt a b = true ↔ (a.stamp < b.stamp ∨ (a.stamp = b.stamp ∧ (a.src < b.src ∨
    (a.src = b.src ∧ a.seq < b.seq)))))

/-- Messages are delivered in order, puts and gets are served under the exposure table, and reductions combine in key
order or are abandoned. In a package that is active: MESSAGE_DELIVERY of the next packet of its space stores its
message in its queue and acknowledges it, or refuses it to the error queue with 0x8A, and one that finds no room
waits; an ordered put is served and its source told; a message or put of a length that R473 does not support is
refused with 0x81; another endpoint's unordered message is delivered as it comes. PUT_GET_SERVE performs what a port
brings, or what the package itself has asked; a put or get that the exposure table does not permit is not performed.
REDUCTION_CONTRIBUTION opens a round or joins it, and one of a closed round is counted and told; REDUCTION_COMBINE of
a full round sends the values combined in ascending key order; REDUCTION_ABANDON tells every contributor; the result
or the notice that is taken in ends the NRED. The stamps of results and notices are the model's choice (log 40).
(R473; R477; R478; R487; R490; R491; R492; R493; R494; R495; R499; R500) -/
def Obligations.DeliveryAndReductions : Prop :=
  (∀ pkt m t (s : State), s.mer.active = true → pkt.kind = 0 → pkt.dest = s.mer.mepid → pkt.ord = true →
    s.mer.nextIn pkt.space = some pkt → pkt.queue ≠ 64 → 1 ≤ pkt.payload.length → pkt.payload.length ≤ 65536 →
    m = { src := pkt.key.src, stamp := pkt.key.stamp, ord := true, logical := decide (4096 ≤ pkt.space),
          payload := pkt.payload } →
    (s.arrive pkt.queue pkt.space m = .stored t → exec (.messageDelivery pkt) s =
      .next ((t.takeIn pkt).tell pkt.key.src pkt.reply pkt.dest 0 [])) ∧
    (s.arrive pkt.queue pkt.space m = .refused → exec (.messageDelivery pkt) s =
      .next (((s.takeIn pkt).errorEntry 0x8A pkt.queue (Packet.header pkt)).tell pkt.key.src pkt.reply pkt.dest 0x81 [])) ∧
    (s.arrive pkt.queue pkt.space m = .held → exec (.messageDelivery pkt) s = .next s)) ∧
  (∀ pkt (s : State), s.mer.active = true → pkt.kind = 0 → pkt.dest = s.mer.mepid → pkt.ord = true →
    s.mer.nextIn pkt.space = some pkt → lenOk (pkt.queue == 64) pkt.payload.length = false →
    exec (.messageDelivery pkt) s = .next ((s.takeIn pkt).tell pkt.key.src pkt.reply pkt.dest 0x81 [])) ∧
  (∀ pkt u b (s : State), s.mer.active = true → pkt.kind = 0 → pkt.dest = s.mer.mepid → pkt.ord = true →
    s.mer.nextIn pkt.space = some pkt → pkt.queue = 64 → 1 ≤ pkt.payload.length → pkt.payload.length ≤ 16777216 →
    (s.takeIn pkt).servePut pkt.asid pkt.addr pkt.payload = (u, b) →
    exec (.messageDelivery pkt) s = .next (u.tell pkt.key.src pkt.reply pkt.dest (if b then 0 else 0x81) [])) ∧
  (∀ pkt (s : State), s.mer.active = true → pkt.kind = 0 → pkt.dest = s.mer.mepid → pkt.ord = true →
    s.mer.nextIn pkt.space ≠ some pkt → exec (.messageDelivery pkt) s = .next s) ∧
  (∀ pkt (s : State), s.mer.active = true → pkt.kind = 0 → pkt.dest = s.mer.mepid → pkt.ord = false →
    pkt.key.src ≠ s.mer.mepid → 1 ≤ pkt.payload.length → pkt.payload.length ≤ 65536 →
    exec (.messageDelivery pkt) s = .next (s.deliver s.tick pkt
      { src := pkt.key.src, stamp := s.tick.mer.time.toNat, ord := false, logical := false, payload := pkt.payload }
      (fun t => t.modMer (fun m => { m with flight := m.flight.erase pkt })))) ∧
  (∀ q space m (s : State), (s.mer.qEn q = false → s.arrive q space m = .refused) ∧
    (s.mer.qEn q = true → (s.mer.qOrd q = true → m.ord = true ∧ s.mer.qSpace q = space) →
      (16 + m.payload.length + 63) / 64 * 64 ≤ s.mer.qSize q →
      (s.dqueue q).used + (16 + m.payload.length + 63) / 64 * 64 ≤ s.mer.qSize q →
      ∃ t, s.arrive q space m = .stored t ∧ (t.dqueue q).msgs = (s.dqueue q).msgs ++ [m])) ∧
  (∀ inp src req reply p (s : State), s.mer.active = true → inp < 16 → src ≠ s.mer.mepid → src < 8192 →
    s.mer.ports.find? inp = some p → p.up = true →
    exec (.putGetServe inp src req reply) s = .next (s.performAsk src reply req)) ∧
  (∀ inp req reply (s : State), s.mer.active = true → 16 ≤ inp → s.mer.asked.contains (reply, req) = true →
    s.rodWaits reply [s.mer.mepid] false = false →
    exec (.putGetServe inp s.mer.mepid req reply) s = .next
      ((s.modMer (fun m => { m with asked := m.asked.erase (reply, req) })).performAsk s.mer.mepid reply req)) ∧
  (∀ asid addr data (s : State), (s.exposed asid addr data.length true).2 = false →
    s.servePut asid addr data = ((s.exposed asid addr data.length true).1, false)) ∧
  (∀ asid addr n (s : State), (s.exposed asid addr n false).2 = false →
    s.serveGet asid addr n = ((s.exposed asid addr n false).1, none)) ∧
  (∀ pkt (s : State) c, s.mer.active = true → pkt.kind = 2 → s.mer.nextIn pkt.space = some pkt →
    c = { key := pkt.key, reply := pkt.reply, data := (redFields pkt).2 : Contribution } →
    let f := (redFields pkt).1
    let name := (pkt.asid, f.getD 0 0, f.getD 1 0)
    (s.mer.closed.contains name = true → exec (.reductionContribution pkt) s =
      .next (((s.takeIn pkt).modMer (fun m => { m with mrlate := m.mrlate + 1 })).abandonTo pkt.asid pkt.space
        (pkt.key.stamp + 1) c false)) ∧
    (s.mer.closed.contains name = false → s.mer.rounds.any (fun r => (r.asid, r.coll, r.round) = name) = true →
      exec (.reductionContribution pkt) s = .next ((s.takeIn pkt).modMer (fun m => { m with
        rounds := m.rounds.map (fun r => if (r.asid, r.coll, r.round) = name then r.add f c else r) }))) ∧
    (s.mer.closed.contains name = false → s.mer.rounds.any (fun r => (r.asid, r.coll, r.round) = name) = false →
      ∃ t r, exec (.reductionContribution pkt) s = .next t ∧ t.mer.rounds = s.mer.rounds ++ [r] ∧
        (r.asid, r.coll, r.round) = name ∧ r.contribs = [c] ∧ r.bad = false)) ∧
  (∀ asid coll round r cs l (s : State), s.mer.active = true → s.mer.roundOf asid coll round = some r →
    cs = r.contribs.foldl (fun xs c => insertKey c xs) [] → cs.getLast? = some l → r.bad = false →
    cs.length = r.npart → s.received r.space l.key = true → exec (.reductionCombine asid coll round) s =
      .next (cs.foldl (fun s c => s.resultTo r (redResult r.op r.count cs) c) (s.modMer (fun m => m.closeRound r)))) ∧
  (∀ xs : List Contribution, let cs := xs.foldl (fun ys c => insertKey c ys) []
    cs.Perm xs ∧ cs.Pairwise (fun a b => pkLt b.key a.key = false)) ∧
  (∀ asid coll round mismatch r (s : State), s.mer.active = true → s.mer.roundOf asid coll round = some r →
    r.bad = mismatch → exec (.reductionAbandon asid coll round mismatch) s =
      .next (r.contribs.foldl (fun s c => s.abandonTo r.asid r.space r.stamp c mismatch)
        (s.modMer (fun m => { m.closeRound r with abandon := true })))) ∧
  (∀ id p c n (s : State), s.mer.replyFor 3 id = some p → s.redWaits id = some (c, n) → p.payload.length = n.len →
    exec (.reductionResult id p.key.stamp p.payload) s =
      .next (((s.takeIn p).modNet id (fun n => n.bring p.payload 0)).keyNet id p.key.stamp)) ∧
  (∀ id p mismatch c n (s : State), s.mer.replyFor 4 id = some p → p.queue = (if mismatch then 1 else 0) →
    s.redWaits id = some (c, n) →
    exec (.abandonNotice id mismatch) s =
      .next (((s.takeIn p).modNet id (fun n => n.answer 0 (if mismatch then 0x85 else 0x84))).keyNet id p.key.stamp)) ∧
  (∀ kind id p (s : State), s.mer.replyFor kind id = some p →
    p.reply = id ∧ p.kind = kind ∧ s.mer.active = true ∧ s.mer.nextIn p.space = some p)

/-- Links train and fail, Sextant frames move the time, MROUTE loads the routes and MQCFG a queue's register, and
retransmission resends or gives up. LINK_TRAINING brings a port up; LINK_FAILURE takes it down and forgets its
grandmaster; SEXTANT_FRAME on a port that is up moves the time on, records the grandmaster with its hops, and, where
the way to the chosen grandmaster leads by the port, slews the time toward the partner's; that way is of least
grandmaster, hops and port in this order; SEXTANT_FRAME_SEND sends the time, the grandmaster and the hops to it;
MROUTE by the semaphore's owner loads the 8,192 entries, with ORDOK as Meridian sets it, and stores them back; MQCFG
stores the register of an idle queue, its reserved bits 0, and is ignored with REJ while the queue is in use;
RETRANSMISSION sends what a command has on the links again, and exhausted answers the command with 0x82. (R431; R475;
R476; R477; R478; R479; R491; R496) -/
def Obligations.LinksAndRoutes : Prop :=
  (∀ port huaxel (s : State), port < 16 → ∃ t, exec (.linkTraining port huaxel) s = .next t ∧
    t.mer.ports.find? port = some { up := true, huaxel := huaxel, trained := true }) ∧
  (∀ port p (s : State), s.mer.ports.find? port = some p → p.up = true → ∃ t, exec (.linkFailure port) s = .next t ∧
    t.mer.ports.find? port = some { p with up := false } ∧ t.mer.masters.find? port = none) ∧
  (∀ port p (time : DWord) master (s : State), s.mer.ports.find? port = some p → p.up = true →
    ∃ t, exec (.sextantFrame port time master) s = .next t ∧ t.mer.time = s.tick.mer.time ∧
      t.mer.masters = (if master.1 < 8192 then s.mer.masters.set port master else s.mer.masters.erase port) ∧
      t.mer.slew = (if t.mer.parent.any (fun x => x.2.2 == port) = true then (time.toNat : Int) - s.tick.mer.time.toNat
        else s.tick.mer.slew)) ∧
  (∀ (m : Mer) x, m.parent = some x → x ∈ m.grandmasters ∧ ∀ y ∈ m.grandmasters,
    x.1 < y.1 ∨ (x.1 = y.1 ∧ (x.2.1 < y.2.1 ∨ (x.2.1 = y.2.1 ∧ x.2.2 ≤ y.2.2)))) ∧
  (∀ port p (s : State), s.mer.ports.find? port = some p → p.up = true → exec (.sextantFrameSend port) s =
    .next (s.tick.send port (.sextant s.tick.mer.time (s.tick.mer.parent.getD (0xFFFF, 0, 0)).1
      (s.tick.mer.parent.getD (0xFFFF, 0, 0)).2.1))) ∧
  (∀ port (val : DWord) (s u : State) bs vs, s.pkg.ready = true → port < 2 → s.helm.sems.find? 1 = some port →
    s.readPhys val.toNat 16384 = (u, bs) →
    vs = (List.range 8192).map (fun d => u.mer.loadRoute d (leNat ((bs.drop (2 * d)).take 2))) →
    exec (.mroute port val) s = .next ((u.writePhys val.toNat (vs.flatMap (leBytes 2))).modMer (fun m =>
      { m with mroute := val, routes := (vs.zipIdx.filter (fun e => e.1 ≠ 0)).map (fun e => (e.2, e.1)) }))) ∧
  (∀ port q val (s : State), q < 64 → s.pkg.ready = true → port < 2 →
    s.helm.sems.find? (if q < 32 then 1 else 2) = some port →
    ((s.dqueue q).msgs = [] → (s.dqueue q).waiting = [] → ∃ t, exec (.mqcfg port q val) s = .next t ∧
      t.mer.qcfg.getD q 0 = BitVec.ofNat 64 (val.toNat % 2 ^ 59) ∧ (t.dqueue q).head = 0) ∧
    ((s.dqueue q).msgs ≠ [] ∨ (s.dqueue q).waiting ≠ [] → exec (.mqcfg port q val) s =
      .next (s.modMer (fun m => { m with rej := true })))) ∧
  (∀ id c n (s : State), s.cmds.find? id = some c → c.work = .net n → n.sent = true → n.uud = false → n.status = none →
    n.waits.all (fun d => d = s.mer.mepid) = false →
    exec (.retransmission id true) s = .next ((s.modNet id (fun n => n.answer 0 0x82)).keyNet id c.key.1) ∧
    exec (.retransmission id false) s = .next ((s.mer.wire.filter (fun e => match e.2 with
      | .packet p => p.reply == id && p.key.src == s.mer.mepid && p.kind != 1
      | .ask _ _ r => r == id
      | _ => false)).dedup.foldl (fun s e => s.send e.1 e.2) s))

/-- The memory window: MEMCFG and its change, invalidations, neighbour refresh and key loads. By a port that owns
semaphore 4: TLBINVC queues an invalidation of TLBINVA and its own fields, and INVALIDATION_COMPLETE ends the oldest,
after which no translation that it covers is kept but those of units that a running grid leases; MEMCFG starts a
change of TCSIZE or ILV, changes NRK and NRTEST alone at once, NRTEST from 0 to 1 seeding the generators, and is
refused with REJ above 256 GB, where a region would not lie in the fast tier outside the tier cache, or while an ASID
entry or a Chart pool is enabled or a change is in progress (the last is the model's choice, log 41); the change
completes with the new values and an ILV change leaves the fast tier outside the tier cache zero; NRSEED under NRTEST
seeds every generator by R530's formula, else with open values; KEYDATA fills its buffer and the write of 0x88 loads
slot KEYSEL. ROW_ACTIVATE steps the generator and refreshes the neighbours when NRK low bits of it are 0. (R432; R508;
R516; R524; R529; R530; R531; R532; R533) -/
def Obligations.MemoryWindowEvents : Prop :=
  (∀ port (val : DWord) (s : State), s.pkg.ready = true → port < 2 → s.helm.sems.find? 4 = some port →
    exec (.tlbinvc port val) s = .next (s.modMs (fun m => { m with
      tlbinvc := val
      inval := m.inval ++ [{ asid := val.toNat % 4096, all := val.getLsbD 12, unit := m.tlbinva.toNat / 65536,
                             count := val.toNat / 65536 % 2 ^ 32 }] }))) ∧
  (∀ (s : State), s.ms.inval = [] → exec .invalidationComplete s = .next s) ∧
  (∀ i is (s : State), s.ms.inval = i :: is → ∃ ks, exec .invalidationComplete s =
      .next (s.modMs (fun m => { m with inval := is, kept := ks })) ∧
    ∀ k, k ∈ ks ↔ k ∈ s.ms.kept ∧ (k.asid ≠ i.asid ∨ (i.all = false ∧ (k.unit < i.unit ∨ i.unit + i.count ≤ k.unit)) ∨
      s.leased k.asid k.unit = true)) ∧
  (∀ port (val : DWord) (s : State), s.pkg.ready = true → port < 2 → s.helm.sems.find? 4 = some port →
    (256 < val.toNat / 512 % 512 → exec (.memcfg port val) s = .next (s.modMs (fun m => { m with rej := true }))) ∧
    (val.toNat / 512 % 512 ≤ 256 → s.ms.tcsize = val.toNat / 512 % 512 → s.ms.ilv = val.getLsbD 0 →
      s.ms.regionsOk = true →
      let u := s.modMs (fun m => { m with
        nrtest := val.getLsbD 23
        nrk := if 4 ≤ val.toNat / 2 ^ 19 % 16 ∧ val.toNat / 2 ^ 19 % 16 ≤ 12 then val.toNat / 2 ^ 19 % 16 else m.nrk })
      exec (.memcfg port val) s = .next (if val.getLsbD 23 = true ∧ s.ms.nrtest = false then u.reseed else u)) ∧
    (({ s.ms with tcsize := val.toNat / 512 % 512 } : MemSys).regionsOk = false →
      exec (.memcfg port val) s = .next (s.modMs (fun m => { m with rej := true }))) ∧
    (val.toNat / 512 % 512 ≤ 256 → s.ms.tcsize ≠ val.toNat / 512 % 512 ∨ s.ms.ilv ≠ val.getLsbD 0 →
      ({ s.ms with tcsize := val.toNat / 512 % 512 } : MemSys).regionsOk = true →
      ∃ t, exec (.memcfg port val) s = .next t ∧ t.ms.tcsize = s.ms.tcsize ∧ t.ms.ilv = s.ms.ilv ∧ t.mem = s.mem ∧
        (s.inUse = true ∨ s.ms.change.isSome = true → t.ms.rej = true ∧ t.ms.change = s.ms.change) ∧
        (s.inUse = false → s.ms.change = none → t.ms.rej = s.ms.rej ∧
          t.ms.change = some { tcsize := val.toNat / 512 % 512, ilv := val.getLsbD 0 }))) ∧
  (∀ c (s : State), s.ms.change = some c → ∃ t, exec .memcfgChangeComplete s = .next t ∧
    t.ms.change = none ∧ t.ms.ilv = c.ilv ∧ t.ms.tcsize = c.tcsize ∧
    (c.tcsize = s.ms.tcsize → t.ms.tcache = s.ms.tcache) ∧ (c.tcsize ≠ s.ms.tcsize → t.ms.tcache = []) ∧
    (c.ilv = s.ms.ilv → t.mem = s.mem) ∧
    (c.ilv ≠ s.ms.ilv → s.mem.wf = true → ∀ a,
      t.mem.byte a = if a < 768 * gb - c.tcsize * gb then 0 else s.mem.byte a)) ∧
  (∀ (s : State), s.ms.change = none → exec .memcfgChangeComplete s = .next s) ∧
  (∀ port (val : DWord) (s : State), s.pkg.ready = true → port < 2 → s.helm.sems.find? 4 = some port →
    ∃ t, exec (.nrseed port val) s = .next t ∧ t.ms.nrseed = val ∧
      (s.ms.nrtest = true → ∀ pc, pc < 768 → t.ms.nrgen.getD pc 0 =
        (if val.setWidth 32 ^^^ BitVec.ofNat 32 (pc * 0x9E3779B9) = 0 then 1
         else val.setWidth 32 ^^^ BitVec.ofNat 32 (pc * 0x9E3779B9))) ∧
      (s.ms.nrtest = false → ∀ pc, pc < 768 → t.ms.nrgen.getD pc 0 = Config.freeWord (s.fresh + pc))) ∧
  (∀ port k (val : DWord) (s : State), k < 8 → s.pkg.ready = true → port < 2 → s.helm.sems.find? 4 = some port →
    ∃ t, exec (.keydata port (0x50 + 8 * k) val) s = .next t ∧ t.ms.keyBuf.getD k 0 = val ∧
      (k < 7 → t.ms.keys = s.ms.keys ∧ t.pkg = s.pkg) ∧
      (k = 7 → t.ms.keys.getD s.ms.keysel 0 = keyPair (s.ms.keyBuf.put 0 7 val) ∧
        (∀ j, j ≠ s.ms.keysel → t.ms.keys.getD j 0 = s.ms.keys.getD j 0) ∧ s.ms.keysel ∈ t.pkg.loaded)) ∧
  (∀ pc bank row (w : Word) (s : State), pc < 768 →
    w = (s.ms.nrgen.getD pc 0 >>> 1) ^^^ (if (s.ms.nrgen.getD pc 0).getLsbD 0 then 0x80200003 else 0) →
    ∃ t, exec (.rowActivate pc bank row) s = .next t ∧ t.ms.nrgen.getD pc 0 = w ∧
      (∀ j, j ≠ pc → t.ms.nrgen.getD j 0 = s.ms.nrgen.getD j 0) ∧
      (w.toNat % 2 ^ s.ms.nrk ≠ 0 → t.ms.refreshed = s.ms.refreshed) ∧
      (w.toNat % 2 ^ s.ms.nrk = 0 → 0 < row →
        t.ms.refreshed = s.ms.refreshed ++ [(pc, bank, row - 1), (pc, bank, row + 1)]) ∧
      (w.toNat % 2 ^ s.ms.nrk = 0 → row = 0 → t.ms.refreshed = s.ms.refreshed ++ [(pc, bank, 1)]))

/-- The governor lowers the fastest ACTIVE partition above PLIMIT, raises the slowest below PLIMIT less 25 W, and changes
no other clock. At an interval, without THERMTRIP: PWRNOW takes the power; clocks above their PCLKMAX come down to it
first; then, with power above PLIMIT or a die at 105 °C, the ACTIVE partition with the highest clock above 950 MHz,
ties to the lowest number, loses 50 MHz, never below 950, or FLOOR is set when there is none; with power below PLIMIT
less 25 W the ACTIVE partition with the lowest clock below its PCLKMAX gains 50 MHz; else no clock changes. Nothing
else changes. FLOOR with no ACTIVE partition is the model's choice (log 41). (R541; R543; R545) -/
def Obligations.GovernorInterval : Prop :=
  ∀ power (s : State), s.pkg.trip = false → ∃ t, exec (.governorInterval power) s = .next t ∧ t.pkg.pwrnow = power ∧
    { t with pkg := s.pkg } = s ∧
    { t.pkg with pwrnow := s.pkg.pwrnow, pclk := s.pkg.pclk, floor := s.pkg.floor } = s.pkg ∧
    ∃ clock : Nat → Nat, (∀ p, p < 4 → clock p = min (s.pkg.clock p) (s.pkg.limit p)) ∧
      (s.pkg.hotDies ≠ [] ∨ s.pkg.plimit * 10 < power →
        ((∀ p, p < 4 → s.active p = true → clock p ≤ 950) ∧ t.pkg.floor = true ∧ ∀ p, p < 4 → t.pkg.clock p = clock p) ∨
        (∃ p, p < 4 ∧ s.active p = true ∧ 950 < clock p ∧ t.pkg.floor = s.pkg.floor ∧
          (∀ q, q < 4 → s.active q = true → clock q ≤ clock p ∧ (clock q = clock p → p ≤ q)) ∧
          ∀ q, q < 4 → t.pkg.clock q = if q = p then max 950 (clock p - 50) else clock q)) ∧
      (s.pkg.hotDies = [] → power + 250 < s.pkg.plimit * 10 → t.pkg.floor = s.pkg.floor ∧
        (((∀ p, p < 4 → s.active p = true → s.pkg.limit p ≤ clock p) ∧ ∀ p, p < 4 → t.pkg.clock p = clock p) ∨
         ∃ p, p < 4 ∧ s.active p = true ∧ clock p < s.pkg.limit p ∧
          (∀ q, q < 4 → s.active q = true → clock q < s.pkg.limit q → clock p ≤ clock q ∧ (clock q = clock p → p ≤ q)) ∧
          ∀ q, q < 4 → t.pkg.clock q = if q = p then clock p + 50 else clock q)) ∧
      (s.pkg.hotDies = [] → power ≤ s.pkg.plimit * 10 → s.pkg.plimit * 10 ≤ power + 250 →
        t.pkg.floor = s.pkg.floor ∧ ∀ p, p < 4 → t.pkg.clock p = clock p)

/-- Power states, their registers and thermal limits. By a port that owns semaphore 0, PLIMIT holds the value written,
clamped to 600 to 2400, PCLKMAX a multiple of 50 from 950 to 1900 and else its old value, PWRCTL its OFF bit; OFF
written 0 makes partitions that are OFF IDLE. A partition without residents becomes IDLE and, with OFF set, no command
in flight and no halt, OFF, which leaves its cores' SPAD, WBUF, ACC and tags empty. A die at 840 or more of 0.125 °C
is hot and sets HOT, below 800 it is not. THERMTRIP halts every core, loses every grid and sets TRIP. (R432; R540;
R543; R544) -/
def Obligations.PowerAndThermalEvents : Prop :=
  (∀ port (val : DWord) (s : State), port < 2 → s.helm.sems.find? 0 = some port →
    exec (.plimit port val) s = .next (s.modPkg (fun p => { p with
      plimit := if val.toNat < 600 then 600 else if 2400 < val.toNat then 2400 else val.toNat }))) ∧
  (∀ port p (val : DWord) (s : State), p < 4 → port < 2 → s.helm.sems.find? 0 = some port →
    ∃ t, exec (.pclkmax port p val) s = .next t ∧
      (∀ q, t.pkg.limit q = if q = p ∧ val.toNat % 50 = 0 ∧ 950 ≤ val.toNat ∧ val.toNat ≤ 1900 then val.toNat
        else s.pkg.limit q) ∧ { t with pkg := s.pkg } = s) ∧
  (∀ port (val : DWord) (s : State), port < 2 → s.helm.sems.find? 0 = some port → s.pkg.power.sorted = true →
    ∃ t, exec (.pwrctl port val) s = .next t ∧ t.pkg.pwrOff = val.getLsbD 0 ∧
      (∀ p, t.pkg.power.getD p .idle =
        if val.getLsbD 0 = false ∧ s.pkg.power.getD p .idle = .off then .idle else s.pkg.power.getD p .idle) ∧
      { t with pkg := s.pkg } = s) ∧
  (∀ p (s : State), p < 4 → s.active p = true → s.vacant p = true → ∃ t, exec (.partitionIdle p) s = .next t ∧
    (∀ q, t.pkg.power.getD q .idle = if q = p then .idle else s.pkg.power.getD q .idle) ∧ { t with pkg := s.pkg } = s) ∧
  (∀ p (s : State), p < 4 → s.pkg.pwrOff = true → s.pkg.power.getD p .idle = .idle → (s.part p).halt = .run →
    s.vacant p = true → s.cmds.any (fun e => (s.partCores p).contains e.2.core) = false →
    ∃ t, exec (.partitionOff p) s = .next t ∧
      (∀ q, t.pkg.power.getD q .idle = if q = p then .off else s.pkg.power.getD q .idle) ∧
      (∀ k, t.core k = if k ∈ s.partCores p then
        { s.core k with spad := [], wbuf := [], wbufTag := [], acc := [], accMode := [], accTag := [], recCache := [],
                        opCache := [], alb := [], compass := [] }
        else s.core k) ∧ t.mem = s.mem ∧ t.groups = s.groups) ∧
  (∀ die temp (s : State), die < 2 → ∃ t, exec (.thermalHot die temp) s = .next t ∧ t.pkg.temp.getD die 0 = temp ∧
    (die ∈ t.pkg.hotDies ↔ 840 ≤ temp ∨ (die ∈ s.pkg.hotDies ∧ 800 ≤ temp)) ∧
    (∀ d, d ≠ die → (d ∈ t.pkg.hotDies ↔ d ∈ s.pkg.hotDies)) ∧
    (t.pkg.hot = true ↔ s.pkg.hot = true ∨ 840 ≤ temp) ∧ { t with pkg := s.pkg } = s) ∧
  (∀ die (s : State), die < 2 → ∃ t, exec (.thermtrip die) s = .next t ∧ t.pkg.trip = true ∧ t.grids = [] ∧
    t.groups = [] ∧ t.teams = [] ∧ t.cmds = [] ∧ t.mem = s.mem ∧ ∀ c, c < 96 → (t.core c).halted = true)

/-- RESET runs bring-up to READY, or to FAIL at the first image it rejects; an attestation report has its layout and its
signature. With every image accepted and the management image among them, RESET leaves a machine that is READY, with
the board's capacities, the fuse raised to the management image's SVN and no shadow store or arena; with the
management firmware missing or an image rejected it is not READY, FAIL is set and STAGE names the TYPE. ATTCTL by the
owner of semaphore 4 makes a request; the report is 1024 bytes with the nonce at 0x20, the digests at 0x60 and the key
bitmap at 0x1E0, and is written with its signature at ATTADDR. (R513; R535; R536; R537; R538; R539) -/
def Obligations.BringUpAndAttestation : Prop :=
  (∀ board m is (s : State), boardOk board = true → bootOrder board.images = m :: is → m.kind = 1 →
    ∃ t, exec (.reset board) s = .next t ∧
    ((∀ i ∈ m :: is, imageAccepted i s.pkg.fuse = true) → t.pkg.ready = true ∧ t.pkg.fail = false ∧
      t.pkg.fuse = max s.pkg.fuse m.svn ∧ t.ms.lpddrMask = board.lpddrChannels ∧ t.ms.lpddrGb = board.lpddrGb ∧
      t.ms.cxlGb = board.cxlGb ∧ t.ms.shdSize = 0 ∧ t.ms.rmdSize = 0 ∧ t.ms.asidBase = 0 ∧ t.groups = [] ∧ t.grids = [] ∧
      t.cores = [] ∧ t.helm = Helm.reset ∧ t.mer = Mer.reset) ∧
    (∀ i, (m :: is).find? (fun i => !imageAccepted i s.pkg.fuse) = some i → i.kind < 16 →
      t.pkg.ready = false ∧ t.pkg.fail = true ∧ t.pkg.stage = i.kind ∧ t.pkg.fuse = s.pkg.fuse)) ∧
  (∀ board (s : State), boardOk board = true → (∀ i ∈ board.images, i.kind ≠ 1) →
    ∃ t, exec (.reset board) s = .next t ∧ t.pkg.ready = false ∧ t.pkg.fail = true ∧ t.pkg.stage = 1) ∧
  (∀ port (val : DWord) (s : State), port < 2 → s.helm.sems.find? 4 = some port →
    exec (.attctl port val) s = .next (if val.getLsbD 0 = true ∧ s.pkg.attBusy = false then
      s.modPkg (fun p => { p with attBusy := true, attDone := false }) else s)) ∧
  (∀ (s : State), s.pkg.attBusy = true → s.pkg.ready = true → ∃ body t, exec .attestationReportDone s = .next t ∧
    t.pkg.attBusy = false ∧ t.pkg.attDone = true ∧
    t.mem = (s.bump.writePhys s.pkg.attaddr.toNat (body ++ Config.deviceSignature body)).mem ∧
    body.length = 1024 ∧ body.take 4 = [1, 0, 0, 0] ∧ leNat ((body.drop 4).take 3) = 0x014832 ∧
    (∀ i, i < 8 → leNat ((body.drop (0x20 + 8 * i)).take 8) = (s.pkg.nonce.getD i 0).toNat) ∧
    (∀ k, 1 ≤ k → k ≤ 5 → leNat ((body.drop (0x60 + 64 * (k - 1))).take 64) = (s.pkg.digests.getD k 0).toNat) ∧
    (∀ b, b < 4096 → s.pkg.loaded.Nodup →
      (bit (leNat ((body.drop 0x1E0).take 512)) b = true ↔ b ∈ s.pkg.loaded)))

/-- A write of a window's register by its semaphore's owner sets it, by another port sets SEMVIOL, and elsewhere is
ignored. REGISTER_WRITE of a plain guarded register of the four windows by the port that owns its guard stores the
fields the register has, but sets REJ alone where a region of the shadow store, the metadata arena or the staging pool
would break R533, or for the first two while an ASID entry or a Chart pool is enabled; by a port that does not own it,
it sets that port's SEMVIOL alone; registers with an event of their own do what that event does; write-one-to-clear
registers clear the bits written 1; offsets that the memory window does not list ignore the write. (R388; R430; R431;
R432; R433; R476; R477; R531; R533; R544) -/
def Obligations.RegisterWrites : Prop :=
  (∀ port (val : DWord) (s : State), s.pkg.ready = true → port < 2 → s.helm.sems.find? 4 = some port →
    exec (.registerWrite port .main 0x40 val) s = .next (s.modHelm (fun h => { h with savBase := val })) ∧
    exec (.registerWrite port .main 0x48 val) s = .next (s.modHelm (fun h => { h with savSize := val })) ∧
    (∀ die, die < 2 →
      exec (.registerWrite port .main (0x20 + 16 * die) val) s =
        .next (s.modHelm (fun h => { h with btBase := h.btBase.put 0 die val })) ∧
      exec (.registerWrite port .main (0x28 + 16 * die) val) s =
        .next (s.modHelm (fun h => { h with btSize := h.btSize.put 0 die val }))) ∧
    exec (.registerWrite port .memory 0x18 val) s =
      .next (s.modMs (fun m => { m with asidBase := val &&& 0x3FFFFFFF0001 })) ∧
    exec (.registerWrite port .memory 0x30 val) s = .next (s.modMs (fun m => { m with tlbinva := val })) ∧
    exec (.registerWrite port .memory 0x48 val) s = .next (s.modMs (fun m => { m with keysel := val.toNat % 4096 })) ∧
    (∀ off (u v : MemSys), (off, v) ∈ ([
        (0x20, { u with stgBase := val.toNat / 65536 * 65536 }), (0x28, { u with stgSize := val.toNat / 65536 * 65536 })] :
          List (Nat × MemSys)) → u = s.ms →
      exec (.registerWrite port .memory off val) s = .next (s.modMs (fun m =>
        if v.regionsOk = false then { m with rej := true } else v))) ∧
    (∀ off (u v : MemSys), (off, v) ∈ ([
        (0x150, { u with shdBase := val.toNat / 65536 * 65536 }), (0x158, { u with shdSize := val.toNat / 65536 * 65536 }),
        (0x160, { u with rmdBase := val.toNat / 65536 * 65536 }), (0x168, { u with rmdSize := val.toNat / 65536 * 65536 })] :
          List (Nat × MemSys)) → u = s.ms → v ≠ u →
      exec (.registerWrite port .memory off val) s = .next (s.modMs (fun m =>
        if s.inUse = true ∨ v.regionsOk = false then { m with rej := true } else v)))) ∧
  (∀ port q (val : DWord) (s : State), q < 64 → s.pkg.ready = true → port < 2 → s.helm.sems.find? 3 = some port →
    exec (.registerWrite port .main (0x10000 + 64 * q) val) s = .next (s.modQueue q (fun k => { k with rbase := val })) ∧
    exec (.registerWrite port .main (0x10008 + 64 * q) val) s = .next (s.modQueue q (fun k => { k with ebase := val }))) ∧
  (∀ port die (val : DWord) (s : State), die < 2 → s.pkg.ready = true → port < 2 → s.helm.sems.find? (1 + die) = some port →
    exec (.registerWrite port .main (0x1000 + 0x1000 * die) val) s =
      .next (s.modChart die (fun k => { k with scrub := val.getLsbD 1, lowStrict := val.getLsbD 0 })) ∧
    exec (.registerWrite port .main (0x1008 + 0x1000 * die) val) s =
      .next (s.modChart die (fun k => { k with poolBase := val })) ∧
    exec (.registerWrite port .main (0x1010 + 0x1000 * die) val) s =
      .next (s.modChart die (fun k => { k with keyBase := val }))) ∧
  (∀ port (val : DWord) (s : State), s.pkg.ready = true → port < 2 → s.helm.sems.find? 1 = some port →
    exec (.registerWrite port .meridian 0x00 val) s = .next (s.modMer (fun m => { m with mepid := val.toNat % 65536 })) ∧
    (∀ a, a < 16 → exec (.registerWrite port .meridian (0x20 + 8 * a) val) s =
      .next (s.modMer (fun m => { m with spaces := m.spaces.put 0 a (val &&& 0x1FFF) }))) ∧
    (∀ q, q < 32 → exec (.registerWrite port .meridian (0x100 + 16 * q) val) s =
      .next (s.modMer (fun m => { m with qbase := m.qbase.put 0 q val })))) ∧
  (∀ port win sem off (val : DWord) (s : State), s.pkg.ready = true → port < 2 →
    (win, sem, off) ∈ ([(.main, 0, 0x10), (.main, 0, 0x18), (.main, 4, 0x40), (.main, 1, 0x1000), (.main, 2, 0x2008),
      (.main, 3, 0x10000), (.meridian, 1, 0x08), (.meridian, 2, 0x4F0), (.memory, 4, 0x00), (.memory, 4, 0x18),
      (.memory, 4, 0x88), (.memory, 4, 0x150), (.mgmt, 0, 0x08), (.mgmt, 0, 0x10), (.mgmt, 4, 0xC8)] :
        List (Window × Nat × Nat)) →
    s.helm.sems.find? sem ≠ some port →
    exec (.registerWrite port win off val) s =
      .next (s.modHelm (fun h => { h with semViol := h.semViol.set port true }))) ∧
  (∀ port (val : DWord) (s : State),
    exec (.registerWrite port .main 0x10 val) s = exec (.partk port val) s ∧
    exec (.registerWrite port .main 0x18 val) s = exec (.phalt port val) s ∧
    (∀ n, n < 16 → exec (.registerWrite port .main (0x100 + 8 * n) val) s = exec (.semaphoreWrite port n val) s) ∧
    (∀ q, q < 64 → exec (.registerWrite port .main (0x10014 + 64 * q) val) s =
      exec (.rtail port q (val.setWidth 32)) s ∧
      exec (.registerWrite port .main (0x10020 + 64 * q) val) s = exec (.ehead port q (val.setWidth 32)) s ∧
      exec (.registerWrite port .meridian (0x108 + 16 * q) val) s = exec (.mqcfg port q val) s) ∧
    exec (.registerWrite port .meridian 0x800 val) s = exec (.mroute port val) s ∧
    exec (.registerWrite port .memory 0x00 val) s = exec (.memcfg port val) s ∧
    exec (.registerWrite port .memory 0x38 val) s = exec (.tlbinvc port val) s ∧
    exec (.registerWrite port .memory 0x40 val) s = exec (.nrseed port val) s ∧
    (∀ k, k < 8 → exec (.registerWrite port .memory (0x50 + 8 * k) val) s = exec (.keydata port (0x50 + 8 * k) val) s) ∧
    exec (.registerWrite port .mgmt 0x08 val) s = exec (.plimit port val) s ∧
    (∀ p, p < 4 → exec (.registerWrite port .mgmt (0x10 + 8 * p) val) s = exec (.pclkmax port p val) s) ∧
    exec (.registerWrite port .mgmt 0x70 val) s = exec (.pwrctl port val) s ∧
    exec (.registerWrite port .mgmt 0xC8 val) s = exec (.attctl port val) s) ∧
  (∀ port (val : DWord) (s : State), s.pkg.ready = true → port < 2 →
    (∃ t, exec (.registerWrite port .main 0x08 val) s = .next t ∧
      t.helm.semViol.getD port false = (s.helm.semViol.getD port false && !val.getLsbD 0)) ∧
    exec (.registerWrite port .memory 0x08 val) s = .next (s.modMs (fun m => { m with
      rej := m.rej && !val.getLsbD 2, paerr := m.paerr && !val.getLsbD 3 })) ∧
    exec (.registerWrite port .mgmt 0x58 val) s = .next (s.modPkg (fun p => { p with
      floor := p.floor && !val.getLsbD 0, hot := p.hot && !val.getLsbD 1 }))) ∧
  (∀ port off (val : DWord) (s : State), 0x170 ≤ off ∨ (0xA0 ≤ off ∧ off < 0x150) →
    exec (.registerWrite port .memory off val) s = .next s)

/-- Every word of the hint region decodes, and does nothing but retire, whatever its predicate. A full word of major
opcode 0x78 to 0x7F decodes to NOP for 0x78 FN 0, to ICPF for 0x78 FN 1 and to a hint otherwise. Whatever its
predicate and whatever the lane mask, it completes without a trap or a wait: the split goes on at the next word, ICNT
and LTIME advance, and nothing else of the machine changes (Done). (R78) -/
def Obligations.HintRegion : Prop :=
  ∀ (w : DWord) i, w.getLsbD 63 = false → 0x78 ≤ (w.extractLsb' 56 7).toNat →
    i = (if (w.extractLsb' 56 7).toNat = 0x78 ∧ (w.extractLsb' 10 6).toNat = 0 then .nop
      else if (w.extractLsb' 56 7).toNat = 0x78 ∧ (w.extractLsb' 10 6).toNat = 1 then
        .icpf (w.extractLsb' 48 8) (w.extractLsb' 16 32)
      else .hint w) →
    decode w = .ok i ∧
    ∀ c s, s.ctx? i = some c → ∃ t, exec i s = .next t ∧ Done c 1 (c.sp.pc + 8) keepRegs keepMasks keepRest s t

/-- The 256 values of a register field name v, s, h and x registers and zero, and what a lane reads of each. Field values
0x00 to 0xAF name v0 to v175, 0xB0 to 0xDF s0 to s47, 0xE0 to 0xEF h0 to h15, 0xF0 to 0xFE x0 to x14 and 0xFF zero,
and the D and A fields of a MOV word name its registers so. In a group, a v register gives each lane its own value, an
s register one value for the group, an h register one value for every group of the team, an x register base plus l
times stride modulo 2^32, and zero gives 0. (R64) -/
def Obligations.RegisterFields : Prop :=
  (∀ n : Fin 176, Reg.ofCode (BitVec.ofNat 8 n.val) = .v n) ∧
  (∀ n : Fin 48, Reg.ofCode (BitVec.ofNat 8 (0xB0 + n.val)) = .s n) ∧
  (∀ n : Fin 16, Reg.ofCode (BitVec.ofNat 8 (0xE0 + n.val)) = .h n) ∧
  (∀ n : Fin 15, Reg.ofCode (BitVec.ofNat 8 (0xF0 + n.val)) = .x n) ∧
  Reg.ofCode 0xFF = .zero ∧
  (∀ (w : DWord) d a g, decode w = .ok (.mov d a g) →
    d = Reg.ofCode (w.extractLsb' 48 8) ∧ a = Reg.ofCode (w.extractLsb' 40 8)) ∧
  (∀ (s : State) gid g, s.groups.find? gid = some g →
    (∀ n l, s.lane gid (.v n) l = laneOf (g.v.getD n.val []) l) ∧
    (∀ n l, s.lane gid (.s n) l = g.s.getD n.val 0) ∧
    (∀ n l j k, s.groups.find? j = some k → k.team = g.team → s.lane j (.h n) l = s.lane gid (.h n) 0) ∧
    (∀ n l, s.lane gid (.x n) l = (g.x.getD n.val (0, 0)).1 + BitVec.ofNat 32 l * (g.x.getD n.val (0, 0)).2) ∧
    ∀ l, s.lane gid .zero l = 0)

/-- FCLASS sets the one bit of its source's class. FCLASS that issues clear completes and writes to D, in each
participating lane, the word with only the bit of the class of its source set: 0 minus infinity, 1 negative normal, 2
negative subnormal, 3 minus zero, 4 plus zero, 5 positive subnormal, 6 positive normal, 7 plus infinity, 8 a NaN whose
bit 22 is 0, 9 a NaN whose bit 22 is 1; each word has exactly one of these classes. Nothing else changes (Done).
(R263) -/
def Obligations.FclassBits : Prop :=
  ∀ d a g, Gives (.fclass d a g) d (fun c l =>
    let w := c.rd a l
    let neg := w.getLsbD 31
    let e := (w.extractLsb' 23 8).toNat
    let f := (w.extractLsb' 0 23).toNat
    BitVec.ofNat 32 (2 ^ (
      if e = 255 ∧ f = 0 then (if neg then 0 else 7)
      else if e = 255 then (if w.getLsbD 22 then 9 else 8)
      else if e = 0 ∧ f = 0 then (if neg then 3 else 4)
      else if e = 0 then (if neg then 2 else 5)
      else (if neg then 1 else 6))))

/-- A step whose turn is an issue runs the decoded instruction of the word at the split's PC; an event's turn runs the
event. When the agenda's first turn names a ready split, and after the merges and the serial stack's work the word at
its PC is fetched, from the sequencer's line buffer or else from the die's instruction cache, whose line the buffer
then takes in, and decodes to i, the step is exec of i at that state with that split and word as the issuing ones,
which the state after it no longer names. A word that decodes to nothing runs the illegal-instruction event. A PC that
translates but misses both freezes the sequencer. A turn that names an event runs it. The agenda is the model's own,
log entry 4. (R55; R77; R105; R107; R113; R114) -/
def Obligations.StepRunsTheDecodedInstruction : Prop :=
  (∀ (s u v : State) gid slot rest g0 sp0 g sp w line i, s.agenda = .issue gid slot :: rest → u = { s with agenda := rest } →
    u.groups.find? gid = some g0 → g0.splits.find? slot = some sp0 → u.ready g0 sp0 = true →
    v = (u.mergeAll gid).modSplit gid slot Split.beforeIssue →
    v.groups.find? gid = some g → g.splits.find? slot = some sp → v.fetch g.core g.seq (v.asidOf g) sp.pc = .word w line →
    (decode w = .ok i →
      step s = endTurn (exec i { v.buffer g.core g.seq line with cur := some { grp := gid, slot := slot, word := w } })) ∧
    ((∀ j, decode w ≠ .ok j) →
      step s = endTurn (exec (.illegalInstruction w) { v.buffer g.core g.seq line with cur := some { grp := gid, slot := slot, word := w } }))) ∧
  (∀ (v : State) core seq asid (pc : DWord) pa w, pc.toNat < 2 ^ 56 → v.mapped asid .fetch pc.toNat = some pa →
    (((v.core core).lineBuf seq).find? (icKey pa (v.asidTag asid)) = some w → v.fetch core seq asid pc = .word w none) ∧
    (((v.core core).lineBuf seq).find? (icKey pa (v.asidTag asid)) = none →
      (v.die (core / 48)).icache.find? (icKey pa (v.asidTag asid)) = some w →
      v.fetch core seq asid pc = .word w (some (pa, v.asidTag asid)))) ∧
  (∀ (s u v : State) gid slot rest g0 sp0 g sp pa tag, s.agenda = .issue gid slot :: rest → u = { s with agenda := rest } →
    u.groups.find? gid = some g0 → g0.splits.find? slot = some sp0 → u.ready g0 sp0 = true →
    v = (u.mergeAll gid).modSplit gid slot Split.beforeIssue →
    v.groups.find? gid = some g → g.splits.find? slot = some sp →
    v.fetch g.core g.seq (v.asidOf g) sp.pc = .miss pa tag →
    ∃ t, step s = .next t ∧ (t.core g.core).frozen.find? g.seq = some (pa, tag)) ∧
  (∀ (s : State) e rest, s.agenda = .event e :: rest → encode e = none →
    step s = endTurn (exec e { s with agenda := rest, cur := none }))

/-- The state after reset holds the values that the windows' tables give, and its memory is in canonical form. After reset
no group, team, grid, command or page exists; READY and FAIL are 0; k is 0 on both dies and no semaphore has an owner;
PLIMIT is 2400, every PCLKMAX 1900, PWRCTL 0; MEMCFG has NRK 8 and the rest 0, ASIDBASE, SHDSIZE and RMDSIZE are 0;
MEPID is 0xFFFF; memory lists nothing and is in canonical form; PA 0x4B_0000 is on pseudo-channel 175 of die 0 and has
home slice 16, as R512's example has it. That semaphores are free, and zero where no rule gives a value, is the
model's choice, log entry 2. (R388; R430; R476; R509; R512; R531; R532; R533; R544) -/
def Obligations.ResetState : Prop :=
  State.reset.groups = [] ∧ State.reset.teams = [] ∧ State.reset.grids = [] ∧ State.reset.cmds = [] ∧
  State.reset.pages = [] ∧ State.reset.pkg.ready = false ∧ State.reset.pkg.fail = false ∧
  (∀ die, State.reset.helm.k.getD die 0 = 0) ∧ (∀ n, State.reset.helm.sems.find? n = none) ∧
  State.reset.pkg.plimit = 2400 ∧ (∀ p, State.reset.pkg.limit p = 1900) ∧ State.reset.pkg.pwrOff = false ∧
  State.reset.ms.cfgValue = 8 * 2 ^ 19 ∧ State.reset.ms.asidBase = 0 ∧ State.reset.ms.shdSize = 0 ∧
  State.reset.ms.rmdSize = 0 ∧ State.reset.mer.mepid = 0xFFFF ∧ State.reset.mer.cfg = 0x1F40032 ∧
  (∀ die, (State.reset.chart die).scrub = true ∧ (State.reset.chart die).lowStrict = false) ∧
  State.reset.mem = [] ∧ State.reset.mem.wf = true ∧ (∀ a, State.reset.mem.byte a = 0) ∧
  channelOf State.reset.ms.ilv 0x4B0000 = 175 ∧ homeDie State.reset.ms 0x4B0000 = some 0 ∧
  homeSlice State.reset.ms 0x4B0000 = some 16

/-- Words that the spec writes out decode to the instructions they stand for. The words of the spec's own examples for an
integer and a float immediate form, a pair word, ISET, FSET, FFMA, LD, ATOM.CAS, EXIT, MFMT, KVGATH, SQGET and NSEND
decode to those instructions with the operands the examples name. (R59; R62; R75; R130; R217; R220; R233; R238; R263;
R264; R326; R411) -/
def Obligations.DecodedWords : Prop :=
  decode 0x0105050900000040 = .ok (.iadd .sat (.v 5) (.v 5) (.v 9) ⟨.none, 0, false⟩) ∧
  decode 0x0C02013F00000400 = .ok (.faddImm .rn (.v 2) (.v 1) 0x3F0000 ⟨.none, 0, false⟩) ∧
  decode 0x8181800101820002 = .ok (.pairWord ⟨.iadd, .v 3, .imm 1⟩ ⟨.iadd, .v 4, .imm 2⟩) ∧
  decode 0x1203010200000402 = .ok (.iset .ne .replace 3 (.v 1) (.v 2) ⟨.none, 1, false⟩) ∧
  decode 0x3102010300001000 = .ok (.fset .gt .replace 2 (.v 1) (.v 3) ⟨.none, 0, false⟩) ∧
  decode 0x3008020304000410 = .ok (.ffma .rn (.v 8) (.v 2) (.v 3) (.v 4) ⟨.a, 0, false⟩) ∧
  decode 0x5800000000001800 = .ok (.exit ⟨.none, 0, false⟩) ∧
  decode 0x64B9B10000000080 = .ok (.mfmt .b (.s 9) (.s 1) ⟨.none, 0, false⟩) ∧
  decode 0x5005B20600101280 = .ok (.ld .w (.ordered .cluster) (.v 5) (.s 2) (.v 6) 0x10 ⟨.none, 0, false⟩) ∧
  decode 0x5304B609FFF82400 = .ok (.atom .cas .plain (.v 4) (.s 6) (.v 9) 0xFFF8 ⟨.none, 0, false⟩) ∧
  decode 0x6CFFC00000040000 = .ok (.kvgath false .zero 2 4 ⟨.none, 0, false⟩) ∧
  decode 0x70C6B20000120000 = .ok (.sqget (.s 22) (.s 2) 18 ⟨.none, 0, false⟩) ∧
  decode 0x72BCBAB4000600C0 = .ok (.nsend .ord (.s 12) (.s 10) 2 6 ⟨.none, 0, false⟩)

/-- Decoding the word of any well-formed instruction gives that instruction back. For every instruction of the Bamion set
with any operands for which its word is legal: the word it encodes to decodes to it, and the word's eight bytes,
lowest first, followed by any bytes, decode to it and leave those bytes. (R55; R59; R61; R64; R66; R67; R68; R72; R75;
R76; R77; R78) -/
def Obligations.DecodeOfEncode : Prop :=
  ∀ i (w : DWord), i.wf = true → encode i = some w →
    decode w = .ok i ∧ ∀ rest, decodeBytes (bytesOfWord w ++ rest) = .ok (i, rest)

/-- Every step keeps memory in its canonical form. From every state whose memory is in canonical form, addresses strictly
rising and no entry equal to what an unlisted address reads as, whatever the step does, an instruction or an event,
the state after it has memory in that form, so that two memories that read the same everywhere are equal data. The
form, and the 0 that an unlisted byte reads as, are the model's own, log entry 1. (R184; R507; R514; R516; R517; R533;
R535) -/
def Obligations.MemoryStaysCanonical : Prop :=
  ∀ s t : State, s.mem.wf = true → step s = .next t → t.mem.wf = true
end

