-- ==== Sys2Proof/Laws/Map.lean ====
section
/-! SUPPORT. Laws of sparse tables and memories: reading after writing, and that every write keeps the canonical form. -/

namespace Sys2Proof.Machine

/-! ### Lookups -/

theorem Map.find?_set_self {α : Type} (m : Map α) (k : Nat) (a : α) : (m.set k a).find? k = some a := by
  induction m with
  | nil => simp [Map.set, Map.find?]
  | cons e m ih =>
    obtain ⟨j, b⟩ := e
    simp only [Map.set]
    split
    · simp [Map.find?]
    · split
      · simp [Map.find?]
      · rename_i h1 h2
        simp [Map.find?, h2, ih]

theorem Map.find?_set_other {α : Type} (m : Map α) (k j : Nat) (a : α) (h : j ≠ k) : (m.set k a).find? j = m.find? j := by
  induction m with
  | nil => simp [Map.set, Map.find?, h]
  | cons e m ih =>
    obtain ⟨i, b⟩ := e
    simp only [Map.set]
    split
    · simp [Map.find?, h]
    · split
      · rename_i h2; subst h2; simp [Map.find?, h]
      · simp [Map.find?, ih]

theorem Map.find?_modify {α : Type} (m : Map α) (k j : Nat) (f : α → α) :
    (m.modify k f).find? j = if j = k then (m.find? j).map f else m.find? j := by
  induction m with
  | nil => simp [Map.modify, Map.find?]
  | cons e m ih =>
    obtain ⟨i, b⟩ := e
    by_cases hk : k = i
    · subst hk
      by_cases hj : j = k <;> simp [Map.modify, Map.find?, hj]
    · by_cases hj : j = i
      · subst hj
        have : ¬ j = k := fun h => hk h.symm
        simp [Map.modify, Map.find?, hk, this]
      · simp [Map.modify, Map.find?, hk, hj, ih]

@[simp] theorem Map.find?_modify_self {α : Type} (m : Map α) (k : Nat) (f : α → α) :
    (m.modify k f).find? k = (m.find? k).map f := by simp [Map.find?_modify]

theorem Map.find?_modify_other {α : Type} (m : Map α) (k j : Nat) (f : α → α) (h : j ≠ k) :
    (m.modify k f).find? j = m.find? j := by simp [Map.find?_modify, h]

/-! ### Rising numbers -/

theorem Map.sorted_tail {α : Type} {e : Nat × α} {m : Map α} (h : Map.sorted (e :: m) = true) : Map.sorted m = true := by
  cases m with
  | nil => rfl
  | cons f m => obtain ⟨j, a⟩ := e; obtain ⟨k, b⟩ := f; simp [Map.sorted] at h; exact h.2

/-- Every number of a table is above a bound. -/
def Map.above {α : Type} (k : Nat) (m : Map α) : Prop := ∀ e ∈ m, k < e.1

theorem Map.sorted_cons_iff {α : Type} (j : Nat) (a : α) (m : Map α) :
    Map.sorted ((j, a) :: m) = true ↔ Map.above j m ∧ Map.sorted m = true := by
  induction m generalizing j a with
  | nil => simp [Map.sorted, Map.above]
  | cons f m ih =>
    obtain ⟨k, b⟩ := f
    simp only [Map.sorted, Bool.and_eq_true, decide_eq_true_eq]
    constructor
    · rintro ⟨h1, h2⟩
      refine ⟨?_, h2⟩
      intro e he
      rcases List.mem_cons.mp he with rfl | he
      · exact h1
      · exact Nat.lt_trans h1 (((ih k b).mp h2).1 e he)
    · rintro ⟨h1, h2⟩
      exact ⟨h1 (k, b) (by simp), h2⟩

theorem Map.set_mem {α : Type} {m : Map α} {k : Nat} {a : α} {e : Nat × α} (h : e ∈ m.set k a) : e = (k, a) ∨ e ∈ m := by
  induction m with
  | nil => simp [Map.set] at h; exact .inl h
  | cons f m ih =>
    obtain ⟨j, b⟩ := f
    simp only [Map.set] at h
    split at h
    · rcases List.mem_cons.mp h with h | h
      · exact .inl h
      · exact .inr h
    · split at h
      · rcases List.mem_cons.mp h with h | h
        · exact .inl h
        · exact .inr (List.mem_cons.mpr (.inr h))
      · rcases List.mem_cons.mp h with h | h
        · exact .inr (List.mem_cons.mpr (.inl h))
        · rcases ih h with h | h
          · exact .inl h
          · exact .inr (List.mem_cons.mpr (.inr h))

theorem Map.erase_mem {α : Type} {m : Map α} {k : Nat} {e : Nat × α} (h : e ∈ m.erase k) : e ∈ m := by
  induction m with
  | nil => simp [Map.erase] at h
  | cons f m ih =>
    obtain ⟨j, b⟩ := f
    simp only [Map.erase] at h
    split at h
    · exact List.mem_cons.mpr (.inr (ih h))
    · rcases List.mem_cons.mp h with h | h
      · exact List.mem_cons.mpr (.inl h)
      · exact List.mem_cons.mpr (.inr (ih h))

theorem Map.sorted_set {α : Type} {m : Map α} (k : Nat) (a : α) (h : Map.sorted m = true) : Map.sorted (m.set k a) = true := by
  induction m with
  | nil => rfl
  | cons f m ih =>
    obtain ⟨j, b⟩ := f
    have hs := (Map.sorted_cons_iff j b m).mp h
    simp only [Map.set]
    split
    · rename_i hk
      refine (Map.sorted_cons_iff k a _).mpr ⟨?_, h⟩
      intro e he
      rcases List.mem_cons.mp he with rfl | he
      · exact hk
      · exact Nat.lt_trans hk (hs.1 e he)
    · split
      · rename_i hk; subst hk
        exact (Map.sorted_cons_iff k a m).mpr hs
      · rename_i h1 h2
        refine (Map.sorted_cons_iff j b _).mpr ⟨?_, ih hs.2⟩
        intro e he
        rcases Map.set_mem he with rfl | he
        · show j < k; omega
        · exact hs.1 e he

theorem Map.sorted_erase {α : Type} {m : Map α} (k : Nat) (h : Map.sorted m = true) : Map.sorted (m.erase k) = true := by
  induction m with
  | nil => rfl
  | cons f m ih =>
    obtain ⟨j, b⟩ := f
    have hs := (Map.sorted_cons_iff j b m).mp h
    simp only [Map.erase]
    split
    · exact ih hs.2
    · exact (Map.sorted_cons_iff j b _).mpr ⟨fun e he => hs.1 e (Map.erase_mem he), ih hs.2⟩

theorem Map.sorted_filter {α : Type} {m : Map α} (p : Nat × α → Bool) (h : Map.sorted m = true) :
    Map.sorted (List.filter p m) = true := by
  induction m with
  | nil => rfl
  | cons f m ih =>
    obtain ⟨j, b⟩ := f
    have hs := (Map.sorted_cons_iff j b m).mp h
    rw [List.filter_cons]
    split
    · exact (Map.sorted_cons_iff j b _).mpr ⟨fun e he => hs.1 e (List.mem_filter.mp he).1, ih hs.2⟩
    · exact ih hs.2

theorem Map.find?_erase_self {α : Type} (m : Map α) (k : Nat) : (m.erase k).find? k = none := by
  induction m with
  | nil => rfl
  | cons f m ih =>
    obtain ⟨j, b⟩ := f
    simp only [Map.erase]
    split
    · exact ih
    · rename_i hk; simp [Map.find?, hk, ih]

theorem Map.find?_erase_other {α : Type} (m : Map α) (k j : Nat) (h : j ≠ k) : (m.erase k).find? j = m.find? j := by
  induction m with
  | nil => rfl
  | cons f m ih =>
    obtain ⟨i, b⟩ := f
    simp only [Map.erase]
    split
    · rename_i hk; subst hk; simp [Map.find?, h, ih]
    · simp [Map.find?, ih]

/-- Reading a table whose unlisted entries read as `d` after one entry is written. -/
theorem Map.getD_put {α : Type} [DecidableEq α] (m : Map α) (d : α) (k j : Nat) (a : α) :
    (m.put d k a).getD j d = if j = k then a else m.getD j d := by
  by_cases hj : j = k
  · subst hj
    by_cases ha : a = d <;> simp [Map.put, Map.getD, ha, Map.find?_erase_self, Map.find?_set_self]
  · by_cases ha : a = d <;> simp [Map.put, Map.getD, ha, hj, Map.find?_erase_other, Map.find?_set_other]

/-- A change of every entry. -/
theorem Map.find?_map {α β : Type} (m : Map α) (f : Nat → α → β) (k : Nat) :
    Map.find? (m.map (fun e => (e.1, f e.1 e.2))) k = (m.find? k).map (f k) := by
  induction m with
  | nil => rfl
  | cons e m ih =>
    obtain ⟨j, b⟩ := e
    by_cases hk : k = j
    · subst hk; simp [Map.find?]
    · simp [Map.find?, hk, ih]

/-! ### Memories (GUIDE: read after write, and the canonical form) -/

theorem Mem.byte_store_self (m : Mem) (a : Nat) (b : Byte) : (m.store a b).byte a = b := by
  simp [Mem.store, Mem.byte, Map.getD_put]

theorem Mem.byte_store_other (m : Mem) (a c : Nat) (b : Byte) (h : c ≠ a) : (m.store a b).byte c = m.byte c := by
  unfold Mem.store Mem.byte Map.put Map.getD
  split
  · rw [Map.find?_erase_other m a c h]
  · rw [Map.find?_set_other m a c b h]

theorem Mem.wf_store {m : Mem} (a : Nat) (b : Byte) (h : m.wf = true) : (m.store a b).wf = true := by
  unfold Mem.wf at *
  rw [Bool.and_eq_true, List.all_eq_true] at *
  unfold Mem.store Map.put
  split
  · exact ⟨Map.sorted_erase a h.1, fun e he => h.2 e (Map.erase_mem he)⟩
  · rename_i hb
    refine ⟨Map.sorted_set a b h.1, fun e he => ?_⟩
    rcases Map.set_mem he with rfl | he
    · simpa using hb
    · exact h.2 e he

theorem Mem.wf_storeBytes {m : Mem} (a : Nat) (bs : List Byte) (h : m.wf = true) : (m.storeBytes a bs).wf = true := by
  induction bs generalizing m a with
  | nil => exact h
  | cons b bs ih => exact ih (a + 1) (Mem.wf_store a b h)

theorem Mem.wf_filter {m : Mem} (p : Host.Cell → Bool) (h : m.wf = true) : Mem.wf (List.filter p m) = true := by
  unfold Mem.wf at *
  rw [Bool.and_eq_true, List.all_eq_true] at *
  exact ⟨Map.sorted_filter p h.1, fun e he => h.2 e (List.mem_filter.mp he).1⟩

theorem Mem.byte_storeBytes_out (m : Mem) (a c : Nat) (bs : List Byte) (h : c < a ∨ a + bs.length ≤ c) :
    (m.storeBytes a bs).byte c = m.byte c := by
  induction bs generalizing m a with
  | nil => rfl
  | cons b bs ih =>
    simp only [List.length_cons] at h
    rw [show m.storeBytes a (b :: bs) = (m.store a b).storeBytes (a + 1) bs from rfl, ih _ _ (by omega),
      Mem.byte_store_other m a c b (by omega)]

theorem Mem.byte_storeBytes_in (m : Mem) (a k : Nat) (bs : List Byte) (hk : k < bs.length) :
    (m.storeBytes a bs).byte (a + k) = bs[k] := by
  induction bs generalizing m a k with
  | nil => simp at hk
  | cons b bs ih =>
    rw [show m.storeBytes a (b :: bs) = (m.store a b).storeBytes (a + 1) bs from rfl]
    cases k with
    | zero =>
      rw [Mem.byte_storeBytes_out _ _ _ _ (by omega)]
      simpa using Mem.byte_store_self m a b
    | succ k =>
      have := ih (m.store a b) (a + 1) k (by simpa using hk)
      rw [show a + (k + 1) = a + 1 + k by omega, this]; rfl

/-! ### Little-endian numbers -/

@[simp] theorem leBytes_length (n v : Nat) : (leBytes n v).length = n := by
  induction n generalizing v with
  | zero => rfl
  | succ n ih => simp [leBytes, ih]

/-- A number of some bytes is below 256 to the power of their count. -/
theorem leNat_lt (bs : List Byte) : leNat bs < 256 ^ bs.length := by
  induction bs with
  | nil => simp [leNat]
  | cons b bs ih =>
    have := b.isLt
    simp only [leNat, List.length_cons, Nat.pow_succ]
    omega

theorem leNat_leBytes (n v : Nat) : leNat (leBytes n v) = v % 256 ^ n := by
  induction n generalizing v with
  | zero => simp [leBytes, leNat, Nat.mod_one]
  | succ n ih =>
    rw [leBytes, leNat, ih, BitVec.toNat_ofNat, show 256 ^ (n + 1) = 256 * 256 ^ n from Nat.pow_succ', Nat.mod_mul]

end Sys2Proof.Machine
end

