-- ==== Sys2Proof/Laws/State.lean ====
section
/-! SUPPORT. What each update of the state leaves and sets, field by field. -/

namespace Sys2Proof.Machine

/-! ### bump -/

@[simp] theorem State.bump_agenda (s : State) : (s.bump).agenda = s.agenda := rfl
@[simp] theorem State.bump_cur (s : State) : (s.bump).cur = s.cur := rfl
@[simp] theorem State.bump_fresh (s : State) : (s.bump).fresh = s.fresh + 1 := rfl
@[simp] theorem State.bump_uid (s : State) : (s.bump).uid = s.uid := rfl
@[simp] theorem State.bump_mem (s : State) : (s.bump).mem = s.mem := rfl
@[simp] theorem State.bump_lineKey (s : State) : (s.bump).lineKey = s.lineKey := rfl
@[simp] theorem State.bump_cores (s : State) : (s.bump).cores = s.cores := rfl
@[simp] theorem State.bump_groups (s : State) : (s.bump).groups = s.groups := rfl
@[simp] theorem State.bump_teams (s : State) : (s.bump).teams = s.teams := rfl
@[simp] theorem State.bump_clusters (s : State) : (s.bump).clusters = s.clusters := rfl
@[simp] theorem State.bump_grids (s : State) : (s.bump).grids = s.grids := rfl
@[simp] theorem State.bump_dies (s : State) : (s.bump).dies = s.dies := rfl
@[simp] theorem State.bump_cmds (s : State) : (s.bump).cmds = s.cmds := rfl
@[simp] theorem State.bump_undo (s : State) : (s.bump).undo = s.undo := rfl
@[simp] theorem State.bump_shadows (s : State) : (s.bump).shadows = s.shadows := rfl
@[simp] theorem State.bump_charts (s : State) : (s.bump).charts = s.charts := rfl
@[simp] theorem State.bump_pages (s : State) : (s.bump).pages = s.pages := rfl
@[simp] theorem State.bump_models (s : State) : (s.bump).models = s.models := rfl
@[simp] theorem State.bump_requests (s : State) : (s.bump).requests = s.requests := rfl
@[simp] theorem State.bump_helm (s : State) : (s.bump).helm = s.helm := rfl
@[simp] theorem State.bump_mer (s : State) : (s.bump).mer = s.mer := rfl
@[simp] theorem State.bump_ms (s : State) : (s.bump).ms = s.ms := rfl
@[simp] theorem State.bump_pkg (s : State) : (s.bump).pkg = s.pkg := rfl

/-! ### modCore -/

@[simp] theorem State.modCore_agenda (s : State) (n : Nat) (f : Core → Core) : (s.modCore n f).agenda = s.agenda := rfl
@[simp] theorem State.modCore_cur (s : State) (n : Nat) (f : Core → Core) : (s.modCore n f).cur = s.cur := rfl
@[simp] theorem State.modCore_fresh (s : State) (n : Nat) (f : Core → Core) : (s.modCore n f).fresh = s.fresh := rfl
@[simp] theorem State.modCore_uid (s : State) (n : Nat) (f : Core → Core) : (s.modCore n f).uid = s.uid := rfl
@[simp] theorem State.modCore_mem (s : State) (n : Nat) (f : Core → Core) : (s.modCore n f).mem = s.mem := rfl
@[simp] theorem State.modCore_lineKey (s : State) (n : Nat) (f : Core → Core) : (s.modCore n f).lineKey = s.lineKey := rfl
@[simp] theorem State.modCore_cores (s : State) (n : Nat) (f : Core → Core) : (s.modCore n f).cores = s.cores.put Core.reset n (f (s.core n)) := rfl
@[simp] theorem State.modCore_groups (s : State) (n : Nat) (f : Core → Core) : (s.modCore n f).groups = s.groups := rfl
@[simp] theorem State.modCore_teams (s : State) (n : Nat) (f : Core → Core) : (s.modCore n f).teams = s.teams := rfl
@[simp] theorem State.modCore_clusters (s : State) (n : Nat) (f : Core → Core) : (s.modCore n f).clusters = s.clusters := rfl
@[simp] theorem State.modCore_grids (s : State) (n : Nat) (f : Core → Core) : (s.modCore n f).grids = s.grids := rfl
@[simp] theorem State.modCore_dies (s : State) (n : Nat) (f : Core → Core) : (s.modCore n f).dies = s.dies := rfl
@[simp] theorem State.modCore_cmds (s : State) (n : Nat) (f : Core → Core) : (s.modCore n f).cmds = s.cmds := rfl
@[simp] theorem State.modCore_undo (s : State) (n : Nat) (f : Core → Core) : (s.modCore n f).undo = s.undo := rfl
@[simp] theorem State.modCore_shadows (s : State) (n : Nat) (f : Core → Core) : (s.modCore n f).shadows = s.shadows := rfl
@[simp] theorem State.modCore_charts (s : State) (n : Nat) (f : Core → Core) : (s.modCore n f).charts = s.charts := rfl
@[simp] theorem State.modCore_pages (s : State) (n : Nat) (f : Core → Core) : (s.modCore n f).pages = s.pages := rfl
@[simp] theorem State.modCore_models (s : State) (n : Nat) (f : Core → Core) : (s.modCore n f).models = s.models := rfl
@[simp] theorem State.modCore_requests (s : State) (n : Nat) (f : Core → Core) : (s.modCore n f).requests = s.requests := rfl
@[simp] theorem State.modCore_helm (s : State) (n : Nat) (f : Core → Core) : (s.modCore n f).helm = s.helm := rfl
@[simp] theorem State.modCore_mer (s : State) (n : Nat) (f : Core → Core) : (s.modCore n f).mer = s.mer := rfl
@[simp] theorem State.modCore_ms (s : State) (n : Nat) (f : Core → Core) : (s.modCore n f).ms = s.ms := rfl
@[simp] theorem State.modCore_pkg (s : State) (n : Nat) (f : Core → Core) : (s.modCore n f).pkg = s.pkg := rfl

/-! ### modGroup -/

@[simp] theorem State.modGroup_agenda (s : State) (n : Nat) (f : Group → Group) : (s.modGroup n f).agenda = s.agenda := rfl
@[simp] theorem State.modGroup_cur (s : State) (n : Nat) (f : Group → Group) : (s.modGroup n f).cur = s.cur := rfl
@[simp] theorem State.modGroup_fresh (s : State) (n : Nat) (f : Group → Group) : (s.modGroup n f).fresh = s.fresh := rfl
@[simp] theorem State.modGroup_uid (s : State) (n : Nat) (f : Group → Group) : (s.modGroup n f).uid = s.uid := rfl
@[simp] theorem State.modGroup_mem (s : State) (n : Nat) (f : Group → Group) : (s.modGroup n f).mem = s.mem := rfl
@[simp] theorem State.modGroup_lineKey (s : State) (n : Nat) (f : Group → Group) : (s.modGroup n f).lineKey = s.lineKey := rfl
@[simp] theorem State.modGroup_cores (s : State) (n : Nat) (f : Group → Group) : (s.modGroup n f).cores = s.cores := rfl
@[simp] theorem State.modGroup_groups (s : State) (n : Nat) (f : Group → Group) : (s.modGroup n f).groups = s.groups.modify n f := rfl
@[simp] theorem State.modGroup_teams (s : State) (n : Nat) (f : Group → Group) : (s.modGroup n f).teams = s.teams := rfl
@[simp] theorem State.modGroup_clusters (s : State) (n : Nat) (f : Group → Group) : (s.modGroup n f).clusters = s.clusters := rfl
@[simp] theorem State.modGroup_grids (s : State) (n : Nat) (f : Group → Group) : (s.modGroup n f).grids = s.grids := rfl
@[simp] theorem State.modGroup_dies (s : State) (n : Nat) (f : Group → Group) : (s.modGroup n f).dies = s.dies := rfl
@[simp] theorem State.modGroup_cmds (s : State) (n : Nat) (f : Group → Group) : (s.modGroup n f).cmds = s.cmds := rfl
@[simp] theorem State.modGroup_undo (s : State) (n : Nat) (f : Group → Group) : (s.modGroup n f).undo = s.undo := rfl
@[simp] theorem State.modGroup_shadows (s : State) (n : Nat) (f : Group → Group) : (s.modGroup n f).shadows = s.shadows := rfl
@[simp] theorem State.modGroup_charts (s : State) (n : Nat) (f : Group → Group) : (s.modGroup n f).charts = s.charts := rfl
@[simp] theorem State.modGroup_pages (s : State) (n : Nat) (f : Group → Group) : (s.modGroup n f).pages = s.pages := rfl
@[simp] theorem State.modGroup_models (s : State) (n : Nat) (f : Group → Group) : (s.modGroup n f).models = s.models := rfl
@[simp] theorem State.modGroup_requests (s : State) (n : Nat) (f : Group → Group) : (s.modGroup n f).requests = s.requests := rfl
@[simp] theorem State.modGroup_helm (s : State) (n : Nat) (f : Group → Group) : (s.modGroup n f).helm = s.helm := rfl
@[simp] theorem State.modGroup_mer (s : State) (n : Nat) (f : Group → Group) : (s.modGroup n f).mer = s.mer := rfl
@[simp] theorem State.modGroup_ms (s : State) (n : Nat) (f : Group → Group) : (s.modGroup n f).ms = s.ms := rfl
@[simp] theorem State.modGroup_pkg (s : State) (n : Nat) (f : Group → Group) : (s.modGroup n f).pkg = s.pkg := rfl

/-! ### modTeam -/

@[simp] theorem State.modTeam_agenda (s : State) (n : Nat) (f : Team → Team) : (s.modTeam n f).agenda = s.agenda := rfl
@[simp] theorem State.modTeam_cur (s : State) (n : Nat) (f : Team → Team) : (s.modTeam n f).cur = s.cur := rfl
@[simp] theorem State.modTeam_fresh (s : State) (n : Nat) (f : Team → Team) : (s.modTeam n f).fresh = s.fresh := rfl
@[simp] theorem State.modTeam_uid (s : State) (n : Nat) (f : Team → Team) : (s.modTeam n f).uid = s.uid := rfl
@[simp] theorem State.modTeam_mem (s : State) (n : Nat) (f : Team → Team) : (s.modTeam n f).mem = s.mem := rfl
@[simp] theorem State.modTeam_lineKey (s : State) (n : Nat) (f : Team → Team) : (s.modTeam n f).lineKey = s.lineKey := rfl
@[simp] theorem State.modTeam_cores (s : State) (n : Nat) (f : Team → Team) : (s.modTeam n f).cores = s.cores := rfl
@[simp] theorem State.modTeam_groups (s : State) (n : Nat) (f : Team → Team) : (s.modTeam n f).groups = s.groups := rfl
@[simp] theorem State.modTeam_teams (s : State) (n : Nat) (f : Team → Team) : (s.modTeam n f).teams = s.teams.modify n f := rfl
@[simp] theorem State.modTeam_clusters (s : State) (n : Nat) (f : Team → Team) : (s.modTeam n f).clusters = s.clusters := rfl
@[simp] theorem State.modTeam_grids (s : State) (n : Nat) (f : Team → Team) : (s.modTeam n f).grids = s.grids := rfl
@[simp] theorem State.modTeam_dies (s : State) (n : Nat) (f : Team → Team) : (s.modTeam n f).dies = s.dies := rfl
@[simp] theorem State.modTeam_cmds (s : State) (n : Nat) (f : Team → Team) : (s.modTeam n f).cmds = s.cmds := rfl
@[simp] theorem State.modTeam_undo (s : State) (n : Nat) (f : Team → Team) : (s.modTeam n f).undo = s.undo := rfl
@[simp] theorem State.modTeam_shadows (s : State) (n : Nat) (f : Team → Team) : (s.modTeam n f).shadows = s.shadows := rfl
@[simp] theorem State.modTeam_charts (s : State) (n : Nat) (f : Team → Team) : (s.modTeam n f).charts = s.charts := rfl
@[simp] theorem State.modTeam_pages (s : State) (n : Nat) (f : Team → Team) : (s.modTeam n f).pages = s.pages := rfl
@[simp] theorem State.modTeam_models (s : State) (n : Nat) (f : Team → Team) : (s.modTeam n f).models = s.models := rfl
@[simp] theorem State.modTeam_requests (s : State) (n : Nat) (f : Team → Team) : (s.modTeam n f).requests = s.requests := rfl
@[simp] theorem State.modTeam_helm (s : State) (n : Nat) (f : Team → Team) : (s.modTeam n f).helm = s.helm := rfl
@[simp] theorem State.modTeam_mer (s : State) (n : Nat) (f : Team → Team) : (s.modTeam n f).mer = s.mer := rfl
@[simp] theorem State.modTeam_ms (s : State) (n : Nat) (f : Team → Team) : (s.modTeam n f).ms = s.ms := rfl
@[simp] theorem State.modTeam_pkg (s : State) (n : Nat) (f : Team → Team) : (s.modTeam n f).pkg = s.pkg := rfl

/-! ### modCluster -/

@[simp] theorem State.modCluster_agenda (s : State) (n : Nat) (f : Cluster → Cluster) : (s.modCluster n f).agenda = s.agenda := rfl
@[simp] theorem State.modCluster_cur (s : State) (n : Nat) (f : Cluster → Cluster) : (s.modCluster n f).cur = s.cur := rfl
@[simp] theorem State.modCluster_fresh (s : State) (n : Nat) (f : Cluster → Cluster) : (s.modCluster n f).fresh = s.fresh := rfl
@[simp] theorem State.modCluster_uid (s : State) (n : Nat) (f : Cluster → Cluster) : (s.modCluster n f).uid = s.uid := rfl
@[simp] theorem State.modCluster_mem (s : State) (n : Nat) (f : Cluster → Cluster) : (s.modCluster n f).mem = s.mem := rfl
@[simp] theorem State.modCluster_lineKey (s : State) (n : Nat) (f : Cluster → Cluster) : (s.modCluster n f).lineKey = s.lineKey := rfl
@[simp] theorem State.modCluster_cores (s : State) (n : Nat) (f : Cluster → Cluster) : (s.modCluster n f).cores = s.cores := rfl
@[simp] theorem State.modCluster_groups (s : State) (n : Nat) (f : Cluster → Cluster) : (s.modCluster n f).groups = s.groups := rfl
@[simp] theorem State.modCluster_teams (s : State) (n : Nat) (f : Cluster → Cluster) : (s.modCluster n f).teams = s.teams := rfl
@[simp] theorem State.modCluster_clusters (s : State) (n : Nat) (f : Cluster → Cluster) : (s.modCluster n f).clusters = s.clusters.modify n f := rfl
@[simp] theorem State.modCluster_grids (s : State) (n : Nat) (f : Cluster → Cluster) : (s.modCluster n f).grids = s.grids := rfl
@[simp] theorem State.modCluster_dies (s : State) (n : Nat) (f : Cluster → Cluster) : (s.modCluster n f).dies = s.dies := rfl
@[simp] theorem State.modCluster_cmds (s : State) (n : Nat) (f : Cluster → Cluster) : (s.modCluster n f).cmds = s.cmds := rfl
@[simp] theorem State.modCluster_undo (s : State) (n : Nat) (f : Cluster → Cluster) : (s.modCluster n f).undo = s.undo := rfl
@[simp] theorem State.modCluster_shadows (s : State) (n : Nat) (f : Cluster → Cluster) : (s.modCluster n f).shadows = s.shadows := rfl
@[simp] theorem State.modCluster_charts (s : State) (n : Nat) (f : Cluster → Cluster) : (s.modCluster n f).charts = s.charts := rfl
@[simp] theorem State.modCluster_pages (s : State) (n : Nat) (f : Cluster → Cluster) : (s.modCluster n f).pages = s.pages := rfl
@[simp] theorem State.modCluster_models (s : State) (n : Nat) (f : Cluster → Cluster) : (s.modCluster n f).models = s.models := rfl
@[simp] theorem State.modCluster_requests (s : State) (n : Nat) (f : Cluster → Cluster) : (s.modCluster n f).requests = s.requests := rfl
@[simp] theorem State.modCluster_helm (s : State) (n : Nat) (f : Cluster → Cluster) : (s.modCluster n f).helm = s.helm := rfl
@[simp] theorem State.modCluster_mer (s : State) (n : Nat) (f : Cluster → Cluster) : (s.modCluster n f).mer = s.mer := rfl
@[simp] theorem State.modCluster_ms (s : State) (n : Nat) (f : Cluster → Cluster) : (s.modCluster n f).ms = s.ms := rfl
@[simp] theorem State.modCluster_pkg (s : State) (n : Nat) (f : Cluster → Cluster) : (s.modCluster n f).pkg = s.pkg := rfl

/-! ### modGrid -/

@[simp] theorem State.modGrid_agenda (s : State) (n : Nat) (f : Grid → Grid) : (s.modGrid n f).agenda = s.agenda := rfl
@[simp] theorem State.modGrid_cur (s : State) (n : Nat) (f : Grid → Grid) : (s.modGrid n f).cur = s.cur := rfl
@[simp] theorem State.modGrid_fresh (s : State) (n : Nat) (f : Grid → Grid) : (s.modGrid n f).fresh = s.fresh := rfl
@[simp] theorem State.modGrid_uid (s : State) (n : Nat) (f : Grid → Grid) : (s.modGrid n f).uid = s.uid := rfl
@[simp] theorem State.modGrid_mem (s : State) (n : Nat) (f : Grid → Grid) : (s.modGrid n f).mem = s.mem := rfl
@[simp] theorem State.modGrid_lineKey (s : State) (n : Nat) (f : Grid → Grid) : (s.modGrid n f).lineKey = s.lineKey := rfl
@[simp] theorem State.modGrid_cores (s : State) (n : Nat) (f : Grid → Grid) : (s.modGrid n f).cores = s.cores := rfl
@[simp] theorem State.modGrid_groups (s : State) (n : Nat) (f : Grid → Grid) : (s.modGrid n f).groups = s.groups := rfl
@[simp] theorem State.modGrid_teams (s : State) (n : Nat) (f : Grid → Grid) : (s.modGrid n f).teams = s.teams := rfl
@[simp] theorem State.modGrid_clusters (s : State) (n : Nat) (f : Grid → Grid) : (s.modGrid n f).clusters = s.clusters := rfl
@[simp] theorem State.modGrid_grids (s : State) (n : Nat) (f : Grid → Grid) : (s.modGrid n f).grids = s.grids.modify n f := rfl
@[simp] theorem State.modGrid_dies (s : State) (n : Nat) (f : Grid → Grid) : (s.modGrid n f).dies = s.dies := rfl
@[simp] theorem State.modGrid_cmds (s : State) (n : Nat) (f : Grid → Grid) : (s.modGrid n f).cmds = s.cmds := rfl
@[simp] theorem State.modGrid_undo (s : State) (n : Nat) (f : Grid → Grid) : (s.modGrid n f).undo = s.undo := rfl
@[simp] theorem State.modGrid_shadows (s : State) (n : Nat) (f : Grid → Grid) : (s.modGrid n f).shadows = s.shadows := rfl
@[simp] theorem State.modGrid_charts (s : State) (n : Nat) (f : Grid → Grid) : (s.modGrid n f).charts = s.charts := rfl
@[simp] theorem State.modGrid_pages (s : State) (n : Nat) (f : Grid → Grid) : (s.modGrid n f).pages = s.pages := rfl
@[simp] theorem State.modGrid_models (s : State) (n : Nat) (f : Grid → Grid) : (s.modGrid n f).models = s.models := rfl
@[simp] theorem State.modGrid_requests (s : State) (n : Nat) (f : Grid → Grid) : (s.modGrid n f).requests = s.requests := rfl
@[simp] theorem State.modGrid_helm (s : State) (n : Nat) (f : Grid → Grid) : (s.modGrid n f).helm = s.helm := rfl
@[simp] theorem State.modGrid_mer (s : State) (n : Nat) (f : Grid → Grid) : (s.modGrid n f).mer = s.mer := rfl
@[simp] theorem State.modGrid_ms (s : State) (n : Nat) (f : Grid → Grid) : (s.modGrid n f).ms = s.ms := rfl
@[simp] theorem State.modGrid_pkg (s : State) (n : Nat) (f : Grid → Grid) : (s.modGrid n f).pkg = s.pkg := rfl

/-! ### modSplit -/

@[simp] theorem State.modSplit_agenda (s : State) (n k : Nat) (f : Split → Split) : (s.modSplit n k f).agenda = s.agenda := rfl
@[simp] theorem State.modSplit_cur (s : State) (n k : Nat) (f : Split → Split) : (s.modSplit n k f).cur = s.cur := rfl
@[simp] theorem State.modSplit_fresh (s : State) (n k : Nat) (f : Split → Split) : (s.modSplit n k f).fresh = s.fresh := rfl
@[simp] theorem State.modSplit_uid (s : State) (n k : Nat) (f : Split → Split) : (s.modSplit n k f).uid = s.uid := rfl
@[simp] theorem State.modSplit_mem (s : State) (n k : Nat) (f : Split → Split) : (s.modSplit n k f).mem = s.mem := rfl
@[simp] theorem State.modSplit_lineKey (s : State) (n k : Nat) (f : Split → Split) : (s.modSplit n k f).lineKey = s.lineKey := rfl
@[simp] theorem State.modSplit_cores (s : State) (n k : Nat) (f : Split → Split) : (s.modSplit n k f).cores = s.cores := rfl
@[simp] theorem State.modSplit_teams (s : State) (n k : Nat) (f : Split → Split) : (s.modSplit n k f).teams = s.teams := rfl
@[simp] theorem State.modSplit_clusters (s : State) (n k : Nat) (f : Split → Split) : (s.modSplit n k f).clusters = s.clusters := rfl
@[simp] theorem State.modSplit_grids (s : State) (n k : Nat) (f : Split → Split) : (s.modSplit n k f).grids = s.grids := rfl
@[simp] theorem State.modSplit_dies (s : State) (n k : Nat) (f : Split → Split) : (s.modSplit n k f).dies = s.dies := rfl
@[simp] theorem State.modSplit_cmds (s : State) (n k : Nat) (f : Split → Split) : (s.modSplit n k f).cmds = s.cmds := rfl
@[simp] theorem State.modSplit_undo (s : State) (n k : Nat) (f : Split → Split) : (s.modSplit n k f).undo = s.undo := rfl
@[simp] theorem State.modSplit_shadows (s : State) (n k : Nat) (f : Split → Split) : (s.modSplit n k f).shadows = s.shadows := rfl
@[simp] theorem State.modSplit_charts (s : State) (n k : Nat) (f : Split → Split) : (s.modSplit n k f).charts = s.charts := rfl
@[simp] theorem State.modSplit_pages (s : State) (n k : Nat) (f : Split → Split) : (s.modSplit n k f).pages = s.pages := rfl
@[simp] theorem State.modSplit_models (s : State) (n k : Nat) (f : Split → Split) : (s.modSplit n k f).models = s.models := rfl
@[simp] theorem State.modSplit_requests (s : State) (n k : Nat) (f : Split → Split) : (s.modSplit n k f).requests = s.requests := rfl
@[simp] theorem State.modSplit_helm (s : State) (n k : Nat) (f : Split → Split) : (s.modSplit n k f).helm = s.helm := rfl
@[simp] theorem State.modSplit_mer (s : State) (n k : Nat) (f : Split → Split) : (s.modSplit n k f).mer = s.mer := rfl
@[simp] theorem State.modSplit_ms (s : State) (n k : Nat) (f : Split → Split) : (s.modSplit n k f).ms = s.ms := rfl
@[simp] theorem State.modSplit_pkg (s : State) (n k : Nat) (f : Split → Split) : (s.modSplit n k f).pkg = s.pkg := rfl

/-! ### modCmd -/

@[simp] theorem State.modCmd_agenda (s : State) (n : Nat) (f : Cmd → Cmd) : (s.modCmd n f).agenda = s.agenda := rfl
@[simp] theorem State.modCmd_cur (s : State) (n : Nat) (f : Cmd → Cmd) : (s.modCmd n f).cur = s.cur := rfl
@[simp] theorem State.modCmd_fresh (s : State) (n : Nat) (f : Cmd → Cmd) : (s.modCmd n f).fresh = s.fresh := rfl
@[simp] theorem State.modCmd_uid (s : State) (n : Nat) (f : Cmd → Cmd) : (s.modCmd n f).uid = s.uid := rfl
@[simp] theorem State.modCmd_mem (s : State) (n : Nat) (f : Cmd → Cmd) : (s.modCmd n f).mem = s.mem := rfl
@[simp] theorem State.modCmd_lineKey (s : State) (n : Nat) (f : Cmd → Cmd) : (s.modCmd n f).lineKey = s.lineKey := rfl
@[simp] theorem State.modCmd_cores (s : State) (n : Nat) (f : Cmd → Cmd) : (s.modCmd n f).cores = s.cores := rfl
@[simp] theorem State.modCmd_groups (s : State) (n : Nat) (f : Cmd → Cmd) : (s.modCmd n f).groups = s.groups := rfl
@[simp] theorem State.modCmd_teams (s : State) (n : Nat) (f : Cmd → Cmd) : (s.modCmd n f).teams = s.teams := rfl
@[simp] theorem State.modCmd_clusters (s : State) (n : Nat) (f : Cmd → Cmd) : (s.modCmd n f).clusters = s.clusters := rfl
@[simp] theorem State.modCmd_grids (s : State) (n : Nat) (f : Cmd → Cmd) : (s.modCmd n f).grids = s.grids := rfl
@[simp] theorem State.modCmd_dies (s : State) (n : Nat) (f : Cmd → Cmd) : (s.modCmd n f).dies = s.dies := rfl
@[simp] theorem State.modCmd_cmds (s : State) (n : Nat) (f : Cmd → Cmd) : (s.modCmd n f).cmds = s.cmds.modify n f := rfl
@[simp] theorem State.modCmd_undo (s : State) (n : Nat) (f : Cmd → Cmd) : (s.modCmd n f).undo = s.undo := rfl
@[simp] theorem State.modCmd_shadows (s : State) (n : Nat) (f : Cmd → Cmd) : (s.modCmd n f).shadows = s.shadows := rfl
@[simp] theorem State.modCmd_charts (s : State) (n : Nat) (f : Cmd → Cmd) : (s.modCmd n f).charts = s.charts := rfl
@[simp] theorem State.modCmd_pages (s : State) (n : Nat) (f : Cmd → Cmd) : (s.modCmd n f).pages = s.pages := rfl
@[simp] theorem State.modCmd_models (s : State) (n : Nat) (f : Cmd → Cmd) : (s.modCmd n f).models = s.models := rfl
@[simp] theorem State.modCmd_requests (s : State) (n : Nat) (f : Cmd → Cmd) : (s.modCmd n f).requests = s.requests := rfl
@[simp] theorem State.modCmd_helm (s : State) (n : Nat) (f : Cmd → Cmd) : (s.modCmd n f).helm = s.helm := rfl
@[simp] theorem State.modCmd_mer (s : State) (n : Nat) (f : Cmd → Cmd) : (s.modCmd n f).mer = s.mer := rfl
@[simp] theorem State.modCmd_ms (s : State) (n : Nat) (f : Cmd → Cmd) : (s.modCmd n f).ms = s.ms := rfl
@[simp] theorem State.modCmd_pkg (s : State) (n : Nat) (f : Cmd → Cmd) : (s.modCmd n f).pkg = s.pkg := rfl

/-! ### modHelm -/

@[simp] theorem State.modHelm_agenda (s : State) (f : Helm → Helm) : (s.modHelm f).agenda = s.agenda := rfl
@[simp] theorem State.modHelm_cur (s : State) (f : Helm → Helm) : (s.modHelm f).cur = s.cur := rfl
@[simp] theorem State.modHelm_fresh (s : State) (f : Helm → Helm) : (s.modHelm f).fresh = s.fresh := rfl
@[simp] theorem State.modHelm_uid (s : State) (f : Helm → Helm) : (s.modHelm f).uid = s.uid := rfl
@[simp] theorem State.modHelm_mem (s : State) (f : Helm → Helm) : (s.modHelm f).mem = s.mem := rfl
@[simp] theorem State.modHelm_lineKey (s : State) (f : Helm → Helm) : (s.modHelm f).lineKey = s.lineKey := rfl
@[simp] theorem State.modHelm_cores (s : State) (f : Helm → Helm) : (s.modHelm f).cores = s.cores := rfl
@[simp] theorem State.modHelm_groups (s : State) (f : Helm → Helm) : (s.modHelm f).groups = s.groups := rfl
@[simp] theorem State.modHelm_teams (s : State) (f : Helm → Helm) : (s.modHelm f).teams = s.teams := rfl
@[simp] theorem State.modHelm_clusters (s : State) (f : Helm → Helm) : (s.modHelm f).clusters = s.clusters := rfl
@[simp] theorem State.modHelm_grids (s : State) (f : Helm → Helm) : (s.modHelm f).grids = s.grids := rfl
@[simp] theorem State.modHelm_dies (s : State) (f : Helm → Helm) : (s.modHelm f).dies = s.dies := rfl
@[simp] theorem State.modHelm_cmds (s : State) (f : Helm → Helm) : (s.modHelm f).cmds = s.cmds := rfl
@[simp] theorem State.modHelm_undo (s : State) (f : Helm → Helm) : (s.modHelm f).undo = s.undo := rfl
@[simp] theorem State.modHelm_shadows (s : State) (f : Helm → Helm) : (s.modHelm f).shadows = s.shadows := rfl
@[simp] theorem State.modHelm_charts (s : State) (f : Helm → Helm) : (s.modHelm f).charts = s.charts := rfl
@[simp] theorem State.modHelm_pages (s : State) (f : Helm → Helm) : (s.modHelm f).pages = s.pages := rfl
@[simp] theorem State.modHelm_models (s : State) (f : Helm → Helm) : (s.modHelm f).models = s.models := rfl
@[simp] theorem State.modHelm_requests (s : State) (f : Helm → Helm) : (s.modHelm f).requests = s.requests := rfl
@[simp] theorem State.modHelm_helm (s : State) (f : Helm → Helm) : (s.modHelm f).helm = f s.helm := rfl
@[simp] theorem State.modHelm_mer (s : State) (f : Helm → Helm) : (s.modHelm f).mer = s.mer := rfl
@[simp] theorem State.modHelm_ms (s : State) (f : Helm → Helm) : (s.modHelm f).ms = s.ms := rfl
@[simp] theorem State.modHelm_pkg (s : State) (f : Helm → Helm) : (s.modHelm f).pkg = s.pkg := rfl

/-! ### modMer -/

@[simp] theorem State.modMer_agenda (s : State) (f : Mer → Mer) : (s.modMer f).agenda = s.agenda := rfl
@[simp] theorem State.modMer_cur (s : State) (f : Mer → Mer) : (s.modMer f).cur = s.cur := rfl
@[simp] theorem State.modMer_fresh (s : State) (f : Mer → Mer) : (s.modMer f).fresh = s.fresh := rfl
@[simp] theorem State.modMer_uid (s : State) (f : Mer → Mer) : (s.modMer f).uid = s.uid := rfl
@[simp] theorem State.modMer_mem (s : State) (f : Mer → Mer) : (s.modMer f).mem = s.mem := rfl
@[simp] theorem State.modMer_lineKey (s : State) (f : Mer → Mer) : (s.modMer f).lineKey = s.lineKey := rfl
@[simp] theorem State.modMer_cores (s : State) (f : Mer → Mer) : (s.modMer f).cores = s.cores := rfl
@[simp] theorem State.modMer_groups (s : State) (f : Mer → Mer) : (s.modMer f).groups = s.groups := rfl
@[simp] theorem State.modMer_teams (s : State) (f : Mer → Mer) : (s.modMer f).teams = s.teams := rfl
@[simp] theorem State.modMer_clusters (s : State) (f : Mer → Mer) : (s.modMer f).clusters = s.clusters := rfl
@[simp] theorem State.modMer_grids (s : State) (f : Mer → Mer) : (s.modMer f).grids = s.grids := rfl
@[simp] theorem State.modMer_dies (s : State) (f : Mer → Mer) : (s.modMer f).dies = s.dies := rfl
@[simp] theorem State.modMer_cmds (s : State) (f : Mer → Mer) : (s.modMer f).cmds = s.cmds := rfl
@[simp] theorem State.modMer_undo (s : State) (f : Mer → Mer) : (s.modMer f).undo = s.undo := rfl
@[simp] theorem State.modMer_shadows (s : State) (f : Mer → Mer) : (s.modMer f).shadows = s.shadows := rfl
@[simp] theorem State.modMer_charts (s : State) (f : Mer → Mer) : (s.modMer f).charts = s.charts := rfl
@[simp] theorem State.modMer_pages (s : State) (f : Mer → Mer) : (s.modMer f).pages = s.pages := rfl
@[simp] theorem State.modMer_models (s : State) (f : Mer → Mer) : (s.modMer f).models = s.models := rfl
@[simp] theorem State.modMer_requests (s : State) (f : Mer → Mer) : (s.modMer f).requests = s.requests := rfl
@[simp] theorem State.modMer_helm (s : State) (f : Mer → Mer) : (s.modMer f).helm = s.helm := rfl
@[simp] theorem State.modMer_mer (s : State) (f : Mer → Mer) : (s.modMer f).mer = f s.mer := rfl
@[simp] theorem State.modMer_ms (s : State) (f : Mer → Mer) : (s.modMer f).ms = s.ms := rfl
@[simp] theorem State.modMer_pkg (s : State) (f : Mer → Mer) : (s.modMer f).pkg = s.pkg := rfl

/-! ### modMs -/

@[simp] theorem State.modMs_agenda (s : State) (f : MemSys → MemSys) : (s.modMs f).agenda = s.agenda := rfl
@[simp] theorem State.modMs_cur (s : State) (f : MemSys → MemSys) : (s.modMs f).cur = s.cur := rfl
@[simp] theorem State.modMs_fresh (s : State) (f : MemSys → MemSys) : (s.modMs f).fresh = s.fresh := rfl
@[simp] theorem State.modMs_uid (s : State) (f : MemSys → MemSys) : (s.modMs f).uid = s.uid := rfl
@[simp] theorem State.modMs_mem (s : State) (f : MemSys → MemSys) : (s.modMs f).mem = s.mem := rfl
@[simp] theorem State.modMs_lineKey (s : State) (f : MemSys → MemSys) : (s.modMs f).lineKey = s.lineKey := rfl
@[simp] theorem State.modMs_cores (s : State) (f : MemSys → MemSys) : (s.modMs f).cores = s.cores := rfl
@[simp] theorem State.modMs_groups (s : State) (f : MemSys → MemSys) : (s.modMs f).groups = s.groups := rfl
@[simp] theorem State.modMs_teams (s : State) (f : MemSys → MemSys) : (s.modMs f).teams = s.teams := rfl
@[simp] theorem State.modMs_clusters (s : State) (f : MemSys → MemSys) : (s.modMs f).clusters = s.clusters := rfl
@[simp] theorem State.modMs_grids (s : State) (f : MemSys → MemSys) : (s.modMs f).grids = s.grids := rfl
@[simp] theorem State.modMs_dies (s : State) (f : MemSys → MemSys) : (s.modMs f).dies = s.dies := rfl
@[simp] theorem State.modMs_cmds (s : State) (f : MemSys → MemSys) : (s.modMs f).cmds = s.cmds := rfl
@[simp] theorem State.modMs_undo (s : State) (f : MemSys → MemSys) : (s.modMs f).undo = s.undo := rfl
@[simp] theorem State.modMs_shadows (s : State) (f : MemSys → MemSys) : (s.modMs f).shadows = s.shadows := rfl
@[simp] theorem State.modMs_charts (s : State) (f : MemSys → MemSys) : (s.modMs f).charts = s.charts := rfl
@[simp] theorem State.modMs_pages (s : State) (f : MemSys → MemSys) : (s.modMs f).pages = s.pages := rfl
@[simp] theorem State.modMs_models (s : State) (f : MemSys → MemSys) : (s.modMs f).models = s.models := rfl
@[simp] theorem State.modMs_requests (s : State) (f : MemSys → MemSys) : (s.modMs f).requests = s.requests := rfl
@[simp] theorem State.modMs_helm (s : State) (f : MemSys → MemSys) : (s.modMs f).helm = s.helm := rfl
@[simp] theorem State.modMs_mer (s : State) (f : MemSys → MemSys) : (s.modMs f).mer = s.mer := rfl
@[simp] theorem State.modMs_ms (s : State) (f : MemSys → MemSys) : (s.modMs f).ms = f s.ms := rfl
@[simp] theorem State.modMs_pkg (s : State) (f : MemSys → MemSys) : (s.modMs f).pkg = s.pkg := rfl

/-! ### modPkg -/

@[simp] theorem State.modPkg_agenda (s : State) (f : Pkg → Pkg) : (s.modPkg f).agenda = s.agenda := rfl
@[simp] theorem State.modPkg_cur (s : State) (f : Pkg → Pkg) : (s.modPkg f).cur = s.cur := rfl
@[simp] theorem State.modPkg_fresh (s : State) (f : Pkg → Pkg) : (s.modPkg f).fresh = s.fresh := rfl
@[simp] theorem State.modPkg_uid (s : State) (f : Pkg → Pkg) : (s.modPkg f).uid = s.uid := rfl
@[simp] theorem State.modPkg_mem (s : State) (f : Pkg → Pkg) : (s.modPkg f).mem = s.mem := rfl
@[simp] theorem State.modPkg_lineKey (s : State) (f : Pkg → Pkg) : (s.modPkg f).lineKey = s.lineKey := rfl
@[simp] theorem State.modPkg_cores (s : State) (f : Pkg → Pkg) : (s.modPkg f).cores = s.cores := rfl
@[simp] theorem State.modPkg_groups (s : State) (f : Pkg → Pkg) : (s.modPkg f).groups = s.groups := rfl
@[simp] theorem State.modPkg_teams (s : State) (f : Pkg → Pkg) : (s.modPkg f).teams = s.teams := rfl
@[simp] theorem State.modPkg_clusters (s : State) (f : Pkg → Pkg) : (s.modPkg f).clusters = s.clusters := rfl
@[simp] theorem State.modPkg_grids (s : State) (f : Pkg → Pkg) : (s.modPkg f).grids = s.grids := rfl
@[simp] theorem State.modPkg_dies (s : State) (f : Pkg → Pkg) : (s.modPkg f).dies = s.dies := rfl
@[simp] theorem State.modPkg_cmds (s : State) (f : Pkg → Pkg) : (s.modPkg f).cmds = s.cmds := rfl
@[simp] theorem State.modPkg_undo (s : State) (f : Pkg → Pkg) : (s.modPkg f).undo = s.undo := rfl
@[simp] theorem State.modPkg_shadows (s : State) (f : Pkg → Pkg) : (s.modPkg f).shadows = s.shadows := rfl
@[simp] theorem State.modPkg_charts (s : State) (f : Pkg → Pkg) : (s.modPkg f).charts = s.charts := rfl
@[simp] theorem State.modPkg_pages (s : State) (f : Pkg → Pkg) : (s.modPkg f).pages = s.pages := rfl
@[simp] theorem State.modPkg_models (s : State) (f : Pkg → Pkg) : (s.modPkg f).models = s.models := rfl
@[simp] theorem State.modPkg_requests (s : State) (f : Pkg → Pkg) : (s.modPkg f).requests = s.requests := rfl
@[simp] theorem State.modPkg_helm (s : State) (f : Pkg → Pkg) : (s.modPkg f).helm = s.helm := rfl
@[simp] theorem State.modPkg_mer (s : State) (f : Pkg → Pkg) : (s.modPkg f).mer = s.mer := rfl
@[simp] theorem State.modPkg_ms (s : State) (f : Pkg → Pkg) : (s.modPkg f).ms = s.ms := rfl
@[simp] theorem State.modPkg_pkg (s : State) (f : Pkg → Pkg) : (s.modPkg f).pkg = f s.pkg := rfl

/-! ### modReq -/

@[simp] theorem State.modReq_agenda (s : State) (n : Nat) (f : Request → Request) : (s.modReq n f).agenda = s.agenda := rfl
@[simp] theorem State.modReq_cur (s : State) (n : Nat) (f : Request → Request) : (s.modReq n f).cur = s.cur := rfl
@[simp] theorem State.modReq_fresh (s : State) (n : Nat) (f : Request → Request) : (s.modReq n f).fresh = s.fresh := rfl
@[simp] theorem State.modReq_uid (s : State) (n : Nat) (f : Request → Request) : (s.modReq n f).uid = s.uid := rfl
@[simp] theorem State.modReq_mem (s : State) (n : Nat) (f : Request → Request) : (s.modReq n f).mem = s.mem := rfl
@[simp] theorem State.modReq_lineKey (s : State) (n : Nat) (f : Request → Request) : (s.modReq n f).lineKey = s.lineKey := rfl
@[simp] theorem State.modReq_cores (s : State) (n : Nat) (f : Request → Request) : (s.modReq n f).cores = s.cores := rfl
@[simp] theorem State.modReq_groups (s : State) (n : Nat) (f : Request → Request) : (s.modReq n f).groups = s.groups := rfl
@[simp] theorem State.modReq_teams (s : State) (n : Nat) (f : Request → Request) : (s.modReq n f).teams = s.teams := rfl
@[simp] theorem State.modReq_clusters (s : State) (n : Nat) (f : Request → Request) : (s.modReq n f).clusters = s.clusters := rfl
@[simp] theorem State.modReq_grids (s : State) (n : Nat) (f : Request → Request) : (s.modReq n f).grids = s.grids := rfl
@[simp] theorem State.modReq_dies (s : State) (n : Nat) (f : Request → Request) : (s.modReq n f).dies = s.dies := rfl
@[simp] theorem State.modReq_cmds (s : State) (n : Nat) (f : Request → Request) : (s.modReq n f).cmds = s.cmds := rfl
@[simp] theorem State.modReq_undo (s : State) (n : Nat) (f : Request → Request) : (s.modReq n f).undo = s.undo := rfl
@[simp] theorem State.modReq_shadows (s : State) (n : Nat) (f : Request → Request) : (s.modReq n f).shadows = s.shadows := rfl
@[simp] theorem State.modReq_charts (s : State) (n : Nat) (f : Request → Request) : (s.modReq n f).charts = s.charts := rfl
@[simp] theorem State.modReq_pages (s : State) (n : Nat) (f : Request → Request) : (s.modReq n f).pages = s.pages := rfl
@[simp] theorem State.modReq_models (s : State) (n : Nat) (f : Request → Request) : (s.modReq n f).models = s.models := rfl
@[simp] theorem State.modReq_requests (s : State) (n : Nat) (f : Request → Request) : (s.modReq n f).requests = s.requests.modify n f := rfl
@[simp] theorem State.modReq_helm (s : State) (n : Nat) (f : Request → Request) : (s.modReq n f).helm = s.helm := rfl
@[simp] theorem State.modReq_mer (s : State) (n : Nat) (f : Request → Request) : (s.modReq n f).mer = s.mer := rfl
@[simp] theorem State.modReq_ms (s : State) (n : Nat) (f : Request → Request) : (s.modReq n f).ms = s.ms := rfl
@[simp] theorem State.modReq_pkg (s : State) (n : Nat) (f : Request → Request) : (s.modReq n f).pkg = s.pkg := rfl

end Sys2Proof.Machine
end

