-- ==== Sys2Proof/Laws/Ops.lean ====
section
/-! SUPPORT. What the shared operations of Machine/Ops.lean do: register writes, retiring, and the prelude of an
instruction that issues with nothing in its way. -/

namespace Sys2Proof.Machine

/-! ### The prelude -/

/-- With no h register that conflicts, what an instruction does is its own effect, where that retires or begins a wait. -/
theorem withRegs_clear {hs : List Access} {c : Ctx} {s : State} (k : Ctx → State → State)
    (hr : c.resumed = false → firstRace c.cl hs = none)
    (hm : c.moved (k c (if c.resumed = false then s.record c.team.cluster hs else s)) = true) :
    withRegs hs c s k = k c (if c.resumed = false then s.record c.team.cluster hs else s) := by
  unfold withRegs
  cases hw : c.resumed
  · simp only [hw, if_true] at hm
    simp [hm, hr hw]
  · simp

/-- The prelude of an instruction that issues clear is its own effect, where that retires or begins a wait. -/
theorem prelude_clear {i : Instr} {sync : Bool} {c : Ctx} {s : State} (k : Ctx → State → State) (h : Clear sync i c s)
    (hm : c.moved (k c (s.noted c i)) = true) : prelude i sync c s k = k c (s.noted c i) := by
  obtain ⟨-, h1, h2, h3, h4, -, h5⟩ := h
  unfold prelude
  unfold State.noted at hm ⊢
  rw [if_neg (by simp [h1]), if_neg (by simp [h2]), if_neg (by simp [h3]), if_neg h4]
  cases hr : c.reckon
  · rfl
  · obtain ⟨h6, h7⟩ := h5 hr
    simp only [hr, true_and] at hm
    simp only [if_true, true_and]
    split
    · rename_i hs
      simp only [Bool.and_eq_true, Bool.not_eq_true'] at hs
      rw [h6 hs.1] at hs
      exact absurd hs.2 (by simp)
    · exact withRegs_clear k h7 hm

/-- An instruction that issues clear answers its own effect. -/
theorem issueAs_clear {i : Instr} {sync : Bool} {c : Ctx} {s : State} (k : Ctx → State → State) (h : Clear sync i c s)
    (hm : c.moved (k c (s.noted c i)) = true) : issueAs sync i s k = .next (k c (s.noted c i)) := by
  unfold issueAs; rw [h.1]; simp only; rw [prelude_clear k h hm]

theorem issue_clear {i : Instr} {c : Ctx} {s : State} (k : Ctx → State → State) (h : Clear false i c s)
    (hm : c.moved (k c (s.noted c i)) = true) : issue i s k = .next (k c (s.noted c i)) := issueAs_clear k h hm

theorem issueSync_clear {i : Instr} {c : Ctx} {s : State} (k : Ctx → State → State) (h : Clear true i c s)
    (hm : c.moved (k c (s.noted c i)) = true) : issueSync i s k = .next (k c (s.noted c i)) := issueAs_clear k h hm

/-- An instruction that has completed has moved. -/
theorem Done.moved {c : Ctx} {n : Nat} {pc : DWord} {regs : Reg → Nat → Word → Word} {masks : Fin 8 → Word → Word}
    {upd : Group → Group} {s t : State} (h : Done c n pc regs masks upd s t) (hn : BitVec.ofNat 64 n ≠ 0) :
    c.moved t = true := by
  obtain ⟨g, hg, -, -, hi, -⟩ := h.group
  have : g.icnt ≠ c.grp.icnt := by
    rw [hi]
    intro e
    exact hn (by simpa using e)
  simp [Ctx.moved, hg, this]

/-! ### What a context says of its state -/

theorem ctx_group {i : Instr} {c : Ctx} {s : State} (h : s.ctx? i = some c) : s.groups.find? c.gid = some c.grp ∧
    c.grp.splits.find? c.slot = some c.sp ∧ s.teams.find? c.grp.team = some c.team ∧
    s.clusters.find? c.team.cluster = some c.cl ∧ s.grids.find? c.team.grid = some c.grid := by
  unfold State.ctx? at h
  split at h
  · exact absurd h (by simp)
  · unfold State.ctxAt at h
    split at h
    · exact absurd h (by simp)
    · rename_i g hg
      split at h
      · rename_i sp t hsp ht
        split at h
        · rename_i cl gr hcl hgr
          obtain rfl := Option.some.inj h
          exact ⟨hg, hsp, ht, hcl, hgr⟩
        · exact absurd h (by simp)
      · exact absurd h (by simp)

@[simp] theorem noted_groups (s : State) (c : Ctx) (i : Instr) : (s.noted c i).groups = s.groups := by
  unfold State.noted; split <;> rfl

@[simp] theorem noted_teams (s : State) (c : Ctx) (i : Instr) : (s.noted c i).teams = s.teams := by
  unfold State.noted; split <;> rfl

/-! ### Changes of registers alone -/

/-- A group without its registers. -/
def Group.bare (g : Group) : Group := { g with v := [], s := [], x := [], m := [] }

/-- From `s` to `u` the issuing group alone has changed. -/
structure Touched (c : Ctx) (regs : Reg → Nat → Word → Word) (masks : Fin 8 → Word → Word) (upd : Group → Group)
    (s u : State) : Prop where
  group : ∃ g t, u.groups.find? c.gid = some g ∧ u.teams.find? c.grp.team = some t ∧
    g.bare = (upd c.grp).bare ∧
    { t with h := [] } = { c.team with h := [] } ∧
    (∀ r l, l < 32 → readReg g t.h r l = regs r l (readReg c.grp c.team.h r l)) ∧
    ∀ k, readMask g k = masks k (readMask c.grp k)
  groups : ∀ k, k ≠ c.gid → u.groups.find? k = s.groups.find? k
  teams : ∀ k, k ≠ c.grp.team → u.teams.find? k = s.teams.find? k
  cores : u.cores = s.cores
  others : { u with groups := s.groups, teams := s.teams } = s

theorem touched_refl {c : Ctx} {s : State} (hg : s.groups.find? c.gid = some c.grp) (ht : s.teams.find? c.grp.team = some c.team) :
    Touched c keepRegs keepMasks keepRest s s :=
  ⟨⟨c.grp, c.team, hg, ht, rfl, rfl, fun _ _ _ => rfl, fun _ => rfl⟩, fun _ _ => rfl, fun _ _ => rfl, rfl, rfl⟩

theorem laneOf_lanesOf (f : Nat → Word) (l : Nat) (h : l < 32) : laneOf (lanesOf f) l = f l := by
  simp [laneOf, lanesOf, List.getD, h]

theorem laneOf_zero (m : Map Lanes) (n l : Nat) (h : l < 32) :
    laneOf (m.getD n (lanesOf (fun _ => 0))) l = laneOf (m.getD n []) l := by
  unfold Map.getD
  cases m.find? n
  · exact laneOf_lanesOf _ l h
  · rfl

theorem wrote_other {act : Word} {d r : Reg} (f : Nat → Word) (l : Nat) (old : Word) (h : r ≠ d) :
    wrote act d f r l old = old := if_neg h

/-- A v register after a write. -/
theorem readV_put (m : Map Lanes) (n k : Nat) (f : Nat → Word) (l : Nat) (h : l < 32) :
    laneOf ((m.put (lanesOf (fun _ => 0)) n (lanesOf f)).getD k []) l = if k = n then f l else laneOf (m.getD k []) l := by
  rw [← laneOf_zero _ _ _ h, Map.getD_put]
  split
  · exact laneOf_lanesOf f l h
  · exact laneOf_zero _ _ _ h

theorem touched_writeReg {c : Ctx} {regs : Reg → Nat → Word → Word} {masks : Fin 8 → Word → Word} {upd : Group → Group}
    {s u : State} (d : Reg)
    (f : Nat → Word) (h : Touched c regs masks upd s u) :
    Touched c (fun r l w => wrote c.act d f r l (regs r l w)) masks upd s (writeReg c d f u) := by
  obtain ⟨⟨g, t, h1, h2, h3, h4, h5, h6⟩, h7, h8, h9, h10⟩ := h
  cases d with
  | v n =>
    refine ⟨⟨writeV g n.val c.act f, t, ?_, h2, ?_, h4, ?_, h6⟩, ?_, h8, h9, h10⟩
    · simp [writeReg, writeRegAt, h1]
    · exact h3
    · intro r l hl
      cases r with
      | v k =>
        simp only [readReg, writeV]
        rw [readV_put _ _ _ _ _ hl]
        have := h5 (.v k) l hl
        simp only [readReg] at this
        by_cases hk : k = n
        · subst hk; simp [wrote, this]
        · rw [wrote_other _ _ _ (by simpa using hk), if_neg (fun h => hk (Fin.ext h))]
          exact this
      | s k => rw [wrote_other _ _ _ (by simp)]; exact h5 (.s k) l hl
      | h k => rw [wrote_other _ _ _ (by simp)]; exact h5 (.h k) l hl
      | x k => rw [wrote_other _ _ _ (by simp)]; exact h5 (.x k) l hl
      | zero => rw [wrote_other _ _ _ (by simp)]; exact h5 .zero l hl
    · intro k hk; simp [writeReg, writeRegAt, Map.find?_modify_other _ _ _ _ hk, h7 k hk]
  | s n =>
    refine ⟨⟨{ g with s := g.s.put 0 n.val (f 0) }, t, ?_, h2, ?_, h4, ?_, h6⟩, ?_, h8, h9, h10⟩
    · simp [writeReg, writeRegAt, h1]
    · exact h3
    · intro r l hl
      cases r with
      | s k =>
        have := h5 (.s k) l hl
        simp only [readReg] at this
        simp only [readReg, Map.getD_put]
        by_cases hk : k = n
        · subst hk; simp [wrote]
        · rw [wrote_other _ _ _ (by simpa using hk), if_neg (fun h => hk (Fin.ext h))]
          exact this
      | v k => rw [wrote_other _ _ _ (by simp)]; exact h5 (.v k) l hl
      | h k => rw [wrote_other _ _ _ (by simp)]; exact h5 (.h k) l hl
      | x k => rw [wrote_other _ _ _ (by simp)]; exact h5 (.x k) l hl
      | zero => rw [wrote_other _ _ _ (by simp)]; exact h5 .zero l hl
    · intro k hk; simp [writeReg, writeRegAt, Map.find?_modify_other _ _ _ _ hk, h7 k hk]
  | x n =>
    refine ⟨⟨{ g with x := g.x.put (0, 0) n.val (f 0, f 1 - f 0) }, t, ?_, h2, ?_, h4, ?_, h6⟩, ?_, h8, h9, h10⟩
    · simp [writeReg, writeRegAt, h1]
    · exact h3
    · intro r l hl
      cases r with
      | x k =>
        have := h5 (.x k) l hl
        simp only [readReg] at this
        simp only [readReg, Map.getD_put]
        by_cases hk : k = n
        · subst hk; simp [wrote]
        · rw [wrote_other _ _ _ (by simpa using hk), if_neg (fun h => hk (Fin.ext h))]
          exact this
      | v k => rw [wrote_other _ _ _ (by simp)]; exact h5 (.v k) l hl
      | h k => rw [wrote_other _ _ _ (by simp)]; exact h5 (.h k) l hl
      | s k => rw [wrote_other _ _ _ (by simp)]; exact h5 (.s k) l hl
      | zero => rw [wrote_other _ _ _ (by simp)]; exact h5 .zero l hl
    · intro k hk; simp [writeReg, writeRegAt, Map.find?_modify_other _ _ _ _ hk, h7 k hk]
  | h n =>
    refine ⟨⟨g, { t with h := t.h.put 0 n.val (f 0) }, h1, ?_, h3, ?_, ?_, h6⟩, h7, ?_, h9, h10⟩
    · simp [writeReg, writeRegAt, h2]
    · simpa using h4
    · intro r l hl
      cases r with
      | h k =>
        have := h5 (.h k) l hl
        simp only [readReg] at this
        simp only [readReg, Map.getD_put]
        by_cases hk : k = n
        · subst hk; simp [wrote]
        · rw [wrote_other _ _ _ (by simpa using hk), if_neg (fun h => hk (Fin.ext h))]
          exact this
      | v k => rw [wrote_other _ _ _ (by simp)]; exact h5 (.v k) l hl
      | x k => rw [wrote_other _ _ _ (by simp)]; exact h5 (.x k) l hl
      | s k => rw [wrote_other _ _ _ (by simp)]; exact h5 (.s k) l hl
      | zero => rw [wrote_other _ _ _ (by simp)]; exact h5 .zero l hl
    · intro k hk; simp [writeReg, writeRegAt, Map.find?_modify_other _ _ _ _ hk, h8 k hk]
  | zero =>
    refine ⟨⟨g, t, h1, h2, h3, h4, ?_, h6⟩, h7, h8, h9, h10⟩
    intro r l hl
    by_cases hr : r = .zero
    · subst hr; rfl
    · rw [wrote_other _ _ _ hr]; exact h5 r l hl

theorem touched_writeMask {c : Ctx} {regs : Reg → Nat → Word → Word} {masks : Fin 8 → Word → Word} {upd : Group → Group}
    {s u : State} (d : Fin 8)
    (w : Word) (h : Touched c regs masks upd s u) :
    Touched c regs (fun k old => wroteMask d w k (masks k old)) upd s (writeMask c d w u) := by
  obtain ⟨⟨g, t, h1, h2, h3, h4, h5, h6⟩, h7, h8, h9, h10⟩ := h
  unfold writeMask
  by_cases hd : d = 0
  · simp only [hd, if_true]
    exact ⟨⟨g, t, h1, h2, h3, h4, h5, fun k => by simp [wroteMask, h6 k]⟩, h7, h8, h9, h10⟩
  · simp only [hd, if_false]
    refine ⟨⟨{ g with m := g.m.put 0 d.val w }, t, ?_, h2, ?_, h4, ?_, ?_⟩, ?_, h8, h9, h10⟩
    · simp [h1]
    · exact h3
    · intro r l hl
      have := h5 r l hl
      cases r <;> simpa [readReg] using this
    · intro k
      have := h6 k
      simp only [readMask] at this ⊢
      by_cases hk : k = d
      · subst hk; simp [wroteMask, hd, Map.getD_put]
      · have hv : ¬ (k : Nat) = d := fun h => hk (Fin.ext h)
        simp only [Map.getD_put, hv, if_false, this]
        simp [wroteMask, hk]
    · intro k hk; simp [Map.find?_modify_other _ _ _ _ hk, h7 k hk]

/-- A change of the group's other fields. -/
theorem touched_group {c : Ctx} {regs : Reg → Nat → Word → Word} {masks : Fin 8 → Word → Word} {upd : Group → Group}
    {s u : State} (f : Group → Group)
    (hf : ∀ g, (f g).bare = f g.bare ∧ ((f g).v, (f g).s, (f g).x, (f g).m) = (g.v, g.s, g.x, g.m))
    (h : Touched c regs masks upd s u) :
    Touched c regs masks (fun g => f (upd g)) s (u.modGroup c.gid f) := by
  obtain ⟨⟨g, t, h1, h2, h3, h4, h5, h6⟩, h7, h8, h9, h10⟩ := h
  refine ⟨⟨f g, t, by simp [h1], h2, ?_, h4, ?_, ?_⟩, ?_, h8, h9, h10⟩
  · rw [(hf g).1, h3, (hf _).1]
  · intro r l hl
    rw [← h5 r l hl]
    obtain ⟨hv, hs, hx, -⟩ : (f g).v = g.v ∧ (f g).s = g.s ∧ (f g).x = g.x ∧ (f g).m = g.m := by
      have := (hf g).2; simp only [Prod.mk.injEq] at this; exact this
    cases r <;> simp [readReg, hv, hs, hx]
  · intro k
    rw [← h6 k]
    have := (hf g).2
    simp only [Prod.mk.injEq] at this
    simp [readMask, this.2.2.2]
  · intro k hk; simp [Map.find?_modify_other _ _ _ _ hk, h7 k hk]

/-! ### Retiring -/

theorem rouse_rest (g : Group) (a b : Nat) (o : Option Nat) : (g.rouse a b o).rest = g.rest := by
  unfold Group.rouse; split <;> rfl

theorem issued_groups (s : State) (core seq gid slot k : Nat) : (s.issued core seq gid slot).groups.find? k =
    (s.groups.find? k).map (fun g => if k = gid then { g.rouse core seq (some slot) with lastSlot := some slot }
      else g.rouse core seq none) := by
  simp only [State.issued]
  exact Map.find?_map s.groups (fun k (g : Group) => if k = gid then { g.rouse core seq (some slot) with
    lastSlot := some slot } else g.rouse core seq none) k

theorem readReg_rest {g g' : Group} (hv : g.v = g'.v) (hs : g.s = g'.s) (hx : g.x = g'.x) (h : Map Word) (r : Reg) (l : Nat) :
    readReg g h r l = readReg g' h r l := by
  cases r <;> simp [readReg, hv, hs, hx]

/-- Registers change and then the instruction retires: it has completed. -/
theorem done_of_touched {c : Ctx} {regs : Reg → Nat → Word → Word} {masks : Fin 8 → Word → Word} {upd : Group → Group}
    {s u : State} (n : Nat)
    (pc : DWord) (hg : s.groups.find? c.gid = some c.grp) (ht : s.teams.find? c.grp.team = some c.team)
    (hsp : c.grp.splits.find? c.slot = some c.sp)
    (hu : ((upd c.grp).team, (upd c.grp).splits, (upd c.grp).icnt, (upd c.grp).ltime, (upd c.grp).core, (upd c.grp).seq) =
      (c.grp.team, c.grp.splits, c.grp.icnt, c.grp.ltime, c.grp.core, c.grp.seq)) (h : Touched c regs masks upd s u) :
    Done c n pc regs masks upd s (retireTo c n c.observed pc u) := by
  obtain ⟨⟨g, t, h1, h2, h3, h4, h5, h6⟩, h7, h8, h9, h10⟩ := h
  simp only [Prod.mk.injEq] at hu
  have hteam : g.team = c.grp.team := by
    have := congrArg Group.team h3; exact Eq.trans this hu.1
  have hsplits : g.splits = c.grp.splits := by
    have := congrArg Group.splits h3; exact Eq.trans this hu.2.1
  have hicnt : g.icnt = c.grp.icnt := by
    have := congrArg Group.icnt h3; exact Eq.trans this hu.2.2.1
  have hlt : g.ltime = c.grp.ltime := by
    have := congrArg Group.ltime h3; exact Eq.trans this hu.2.2.2.1
  have hcore : g.core = c.grp.core := by
    have := congrArg Group.core h3; exact Eq.trans this hu.2.2.2.2.1
  have hseq : g.seq = c.grp.seq := by
    have := congrArg Group.seq h3; exact Eq.trans this hu.2.2.2.2.2
  -- the group as it retires
  let g1 : Group := { g.count c.reckon n c.observed with
    splits := g.splits.modify c.slot (fun sp => { sp with pc := pc, wait := .none }) }
  let g2 : Group := { g1.rouse c.grp.core c.grp.seq (some c.slot) with lastSlot := some c.slot }
  have hfind : (retireTo c n c.observed pc u).groups.find? c.gid = some g2 := by
    unfold retireTo
    rw [issued_groups]
    simp [State.retireAt, State.modSplit, h1, g2, g1, Group.count]
  have hteams : (retireTo c n c.observed pc u).teams = u.teams := rfl
  have hv : g2.v = g.v := by simp only [g2, Group.rouse]; split <;> rfl
  have hs : g2.s = g.s := by simp only [g2, Group.rouse]; split <;> rfl
  have hx : g2.x = g.x := by simp only [g2, Group.rouse]; split <;> rfl
  have hm : g2.m = g.m := by simp only [g2, Group.rouse]; split <;> rfl
  have htm : g2.team = g.team := by simp only [g2, Group.rouse]; split <;> rfl
  refine ⟨?_, ?_, ⟨g2, hfind, ?_, rfl, ?_, ?_, ?_, ?_⟩, ?_, ?_, ?_⟩
  · intro r l hl
    simp only [State.lane, hfind, hg, hteams, htm, hteam, h2, ht, Option.map_some, Option.getD_some]
    rw [readReg_rest hv hs hx, h5 r l hl]
  · intro k
    simp only [State.mask, hfind, hg]
    rw [← h6 k]; simp [readMask, hm]
  · have := congrArg Group.rest h3
    have hr : g2.rest = (g1.rouse c.grp.core c.grp.seq (some c.slot)).rest := rfl
    rw [hr, rouse_rest]
    exact this
  · simp only [g2, Group.rouse]; split <;> simp [g1, Group.count, hicnt]
  · simp only [g2, Group.rouse]; split <;> simp [g1, Group.count, hicnt, hlt]
  · simp only [g2, Group.rouse, g1, Group.count, hcore, hseq, and_self, if_true]
    rw [Map.find?_map (g.splits.modify c.slot _) (fun k (sp : Split) => if some c.slot = some k then sp else sp.rouse) c.slot]
    simp [hsplits, hsp]
  · intro k hk
    simp only [g2, Group.rouse, g1, Group.count, hcore, hseq, and_self, if_true]
    rw [Map.find?_map (g.splits.modify c.slot _) (fun k (sp : Split) => if some c.slot = some k then sp else sp.rouse) k,
      Map.find?_modify_other _ _ _ _ hk, hsplits]
    have : ¬ c.slot = k := fun h => hk h.symm
    simp [this]
  · intro k hk
    unfold retireTo
    rw [issued_groups]
    simp [State.retireAt, State.modSplit, Map.find?_modify_other _ _ _ _ hk, h7 k hk, hk]
  · intro k
    rw [hteams]
    by_cases hk : k = c.grp.team
    · subst hk; rw [h2, ht]; simpa using h4
    · rw [h8 k hk]
  · have : { (retireTo c n c.observed pc u) with groups := s.groups, teams := s.teams } =
        ({ u with groups := s.groups, teams := s.teams } : State) := rfl
    rw [this, h10]

/-- An instruction whose effect completes answers that. -/
theorem issue_done {i : Instr} {c : Ctx} {s : State} {k : Ctx → State → State} {n : Nat} {pc : DWord}
    {regs : Reg → Nat → Word → Word} {masks : Fin 8 → Word → Word} {upd : Group → Group} (h : Clear false i c s)
    (hn : BitVec.ofNat 64 n ≠ 0) (hd : Done c n pc regs masks upd (s.noted c i) (k c (s.noted c i))) :
    ∃ t, issue i s k = .next t ∧ Done c n pc regs masks upd (s.noted c i) t :=
  ⟨_, issue_clear k h (hd.moved hn), hd⟩

/-- A result written to one register. -/
theorem gives_of {i : Instr} {d : Reg} {f : Ctx → Nat → Word} (h : ∀ s, exec i s = issueResult i d s f) : Gives i d f := by
  intro c s hc
  have hx := ctx_group hc.1
  rw [h]
  exact issue_done hc (by decide) (done_of_touched 1 _ (by simpa using hx.1) (by simpa using hx.2.2.1) hx.2.1 rfl
    (touched_writeReg d (f c) (touched_refl (by simpa using hx.1) (by simpa using hx.2.2.1))))

/-- A result of a lane operation. -/
theorem givesLate_of {i : Instr} {d : Reg} {f : Ctx → Nat → Word} (h : ∀ s, exec i s = issueLanes i d s f) :
    GivesLate i d f := by
  intro c s hc
  have hx := ctx_group hc.1
  rw [h]
  exact issue_done hc (by decide) (done_of_touched 1 _ (by simpa using hx.1) (by simpa using hx.2.2.1) hx.2.1 rfl
    (touched_group (pendAlso (regCodes (d, 1))) (fun _ => ⟨rfl, rfl⟩)
      (touched_writeReg d (f c) (touched_refl (by simpa using hx.1) (by simpa using hx.2.2.1)))))

/-- A value written to one mask register. -/
theorem givesMask_of {i : Instr} {d : Fin 8} {f : Ctx → Word}
    (h : ∀ s, exec i s = issue i s (fun c s => retire c (writeMask c d (f c) s))) : GivesMask i d f := by
  intro c s hc
  have hx := ctx_group hc.1
  rw [h]
  exact issue_done hc (by decide) (done_of_touched 1 _ (by simpa using hx.1) (by simpa using hx.2.2.1) hx.2.1 rfl
    (touched_writeMask d (f c) (touched_refl (by simpa using hx.1) (by simpa using hx.2.2.1))))

end Sys2Proof.Machine
end

