-- ==== Sys2Proof/Laws/Memory.lean ====
section
/-! SUPPORT. What reads of memory give after writes and accesses: a byte written reads back, every other byte reads as
before, and an access whose lines bear its key leaves every byte. -/

namespace Sys2Proof.Machine

/-! ### One byte -/

theorem core_modCore (s : State) (c k : Nat) (f : Core → Core) : (s.modCore c f).core k = if k = c then f (s.core c) else s.core k := by
  show Map.getD (Map.put s.cores Core.reset c (f (s.core c))) k Core.reset = _
  rw [Map.getD_put]; rfl

theorem byteAt_congr {s t : State} (h : (t.mem, t.ms, t.cores) = (s.mem, s.ms, s.cores)) (p : Place) : t.byteAt p = s.byteAt p := by
  simp only [Prod.mk.injEq] at h
  obtain ⟨h1, h2, h3⟩ := h
  unfold State.byteAt State.physBytes State.core
  rw [h1, h2, h3]

@[simp] theorem logByte_frame (s : State) (p : Place) :
    ((s.logByte p).mem, (s.logByte p).ms, (s.logByte p).cores) = (s.mem, s.ms, s.cores) := by
  unfold State.logByte; split <;> rfl

@[simp] theorem markWritten_frame (s : State) (a : Nat) :
    ((s.markWritten a).mem, (s.markWritten a).ms, (s.markWritten a).cores) = (s.mem, s.ms, s.cores) := by
  unfold State.markWritten; split <;> rfl

@[simp] theorem markStale_frame (s : State) (sp : Space) (a b : Nat) :
    ((s.markStale sp a b).mem, (s.markStale sp a b).ms, (s.markStale sp a b).cores) = (s.mem, s.ms, s.cores) := by
  unfold State.markStale; split <;> rfl

/-- A physical byte after a store. -/
theorem byteAt_physStore (s : State) (pa : Nat) (b : Byte) (p : Place) :
    (s.physStore pa [b]).byteAt p = if p = (.global, pa) ∧ paOk s.ms pa = true then b else s.byteAt p := by
  obtain ⟨sp, a⟩ := p
  unfold State.physStore
  by_cases hp : paOk s.ms pa = true
  · rw [if_pos hp]
    cases sp with
    | global =>
      simp only [State.byteAt, State.physBytes, Prod.mk.injEq, true_and, hp, and_true]
      by_cases ha : a = pa
      · subst ha
        simp only [hp, if_true]
        show Mem.byte (Mem.store s.mem a b) a = b
        exact Mem.byte_store_self ..
      · simp only [ha, if_false]
        split
        · show Mem.byte (Mem.store s.mem pa b) a = Mem.byte s.mem a
          exact Mem.byte_store_other _ _ _ _ ha
        · rfl
    | spad c => simp [State.byteAt, State.core]
    | wbuf c => simp [State.byteAt, State.core]
  · rw [if_neg hp]; simp [hp]

theorem putByte_ms (s : State) (p : Place) (b : Byte) : (s.putByte p b).ms = s.ms := by
  have h1 := logByte_frame s p
  simp only [Prod.mk.injEq] at h1
  obtain ⟨sp, a⟩ := p
  unfold State.putByte
  cases sp with
  | global =>
    have h2 := markWritten_frame (s.logByte (.global, a)) a
    simp only [Prod.mk.injEq] at h2
    simp only [State.physStore]
    split
    · exact h2.2.1.trans h1.2.1
    · exact h2.2.1.trans h1.2.1
  | spad c =>
    have h2 := markStale_frame ((s.logByte (.spad c, a)).modCore c (fun k => { k with spad := k.spad.store a b })) (.spad c) a (a + 1)
    simp only [Prod.mk.injEq] at h2
    exact h2.2.1.trans h1.2.1
  | wbuf c =>
    have h2 := markStale_frame ((s.logByte (.wbuf c, a)).modCore c (fun k => { k with wbuf := k.wbuf.store a b })) (.wbuf c) a (a + 1)
    simp only [Prod.mk.injEq] at h2
    exact h2.2.1.trans h1.2.1

/-- A byte after a byte is put at a place. -/
theorem byteAt_putByte (s : State) (p q : Place) (b : Byte) :
    (s.putByte p b).byteAt q = if q = p ∧ placeOk s p = true then b else s.byteAt q := by
  have h1 := logByte_frame s p
  have hb : ∀ q, (s.logByte p).byteAt q = s.byteAt q := byteAt_congr h1
  simp only [Prod.mk.injEq] at h1
  obtain ⟨sp, a⟩ := p
  unfold State.putByte
  cases sp with
  | global =>
    have h2 := markWritten_frame (s.logByte (.global, a)) a
    have hb2 : ∀ q, ((s.logByte (.global, a)).markWritten a).byteAt q = s.byteAt q := fun q => (byteAt_congr h2 q).trans (hb q)
    simp only [Prod.mk.injEq] at h2
    simp only
    rw [byteAt_physStore, hb2, h2.2.1, h1.2.1]
    rfl
  | spad c =>
    simp only
    rw [byteAt_congr (markStale_frame _ _ _ _)]
    obtain ⟨sq, d⟩ := q
    cases sq with
    | global => simp [State.byteAt, State.physBytes, h1.1, h1.2.1]
    | spad c' =>
      have := hb (.spad c', d)
      simp only [State.byteAt] at this ⊢
      rw [core_modCore]
      by_cases hc : c' = c
      · subst hc
        simp only [if_true]
        by_cases hd : d = a
        · subst hd; simp [placeOk, Mem.byte_store_self]
        · simp only [Prod.mk.injEq, hd, and_false, false_and, if_false]
          rw [Mem.byte_store_other _ _ _ _ hd]; exact this
      · simpa [hc] using this
    | wbuf c' =>
      have := hb (.wbuf c', d)
      simp only [State.byteAt] at this ⊢
      rw [core_modCore]
      by_cases hc : c' = c
      · subst hc; simpa using this
      · simpa [hc] using this
  | wbuf c =>
    simp only
    rw [byteAt_congr (markStale_frame _ _ _ _)]
    obtain ⟨sq, d⟩ := q
    cases sq with
    | global => simp [State.byteAt, State.physBytes, h1.1, h1.2.1]
    | wbuf c' =>
      have := hb (.wbuf c', d)
      simp only [State.byteAt] at this ⊢
      rw [core_modCore]
      by_cases hc : c' = c
      · subst hc
        simp only [if_true]
        by_cases hd : d = a
        · subst hd; simp [placeOk, Mem.byte_store_self]
        · simp only [Prod.mk.injEq, hd, and_false, false_and, if_false]
          rw [Mem.byte_store_other _ _ _ _ hd]; exact this
      · simpa [hc] using this
    | spad c' =>
      have := hb (.spad c', d)
      simp only [State.byteAt] at this ⊢
      rw [core_modCore]
      by_cases hc : c' = c
      · subst hc; simpa using this
      · simpa [hc] using this

/-! ### Many bytes -/

theorem putBytes_ms (s : State) (ps : List (Place × Byte)) : (s.putBytes ps).ms = s.ms := by
  induction ps generalizing s with
  | nil => rfl
  | cons e ps ih => exact (ih (s.putByte e.1 e.2)).trans (putByte_ms s e.1 e.2)

theorem placeOk_congr {s t : State} (h : t.ms = s.ms) (p : Place) : placeOk t p = placeOk s p := by
  unfold placeOk; rw [h]

/-- A byte after bytes are put at places: the last one put there. -/
theorem byteAt_putBytes (s : State) (ps : List (Place × Byte)) (q : Place) :
    (s.putBytes ps).byteAt q =
      if placeOk s q = true then ((ps.reverse.find? (fun e => e.1 = q)).map Prod.snd).getD (s.byteAt q) else s.byteAt q := by
  induction ps generalizing s with
  | nil => simp [State.putBytes]
  | cons e ps ih =>
    have := ih (s.putByte e.1 e.2)
    rw [show s.putBytes (e :: ps) = (s.putByte e.1 e.2).putBytes ps from rfl, this,
      placeOk_congr (putByte_ms s e.1 e.2), byteAt_putByte]
    by_cases hq : placeOk s q = true
    · simp only [hq, if_true, List.reverse_cons, List.find?_append]
      cases hf : ps.reverse.find? (fun e => decide (e.1 = q)) with
      | some x => simp
      | none =>
        by_cases he : e.1 = q
        · subst he; simp [hq]
        · have : ¬ q = e.1 := fun h => he h.symm
          simp [he, this]
    · simp only [hq]
      by_cases he : q = e.1
      · subst he; simp [hq]
      · simp [he]

/-! ### Accesses -/

@[simp] theorem cipher_length (ms : MemSys) (enc : Bool) (tag line : Nat) (bs : List Byte) :
    (cipher ms enc tag line bs).length = bs.length := by
  unfold cipher; split <;> simp

@[simp] theorem Mem.bytes_length (m : Mem) (a n : Nat) : (m.bytes a n).length = n := by
  induction n generalizing a with
  | zero => rfl
  | succ n ih => simp [Mem.bytes, ih]

theorem retag_held (s : State) (tag line : Nat) (h : s.lineKey.getD line 0 = tag) : s.retag tag line = s := by
  unfold State.retag; simp [h]

/-- A retagged line leaves every byte outside it. -/
theorem mem_retag_other (s : State) (tag line a : Nat) (h : a / 128 ≠ line) : (s.retag tag line).mem.byte a = s.mem.byte a := by
  unfold State.retag
  simp only
  split
  · rfl
  · apply Mem.byte_storeBytes_out
    simp only [cipher_length, Mem.bytes_length]
    omega

/-- From `s` to `t` nothing that reads of memory depend on has changed. -/
structure SameBytes (s t : State) : Prop where
  mem : t.mem = s.mem
  lineKey : t.lineKey = s.lineKey
  exist : ∀ pa, paOk t.ms pa = paOk s.ms pa
  spad : ∀ k, (t.core k).spad = (s.core k).spad
  wbuf : ∀ k, (t.core k).wbuf = (s.core k).wbuf

theorem SameBytes.refl (s : State) : SameBytes s s := ⟨rfl, rfl, fun _ => rfl, fun _ => rfl, fun _ => rfl⟩

theorem SameBytes.trans {s t u : State} (h : SameBytes s t) (k : SameBytes t u) : SameBytes s u :=
  ⟨k.mem.trans h.mem, k.lineKey.trans h.lineKey, fun a => (k.exist a).trans (h.exist a),
    fun a => (k.spad a).trans (h.spad a), fun a => (k.wbuf a).trans (h.wbuf a)⟩

theorem SameBytes.byteAt {s t : State} (h : SameBytes s t) (p : Place) : t.byteAt p = s.byteAt p := by
  obtain ⟨sp, a⟩ := p
  cases sp <;> simp [State.byteAt, State.physBytes, h.mem, h.exist, h.spad, h.wbuf]

theorem touchLine_held (s : State) (tag line : Nat)
    (h : isHostPa (line * 128) = true ∨ s.lineKey.getD line 0 = tag) : SameBytes s (s.touchLine tag line) := by
  have hr : isHostPa (line * 128) = false → ∀ ms, ({ s with ms := ms } : State).retag tag line = { s with ms := ms } :=
    fun hh ms => retag_held _ _ _ (by simpa [hh] using h)
  have hs : isHostPa (line * 128) = false → s.retag tag line = s := fun hh => retag_held _ _ _ (by simpa [hh] using h)
  unfold State.touchLine
  by_cases hp : paOk s.ms (line * 128) = true
  · rw [if_pos hp]
    by_cases ht : (s.ms.tcache.find? line).isSome = true
    · simp only [ht, if_true]
      by_cases hh : isHostPa (line * 128) = true
      · rw [if_pos hh]; exact ⟨rfl, rfl, fun _ => rfl, fun _ => rfl, fun _ => rfl⟩
      · rw [if_neg hh, hr (by simpa using hh)]; exact ⟨rfl, rfl, fun _ => rfl, fun _ => rfl, fun _ => rfl⟩
    · simp only [ht]
      by_cases hh : isHostPa (line * 128) = true
      · rw [if_pos hh]; exact SameBytes.refl s
      · rw [if_neg hh]
        have := hs (by simpa using hh)
        simp only [Bool.false_eq_true, if_false, this]
        exact SameBytes.refl s
  · rw [if_neg hp]; exact ⟨rfl, rfl, fun _ => rfl, fun _ => rfl, fun _ => rfl⟩

theorem find?_getD_map {α β : Type} (m : Map α) (f : Nat → α → α) (k : Nat) (d : α) (g : α → β) (h : ∀ k a, g (f k a) = g a) :
    g (Map.getD (m.map (fun e => (e.1, f e.1 e.2))) k d) = g (m.getD k d) := by
  unfold Map.getD
  rw [Map.find?_map]
  cases m.find? k <;> simp [h]

theorem recall_same (s : State) (keep : Option Nat) (line : Nat) : SameBytes s (s.recall keep line) := by
  unfold State.recall
  split
  · let f : Nat → Core → Core := fun k x => if some k ≠ keep ∧ x.alb.contains line then
      { x with alb := x.alb.erase line, compass := x.compass.put 0 (compassIndex line)
                 (min 3 (x.compass.getD (compassIndex line) 0 + 1)) } else x
    have hm : s.cores.map (fun e => if some e.1 ≠ keep ∧ e.2.alb.contains line then
          (e.1, { e.2 with alb := e.2.alb.erase line,
                           compass := e.2.compass.put 0 (compassIndex line)
                             (min 3 (e.2.compass.getD (compassIndex line) 0 + 1)) })
        else e) = s.cores.map (fun e => (e.1, f e.1 e.2)) := by
      apply List.map_congr_left
      intro e _
      simp only [f]
      split <;> rfl
    refine ⟨rfl, rfl, fun _ => rfl, fun k => ?_, fun k => ?_⟩
    · simp only [State.core, hm]
      exact find?_getD_map s.cores f k Core.reset (fun c => c.spad) (fun k a => by simp only [f]; split <;> rfl)
    · simp only [State.core, hm]
      exact find?_getD_map s.cores f k Core.reset (fun c => c.wbuf) (fun k a => by simp only [f]; split <;> rfl)
  · exact SameBytes.refl s

theorem useLine_same (s : State) (keep : Option Nat) (line : Nat) : SameBytes s (s.useLine keep line) := by
  unfold State.useLine
  split
  · split
    · refine ⟨rfl, rfl, fun _ => rfl, fun k => ?_, fun k => ?_⟩ <;> rw [core_modCore] <;> split <;> rename_i h <;>
        first | (subst h; rfl) | rfl
    · exact SameBytes.refl s
  · exact SameBytes.refl s

theorem touchPlace_held (s : State) (keep : Option Nat) (tag : Nat) (p : Place)
    (h : p.1 = .global → isHostPa (p.2 / 128 * 128) = true ∨ s.lineKey.getD (p.2 / 128) 0 = tag) :
    SameBytes s (s.touchPlace keep tag p) := by
  obtain ⟨sp, a⟩ := p
  unfold State.touchPlace
  cases sp with
  | global =>
    have h1 := (recall_same s keep (a / 128)).trans (useLine_same (s.recall keep (a / 128)) keep (a / 128))
    refine h1.trans (touchLine_held _ _ _ ?_)
    rw [h1.lineKey]
    exact h rfl
  | spad c => exact SameBytes.refl s
  | wbuf c => exact SameBytes.refl s

/-- An access whose lines bear its key leaves what memory reads as. -/
theorem touchPlaces_held (s : State) (keep : Option Nat) (tag : Nat) (ps : List Place) (h : KeyHeld s tag ps) :
    SameBytes s (s.touchPlaces keep tag ps) := by
  unfold State.touchPlaces
  have hu : ∀ u ∈ (ps.map unitOf).dedup, u.1 = .global →
      isHostPa (u.2 * 128) = true ∨ s.lineKey.getD u.2 0 = tag := by
    intro u hu hg
    rw [List.mem_dedup, List.mem_map] at hu
    obtain ⟨p, hp, rfl⟩ := hu
    obtain ⟨sp, a⟩ := p
    cases sp with
    | global => exact h _ hp rfl
    | spad c => simp [unitOf] at hg
    | wbuf c => simp [unitOf] at hg
  have key : ∀ (us : List Place) (u : State), SameBytes s u → (∀ x ∈ us, x.1 = .global →
      isHostPa (x.2 * 128) = true ∨ s.lineKey.getD x.2 0 = tag) →
      SameBytes s (us.foldl (fun s u => match u.1 with
        | .global => s.touchPlace keep tag (.global, u.2 * 128)
        | _ => s) u) := by
    intro us
    induction us with
    | nil => intro u hs _; exact hs
    | cons x us ih =>
      intro u hs hx
      refine ih _ ?_ (fun y hy => hx y (List.mem_cons_of_mem _ hy))
      obtain ⟨sp, n⟩ := x
      cases sp with
      | global =>
        refine hs.trans (touchPlace_held u keep tag _ ?_)
        intro _
        rw [hs.lineKey]
        have := hx (.global, n) List.mem_cons_self rfl
        simpa using this
      | spad c => exact hs
      | wbuf c => exact hs
  exact key _ s (SameBytes.refl s) hu

end Sys2Proof.Machine
end

