-- ==== Sys2Proof/Laws/Access.lean ====
section
/-! SUPPORT. What the shared access of Machine/Access.lean does: it answers its continuation when nothing is in its way,
and what it leaves of the machine. -/

namespace Sys2Proof.Machine

/-- An access that nothing stands in the way of. -/
theorem access_ok {c : Ctx} {s : State} {act : Word} {addr : Nat → DWord} {size : Nat} {need : Need} {k : AccessKind}
    {a b w : Bool} (go : State → State) (h : AccessOk c s act addr size need k a b w) :
    access c s act addr size need k a b w go = go (accessed c s act addr size need k) := by
  unfold access
  rw [h.legal]
  simp only [h.race, h.held]
  cases hw : w
  · simp
  · simp [h.owned hw]

/-- An access of places that nothing stands in the way of. -/
theorem spanAccess_ok {c : Ctx} {s : State} {addr : DWord} {ps : List Place} {k : AccessKind} {w : Bool} (go : State → State)
    (h : SpanOk c s addr ps k w) : spanAccess c s addr ps k w go = go (spanAccessed c s ps k) := by
  unfold spanAccess
  simp only [h.race, h.held]
  cases hw : w
  · simp
  · simp [h.owned hw]

/-- From `s` to `t` nothing has changed but memory, keys, cores' buffers, the memory system and clusters' metadata. -/
structure SameAgents (s t : State) : Prop where
  groups : t.groups = s.groups
  teams : t.teams = s.teams
  grids : t.grids = s.grids
  cmds : t.cmds = s.cmds
  charts : t.charts = s.charts
  pages : t.pages = s.pages
  helm : t.helm = s.helm
  mer : t.mer = s.mer
  pkg : t.pkg = s.pkg

theorem SameAgents.refl (s : State) : SameAgents s s := ⟨rfl, rfl, rfl, rfl, rfl, rfl, rfl, rfl, rfl⟩

theorem SameAgents.trans {s t u : State} (h : SameAgents s t) (k : SameAgents t u) : SameAgents s u :=
  ⟨k.groups.trans h.groups, k.teams.trans h.teams, k.grids.trans h.grids, k.cmds.trans h.cmds, k.charts.trans h.charts,
    k.pages.trans h.pages, k.helm.trans h.helm, k.mer.trans h.mer, k.pkg.trans h.pkg⟩

theorem sameAgents_foldl {α : Type} (f : State → α → State) (h : ∀ s a, SameAgents s (f s a)) (l : List α) (s : State) :
    SameAgents s (l.foldl f s) := by
  induction l generalizing s with
  | nil => exact SameAgents.refl s
  | cons a l ih => exact (h s a).trans (ih (f s a))

theorem sameAgents_retag (s : State) (tag line : Nat) : SameAgents s (s.retag tag line) := by
  unfold State.retag; simp only; split <;> exact ⟨rfl, rfl, rfl, rfl, rfl, rfl, rfl, rfl, rfl⟩

theorem sameAgents_touchLine (s : State) (tag line : Nat) : SameAgents s (s.touchLine tag line) := by
  unfold State.touchLine
  split
  · simp only
    split
    · split
      · exact ⟨rfl, rfl, rfl, rfl, rfl, rfl, rfl, rfl, rfl⟩
      · exact SameAgents.refl s
    · split
      · exact SameAgents.trans (t := { s with ms := { s.ms with tcache := s.ms.tcache.erase line, tchits := s.ms.tchits + 1 } })
          ⟨rfl, rfl, rfl, rfl, rfl, rfl, rfl, rfl, rfl⟩ (sameAgents_retag _ _ _)
      · exact sameAgents_retag _ _ _
  · exact ⟨rfl, rfl, rfl, rfl, rfl, rfl, rfl, rfl, rfl⟩

theorem sameAgents_recall (s : State) (keep : Option Nat) (line : Nat) : SameAgents s (s.recall keep line) := by
  unfold State.recall; split <;> exact ⟨rfl, rfl, rfl, rfl, rfl, rfl, rfl, rfl, rfl⟩

theorem sameAgents_useLine (s : State) (keep : Option Nat) (line : Nat) : SameAgents s (s.useLine keep line) := by
  unfold State.useLine
  split
  · split <;> exact ⟨rfl, rfl, rfl, rfl, rfl, rfl, rfl, rfl, rfl⟩
  · exact SameAgents.refl _

theorem sameAgents_touchPlaces (s : State) (keep : Option Nat) (tag : Nat) (ps : List Place) :
    SameAgents s (s.touchPlaces keep tag ps) := by
  unfold State.touchPlaces
  refine sameAgents_foldl _ (fun s u => ?_) _ s
  obtain ⟨sp, n⟩ := u
  cases sp with
  | global =>
    exact ((sameAgents_recall s keep _).trans (sameAgents_useLine _ keep _)).trans (sameAgents_touchLine _ _ _)
  | spad c => exact SameAgents.refl s
  | wbuf c => exact SameAgents.refl s

theorem touchPlaces_clusters (s : State) (keep : Option Nat) (tag : Nat) (ps : List Place) :
    (s.touchPlaces keep tag ps).clusters = s.clusters := by
  have hl : ∀ (s : State) tag line, (s.touchLine tag line).clusters = s.clusters := by
    intro s tag line
    unfold State.touchLine State.retag
    simp only
    repeat' split
    all_goals rfl
  have hp : ∀ (s : State) p, (s.touchPlace keep tag p).clusters = s.clusters := by
    intro s p
    unfold State.touchPlace
    split
    · rw [hl]
      unfold State.useLine State.recall
      repeat' split
      all_goals rfl
    · rfl
  unfold State.touchPlaces
  generalize (ps.map unitOf).dedup = us
  induction us generalizing s with
  | nil => rfl
  | cons u us ih =>
    rw [List.foldl_cons, ih]
    obtain ⟨sp, n⟩ := u
    cases sp <;> simp [hp]

/-- A fold whose function changes nothing. -/
theorem foldl_fixed {α β : Type} (f : β → α → β) (b : β) (l : List α) (h : ∀ a ∈ l, f b a = b) : l.foldl f b = b := by
  induction l with
  | nil => rfl
  | cons a l ih => rw [List.foldl_cons, h a List.mem_cons_self]; exact ih (fun x hx => h x (List.mem_cons_of_mem _ hx))

theorem sameAgents_physStore (s : State) (pa : Nat) (bs : List Byte) : SameAgents s (s.physStore pa bs) := by
  unfold State.physStore; split <;> exact ⟨rfl, rfl, rfl, rfl, rfl, rfl, rfl, rfl, rfl⟩

theorem sameAgents_markLeaf (s : State) (asid : Nat) (d : Bool) (va : Nat) : SameAgents s (s.markLeaf asid d va) := by
  unfold State.markLeaf
  cases s.walk asid va with
  | none => exact SameAgents.refl s
  | some w =>
    simp only
    generalize (if (d && !bit _ 60) = true then _ else _ : Nat) = e2
    split
    · exact SameAgents.refl s
    · exact (sameAgents_retag _ _ _).trans (sameAgents_physStore _ _ _)

theorem sameAgents_markMapped (s : State) (asid : Nat) (n : Need) (va : Nat) : SameAgents s (s.markMapped asid n va) := by
  unfold State.markMapped
  split
  · exact SameAgents.refl s
  · exact sameAgents_markLeaf _ _ _ _

theorem sameAgents_markRead (s : State) (g : Grid) (v : VPlace) : SameAgents s (s.markRead g v) := by
  unfold State.markRead
  repeat' split
  all_goals first | exact SameAgents.refl s | exact sameAgents_markMapped _ _ _ _

theorem sameAgents_record (s : State) (cl : Nat) (as : List Access) : SameAgents s (s.record cl as) :=
  ⟨rfl, rfl, rfl, rfl, rfl, rfl, rfl, rfl, rfl⟩

theorem sameAgents_performed (s : State) (core : Nat) (ps : List Place) : SameAgents s (s.performed core ps) := by
  unfold State.performed
  repeat' split
  all_goals exact ⟨rfl, rfl, rfl, rfl, rfl, rfl, rfl, rfl, rfl⟩

/-- An access changes no agent. -/
theorem sameAgents_accessed (c : Ctx) (s : State) (act : Word) (addr : Nat → DWord) (size : Nat) (need : Need) (k : AccessKind) :
    SameAgents s (accessed c s act addr size need k) := by
  unfold accessed
  refine SameAgents.trans ?_ (sameAgents_touchPlaces _ _ _ _)
  have h1 : ∀ as, SameAgents s (if c.reckon then s.record c.team.cluster as else s) := by
    intro as
    split
    · exact sameAgents_record _ _ _
    · exact SameAgents.refl s
  have h2 : ∀ u : State, SameAgents u ((lanesIn act).foldl (fun s l =>
      match s.aperture c.team (c.stackOf l) (addr l) size with
      | some v => s.markRead c.grid v
      | none => s) u) := by
    intro u
    refine sameAgents_foldl _ (fun s l => ?_) _ _
    split
    · exact sameAgents_markRead _ _ _
    · exact SameAgents.refl s
  cases need
  · exact (h1 _).trans (h2 _)
  · exact (h1 _).trans (h2 _)
  · exact (h1 _).trans (h2 _)
  · exact ((h1 _).trans (h2 _)).trans (sameAgents_performed _ _ _)

theorem sameAgents_spanAccessed (c : Ctx) (s : State) (ps : List Place) (k : AccessKind) :
    SameAgents s (spanAccessed c s ps k) := by
  unfold spanAccessed
  refine SameAgents.trans ?_ (sameAgents_touchPlaces _ _ _ _)
  have h1 : SameAgents s (if c.reckon then s.record c.team.cluster (placeAccesses c ps k) else s) := by
    split
    · exact sameAgents_record _ _ _
    · exact SameAgents.refl s
  cases k.isWrite
  · exact h1
  · exact h1.trans (sameAgents_performed _ _ _)

/-- The touched state right after an access. -/
theorem touched_agents {c : Ctx} {s u : State} (h : SameAgents s u) (hg : s.groups.find? c.gid = some c.grp)
    (ht : s.teams.find? c.grp.team = some c.team) : Touched c keepRegs keepMasks keepRest u u :=
  touched_refl (by rw [h.groups]; exact hg) (by rw [h.teams]; exact ht)

/-- Several registers written, low register first. -/
theorem touched_writeMany {c : Ctx} {regs : Reg → Nat → Word → Word} {masks : Fin 8 → Word → Word} {upd : Group → Group}
    {s u : State} (d : Reg) (n : Nat) (f : Nat → Nat → Word) (h : Touched c regs masks upd s u) :
    Touched c (fun r l w => wroteMany c.act d n f r l (regs r l w)) masks upd s
      ((List.range n).foldl (fun s i => writeReg c (regIn d i) (f i) s) u) := by
  unfold wroteMany
  induction n with
  | zero => exact h
  | succ n ih =>
    rw [List.range_succ, List.foldl_append]
    have := touched_writeReg (regIn d n) (f n) ih
    simp only [List.foldl_cons, List.foldl_nil, List.foldl_append]
    exact this

/-- Writes that have yet to land. -/
theorem touched_pend {c : Ctx} {regs : Reg → Nat → Word → Word} {masks : Fin 8 → Word → Word} {upd : Group → Group}
    {s u : State} (rs : List Nat) (h : Touched c regs masks upd s u) :
    Touched c regs masks (fun g => pendAlso rs (upd g)) s (addPend c.gid rs u) :=
  touched_group (pendAlso rs) (fun _ => ⟨rfl, rfl⟩) h

/-- An instruction whose own effect is `k` yields what `k` gives under its condition. -/
theorem yields_of {sync : Bool} {i : Instr} {p : Ctx → State → Prop} {f k : Ctx → State → State}
    (he : ∀ s, exec i s = issueAs sync i s k) (h : ∀ c s, p c s → k c s = f c s)
    (hm : ∀ c s, Clear sync i c s → p c (s.noted c i) → c.moved (f c (s.noted c i)) = true) : Yields sync i p f := by
  intro c s hc hp
  have hk := h c _ hp
  rw [he, issueAs_clear k hc (by rw [hk]; exact hm c s hc hp), hk]

/-- A barrier instruction finds its object. -/
theorem barrierAt_ok {c : Ctx} {s : State} {loc : Reg} {core off : Nat} (k : Nat → Nat → State) (h : ObjectAt c s loc core off) :
    barrierAt c s loc k = k core off := by
  unfold barrierAt
  show (match locate c s (c.rd loc 0) 16 16 false with
    | .error t => takeTrap c t s
    | .ok p => _) = _
  rw [h.located]
  simp only [h.free, h.here, Bool.or_false, Bool.false_eq_true, if_false]

end Sys2Proof.Machine
end

