-- ==== Sys2Proof/Machine/HostRead.lean ====
section
/-! DEFINITION. What a host port reads from a register of the four host windows (spec/10_chart.md R388, spec/11_helm.md
R430 to R433 and R458, spec/12_meridian.md R476 and R477, spec/13_memory_tiers.md R531 and R532, spec/14_package.md R543 and
R544). A read changes nothing, but for that of a semaphore (SEMAPHORE_READ). -/

namespace Sys2Proof.Machine

/-- Bits at places of a register, numbered from 0. -/
def flags (bs : List Bool) : Nat := bs.zipIdx.foldl (fun n e => n + b2n e.1 * 2 ^ e.2) 0

/-- QCFG (R433). -/
def Queue.qcfg (k : Queue) : Nat :=
  b2n k.en + k.rlog * 2 + k.elog * 32 + b2n k.prefill * 512 + k.asid * 1024 + k.wdog * 2 ^ 22

/-- A register of a queue (R433); RTAIL is written only. -/
def queueRead (s : State) (q off : Nat) : Nat :=
  let k := s.queue q
  match off with
  | 0x00 => k.rbase.toNat
  | 0x08 => k.ebase.toNat
  | 0x10 => k.qcfg
  | 0x18 => k.rhead.toNat
  | 0x1C => k.etail.toNat
  | 0x20 => k.ehead.toNat
  | _ => 0

/-- A register of a Chart block (R388). -/
def chartRead (s : State) (die off : Nat) : Nat :=
  let k := s.chart die
  match off with
  | 0x00 => flags [k.lowStrict, k.scrub]
  | 0x08 => k.poolBase.toNat
  | 0x10 => k.keyBase.toNat
  | 0x18 => flags [false, k.rej]
  | _ => 0

/-- A register of the main window (R430, R431, R458). -/
def mainRead (s : State) (port off : Nat) : Nat :=
  let h := s.helm
  if off = 0x00 then 0x014832 + port * 2 ^ 24
  else if off = 0x08 then b2n (h.semViol.getD port false)
  else if off = 0x10 then s.k 0 + s.k 1 * 256
  else if off = 0x18 then s.phaltValue
  else if off = 0x20 then (h.btBase.getD 0 0).toNat
  else if off = 0x28 then (h.btSize.getD 0 0).toNat
  else if off = 0x30 then (h.btBase.getD 1 0).toNat
  else if off = 0x38 then (h.btSize.getD 1 0).toNat
  else if off = 0x40 then h.savBase.toNat
  else if off = 0x48 then h.savSize.toNat
  else if 0x100 ≤ off ∧ off < 0x180 ∧ off % 8 = 0 then
    (match h.sems.find? ((off - 0x100) / 8) with
    | some p => b2n (p == port)
    | none => 1)
  else if 0x1000 ≤ off ∧ off < 0x2000 then chartRead s 0 (off - 0x1000)
  else if 0x2000 ≤ off ∧ off < 0x3000 then chartRead s 1 (off - 0x2000)
  else if 0x10000 ≤ off ∧ off < 0x11000 then queueRead s ((off - 0x10000) / 64) (off % 64)
  else 0

/-- A register of the Meridian window (R476). -/
def meridianRead (s : State) (off : Nat) : Nat :=
  let m := s.mer
  if off = 0x00 then m.mepid
  else if off = 0x08 then m.cfg.toNat
  else if off = 0x10 then flags [m.sync, m.stall, m.abandon, m.rej]
  else if off = 0x18 then m.time.toNat
  else if 0x20 ≤ off ∧ off < 0xA0 ∧ off % 8 = 0 then (m.spaces.getD ((off - 0x20) / 8) 0).toNat
  else if 0x100 ≤ off ∧ off < 0x500 ∧ off % 16 = 0 then (m.qbase.getD ((off - 0x100) / 16) 0).toNat
  else if 0x100 ≤ off ∧ off < 0x500 ∧ off % 16 = 8 then (m.qcfg.getD ((off - 0x108) / 16) 0).toNat
  else if off = 0x800 then m.mroute.toNat
  else if off = 0x808 then m.mexpose.toNat
  else if off = 0x810 then m.mrepset.toNat
  else if off = 0x818 then m.errBase.toNat
  else if off = 0x820 then m.errSize.toNat
  else if off = 0x828 then m.errHead.toNat
  else if off = 0x830 then m.errTail.toNat
  else if off = 0x838 then m.mlate.toNat
  else if off = 0x840 then m.mrlate.toNat
  else 0

/-- MEMCFG (R532). -/
def MemSys.memcfg (m : MemSys) : Nat := b2n m.ilv + m.tcsize * 512 + m.nrk * 2 ^ 19 + b2n m.nrtest * 2 ^ 23

/-- MEMPOP (R531). -/
def MemSys.mempop (m : MemSys) : Nat :=
  m.lpddrMask.toNat + flags ((m.cxlGb.take 8).map (fun g => decide (0 < g))) * 2 ^ 16 + m.lpddrGb % 2 ^ 16 * 2 ^ 24

/-- A register of the memory window (R531); KEYDATA reads 0. -/
def memoryRead (s : State) (off : Nat) : Nat :=
  let m := s.ms
  if off = 0x00 then m.memcfg
  else if off = 0x08 then flags [m.change.isSome, !m.inval.isEmpty, m.rej, m.paerr]
  else if off = 0x10 then m.mempop
  else if off = 0x18 then m.asidBase.toNat
  else if off = 0x20 then m.stgBase
  else if off = 0x28 then m.stgSize
  else if off = 0x30 then m.tlbinva.toNat
  else if off = 0x38 then m.tlbinvc.toNat
  else if off = 0x40 then m.nrseed.toNat
  else if off = 0x48 then m.keysel
  else if off = 0x90 then (m.hpasid.getD 0 0).toNat
  else if off = 0x98 then (m.hpasid.getD 1 0).toNat
  else if 0x100 ≤ off ∧ off < 0x140 ∧ off % 8 = 0 then m.cxlGb.getD ((off - 0x100) / 8) 0
  else if off = 0x140 then m.paerrcnt.toNat
  else if off = 0x148 then m.tchits.toNat
  else if off = 0x150 then m.shdBase
  else if off = 0x158 then m.shdSize
  else if off = 0x160 then m.rmdBase
  else if off = 0x168 then m.rmdSize
  else 0

/-- A register of the management window (R544); ATTNONCE is written only. -/
def mgmtRead (s : State) (off : Nat) : Nat :=
  let p := s.pkg
  if off = 0x00 then flags [p.ready, p.fail] + p.stage % 16 * 16
  else if off = 0x08 then p.plimit
  else if 0x10 ≤ off ∧ off < 0x30 ∧ off % 8 = 0 then p.limit ((off - 0x10) / 8)
  else if 0x30 ≤ off ∧ off < 0x50 ∧ off % 8 = 0 then p.clock ((off - 0x30) / 8)
  else if off = 0x50 then p.pwrnow
  else if off = 0x58 then flags [p.floor, p.hot, p.trip]
  else if off = 0x60 then p.temp.getD 0 0
  else if off = 0x68 then p.temp.getD 1 0
  else if off = 0x70 then b2n p.pwrOff
  else if off = 0xC0 then p.attaddr.toNat
  else if off = 0xC8 then flags [false, p.attDone]
  else if 0x100 ≤ off ∧ off < 0x138 ∧ off % 8 = 0 then (p.counters.getD ((off - 0x100) / 8) 0).toNat
  else 0

/-- What a host port reads at an offset of a window: offsets not listed read 0, and so does every window but that of
management before bring-up is done (R430, R535). -/
def State.hostRead (s : State) (port : Nat) (win : Window) (off : Nat) : DWord :=
  BitVec.ofNat 64 (match win with
  | .main => if s.open port then mainRead s port off else 0
  | .meridian => if s.open port then meridianRead s off else 0
  | .memory => if s.open port then memoryRead s off else 0
  | .mgmt => if port < 2 then mgmtRead s off else 0)

end Sys2Proof.Machine
end

