-- ==== Sys2Proof/Tests/Slice0.lean ====
section
/-! SUPPORT. Tests of the model, and for every statement with hypotheses the witnesses that meet them. The words and the
values expected come from the spec's own examples and tables, which each test names; a witness checks hypotheses on a
concrete state. -/

namespace Sys2Proof.Tests

open Sys2Proof.Machine

set_option maxRecDepth 100000
set_option Elab.async false

/-! ### Helpers -/

/-- No hold, no predicate. -/
def gd : Guard := ⟨.none, 0, false⟩

/-- The machine with a grid, whose one group is about to issue: pair s0 names 0x40000, s2 a locator of SPAD offset 0x100,
s4 is 1, s6 is 0, pair s8 names 0x40004, pair s10 SPAD offset 0x1000, s12 has every bit set. -/
def base : State :=
  { State.reset.place 0 with
      agenda := [], cur := some { grp := 4, slot := 0, word := 0 } }.modGroup 4 (fun g =>
    { g with s := [(0, 0x40000), (2, 0x100), (4, 1), (8, 0x40004), (10, 0x1000), (11, 0xFE000000), (12, 0xFFFFFFFF)] })

/-- The group, its split, its team, its grid and its core changed. -/
def onGrp (f : Group → Group) (s : State) : State := s.modGroup 4 f
def onSplit (f : Split → Split) (s : State) : State := s.modSplit 4 0 f
def onTeam (f : Team → Team) (s : State) : State := s.modTeam 3 f
def onGrid (f : Grid → Grid) (s : State) : State := { s with grids := s.grids.modify 1 f }
def onRec (f : LaunchRecord → LaunchRecord) (s : State) : State := onGrid (fun g => { g with record := f g.record }) s

/-- The grid is a Reckoning grid; or a maintenance grid. -/
def reckoning (s : State) : State := onRec (fun r => { r with reckon := true }) s
def maintenance (s : State) : State := onRec (fun r => { r with maint := true }) s

/-- An s register, or the lanes of a v register, set. -/
def setS (n : Nat) (w : Word) (s : State) : State := onGrp (fun g => { g with s := g.s.put 0 n w }) s
def setV (n : Nat) (f : Nat → Word) (s : State) : State := onGrp (fun g => { g with v := g.v.set n (lanesOf f) }) s

/-- The hypotheses of Clear, as a check of what an instruction sees. -/
def clearB (sync : Bool) (i : Instr) (s : State) (c : Ctx) : Bool :=
  !s.scoreboardBusy i c.grp && !privilegedUse i c && !i.rangeBad c.grp.vallot && c.act != 0 && c.sp.wait.over &&
    (!c.reckon || ((!sync || s.smallest c.team.cluster (c.effectKey s)) &&
      (c.resumed || (firstRace c.cl (hAccesses c.grp.team c.grp.ggid i)).isNone)))

/-- The hypotheses of Clear and some more, as a check: of what the instruction's effect sees (Yields), or of what stands
before it (Diverts). -/
def met (sync : Bool) (i : Instr) (s : State) (p : Ctx → State → Bool) : Bool :=
  match s.ctx? i with
  | none => false
  | some c => clearB sync i s c && p c (s.noted c i)
def metD (sync : Bool) (i : Instr) (s : State) (p : Ctx → State → Bool) : Bool :=
  match s.ctx? i with
  | none => false
  | some c => clearB sync i s c && p c s

theorem clearB_spec {sync : Bool} {i : Instr} {s : State} {c : Ctx} (hc : s.ctx? i = some c) (h : clearB sync i s c = true) :
    Clear sync i c s := by
  simp only [clearB, Bool.and_eq_true, Bool.or_eq_true, Bool.not_eq_true', bne_iff_ne, ne_eq, Option.isNone_iff_eq_none] at h
  obtain ⟨⟨⟨⟨⟨a, b⟩, d⟩, e⟩, w⟩, f⟩ := h
  refine ⟨hc, a, b, d, e, w, fun hr => ?_⟩
  rcases f with f | f
  · simp [hr] at f
  · exact ⟨fun hs => by simpa [hs] using f.1, fun hn => by simpa [hn] using f.2⟩

/-- What the checks show. -/
theorem met_spec {sync : Bool} {i : Instr} {s : State} {p : Ctx → State → Bool} (h : met sync i s p = true) :
    ∃ c, Clear sync i c s ∧ p c (s.noted c i) = true := by
  unfold met at h
  split at h
  · cases h
  · rename_i c hc
    exact ⟨c, clearB_spec hc (Bool.and_eq_true _ _ ▸ h).1, (Bool.and_eq_true _ _ ▸ h).2⟩

theorem metD_spec {sync : Bool} {i : Instr} {s : State} {p : Ctx → State → Bool} (h : metD sync i s p = true) :
    ∃ c, Clear sync i c s ∧ p c s = true := by
  unfold metD at h
  split at h
  · cases h
  · rename_i c hc
    exact ⟨c, clearB_spec hc (Bool.and_eq_true _ _ ▸ h).1, (Bool.and_eq_true _ _ ▸ h).2⟩

/-- Instructions that issue clear. -/
def clearAll (s : State) (is : List Instr) : Bool := is.all (fun i => met false i s (fun _ _ => true))

/-- AccessOk as a check. -/
def accessB (c : Ctx) (s : State) (act : Word) (addr : Nat → DWord) (size : Nat) (need : Need) (k : AccessKind)
    (noStack noSpad waits : Bool) : Bool :=
  (accessTrap c s act addr size need noStack noSpad).isNone &&
    (raceTrap c s act addr (laneAccesses c s addr size need k)).isNone && !(lanesIn act).any (laneHeld c s addr size) &&
    (!waits || !((lanesIn act).flatMap (lanePlaces c s addr size need)).any s.owned)

theorem accessB_spec {c : Ctx} {s : State} {act : Word} {addr : Nat → DWord} {size : Nat} {need : Need} {k : AccessKind}
    {a b w : Bool} (h : accessB c s act addr size need k a b w = true) : AccessOk c s act addr size need k a b w := by
  simp only [accessB, Bool.and_eq_true, Bool.or_eq_true, Bool.not_eq_true', Option.isNone_iff_eq_none] at h
  exact ⟨h.1.1.1, h.1.1.2, h.1.2, fun hw => by simpa [hw] using h.2⟩

/-- ObjectAt as a check. -/
def objectB (c : Ctx) (s : State) (loc : Reg) (core off : Nat) : Bool :=
  (match locate c s (c.rd loc 0) 16 16 false with
  | .ok p => p == (core, off)
  | .error _ => false) && !objectHeld c s loc && !s.owned (.spad core, off)

theorem objectB_spec {c : Ctx} {s : State} {loc : Reg} {core off : Nat} (h : objectB c s loc core off = true) :
    ObjectAt c s loc core off := by
  simp only [objectB, Bool.and_eq_true, Bool.not_eq_true'] at h
  refine ⟨?_, h.1.2, h.2⟩
  revert h
  cases locate c s (c.rd loc 0) 16 16 false <;> simp_all

/-- SpanOk as a check. -/
def spanB (c : Ctx) (s : State) (addr : DWord) (ps : List Place) (k : AccessKind) (waits : Bool) : Bool :=
  (raceOnce c s (placeAccesses c ps k) (fun p => addr + BitVec.ofNat 64 (ps.idxOf p))).isNone && !spanHeld c s addr 1 &&
    (!waits || !ps.any s.owned)

theorem spanB_spec {c : Ctx} {s : State} {addr : DWord} {ps : List Place} {k : AccessKind} {w : Bool}
    (h : spanB c s addr ps k w = true) : SpanOk c s addr ps k w := by
  simp only [spanB, Bool.and_eq_true, Bool.or_eq_true, Bool.not_eq_true', Option.isNone_iff_eq_none] at h
  exact ⟨h.1.1, h.1.2, fun hw => by simpa [hw] using h.2⟩

/-- A command of the base's group. -/
def blankCmd (w : Work) : Cmd :=
  { core := 0, grp := 4, team := 3, cluster := 2, grid := 1, asid := 0, ggid := 0, reckon := false, key := (0, 0), keyed := true,
    tag := none, bar := none, view := [], act := 0xFFFFFFFF, owned := [], recalled := [], grant := 9, regions := [], mark := 0,
    uncounted := [], work := w }

/-- The work of a Chart command that is done. -/
def aChart : Work := .chart { op := .settled, results := [], pins := [], status := none }
/-! ### Witnesses: arithmetic, lanes and floats -/

/-- Every instruction of the statements about results in D issues clear; destinations and operands at the ends of their
ranges, and in a Reckoning grid too. -/
def aluSamples1 : List Instr :=
  [.mov (.v 175) (.x 14) gd, .movImm .zero 0xFFFFFF gd, .iadd .sat (.v 0) (.s 47) (.h 15) gd, .iaddImm .wrap (.x 0) (.x 14) 1 gd,
   .isub .usat (.s 47) (.s 0) .zero gd, .isubImm .wrap (.h 15) .zero 0x800000 gd, .iand (.v 1) (.v 2) (.v 3) gd,
   .iandImm (.v 1) (.v 1) 0 gd, .ior (.v 1) (.v 2) (.v 3) gd, .iorImm (.v 1) (.v 1) 0 gd, .ixor (.v 1) (.v 2) (.v 3) gd,
   .ixorImm (.v 1) (.v 1) 0 gd, .shl (.v 1) (.v 2) (.s 12) gd, .shlImm (.v 1) (.v 1) 31 gd, .shr (.v 1) (.v 2) (.v 3) gd,
   .shrImm (.v 1) (.v 1) 32 gd, .sar (.v 1) (.v 2) (.v 3) gd, .sarImm (.v 1) (.v 1) 31 gd, .imin true (.v 1) (.v 2) (.v 3) gd,
   .iminImm false (.v 1) (.v 1) 0 gd, .imax true (.v 1) (.v 2) (.v 3) gd, .imaxImm false (.v 1) (.v 1) 0 gd,
   .imul .sat (.v 1) (.v 2) (.v 3) gd, .imulImm .usat (.v 1) (.v 1) 0 gd]

def aluSamples2 : List Instr :=
  [.andn (.v 1) (.v 2) (.v 3) gd, .inot (.v 1) (.v 2) gd, .rotl (.v 1) (.v 2) (.v 3) gd, .shf true (.v 1) (.v 2) (.v 3) (.v 4) gd,
   .imulh (.v 1) (.v 2) (.v 3) gd, .imulhu (.v 1) (.v 2) (.v 3) gd, .imad true (.v 1) (.v 2) (.v 3) (.v 4) gd,
   .iabs true (.v 1) (.v 2) gd, .ineg true (.v 1) (.v 2) gd, .sel (.v 1) (.v 2) (.v 3) (.v 4) gd,
   .bysel (.v 1) (.v 2) (.v 3) (.v 4) gd, .clz (.v 1) (.v 2) gd, .popc (.v 1) (.v 2) gd, .brev (.v 1) (.v 2) gd,
   .bfe true (.v 1) (.v 2) (.v 3) gd, .bfi (.v 1) (.v 2) (.v 3) (.v 4) gd, .movw (.v 1) 0xFFFFFFFF gd, .movx (.x 14) 0xFFFF8000 gd]

def aluSamples3 : List Instr :=
  [.iset .geu .or 7 (.v 1) (.v 2) gd, .fset .geu .and 0 (.v 1) (.v 2) gd, .mand 0 7 1 gd, .mor 7 0 1 gd, .mxor 1 1 1 gd,
   .mnot 7 0 gd, .mmov 7 (.s 12) gd, .mget (.s 0) 0 gd, .mpop (.s 0) 7 gd, .mffs .zero 7 gd, .shape (.s 0) (.v 1) gd,
   .lxch .flip (.v 1) (.v 2) (.s 12) (.v 3) gd, .lpred .some false (.s 0) (.v 1) gd, .lpred .every true (.s 0) (.v 1) gd,
   .lpred .bits true (.s 0) (.v 1) gd, .lpred .same true (.s 0) (.v 1) gd, .lpred .count true (.s 0) (.v 1) gd,
   .matchLanes (.v 1) (.v 2) gd, .scan .addx .f32 (.v 1) (.v 2) gd, .rdux .fmax true (.s 0) (.v 2) gd]

def aluSamples4 : List Instr :=
  [.fadd .ru (.v 1) (.v 2) (.v 3) gd, .faddImm .rd (.v 1) (.v 1) 0 gd, .fmul .rz (.v 1) (.v 2) (.v 3) gd,
   .fmulImm .rn (.v 1) (.v 1) 0 gd, .fmin (.v 1) (.v 2) (.v 3) gd, .fminImm (.v 1) (.v 1) 0 gd, .fmax (.v 1) (.v 2) (.v 3) gd,
   .fmaxImm (.v 1) (.v 1) 0 gd, .fsub .rn (.v 1) (.v 2) (.v 3) gd, .ffma .rn (.v 1) (.v 2) (.v 3) (.v 4) gd, .fabs (.v 1) (.v 2) gd,
   .fneg (.v 1) (.v 2) gd, .fcps (.v 1) (.v 2) (.v 3) gd, .frnd .rz (.v 1) (.v 2) gd, .fclass (.v 1) (.v 2) gd, .frcp (.v 1) (.v 2) gd,
   .frsq (.v 1) (.v 2) gd, .fsqrt (.v 1) (.v 2) gd, .fex2 (.v 1) (.v 2) gd, .flg2 (.v 1) (.v 2) gd, .ftanh (.v 1) (.v 2) gd,
   .fsin (.v 1) (.v 2) gd, .fcos (.v 1) (.v 2) gd, .hadd2 .rn (.v 1) (.v 2) (.v 3) gd, .hmul2 .rn (.v 1) (.v 2) (.v 3) gd,
   .hfma2 .rn (.v 1) (.v 2) (.v 3) (.v 4) gd, .hmax2 (.v 1) (.v 2) (.v 3) gd, .hmin2 (.v 1) (.v 2) (.v 3) gd,
   .cvtfi true .rn (.v 1) (.v 2) gd, .cvtif true .rn (.v 1) (.v 2) gd, .cvtfh .rn (.v 1) (.v 2) (.v 3) gd, .cvthf true (.v 1) (.v 2) gd,
   .cvtn8 3 true true (.v 1) (.v 2) (.v 3) gd, .cvtf8 3 true (.v 1) (.v 2) gd, .qnt4 .e4 true (.v 1) (.v 2) (.v 3) (.v 4) 7 gd,
   .dq4 .e5 (.v 1) (.v 2) (.v 3) (.v 4) 7 gd, .scale .f32 .none (.v 1) (.v 2) (.v 3) .zero gd]

/-- Witness for IntegerResults, IntegerGroupResults, MaskOperations, LaneOperations, FloatResults, PackedAndConversions and
FclassBits. -/
theorem witness_results : ∀ is ∈ [aluSamples1, aluSamples2, aluSamples3, aluSamples4],
    clearAll base is = true ∧ clearAll (reckoning base) is = true := by decide +kernel

/-- Witness for PairWords. -/
theorem witness_PairWords : clearAll base
    [.pairWord ⟨.iadd, .v 0, .reg (.v 1)⟩ ⟨.fmul, .v 2, .imm 0x7FFF⟩, .pairWord ⟨.mov, .s 47, .reg .zero⟩ ⟨.mov, .v 175, .reg (.s 47)⟩] =
      true := by decide +kernel

/-- Witness for HintRegion: the ends of the region. -/
theorem witness_HintRegion :
    (base.ctx? .nop).isSome = true ∧ (base.ctx? (.icpf 255 0xFFFFFFFF)).isSome = true ∧
    (base.ctx? (.hint 0x7800000000000800)).isSome = true ∧ (base.ctx? (.hint 0x7FFFFFFFFFFFFFFF)).isSome = true ∧
    clearAll base [.nop, .icpf 255 0, .hint 0x7FFFFFFFFFFFFFFF] = true := by decide +kernel

/-- Witness for RegisterFields: a MOV word, and two groups of one team. -/
theorem witness_RegisterFields :
    decode 0x00FFAF0000000000 = .ok (.mov .zero (.v 175) gd) ∧ (base.groups.find? 4).map (fun g => g.team) = some 3 := by
  decide +kernel

/-! ### Witnesses: memory, the select unit, issue and traps -/

/-- Pairs s0 (global) and s10 (SPAD) as bases; the highest offset that stays aligned. -/
theorem witness_LoadsComplete :
    met false (.ld .q .plain (.v 172) (.s 0) .zero 0x7FF0 gd) base (fun c s =>
      accessB c s c.act (c.addrAt (.s 0) .zero 0x7FF0) 16 .read .read false false true) = true ∧
    met false (.ldu .d (.ordered .package) (.s 46) (.s 10) .zero 8 gd) (reckoning base) (fun c s =>
      accessB c s (maskOfLanes (fun l => l == c.lowLane)) (c.addrAt (.s 10) .zero 8) 8 .read .read false false true) = true := by
  decide +kernel

/-- A machine without address spaces in use: it has no leaf to mark. -/
def bare : State := { base with ms := { base.ms with asidBase := 0 } }

theorem bare_walk (a v : Nat) : bare.walk a v = none := by
  have h0 : bare.asidEntry a = 0 := rfl
  rw [State.walk, h0]
  rfl

theorem witness_ReadsKeepMemory :
    ∃ c, bare.ctx? (.ld .w .plain (.v 0) (.s 10) .zero 0 gd) = some c ∧ (∀ v, bare.markRead c.grid v = bare) ∧ c.reckon = false ∧
      KeyHeld bare (c.tag bare) ((lanesIn c.act).flatMap (lanePlaces c bare (c.addrAt (.s 10) .zero 0) 4 .read)) := by
  obtain ⟨c, hc⟩ : ∃ c, bare.ctx? (.ld .w .plain (.v 0) (.s 10) .zero 0 gd) = some c := Option.isSome_iff_exists.1 (by decide +kernel)
  have hr : (bare.ctx? (.ld .w .plain (.v 0) (.s 10) .zero 0 gd)).all (fun c => !c.reckon &&
      ((lanesIn c.act).flatMap (lanePlaces c bare (c.addrAt (.s 10) .zero 0) 4 .read)).all (fun p => p.1 != .global)) = true := by
    decide +kernel
  rw [hc] at hr
  simp only [Option.all_some, Bool.and_eq_true, Bool.not_eq_true', List.all_eq_true, bne_iff_ne] at hr
  refine ⟨c, hc, ?_, hr.1, fun p hp hg => absurd hg (hr.2 p hp)⟩
  intro v
  cases v <;> simp [State.markRead, State.markMapped, State.markLeaf, bare_walk]
  intros
  split <;> rfl

theorem witness_StoresEnterTheFifo :
    met false (.st .q .plain (.v 172) (.s 0) .zero 0xFFF0 gd) base (fun c s => decide (c.grp.fifo.length < 16) &&
      accessB c s c.act (c.addrAt (.s 0) .zero 0xFFF0) 16 .write .write false false false) = true ∧
    met false (.st .b .plain (.v 1) (.s 0) .zero 1 gd) (onGrp (fun g => { g with fifo := List.replicate 16 ⟨[], (0, 0)⟩ }) base)
      (fun c _ => decide (16 ≤ c.grp.fifo.length)) = true := by
  decide +kernel

/-- An entry with two bytes, one of them twice. -/
def stored : StoreEntry := ⟨[((.global, 0x50000), 1), ((.global, 0x50001), 2), ((.global, 0x50000), 3)], (0, 1)⟩

theorem witness_StoreDrains :
    let s := onGrp (fun g => { g with fifo := [stored] }) base
    (s.groups.find? 4).map (fun g => (g.fifo, g.team, g.releasing, g.st)) = some ([stored], 3, 0, .resident) ∧
    (s.teams.find? 3).map (fun t => t.grid) = some 1 ∧ (s.grids.find? 1).map (fun g => s.asidTag g.asid) = some 0 ∧
    (stored.bytes.map Prod.fst).any s.owned = false ∧ (stored.bytes.all (fun e => s.lineKey.getD (e.1.2 / 128) 0 == 0)) = true := by
  decide +kernel

theorem witness_AtomicsComplete :
    met true (.atom .cas .plain (.v 0) (.s 0) .zero 0 gd) base (fun c s => c.grp.fifo.isEmpty &&
      accessB c s c.act (c.addrAt (.s 0) .zero 0) 4 .atomic .atom true false true) = true ∧
    met true (.atom .add (.ordered .cluster) (.v 0) (.s 8) .zero 0 gd) (reckoning base) (fun c s => c.grp.fifo.isEmpty &&
      accessB c s c.act (c.addrAt (.s 8) .zero 0) 4 .atomic .atom true false true) = true ∧
    met false (.red .addN8e5 .plain (.v 0) (.s 0) .zero 1 gd) (reckoning { base with
        ms := { base.ms with shdBase := 0x10000000, shdSize := 0x10000 } }) (fun c s => c.grp.fifo.isEmpty &&
      accessB c s c.act (c.addrAt (.s 0) .zero 1) 1 .atomic (.red (redFn .addN8e5)) true true true &&
      (redNoRoom c (accessed c s c.act (c.addrAt (.s 0) .zero 1) 1 .atomic (.red (redFn .addN8e5))) .addN8e5
        (lanePlaces c s (c.addrAt (.s 0) .zero 1) 1 .atomic)).isEmpty) = true ∧
    met false (.red .maxF32 .plain (.v 0) (.s 10) .zero 0 gd) base (fun c s => c.grp.fifo.isEmpty &&
      accessB c s c.act (c.addrAt (.s 10) .zero 0) 4 .atomic (.red (redFn .maxF32)) true (redShadowed .maxF32) true) = true ∧
    met false (.fence .pod gd) base (fun c _ => c.grp.fifo.isEmpty) = true := by
  decide +kernel

theorem witness_AtomicLanes :
    (∀ p ∈ ([(.spad 95, 0), (.spad 95, 1), (.spad 95, 2), (.spad 95, 3)] : List Place), placeOk base p = true) ∧
    (∀ p ∈ ([(.global, 767999999996), (.global, 767999999997), (.global, 767999999998), (.global, 767999999999)] : List Place),
      placeOk base p = true) ∧ redShadowed .addF32 = false ∧ redShadowed .addBf16 = true ∧ paOk base.ms 0x40000 = true ∧
    (({ base with shadows := [(0x40000, Shadow.make .addBf16 false (fvalBf 0x3F80))] } : State).shadows.find? 0x40000).map
      (fun sh => (sh.op, sh.reckon)) = some (.addBf16, false) := by
  decide +kernel

/-- A machine with one populated capacity channel and a tier cache. -/
def tiered : State := { base with ms := { base.ms with lpddrMask := 1, lpddrGb := 1, tcsize := 1 } }

theorem witness_MemoryEvents :
    met false (.pref (.s 0) (.v 1) 0 gd) base (fun _ _ => true) = true ∧
    (let s := onGrp (fun g => { g with pend := [⟨1, false⟩, ⟨2, true⟩] }) base
     (s.groups.find? 4).map (fun g => (g.pend.find? (fun p => p.ready), g.st, g.releasing)) =
       some (some ⟨2, true⟩, .resident, 0)) ∧
    isCapacityPa tiered.ms (2 ^ 33 * 128) = true ∧ tiered.ms.tcache.length < tiered.ms.tcsize * 1000000000 / 128 ∧
    tiered.ms.tcache.find? (2 ^ 33) = none ∧
    ((List.range 2).map (fun k => ((.global, 0x5007F + k) : Place))).any base.owned = false ∧ base.hostTag 1 = 0 ∧
    base.lineKey.getD (0x5007F / 128) 0 = 0 ∧ base.lineKey.getD (0x50080 / 128) 0 = 0 := by
  decide +kernel

theorem witness_SelectUnitCompletes :
    met false (.selkLd (.v 1) (.s 2) .zero gd) base (fun c s => decide (c.grp.fifo.length < 16) &&
      (locateTeam c s (c.rd (.s 2) 0) 128 true).toOption.isSome &&
      accessB c s c.act (fun l => selAddr (c.rd (.s 2) 0)
        (128 * (32 * bits (c.rd .zero 0).toNat 0 6 + l) + 4 * bits (c.rd .zero 0).toNat 8 5)) 4 .write .write true false false) = true ∧
    met false (.selkRun (.s 2) (.s 6) gd) base (fun c s => c.grp.fifo.isEmpty && !c.reckon &&
      (match locate c s (c.rd (.s 2) 0) (128 * ((selGeom (c.rd (.s 6) 0)).rows + (selGeom (c.rd (.s 6) 0)).k) +
          4 * (selGeom (c.rd (.s 6) 0)).rows) 128 true with
       | .ok p => p == (0, 0x100)
       | .error _ => false)) = true ∧
    (∀ k, base.owned (.spad 0, 0x100 + 32 * k) = false) ∧
    met false (.selkRd true (.v 1) (.s 2) (.s 6) .zero gd) base (fun c s =>
      (locateTeam c s (c.rd (.s 2) 0) 128 true).toOption.isSome &&
      accessB c s (maskOfLanes (fun l => laneIn c.act l &&
          (match selRead true (selGeom (c.rd (.s 6) 0)) (bits (c.rd .zero 0).toNat 8 5, bits (c.rd .zero 0).toNat 0 6) l with
           | .ok _ => true
           | .error _ => false)))
        (fun l => match selRead true (selGeom (c.rd (.s 6) 0)) (bits (c.rd .zero 0).toNat 8 5, bits (c.rd .zero 0).toNat 0 6) l with
           | .ok off => selAddr (c.rd (.s 2) 0) off
           | .error _ => 0) 4 .read .read true false true) = true ∧
    met false (.rngx .x4 true (.v 172) (.v 1) 23 (.s 2) 255 gd) base (fun _ _ => true) = true := by
  refine ⟨by decide +kernel, by decide +kernel, fun _ => rfl, by decide +kernel, by decide +kernel⟩

/-- Another group of the team, of a smaller key. -/
def elder : State :=
  onGrp (fun g => { g with ggid := 1, ltime := 5 })
    { base with groups := base.groups.set 5 { placedGroup 3 with num := 1 } }

/-- A Reckoning group whose team's h15 group 9 has written in this epoch; and, as its effect, a plain retirement or nothing. -/
def raced : State := (reckoning base).modCluster 2 (fun c => { c with accesses := [⟨.hreg 3 15, 9, .write⟩] })
def hmov : Instr := .mov (.v 0) (.h 15) gd

/-- What stands in an instruction's way: each case of IssueOutcomes. -/
theorem witness_IssueOutcomes :
    (let s := onGrp (fun g => { g with pend := [⟨1, false⟩] }) base
     (s.ctx? (.mov (.v 0) (.v 1) gd)).any (fun c => s.scoreboardBusy (.mov (.v 0) (.v 1) gd) c.grp) = true) ∧
    (base.ctx? (.eret gd)).any (fun c => !base.scoreboardBusy (.eret gd) c.grp && privilegedUse (.eret gd) c) = true ∧
    (let s := onGrp (fun g => { g with vallot := 8 }) base
     (s.ctx? (.mov (.v 8) .zero gd)).any (fun c => !s.scoreboardBusy (.mov (.v 8) .zero gd) c.grp &&
       (Instr.mov (.v 8) .zero gd).rangeBad c.grp.vallot && !(Instr.mov (.v 7) .zero gd).rangeBad c.grp.vallot) = true) ∧
    (base.ctx? (.mov (.v 8) .zero ⟨.none, 7, false⟩)).any (fun c => c.act == 0) = true ∧
    (base.ctx? (.movsw 0x15 .zero ⟨.none, 7, false⟩)).any (fun c => c.act == 0 && deniedWrite (.movsw 0x15 .zero ⟨.none, 7, false⟩)) =
      true ∧
    (((reckoning elder).ctx? (.tbar gd)).any (fun c => c.reckon && c.act != 0 && !c.waiting &&
      !(reckoning elder).smallest c.team.cluster (c.effectKey (reckoning elder))) = true) ∧
    (base.ctx? hmov).any (fun c => !c.reckon && c.act != 0) = true ∧
    ((onSplit (fun sp => { sp with wait := .released (0, 1) }) (reckoning base)).ctx? (.bwait (.h 15) .zero gd)).any (fun c =>
      c.reckon && c.resumed && c.act != 0) = true ∧
    ((reckoning base).ctx? hmov).any (fun c => c.reckon && !c.resumed &&
      c.moved (retire c ((reckoning base).record c.team.cluster (hAccesses c.grp.team c.grp.ggid hmov))) &&
      (firstRace c.cl (hAccesses c.grp.team c.grp.ggid hmov)).isNone) = true ∧
    (raced.ctx? hmov).any (fun c => c.reckon && !c.resumed &&
      c.moved (retire c (raced.record c.team.cluster (hAccesses c.grp.team c.grp.ggid hmov))) &&
      firstRace c.cl (hAccesses c.grp.team c.grp.ggid hmov) == some 9) = true ∧
    (raced.ctx? hmov).any (fun c => c.reckon && !c.resumed &&
      !c.moved (raced.record c.team.cluster (hAccesses c.grp.team c.grp.ggid hmov)) &&
      !(hAccesses c.grp.team c.grp.ggid hmov).isEmpty) = true := by
  decide +kernel

theorem witness_TrapEntry :
    (base.ctx? (.tbar gd)).any (fun c => !c.grp.intrap && c.grid.record.trapEntry != 0) = true ∧
    ((onRec (fun r => { r with trapEntry := 0 }) base).ctx? (.tbar gd)).any (fun c => !c.grp.intrap && c.grid.record.trapEntry == 0) =
      true ∧
    ((onGrp (fun g => { g with intrap := true }) base).ctx? (.tbar gd)).any (fun c => c.grp.intrap) = true ∧
    paOk base.ms 0 = true ∧ paOk base.ms 767999999999 = true := by
  decide +kernel

/-- A group in its handler, whose frame says where to go on and with which lanes. -/
def handling (pc : Nat) : State :=
  onGrp (fun g => { g with intrap := true, st := .handler, trapMask := 0xFFFFFFFF })
    { base with mem := (base.mem.storeNat 0x40010 8 pc).storeNat 0x40020 4 0xFFFFFFFF }

/-- The hypotheses of ERET's clauses: an engine in the frame, an aligned RESUMEPC, no lane left, a last one. -/
def eretB (c : Ctx) (s : State) : Bool × Bool × Bool × Bool :=
  let frame := fun (o n : Nat) => (List.range n).map (fun k => ((.global, c.grp.saveSlot + o + k) : Place))
  let mask := BitVec.ofNat 32 (s.loadNat c.grp.fifo (frame 0x20 4)) &&& c.grp.trapMask &&& ~~~c.grp.heldLanes c.slot
  let back : Group := { c.grp with splits := c.grp.splits.map (fun e =>
    if e.1 = c.slot then (e.1, { e.2 with mask := mask, wait := .none }) else (e.1, { e.2 with suspended := false })) }
  ((frame 0 128).any s.owned, s.loadNat c.grp.fifo (frame 0x10 8) % 8 == 0, mask == 0,
    (if mask = 0 then back.endSplit c.slot else back).splits.isEmpty)

/-- A command that owns a unit of the frame. -/
def owning (u : Nat) (s : State) : State :=
  { s with cmds := [(9, { blankCmd aChart with owned := [(.global, u, u + 1)] })] }

theorem witness_TrapsAndReturn :
    clearAll base [.trap 0 gd, .trap 255 gd, .bkpt 255 gd] = true ∧
    (base.ctxAt 4 0 0x1300000000000000 (wordGuard 0x1300000000000000)).isSome = true ∧
    metD false (.eret gd) (handling 0x20008) (fun c s => eretB c s == (false, true, false, false)) = true ∧
    metD false (.eret gd) (owning (0x40000 / 128) (handling 0x20008)) (fun c s => (eretB c s).1) = true ∧
    metD false (.eret gd) (handling 0x20004) (fun c s => eretB c s == (false, false, false, false)) = true ∧
    metD false (.eret gd) (onGrp (fun g => { g with trapMask := 0 }) (handling 0x20008)) (fun c s =>
      eretB c s == (false, true, true, true) && c.grp.owed.isEmpty && c.grp.members.isEmpty) = true ∧
    metD false (.eret gd) (onGrp (fun g => { g with trapMask := 0, owed := [⟨0, 0, 7, 0, 0, none⟩] }) (reckoning (handling 0x20008)))
      (fun c s => eretB c s == (false, true, true, true) && !c.grp.owed.isEmpty && c.grp.members.isEmpty && !s.busy c.gid &&
        s.smallest c.team.cluster c.grp.key) = true ∧
    (base.groups.find? 4).map (fun g => g.alive) = some true := by
  decide +kernel
/-! ### Witnesses: the sequencer -/

/-- A split whose lanes divide on m1: lane 0 is taken; and such a split with no free slot, its stack empty or full. -/
def dividing : State := onGrp (fun g => { g with m := [(1, 1)] }) base
def crowded (n : Nat) : State :=
  onSplit (fun sp => { sp with mask := 0xFF, stack := List.replicate n (0x10100, 0x100) })
    (onGrp (fun g => { g with splits := g.splits ++ (List.range 15).map (fun k => (k + 1,
      { placedSplit with mask := 1 <<< (k + 9) })) }) dividing)

/-- The hypotheses of BRD's clauses: taken lanes, lanes not taken, a free slot, the stack's length. -/
def brdB (c : Ctx) : Bool × Bool × Bool × Nat :=
  let tk := c.act &&& readMask c.grp 1
  (tk == 0, (c.sp.mask &&& ~~~tk) == 0, c.grp.freeSlot.isSome, c.sp.stack.length)

theorem witness_ControlFlow :
    clearAll base [.bra 0x7FFFFFFF gd, .bru (.s 4) 0x80000000 gd, .bru .zero 0 gd, .call 23 0 gd, .ret 0 gd, .brx 0 gd, .nop,
      .icpf 0 0, .hint 0x7900000000000000] = true ∧
    met false (.ret 4 gd) base (fun c _ => (readPair c.grp 4).toNat % 8 == 4) = true ∧
    met false (.brx 0 gd) base (fun c _ => (readPair c.grp 0).toNat % 8 == 0) = true ∧
    met false (.brd 1 0 gd) base (fun c _ => brdB c == (true, false, true, 0)) = true ∧
    met false (.brd 1 0 gd) (onSplit (fun sp => { sp with mask := 1 }) dividing) (fun c _ => brdB c == (false, true, true, 0)) = true ∧
    met false (.brd 1 0 gd) dividing (fun c _ => brdB c == (false, false, true, 0)) = true ∧
    met false (.brd 1 0 gd) (crowded 15) (fun c _ => brdB c == (false, false, false, 15)) = true ∧
    met false (.brd 1 0 gd) (crowded 16) (fun c _ => brdB c == (false, false, false, 16)) = true := by
  decide +kernel

/-- Two splits at one pc. -/
def twins : State :=
  onGrp (fun g => { g with splits := [(0, { placedSplit with mask := 1 }), (1, { placedSplit with mask := 2 })] }) base

/-- The split waits. -/
def waits (w : Wait) : State := onSplit (fun sp => { sp with wait := w }) base

/-- A command in flight of the group; a trap it owes; and its entry in the membership set. -/
def inFlight (s : State) : State := { s with cmds := [(9, blankCmd aChart)] }
def owes (s : State) : State := onGrp (fun g => { g with owed := [⟨2, 0x80, 7, 9, 0x11, none⟩] }) s
def inObject (s : State) : State :=
  onGrp (fun g => { g with members := [(7, { core := 0, off := 0x100, locator := 0x100, arrived := true, aphase := false,
                                             lanes := 32 })] }) s

/-- The hypothesis of EXIT's effect, and that it is the group's last. -/
def exitB (c : Ctx) (s : State) : Bool × Bool :=
  ((!c.reckon || !s.busy c.gid) && c.grp.owed.isEmpty && (c.grp.members.isEmpty || (c.grp.fifo.isEmpty &&
    (!c.reckon || s.smallest c.team.cluster c.grp.key))), c.lastExit)

theorem witness_ExitAndSplits :
    met false (.exit gd) base (fun c s => exitB c s == (true, true)) = true ∧
    met false (.exit gd) (inObject (reckoning base)) (fun c s => exitB c s == (true, true) && c.reckon && !c.grp.members.isEmpty) =
      true ∧
    met false (.exit gd) (owes twins) (fun c s => exitB c s == (false, false)) = true ∧
    met false (.exit gd) (inFlight (reckoning base)) (fun c s => c.reckon && c.lastExit && s.busy c.gid) = true ∧
    metD false (.exit gd) (owes (inFlight base)) (fun c s => (!c.reckon || !s.busy c.gid) && c.lastExit && !c.grp.owed.isEmpty) =
      true ∧
    (base.groups.find? 4).any (fun g => (g.splits.find? 0).any (fun sp => sp.stack.isEmpty)) = true ∧
    ((crowded 16).groups.find? 4).any (fun g => (g.splits.find? 0).any (fun sp => !sp.stack.isEmpty)) = true ∧
    ((waits (.exit 5)).ctxAt 4 0 0 Guard.always).any (fun c => c.sp.wait == .exit 5 && !(waits (.exit 5)).busy 4 &&
      exitB c (waits (.exit 5)) == (true, true)) = true ∧
    (twins.groups.find? 4).any (fun g => g.inBarriers && (g.splits.find? 0).any (fun a => (g.splits.find? 1).any (fun b =>
      a.pc == b.pc && a.idle && b.idle && a.stack.isEmpty && !twins.holds 4 g a && !twins.holds 4 g b))) = true ∧
    ((base.modCore 95 (fun c => { c with frozen := [(3, (0x10000, 0))] })).core 95).frozen.find? 3 = some (0x10000, 0) ∧
    ((waits .key).ctxAt 4 0 0 Guard.always).any (fun c => c.sp.wait == .key && (waits .key).smallest c.team.cluster c.grp.key) = true ∧
    ((waits .yield).groups.find? 4).any (fun g => (g.splits.find? 0).any (fun sp => sp.wait == .yield)) = true ∧
    ((waits .sleep).ctxAt 4 0 0 Guard.always).any (fun c => c.sp.wait == .sleep) = true := by
  decide +kernel

/-- A barrier object at offset 0x100: expected and pending arrivals, pending bytes, its phase. -/
def barred (n k : Nat) (bytes : Int) (ph : Bool) (s : State) : State :=
  s.putObj 0 0x100 { expBytes := 0, pendBytes := bytes, expArr := n, pendArr := k, phase := ph, unit := false, scope := false,
                     broken := false, low := 0, high := 0 }

/-- The object broken; and every entry of the membership set in use, by other objects. -/
def shattered (s : State) : State :=
  s.putObj 0 0x100 { expBytes := 0, pendBytes := 0, expArr := 1, pendArr := 1, phase := false, unit := false, scope := false,
                     broken := true, low := 0, high := 0 }
def fullSet (s : State) : State :=
  onGrp (fun g => { g with members := (List.range 8).map (fun k => (k, { core := 0, off := 0x200 + 16 * k, locator := 0, arrived := false,
                                                                         aphase := false, lanes := 32 })) }) s

/-- The object is there, it is whole, and the FIFO is empty. -/
def barB (c : Ctx) (s : State) : Bool × Bool × Bool :=
  (objectB c s (.s 2) 0 0x100, !(s.obj 0 0x100).broken, c.grp.fifo.isEmpty)

/-- A store in the FIFO. -/
def storing (s : State) : State := onGrp (fun g => { g with fifo := [⟨[], (0, 0)⟩] }) s

/-- An instruction that traps at the object: it is there, and what else holds. -/
def atObject (i : Instr) (s : State) (p : Ctx → BarObj → Bool) : Bool :=
  metD true i s (fun c s => (barB c s).1 && p c (s.obj 0 0x100))

theorem witness_BarrierObjects :
    met true (.binit true false (.s 2) (.s 4) .zero gd) base (fun c s => barB c s == (true, true, true) &&
      (c.rd (.s 4) 0).toNat == 1) = true ∧
    met true (.binit false true (.s 2) (.s 4) (.s 13) gd) (reckoning (setS 13 0x7FFFFFFF (setS 4 65535 base))) (fun c s =>
      (barB c s).1 && (c.rd (.s 4) 0).toNat == 65535 && decide ((c.rd (.s 13) 0).toNat < 2 ^ 31)) = true ∧
    atObject (.binit true false (.s 2) .zero .zero gd) base (fun c _ => (c.rd .zero 0).toNat == 0) = true ∧
    atObject (.binit true false (.s 2) (.s 4) .zero gd) (setS 4 65536 base) (fun c _ => decide (65535 < (c.rd (.s 4) 0).toNat)) = true ∧
    atObject (.binit true false (.s 2) (.s 4) (.s 13) gd) (setS 13 0x80000000 base) (fun c _ =>
      decide (2 ^ 31 ≤ (c.rd (.s 13) 0).toNat)) = true ∧
    met true (.bjoin (.s 2) gd) (barred 1 1 0 false base) (fun c s => barB c s == (true, true, true) &&
      (c.grp.memberAt 0 0x100).isNone && c.grp.freeMember == some 0) = true ∧
    met true (.bjoin (.s 2) gd) (inObject (barred 1 1 0 false base)) (fun c s => barB c s == (true, true, true) &&
      c.grp.memberAt 0 0x100 == some 7) = true ∧
    atObject (.bjoin (.s 2) gd) (shattered base) (fun _ o => o.broken) = true ∧
    atObject (.bjoin (.s 2) gd) (fullSet base) (fun c _ => (c.grp.memberAt 0 0x100).isNone && c.grp.freeMember.isNone) = true ∧
    met true (.barv (.s 47) (.s 2) gd) (barred 2 2 0 false base) (fun c s => barB c s == (true, true, true) &&
      ((s.obj 0 0x100).arrive 1 0 0).any (fun r => !r.2)) = true ∧
    met true (.barv (.s 47) (.s 2) gd) (barred 65535 1 0 true base) (fun c s => barB c s == (true, true, true) &&
      ((s.obj 0 0x100).arrive 1 0 0).any (fun r => r.2)) = true ∧
    atObject (.barv (.s 47) (.s 2) gd) (barred 1 0 0 true base) (fun _ o => !o.unit && (o.arrive 1 0 0).isNone) = true ∧
    met true (.barx .zero (.s 2) (.s 8) gd) (barred 2 2 (-1) false base) (fun c s => barB c s == (true, true, true) &&
      ((s.obj 0 0x100).arrive 1 (c.rd (.s 8) 0).toNat 0).any (fun r => !r.2)) = true ∧
    met true (.barx .zero (.s 2) (.s 4) gd) (barred 2 1 (-1) false base) (fun c s => barB c s == (true, true, true) &&
      ((s.obj 0 0x100).arrive 1 (c.rd (.s 4) 0).toNat 0).any (fun r => r.2)) = true ∧
    atObject (.barx .zero (.s 2) (.s 12) gd) base (fun c _ => decide (2 ^ 31 ≤ (c.rd (.s 12) 0).toNat)) = true ∧
    atObject (.barx .zero (.s 2) (.s 4) gd) (barred 2 2 (2 ^ 31 - 1) false base) (fun c o =>
      (o.arrive 1 (c.rd (.s 4) 0).toNat 0).isNone && decide ((c.rd (.s 4) 0).toNat < 2 ^ 31)) = true ∧
    (base.groups.find? 4).any (fun g => (g.splits.find? 0).isSome) = true := by
  decide +kernel

theorem witness_BarrierWaits :
    met true (.bwait (.s 2) .zero gd) (barred 1 1 0 true base) (fun c s => !c.resumed && barB c s == (true, true, true) &&
      (s.obj 0 0x100).phase != (c.rd .zero 0).getLsbD 0) = true ∧
    met true (.bwait (.s 2) .zero gd) (storing (barred 1 1 0 false base)) (fun c s => !c.resumed && barB c s == (true, true, false) &&
      (s.obj 0 0x100).phase == (c.rd .zero 0).getLsbD 0) = true ∧
    met true (.bwait (.s 2) .zero gd) (waits (.released (7, 0))) (fun c _ => c.sp.wait == .released (7, 0)) = true ∧
    metD true (.bwait (.s 2) .zero gd) (waits .broken) (fun c _ => c.sp.wait == .broken) = true ∧
    atObject (.bwait (.s 2) .zero gd) (shattered base) (fun c o => !c.resumed && o.broken) = true ∧
    met true (.bwaitt (.s 47) (.s 2) (.s 4) (.s 4) gd) (barred 1 1 0 false base) (fun c s => !c.resumed && (barB c s).1 && (barB c s).2.1 &&
      (s.obj 0 0x100).phase != (c.rd (.s 4) 0).getLsbD 0) = true ∧
    met true (.bwaitt (.s 47) (.s 2) (.s 4) (.s 4) gd) (barred 1 1 0 true base) (fun c s => !c.resumed && (barB c s).1 && (barB c s).2.1 &&
      (s.obj 0 0x100).phase == (c.rd (.s 4) 0).getLsbD 0) = true ∧
    met true (.bwaitt (.s 47) (.s 2) (.s 4) (.s 4) gd) (waits (.released (7, 0))) (fun c _ => c.sp.wait == .released (7, 0)) = true ∧
    met true (.bwaitt (.s 47) (.s 2) (.s 4) (.s 4) gd) (waits (.expired (7, 0))) (fun c _ => c.sp.wait == .expired (7, 0)) = true ∧
    metD true (.bwaitt (.s 47) (.s 2) (.s 4) (.s 4) gd) (waits .broken) (fun c _ => c.sp.wait == .broken) = true ∧
    atObject (.bwaitt (.s 47) (.s 2) (.s 4) (.s 4) gd) (shattered base) (fun c o => !c.resumed && o.broken) = true ∧
    met true (.btest (.s 47) (.s 2) .zero gd) (barred 1 1 0 true base) (fun c s => (barB c s).1 && (barB c s).2.1 &&
      (s.obj 0 0x100).phase != (c.rd .zero 0).getLsbD 0) = true ∧
    met true (.btest (.s 47) (.s 2) .zero gd) (barred 1 1 0 false base) (fun c s => (barB c s).1 && (barB c s).2.1 &&
      (s.obj 0 0x100).phase == (c.rd .zero 0).getLsbD 0) = true ∧
    atObject (.btest (.s 47) (.s 2) .zero gd) (shattered base) (fun _ o => o.broken) = true ∧
    ((waits (.phase 0 0x100 false (some 9))).ctxAt 4 0 0 Guard.always).any (fun c => c.sp.wait == .phase 0 0x100 false (some 9)) =
      true ∧
    (let s := reckoning (waits (.phase 0 0x100 false (some 0)))
     (s.ctxAt 4 0 0 Guard.always).any (fun c => c.reckon && s.smallest c.team.cluster (0, c.grp.ggid.toNat)) = true) := by
  decide +kernel

/-- What BLEAVE finds: its entry, whether it arrived in this phase, the arrivals it takes off (1), and the object after. -/
def leaveB (c : Ctx) (s : State) : Bool × Bool × Option Bool :=
  match c.grp.memberAt 0 0x100, c.grp.members.find? 7 with
  | some 7, some m =>
    let arrived := m.arrived && m.aphase == (s.obj 0 0x100).phase
    (decide (1 ≤ (s.obj 0 0x100).expArr), arrived, if arrived then none else ((s.obj 0 0x100).arrive 1 0 1).map (·.2))
  | _, _ => (false, false, none)

theorem witness_BarrierLeaves :
    met true (.bleave (.s 2) gd) (inObject (barred 1 1 0 false base)) (fun c s => barB c s == (true, true, true) &&
      leaveB c s == (true, true, none)) = true ∧
    met true (.bleave (.s 2) gd) (inObject (barred 2 2 0 true base)) (fun c s => barB c s == (true, true, true) &&
      leaveB c s == (true, false, some false)) = true ∧
    met true (.bleave (.s 2) gd) (inObject (barred 1 1 0 true base)) (fun c s => barB c s == (true, true, true) &&
      leaveB c s == (true, false, some true)) = true ∧
    atObject (.bleave (.s 2) gd) base (fun c _ => (c.grp.memberAt 0 0x100).isNone) = true ∧
    atObject (.bleave (.s 2) gd) (inObject (shattered base)) (fun c o => c.grp.memberAt 0 0x100 == some 7 && o.broken) = true ∧
    atObject (.bleave (.s 2) gd) (inObject (barred 0 0 0 false base)) (fun c o => c.grp.memberAt 0 0x100 == some 7 && o.expArr == 0) =
      true ∧
    metD true (.bleave (.s 2) gd) (inObject (barred 1 0 0 true base)) (fun c s => (barB c s).1 && leaveB c s == (true, false, none)) =
      true := by
  decide +kernel

/-- The largest number that BarrierObjectLayout speaks of. -/
theorem witness_BarrierObjectLayout : 2 ^ 128 - 1 < 2 ^ 128 ∧ (BarObj.ofNat (2 ^ 128 - 1)).toNat = 2 ^ 128 - 1 := by
  decide +kernel

/-- The allotment leaves room to grow; the pool and the reserve. -/
def small (s : State) : State := onGrp (fun g => { g with vallot := 160 }) s

/-- A queued GROW of 2 units, of a group of an allotment, with so many units free. -/
def growing (vallot free : Nat) : State :=
  (onSplit (fun sp => { sp with wait := .grow 2 (.s 3) 0xFF }) (onGrp (fun g => { g with vallot := vallot }) base)).modCore 0
    (fun k => { k with growQ := [{ grp := 4, slot := 0, n := 2 }], poolFree := free })

/-- A Reckoning team with a reserve, of which units still drain. -/
def reserved (n k : Nat) : State :=
  onGrp (fun g => { g with returning := k }) (reckoning (onTeam (fun t => { t with reserve := n }) (small base)))

/-- GROW of 2 units: the allotment allows it, the team's reserve, what of it drains, the pool's units, and no one queues. -/
def growB (c : Ctx) (s : State) : Bool × Nat × Nat × Nat × Bool :=
  (decide (c.grp.vallot + 16 ≤ 176), c.team.reserve, s.returning c.grp.team, (s.core c.grp.core).poolFree,
    (s.core c.grp.core).growQ.isEmpty)

theorem witness_TeamOperations :
    met true (.tbar gd) base (fun c _ => c.grp.fifo.isEmpty) = true ∧
    met true (.cbar gd) (reckoning base) (fun c _ => c.grp.fifo.isEmpty) = true ∧
    (base.teams.find? 3).any (fun t => !allArrived (base.teamGroups 3) .tbar && !base.teamReckon t &&
      !allArrived (base.clusterGroups t.cluster) .cbar) = true ∧
    ((reckoning base).teams.find? 3).any (fun t => (reckoning base).teamReckon t) = true ∧
    allArrived ((waits .tbar).teamGroups 3) .tbar = true ∧
    ((waits .cbar).teams.find? 3).any (fun t => allArrived ((waits .cbar).clusterGroups t.cluster) .cbar &&
      ((waits .cbar).clusterTeams t.cluster).all (fun e => e.2.started)) = true ∧
    met false (.sleep .zero gd) base (fun c _ => c.rd .zero 0 == 0) = true ∧
    met false (.sleep (.s 12) gd) (reckoning base) (fun c _ => c.reckon) = true ∧
    met false (.sleep (.s 12) gd) base (fun c _ => !c.reckon && c.rd (.s 12) 0 != 0) = true ∧
    clearAll base [.yield gd] = true ∧
    metD true (.grow (.s 3) 2 gd) (onGrp (fun g => { g with vallot := 168 }) base) (fun c s => !(growB c s).1) = true ∧
    met true (.grow (.s 3) 2 gd) ((small base).modCore 0 (fun k => { k with poolFree := 2 })) (fun c s => !c.reckon &&
      growB c s == (true, 0, 0, 2, true)) = true ∧
    met true (.grow (.s 3) 2 gd) (reserved 3 1) (fun c s => c.reckon && (growB c s).1 && (growB c s).2.1 == 3 &&
      (growB c s).2.2.1 == 1) = true ∧
    metD true (.grow (.s 3) 2 gd) (reserved 2 1) (fun c s => c.reckon && (growB c s).1 && (growB c s).2.1 == 2 &&
      (growB c s).2.2.1 == 1) = true ∧
    met true (.grow (.s 3) 2 gd) (reserved 1 0) (fun c s => c.reckon && (growB c s).1 && (growB c s).2.1 == 1) = true ∧
    met true (.grow (.s 3) 2 gd) ((small base).modCore 0 (fun k => { k with poolFree := 1 })) (fun c s => !c.reckon &&
      growB c s == (true, 0, 0, 1, true)) = true ∧
    met true (.grow (.s 3) 2 gd) ((small base).modCore 0 (fun k => { k with poolFree := 9, growQ := [{ grp := 5, slot := 0, n := 2 }] }))
      (fun c s => !c.reckon && growB c s == (true, 0, 0, 9, false)) = true ∧
    (small base).groups.find? 4 ≠ none ∧
    ((growing 160 2).core 0).growQ = [{ grp := 4, slot := 0, n := 2 }] ∧
    ((growing 160 2).growCtx { grp := 4, slot := 0, n := 2 }).any (fun e => e.1.grp.vallot + 16 == 176 && e.1.act == 0xFF) = true ∧
    ((growing 168 2).growCtx { grp := 4, slot := 0, n := 2 }).any (fun e => e.1.grp.vallot + 16 == 184) = true ∧
    ((growing 160 1).growCtx { grp := 4, slot := 0, n := 2 }).isSome = true ∧ ((growing 160 1).core 0).poolFree = 1 ∧
    (growing 160 1).growDeadlock 0 = true ∧
    youngest (growing 160 1) ((growing 160 1).core 0).growQ = some { grp := 4, slot := 0, n := 2 } ∧
    metD true (.shrink 23 gd) base (fun c _ => decide (c.grp.vallot < 8 * 23)) = true ∧
    met true (.shrink 22 gd) base (fun c _ => decide (8 * 22 ≤ c.grp.vallot) && !c.reckon) = true ∧
    met true (.shrink 22 gd) (reckoning base) (fun c _ => decide (8 * 22 ≤ c.grp.vallot) && c.reckon) = true ∧
    met true (.joinw (.s 3) gd) (onGrp (fun g => { g with forkres := true }) base) (fun c _ => c.grp.forkres) = true ∧
    metD true (.joinw (.s 3) gd) base (fun c _ => !c.grp.forkres) = true := by
  decide +kernel

theorem witness_SpecialRegisters :
    clearAll base [.movs (.v 0) 0 gd, .movs (.s 3) 0x0E gd, .movs (.s 3) 0x10 gd, .movs (.s 3) 0x1C gd, .movs (.s 3) 0xFF gd] = true ∧
    met true (.movs (.s 3) 0x12 gd) (reckoning base) (fun _ _ => true) = true ∧
    met false (.movsw 0x14 (.s 4) gd) base (fun c _ => (c.rd (.s 4) 0).getLsbD 0) = true ∧
    met false (.movsw 0x14 .zero gd) base (fun c _ => !(c.rd .zero 0).getLsbD 0) = true ∧
    met false (.movsw 0x40 (.s 4) gd) (maintenance base) (fun _ _ => true) = true ∧
    clearAll base [.movsw 0x00 (.s 4) gd, .movsw 0x13 (.s 4) gd, .movsw 0x15 (.s 4) gd, .movsw 0xFF (.s 4) gd,
      .sysc 1 .zero .zero gd, .sysc 255 .zero .zero gd] = true ∧
    met false (.sysc 0 (.s 4) (.s 12) gd) base (fun c _ => c.grp.fifo.isEmpty) = true ∧
    metD false (.sysc 0 (.s 4) (.s 12) gd) (storing base) (fun c _ => !c.grp.fifo.isEmpty) = true := by
  decide +kernel

/-- A group with a small allotment, whose image is short; and a machine whose pair s0 names such an image. -/
def shortGroup (s : State) : State := onGrp (fun g => { g with vallot := 0, s := [(0, 0x40000)], x := [], m := [] }) s
def imagedOf (vallot : Nat) : State :=
  match (shortGroup base).groups.find? 4 with
  | some g =>
    let image := imageOf { g with vallot := vallot }
    (shortGroup base).putBytes (((List.range image.length).map (fun k => ((.global, 0x40000 + k) : Place))).zip image)
  | none => base
def imaged : State := imagedOf 0

/-- The places of an image of `n` bytes at pair s0. -/
def imagePlaces (n : Nat) : List Place := (List.range n).map (fun k => (.global, 0x40000 + k))

/-- CLOAD's image: its places are there, an engine is in them, its size, its allotment, and the place of all of it. -/
def cloadB (c : Ctx) (s : State) : Bool × Bool × Option Nat × Nat × Bool :=
  let h := (imagePlaces 0x250).map (s.loadByte c.grp.fifo)
  ((spanPlaces c s (readPair c.grp 0) 0x250 256 .read).toOption == some (imagePlaces 0x250), (imagePlaces 0x250).any s.owned,
    imageSize h, 8 * (h.getD 8 0).toNat,
    (spanPlaces c s (readPair c.grp 0) ((imageSize h).getD 0) 256 .read).toOption == some (imagePlaces ((imageSize h).getD 0)))

theorem witness_ContextImages :
    met false (.csave (.s 3) 0 gd) (shortGroup base) (fun c s => decide (c.grp.fifo.length < 16) &&
      (spanPlaces c s (readPair c.grp 0) (imageOf c.grp).length 256 .write).toOption == some (imagePlaces (imageOf c.grp).length) &&
      spanB c s (readPair c.grp 0) (imagePlaces (imageOf c.grp).length) .write false) = true ∧
    metD false (.csave (.s 3) 0 gd) (onGrp (fun g => { g with fifo := List.replicate 16 ⟨[], (0, 0)⟩ }) base)
      (fun c _ => decide (16 ≤ c.grp.fifo.length)) = true ∧
    met false (.cload 0 gd) imaged (fun c s => cloadB c s == (true, false, some (imageOf c.grp).length, 0, true) &&
      spanB c s (readPair c.grp 0) (imagePlaces (imageOf c.grp).length) .read true) = true ∧
    metD false (.cload 0 gd) (owning (0x40000 / 128) base) (fun c s => (cloadB c s).1 && (cloadB c s).2.1) = true ∧
    metD false (.cload 0 gd) base (fun c s => cloadB c s == (true, false, none, 0, (cloadB c s).2.2.2.2)) = true ∧
    metD false (.cload 0 gd) (imagedOf 8) (fun c s => (cloadB c s).1 && !(cloadB c s).2.1 && (cloadB c s).2.2.1.isSome &&
      (cloadB c s).2.2.2.1 == 8 && (cloadB c s).2.2.2.2 && c.grp.vallot == 0) = true := by
  decide +kernel

/-- A team that waits in FORK of a record, zeros or a child of one group, at an address. -/
def forkingAt (a : DWord) (rec : List (Nat × Nat × Nat)) : State :=
  { waits (.fork a) with mem := rec.foldl (fun m e => m.storeNat (0x48000 + e.1) e.2.1 e.2.2) (waits (.fork a)).mem }
def forking : List (Nat × Nat × Nat) → State := forkingAt 0x48000

/-- A team swapped out by a FORK whose child has ended, with another team on core 1. -/
def returned : State :=
  onTeam (fun t => { t with swapped := true, forked := true }) (onGrp (fun g => { g with st := .swapped })
    (base.modCore 1 (fun k => { k with dispatchQ := [3000] })))

/-- FORK_RESUME's choice among the cores before and after `core`, and its load. -/
def resumeB (s : State) (core : Nat) : Bool :=
  (s.teams.find? 3).any (fun t => t.swapped && t.forked && t.child.isNone && (s.grids.find? t.grid).any (fun g =>
    g.ending.isNone && !s.cores.any (fun e => e.2.dispatchQ.contains 3) &&
      (let cs := (s.gridParts g).flatMap s.placeable
       let load := fun (c : Nat) => (s.teamsOn c).length + (s.core c).dispatchQ.length
       cs.contains core && (s.roomAt core (s.teamNeed 3)).isSome &&
         (cs.takeWhile (· != core)).all (fun c => (s.roomAt c (s.teamNeed 3)).isNone || decide (load core < load c)) &&
         ((cs.dropWhile (· != core)).drop 1).all (fun c => (s.roomAt c (s.teamNeed 3)).isNone || decide (load core ≤ load c)))))

/-- A maintenance grid with one entry, for a SPAWN. -/
def oneEntry (s : State) : State := maintenance (onRec (fun r => { r with entryCnt := 1, entryTab := 0x40000 }) s)

/-- SPAWN of one group of entry 0 is legal, and its entry can be read. -/
def spawnB (c : Ctx) (s : State) : Bool :=
  c.grid.record.maint && decide ((c.rd .zero 0).toNat < c.grid.record.entryCnt) && (c.rd (.s 4) 0).toNat == 1 &&
    decide (1 ≤ (s.freeNumbers c.grp.team).length) && (s.resolve c.grid 0x40000 8 .read) == some 0x40000

theorem witness_ForkAndSpawn :
    met true (.fork 0 gd) base (fun c _ => (readPair c.grp 0).toNat % 256 == 0) = true ∧
    metD true (.fork 4 gd) base (fun c _ => (readPair c.grp 4).toNat % 256 == 4) = true ∧
    (let s := forking []
     (s.teams.find? 3).any (fun t => !t.swapped && (s.grids.find? t.grid).any (fun g => decide (g.depth < 8)) &&
       s.forkAddr 3 == some 0x48000 && s.forkReady 3 && (s.readVa 0 0x48000 256).2.any (fun bs =>
         ((s.readVa 0 0x48000 256).1.refusedRecord 0 (parseLaunch bs)).2)) = true) ∧
    (let s := forking [(0x00, 8, 0x10000), (0x08, 8, 0x20000), (0x20, 4, 1), (0x24, 1, 1), (0x25, 1, 1), (0x26, 1, 0x11), (0x28, 1, 8)]
     (s.teams.find? 3).any (fun t => !t.swapped && s.forkAddr 3 == some 0x48000 && s.forkReady 3 &&
       (s.readVa 0 0x48000 256).2.any (fun bs => !((s.readVa 0 0x48000 256).1.refusedRecord 0 (parseLaunch bs)).2)) = true) ∧
    (let s := onGrid (fun g => { g with depth := 8 }) (forking [])
     (s.teams.find? 3).any (fun t => (s.grids.find? t.grid).any (fun g => g.depth == 8)) = true) ∧
    (let s := forkingAt 0xFFFFFFFF00000000 []
     s.forkAddr 3 == some 0xFFFFFFFF00000000 && s.forkReady 3 && (s.readVa 0 0xFFFFFFFF00000000 256).2.isNone) = true ∧
    resumeB returned 0 = true ∧
    met true (.spawn (.s 3) .zero (.s 4) gd) (oneEntry base) (fun c s => !c.reckon && spawnB c s) = true ∧
    met true (.spawn (.s 3) .zero (.s 4) gd) (reckoning (oneEntry base)) (fun c s => c.reckon && spawnB c s &&
      decide (1 ≤ ((s.markRead c.grid (.glob 0x40000)).touchPlaces (some c.grp.core) (c.tag s)
        [(.global, 0x40000)]).spawnRoom c.grp.core (c.grid.record.vcnt / 8))) = true ∧
    metD true (.spawn (.s 3) .zero (.s 4) gd) base (fun c _ => !c.grid.record.maint) = true ∧
    metD true (.spawn (.s 3) .zero .zero gd) (oneEntry base) (fun c _ => (c.rd .zero 0).toNat == 0) = true ∧
    metD true (.spawn (.s 3) (.s 4) (.s 4) gd) (oneEntry base) (fun c _ => (c.rd (.s 4) 0).toNat == c.grid.record.entryCnt) = true ∧
    metD true (.spawn (.s 3) .zero (.s 13) gd) (setS 13 32 (oneEntry base)) (fun c s =>
      decide ((s.freeNumbers c.grp.team).length < (c.rd (.s 13) 0).toNat)) = true := by
  decide +kernel
/-! ### Witnesses: transfers and tags -/

/-- The record as XFER reads it, and the object it names, if the locator is legal. -/
def xferRead (a : XArgs) (c : Ctx) (s : State) (ps : List Place) : List Byte × State :=
  let r := s.readRecord c.reckon c.grp.core c.grid.asid (readPair c.grp a.recp) ps
  (r.1, r.2.touchPlaces (some c.grp.core) (c.tag s) ps)
def xferBar (a : XArgs) (mcast : Bool) (c : Ctx) (u : State) : Option (Option Nat) :=
  if a.bar = .zero then some none
  else if mcast && bits (c.rd a.bar 0).toNat 24 4 != 15 then none
  else (locate c u (c.rd a.bar 0) 16 16 true).toOption.map (fun p => some (p.2 - c.team.spadBase))

/-- XferOk as a check, of a machine whose record cache is empty. -/
def xferB (fn : Nat) (a : XArgs) (mcast : Bool) (c : Ctx) (s : State) : Bool :=
  match spanPlaces c s (readPair c.grp a.recp) 192 64 .read with
  | .error _ => false
  | .ok ps =>
    let r := xferRead a c s ps
    let x := xferOf fn a mcast c r.1
    s.tagFree c.grp.core a.tag.val && c.grp.fifo.isEmpty &&
      recordOk fn a.sacc (!mcast && !a.wbuf && bits (readPair c.grp a.dst).toNat 56 8 == 0) (parseShape (leNat r.1)) &&
      (xferBar a mcast c r.2).isSome &&
      (!mcast || ((readPair c.grp a.dst >>> 32).toNat != 0 && decide ((readPair c.grp a.dst >>> 32).toNat < 4096) &&
        x.replicas.all (fun k => (memberIn (viewOf c s) k).isSome) && (a.wbuf || decide (x.dst.toNat < 2097152)))) &&
      (addressTrap (viewOf c s) x).isNone && !(x.replicas.any (fun k => (r.2.memberTeam c.team k).any (fun m => m.swapped))) &&
      !(((reaches x).1 ++ (reaches x).2).any (fun e => r.2.namesAway c.team e.1 e.2))

theorem xferBar_spec {a : XArgs} {m : Bool} {c : Ctx} {u : State} {bar : Option Nat} (h : xferBar a m c u = some bar) :
    if a.bar = .zero then bar = none else (m = true → bits (c.rd a.bar 0).toNat 24 4 = 15) ∧
      ∃ p, locate c u (c.rd a.bar 0) 16 16 true = .ok p ∧ bar = some (p.2 - c.team.spadBase) := by
  unfold xferBar at h
  split at h
  · rename_i hz
    simp_all
  · rename_i hz
    rw [if_neg hz]
    split at h
    · cases h
    · rename_i hm
      refine ⟨fun e => by subst e; simpa using hm, ?_⟩
      cases hl : locate c u (c.rd a.bar 0) 16 16 true with
      | error e => simp [hl, Except.toOption] at h
      | ok p => exact ⟨p, rfl, by simpa [hl, Except.toOption] using h.symm⟩

theorem xferB_spec {fn : Nat} {a : XArgs} {m : Bool} {c : Ctx} {s : State} (h : xferB fn a m c s = true) :
    ∃ ps bs u bar, XferOk fn a m c s ps bs u bar := by
  unfold xferB at h
  split at h
  · cases h
  · rename_i ps hp
    simp only [Bool.and_eq_true, Bool.or_eq_true, Bool.not_eq_true', bne_iff_ne, decide_eq_true_eq, ne_eq,
      Option.isNone_iff_eq_none, List.isEmpty_iff, List.all_eq_true, Option.isSome_iff_exists] at h
    obtain ⟨⟨⟨⟨⟨⟨⟨h1, h2⟩, h3⟩, bar, h4⟩, h5⟩, h6⟩, h7⟩, h8⟩ := h
    refine ⟨ps, _, _, bar, h1, h2, hp, rfl, rfl, h3, xferBar_spec h4, fun hm => ?_, h6, h7, h8⟩
    rcases h5 with h5 | h5
    · rw [hm] at h5; cases h5
    · obtain ⟨⟨⟨a1, a2⟩, a3⟩, a4⟩ := h5
      subst hm
      refine ⟨a1, a2, fun k hk => Option.isSome_iff_exists.2 (a3 k hk), fun hw => ?_⟩
      rcases a4 with a4 | a4
      · rw [hw] at a4; cases a4
      · exact a4

/-- A dimension of a shape record: extent, source and destination strides. -/
def dimOf (tile ss ds : Nat) : Nat := tile + tile * 2 ^ 16 + ss * 2 ^ 48 + ds * 2 ^ 88

/-- A machine with a shape record at pair s0: types, dimensions, and other fields by bit; the destination pair s14 names member
0 for XMCAST. -/
def shaped (stype dtype : Nat) (dims : List Nat) (more : Nat) : State :=
  let n := 1 + stype * 2 ^ 8 + dtype * 2 ^ 12 + dims.length * 2 ^ 16 +
    ((dims.zipIdx.map (fun d => d.1 * 2 ^ (256 + 128 * d.2))).foldl (· + ·) 0) + more
  setS 15 1 (setS 14 0x1000 { base with mem := base.mem.storeNat 0x40000 192 n })

/-- Record in pair s0, source 0x40004, destination SPAD offset 0x1000 or s14, tag 63. -/
def xargs (dst : Fin 24) : XArgs := { sacc := false, wbuf := false, scope := .team, bar := .zero, recp := 0, src := 4, dst := dst, tag := 63 }

theorem witness_TransfersAreAccepted :
    met true (.xferCopy (xargs 5) gd) (shaped 2 2 [dimOf 2 4 4] 0) (xferB 0 (xargs 5) false) = true ∧
    met true (.xferTranspose (xargs 5) gd) (shaped 2 2 [dimOf 2 4 8, dimOf 2 8 4] 0) (xferB 1 (xargs 5) false) = true ∧
    met true (.xferRepack (xargs 5) gd) (shaped 9 9 [dimOf 32 0 0] 0) (xferB 2 (xargs 5) false) = true ∧
    met true (.xferQuant (xargs 5) gd) (shaped 2 4 [dimOf 8 4 1] (4 * 2 ^ 1184)) (xferB 3 (xargs 5) false) = true ∧
    met true (.xferDequant (xargs 5) gd) (shaped 4 2 [dimOf 8 1 4] (4 * 2 ^ 1184)) (xferB 4 (xargs 5) false) = true ∧
    met true (.xferGather (xargs 5) gd) (shaped 2 2 [dimOf 2 4 4, dimOf 2 8 8] (0x40100 * 2 ^ 64 + 2 * 2 ^ 128))
      (xferB 5 (xargs 5) false) = true ∧
    met true (.xferScatter (xargs 5) gd) (shaped 2 2 [dimOf 2 4 4, dimOf 2 8 8] (0x40100 * 2 ^ 64 + 2 * 2 ^ 128))
      (xferB 6 (xargs 5) false) = true ∧
    met true (.xferFill (xargs 5) gd) (shaped 2 2 [dimOf 2 4 4] 0) (xferB 7 (xargs 5) false) = true ∧
    met true (.xmcast (xargs 7) gd) (shaped 2 2 [dimOf 2 4 4] 0) (xferB 0 (xargs 7) true) = true ∧
    met true (.xferCopy { xargs 5 with bar := .s 2 } gd) (shaped 2 2 [dimOf 2 4 4] 0) (xferB 0 { xargs 5 with bar := .s 2 } false) =
      true ∧
    met true (.xmcast { xargs 7 with bar := .s 13 } gd) (setS 13 0x0F000100 (shaped 2 2 [dimOf 2 4 4] 0))
      (xferB 0 { xargs 7 with bar := .s 13 } true) = true := by
  decide +kernel

/-- The transfers and XMCAST with their tag taken, and with a store in the FIFO. -/
def xfers : List Instr :=
  [.xferCopy (xargs 5) gd, .xferTranspose (xargs 5) gd, .xferRepack (xargs 5) gd, .xferQuant (xargs 5) gd, .xferDequant (xargs 5) gd,
   .xferGather (xargs 5) gd, .xferScatter (xargs 5) gd, .xferFill (xargs 5) gd, .xmcast (xargs 7) gd]

theorem witness_TransfersWait :
    xfers.all (fun i => metD true i (base.putTag 0 63 { st := .pending, status := 2, cmd := 9, team := 3, key := (0, 0) })
      (fun c s => !s.tagFree c.grp.core 63)) = true ∧
    xfers.all (fun i => metD true i (storing base) (fun c s => s.tagFree c.grp.core 63 && !c.grp.fifo.isEmpty)) = true := by
  decide +kernel

/-- Tags 0 and 63 of the core in a state, of the issuing team. -/
def tagged (a b : TagState) (st : Word) (s : State) : State :=
  (s.putTag 0 0 { st := a, status := st, cmd := 0, team := 3, key := (0, 0) }).putTag 0 63
    { st := b, status := st, cmd := 0, team := 3, key := (0, 0) }

/-- A mask pair that names every tag; and a trap owed for the command of tag 0 in `tagged` (id 0). -/
def allTags (s : State) : State := setS 13 0xFFFFFFFF s
def owesTag (s : State) : State := onGrp (fun g => { g with owed := [⟨0, 0, 7, 0, 0, none⟩] }) s

/-- The tags of the mask that a wait has live, and those of them that are READY. -/
def twB (c : Ctx) (s : State) : List Nat × List Nat :=
  let live := liveTags c s (maskTags c (some 6))
  (live, tagsIn c s .ready (if c.reckon then live.take 1 else live))

/-- No trap owed on a tag, and whether its status traps. -/
def seeB (c : Ctx) (s : State) (t : Nat) : Bool × Bool :=
  ((owedOn c s [t]).isNone, (statusTrap c (s.tag c.grp.core t).status).isSome)

theorem witness_TagInstructions :
    met true (.twaita false .team (.s 3) (some 6) gd) (allTags base) (fun c s => (twB c s).1.isEmpty) = true ∧
    met true (.twaita true .team (.s 3) (some 6) gd) (tagged .ready .ready 0 (allTags base)) (fun c s =>
      twB c s == ([0, 63], [0, 63]) && tagsIn c s .ready (maskTags c (some 6)) == [0, 63] && seeB c s 0 == (true, false)) = true ∧
    met true (.twaita true .team (.s 3) (some 6) gd) (reckoning (tagged .idle .ready 0 (allTags base))) (fun c s => c.reckon &&
      twB c s == ([63], [63]) && seeB c s 63 == (true, false)) = true ∧
    met true (.twaita false .team (.s 3) (some 6) gd) (onSplit (fun sp => { sp with wait := .tags (1#64 <<< 63) })
      (tagged .ready .ready 0 (allTags base))) (fun c s => twB c s == ([63], [63]) &&
        tagsIn c s .ready (maskTags c (some 6)) == [0, 63] && seeB c s 0 == (true, false)) = true ∧
    metD true (.twaita true .team (.s 3) (some 6) gd) (tagged .ready .idle 0x12 (allTags base)) (fun c s =>
      twB c s == ([0], [0]) && seeB c s 0 == (true, true)) = true ∧
    metD true (.twaita false .team (.s 3) (some 6) gd) (owesTag (tagged .ready .idle 0 (allTags base))) (fun c s =>
      twB c s == ([0], [0]) && !(seeB c s 0).1) = true ∧
    met true (.twaita false .team (.s 3) (some 6) gd) (tagged .idle .pending 2 (allTags base)) (fun c s =>
      c.sp.wait == .none && twB c s == ([63], [])) = true ∧
    met true (.tffr .team (.s 3) none gd) base (fun c s => !c.reckon && (tagsIn c s .ready (maskTags c none)).isEmpty) = true ∧
    met true (.tffr .team (.s 3) (some 6) gd) (reckoning (tagged .ready .pending 2 (allTags base))) (fun c s => c.reckon &&
      (tagsIn c s .pending ((twB c s).1.take 1)).isEmpty && (twB c s).2 == [0] && seeB c s 0 == (true, (seeB c s 0).2)) = true ∧
    met true (.tffr .team (.s 3) (some 6) gd) (reckoning (tagged .idle .pending 2 (allTags base))) (fun c s => c.reckon &&
      tagsIn c s .pending ((twB c s).1.take 1) == [63]) = true ∧
    met true (.tclr none gd) (tagged .ready .pending 0 base) (fun _ _ => true) = true ∧
    met true (.xstat true (.s 3) 63 gd) (tagged .ready .ready 0 base) (fun c s => tagAsOf c s 63 == s.tag c.grp.core 63 &&
      seeB c s 63 == (true, false)) = true ∧
    met true (.xstat true (.s 3) 63 gd) (reckoning ((tagged .ready .idle 0 base).putTag 0 63
      { st := .ready, status := 0x12, cmd := 0, team := 3, key := (9, 0) })) (fun c s =>
        !(tagAsOf c s 63 == s.tag c.grp.core 63) && (statusTrap c (tagAsOf c s 63).status).isNone) = true ∧
    metD true (.xstat true (.s 3) 63 gd) (tagged .ready .ready 0x12 base) (fun c s => tagAsOf c s 63 == s.tag c.grp.core 63 &&
      seeB c s 63 == (true, true)) = true := by
  decide +kernel

theorem witness_TagWaitsForAll :
    met true (.twaitl false .team (.s 3) (some 6) gd) (tagged .ready .ready 0 (allTags base)) (fun c s =>
      let live := (twB c s).1
      tagsIn c s .ready live == live && (owedOn c s live).isNone && live.all (fun k => statusCode (s.tag c.grp.core k).status == 0)) =
        true ∧
    met true (.twaitl false .team (.s 3) (some 6) gd) (tagged .ready .ready 0x12 (allTags base)) (fun c s =>
      let live := (twB c s).1
      tagsIn c s .ready live == live && (owedOn c s live).isNone &&
        live.find? (fun k => statusCode (s.tag c.grp.core k).status ≠ 0) == some 0) = true ∧
    metD true (.twaitl true .team (.s 3) (some 6) gd) (tagged .idle .ready 0x12 (allTags base)) (fun c s =>
      let live := (twB c s).1
      tagsIn c s .ready live == live && (owedOn c s live).isNone &&
        live.find? (fun k => statusCode (s.tag c.grp.core k).status ≠ 0) == some 63 && (seeB c s 63).2) = true ∧
    metD true (.twaitl true .team (.s 3) (some 6) gd) (owesTag (tagged .ready .ready 0 (allTags base))) (fun c s =>
      let live := (twB c s).1
      tagsIn c s .ready live == live && (owedOn c s live).isSome) = true ∧
    met true (.twaitl false .team (.s 3) (some 6) gd) (tagged .pending .ready 2 (allTags base)) (fun c s => c.sp.wait == .none &&
      !(tagsIn c s .ready (twB c s).1 == (twB c s).1)) = true := by
  decide +kernel

/-- The machine after XFER.COPY of two words was accepted, its command; and what became of its grid. -/
def copying : State :=
  match exec (.xferCopy (xargs 5) gd) (shaped 2 2 [dimOf 2 4 4] 0) with
  | .next s => s
  | _ => base
def copyCmd (s : State) : Option (Nat × Cmd) := s.cmds.head?

/-- The transfer of the first command. -/
def xferIn (s : State) (p : Nat → Cmd → Xfer → Bool) : Bool :=
  match s.cmds with
  | (id, cmd) :: _ =>
    match cmd.work with
    | .xfer x => p id cmd x
    | _ => false
  | [] => false

/-- That machine once its one unit has been released. -/
def copied : State :=
  match copying.cmds with
  | (id, cmd) :: _ =>
    match cmd.owned with
    | r :: _ =>
      (match exec (.engineLineRelease id r.1 r.2.1) copying with
       | .next s => s
       | _ => base)
    | [] => base
  | [] => base

/-- A transfer goes on: its grid is alive, it is its turn, and its sources can be read. -/
def goesOn (s : State) (p : Nat → Cmd → Xfer → List Item → Bool) : Bool :=
  xferIn s (fun id cmd x => !s.gridOver cmd && x.turn id cmd s && !(s.prepare id cmd x).lost &&
    p id cmd (s.prepare id cmd x) (s.xferItems id cmd (s.prepare id cmd x)))

theorem witness_CommandsGoOnAndComplete :
    goesOn copying (fun id cmd _ items => match cmd.owned with
      | r :: _ => copying.unitDue id cmd items (r.1, r.2.1) && (itemUnits items).contains (r.1, r.2.1) &&
          (unitWrites items (r.1, r.2.1)).isSome
      | [] => false) = true ∧
    xferIn { copying with grids := [] } (fun _ cmd _ => ({ copying with grids := [] } : State).gridOver cmd) = true ∧
    goesOn copied (fun _ cmd _ items => !leaseFault items && !(itemUnits items).any cmd.owns && copied.completable cmd) = true ∧
    goesOn copying (fun _ cmd _ items => !leaseFault items && (itemUnits items).any cmd.owns && copying.completable cmd) = true ∧
    (let s : State := { copying with ms := { copying.ms with asidBase := 0 } }
     goesOn s (fun _ _ _ items => leaseFault items) = true) ∧
    (2 ^ 24 - 1 < 2 ^ 24 ∧ 255 < 256) ∧ xferIn copying (fun _ _ _ => decide (2 ^ 39 - 1 < 2 ^ 39)) = true ∧
    met false (.rfence none gd) base (fun c _ => c.grp.fifo.isEmpty) = true ∧
    met false (.rfence (some 0) gd) base (fun c _ => c.grp.fifo.isEmpty) = true ∧
    metD false (.rfence none gd) (storing base) (fun c _ => !c.grp.fifo.isEmpty) = true ∧
    met false (.spfence (.s 2) (.s 4) gd) base (fun c s => c.grp.fifo.isEmpty && (c.rd (.s 4) 0).toNat != 0 &&
      (locate c s (c.rd (.s 2) 0) (c.rd (.s 4) 0).toNat 1 true).toOption == some (0, 0x100)) = true ∧
    metD false (.spfence (.s 2) (.s 4) gd) (storing base) (fun c s => !c.grp.fifo.isEmpty &&
      (locate c s (c.rd (.s 2) 0) (c.rd (.s 4) 0).toNat 1 true).toOption == some (0, 0x100)) = true := by
  decide +kernel
/-! ### Witnesses: the Almanac -/

/-- A format block without scales at SPAD offset 0x100, of an element type and a row pitch, or with more bits. -/
def formatted (etype pitch more : Nat) (s : State) : State :=
  s.modCore 0 (fun k => { k with spad := k.spad.storeNat 0x100 32 (1 + etype * 2 ^ 8 + 3 * 2 ^ 16 + pitch * 2 ^ 64 + more) })

/-- Octet 2 (s16 to s23) set. -/
def octet (ws : List Word) (s : State) : State := ws.zipIdx.foldl (fun s w => setS (16 + w.2) w.1 s) s

/-- The octets of an MLOOP of `steps` steps, of a TBLD of a table of `npos` positions, and of a TLOOK. -/
def mloopOct (steps : Word) : List Word := [0x1000, 0, 0, 0, 0, 0, steps, 0x80008]
def tbldOct (npos : Word) : List Word := [0x1000, 0xFFFF0008, 0, 0x0F00, npos, 63, 0xFFFFFFFF, 0]
def tlookOct (ctl : Word) : List Word := [0x2000, 0, 16, ctl, 63, 8, 0, 0]

/-- The machine before an MLOOP, a TBLD and a TLOOK of a VALID table. -/
def preMloop (steps : Word) : State := octet (mloopOct steps) (formatted 3 64 0 base)
def preTbld (npos : Word) : State := octet (tbldOct npos) (formatted 3 64 0 base)
def aTable : Table := { tableOf (tbldOct 8) (leBytes 32 (1 + 3 * 2 ^ 8 + 3 * 2 ^ 16 + 64 * 2 ^ 64)) (List.replicate 32 0xFF) false with chunks := 1 }
def withTable (st : TabState) (s : State) : State := onTeam (fun t => { t with tables := [(63, { aTable with st := st })] }) s
def preTlook (ctl : Word) : State := withTable .valid (octet (tlookOct ctl) (formatted 6 16 0 base))

/-- LoopRoom as a check. -/
def roomB (c : Ctx) (s : State) : Bool := c.grp.fifo.isEmpty && decide ((s.loopsOf c.gid).length < 8)

/-- The loops that the instructions would start. -/
def theMloop (c : Ctx) (s : State) : Loop :=
  newLoop .mloop c (octetOf c 2) (fmtAt c s ((octetOf c 2).getD 7 0) 0) (fmtAt c s ((octetOf c 2).getD 7 0) 1) (b2n false)
def theTable (c : Ctx) (s : State) : Table :=
  tableOf (octetOf c 2) (fmtAt c s ((octetOf c 2).getD 1 0) 0) (List.replicate 32 0xFF) false
def theTlook (c : Ctx) (s : State) : Loop :=
  { newLoop .tlook c (octetOf c 2) (fmtAt c s ((octetOf c 2).getD 5 0) 0) [] 0 with pendTabs := s.pendingTables c.grp.team }

/-- The hypotheses of MFMT. -/
def mfmtB (role : FmtRole) (c : Ctx) (s : State) : Bool × Bool :=
  let ps : List Place := (List.range 32).map (fun k => (.spad 0, 0x100 + k))
  ((locate c s (c.rd (.s 2) 0) 32 32 true).toOption == some (0, 0x100) && spanB c s (ownSpad c 0x100) ps .read true,
    (parseFmt (ps.map ((spanAccessed c s ps .read).loadByte c.grp.fifo))).ok (roleOf role))

/-- A table 5 that takes the chunks of the core, and its spill offset. -/
def crowdedBy (n : Nat) (spill : Word) (s : State) : State :=
  onTeam (fun t => { t with tables := (5, { aTable with chunks := n, octet := aTable.octet.set 6 spill }) :: t.tables }) s

/-- TBLD's room for the table of `preTbld 8`, from a block with more bits. -/
def tbldRoom (c : Ctx) (s : State) : Option (List Nat) :=
  let u := s.modTeam c.grp.team (fun x => { x with tables := x.tables.erase 63 })
  if 256 ≤ u.descriptorsUsed c.grp.core then none else
    u.makeRoom c.grp.core c.grp.team (theTable c s).need (parseFmt (theTable c s).afb).autospill 63 (u.pendingTables c.grp.team)
      c.reckon c.grp.key

/-- TBLD passes its checks, and its room. -/
def tbldB (room : Option (List Nat)) (c : Ctx) (s : State) : Bool :=
  roomB c s && s.tablesQuiet c.grp.core && bits ((octetOf c 2).getD 1 0).toNat 16 16 == 0xFFFF &&
    tbldCheck c s (theTable c s) == none && bits ((theTable c s).w 5) 0 6 == 63 && tbldRoom c s == room

/-- A loop in flight, of an operation; and eight of them. -/
def aLoop (op : LoopOp) (oct : List Word) (f : Loop → Loop) (s : State) : State :=
  match s.ctx? .nop with
  | some c => acceptLoop c (.s 3) [] (f (newLoop op c oct [] [] 0)) s
  | none => s
def eightLoops : State := (List.range 8).foldl (fun s _ => aLoop .mloop (mloopOct 1) id s) base

theorem witness_LoopsAreAccepted :
    met false (.mfmt .b (.s 47) (.s 2) gd) (formatted 9 0 0 base) (fun c s => mfmtB .b c s == (true, true)) = true ∧
    metD false (.mfmt .aacc (.s 47) (.s 2) gd) (formatted 9 0 0 base) (fun c s => mfmtB .aacc c s == (true, false)) = true ∧
    met true (.mloop false (.s 3) 2 gd) (preMloop 1) (fun c s => roomB c s && mloopCheck c s (theMloop c s) == none) = true ∧
    metD true (.mloop false (.s 3) 2 gd) (preMloop 0) (fun c s => roomB c s && mloopCheck c s (theMloop c s) == some 0x0B) = true ∧
    met true (.mhad .p16 .s1 (.s 3) (.s 2) (.s 13) gd) (setS 13 (4 * 2 ^ 20) base) (fun c s => roomB c s &&
      (hadGeom (c.rd (.s 13) 0)).2.2 == 64 && (hadGeom (c.rd (.s 13) 0)).2.1 == 1 && (hadGeom (c.rd (.s 13) 0)).1 == 1 &&
      (locate c s (c.rd (.s 2) 0) 64 16 true).toOption == some (0, c.team.spadBase + 0x100)) = true ∧
    metD true (.mhad .p64 .s8 (.s 3) (.s 2) (.s 13) gd) (setS 13 (15 * 2 ^ 20) base) (fun c s => roomB c s &&
      (hadGeom (c.rd (.s 13) 0)).2.2 == 240) = true ∧
    metD true (.mhad .p64 .s8 (.s 3) (.s 2) .zero gd) base (fun c s => roomB c s && (hadGeom (c.rd .zero 0)).2.2 == 0) = true ∧
    metD true (.tbld (.s 3) 2 gd) (preTbld 0) (fun c s => roomB c s && s.tablesQuiet c.grp.core &&
      bits ((octetOf c 2).getD 1 0).toNat 16 16 == 0xFFFF && tbldCheck c s (theTable c s) == some 0x0B) = true ∧
    met true (.tbld (.s 3) 2 gd) (preTbld 8) (tbldB (some [])) = true ∧
    met true (.tbld (.s 3) 2 gd) (crowdedBy 1024 0x2000 (octet (tbldOct 8) (formatted 3 64 (2 ^ 21) base))) (tbldB (some [5])) = true ∧
    met true (.tbld (.s 3) 2 gd) (crowdedBy 1024 0x2000 (preTbld 8)) (tbldB none) = true ∧
    met true (.tlook (.s 3) 2 gd) (preTlook 1) (fun c s => roomB c s && tlookCheck c s (theTlook c s) == none) = true ∧
    metD true (.tlook (.s 3) 2 gd) (preTlook 0) (fun c s => roomB c s && tlookCheck c s (theTlook c s) == some 0x0B) = true ∧
    [Instr.mloop false (.s 3) 2 gd, .mhad .p16 .s1 (.s 3) (.s 2) (.s 13) gd, .tbld (.s 3) 2 gd, .tlook (.s 3) 2 gd].all (fun i =>
      metD true i (storing base) (fun c s => !roomB c s) && metD true i eightLoops (fun c s => !roomB c s)) = true ∧
    metD true (.tbld (.s 3) 2 gd) (aLoop .tbld (tbldOct 8) id base) (fun c s => !s.tablesQuiet c.grp.core) = true ∧
    (base.groups.find? 4).map (fun g => (g.aloop, g.team)) = some (0, 3) ∧ (base.teams.find? 3).isSome = true := by
  decide +kernel

/-- ACC commands: the operand, and one command first in the ACC order. -/
def accOne (w : Work) : State :=
  { base.modCore 0 (fun k => { k with accQ := [9] }) with cmds := [(9, blankCmd w)] }

/-- ACCZ of a group of tiles: bits 31:16 and 7, the first tile and the count. -/
def acczB (n : Nat) (c : Ctx) : Bool × Nat × Nat :=
  ((c.rd (.s 13) 0).toNat == n && !bit n 7 && bits n 16 16 == 0, bits n 0 7, bits n 8 8)

theorem witness_AccCommands :
    met true (.accz .x2 (.s 13) gd) (setS 13 (126 + 2 * 2 ^ 8) base) (fun c _ => acczB (126 + 2 * 2 ^ 8) c == (true, 126, 2)) = true ∧
    met true (.accz .f32 (.s 13) gd) (setS 13 (127 + 2 ^ 8) base) (fun c _ => acczB (127 + 2 ^ 8) c == (true, 127, 1)) = true ∧
    [(0x180, TileMode.f32), (0x10100, .f32), (0, .f32), (127 + 2 * 2 ^ 8, .f32), (1 + 2 ^ 9, .x2), (2 ^ 8, .x2)].all
      (fun e => metD true (.accz e.2 (.s 13) gd) (setS 13 (BitVec.ofNat 32 e.1) base) (fun c _ =>
        let v := (c.rd (.s 13) 0).toNat
        bit v 7 || bits v 16 16 != 0 || bits v 8 8 == 0 || decide (128 < bits v 0 7 + bits v 8 8) ||
          (e.2 == .x2 && (bits v 0 7 % 2 == 1 || bits v 8 8 % 2 == 1)))) = true ∧
    met true (.accrd true (.v 1) (.s 13) gd) (setS 13 8388480 base) (fun c _ => decide ((c.rd (.s 13) 0).toNat < 8388608) &&
      (c.rd (.s 13) 0).toNat % 128 == 0) = true ∧
    metD true (.accrd false (.v 1) (.s 13) gd) (setS 13 8388608 base) (fun c _ => decide (8388608 ≤ (c.rd (.s 13) 0).toNat)) = true ∧
    metD true (.accrd false (.v 1) (.s 4) gd) base (fun c _ => (c.rd (.s 4) 0).toNat == 1) = true ∧
    met true (.accwr .zero (.v 1) gd) base (fun c _ => (c.rd .zero 0).toNat == 0) = true ∧
    metD true (.accwr (.s 13) (.v 1) gd) (setS 13 8388608 base) (fun c _ => decide (8388608 ≤ (c.rd (.s 13) 0).toNat)) = true ∧
    metD true (.accwr (.s 13) (.v 1) gd) (setS 13 8388607 base) (fun c _ => (c.rd (.s 13) 0).toNat == 8388607) = true ∧
    (((accOne (.accz .f32 127 1)).core 0).accQ = [9] ∧ ((accOne (.accz .f32 127 1)).cmds.find? 9).isSome = true) ∧
    ((accOne (.accwr 0 1 [])).cmds.find? 9).isSome = true ∧ ((accOne (.accrd true (.v 1) 0)).cmds.find? 9).isSome = true ∧
    (127 + 1 ≤ 128 ∧ (8388480 : Nat) < 8388608 ∧ laneIn 0x80000000 31 = true) ∧ Core.reset.tileOf 127 0 = false := by
  decide +kernel

/-- The loop whose turn it is. -/
def turnB (s : State) (p : State → Nat → Cmd → Loop → Bool) : Bool :=
  match s.accTurn 0 0 with
  | some (id, cmd) =>
    (match cmd.work with
     | .loop l => p s id cmd l
     | _ => false)
  | none => false

/-- A TLOOK whose turn it is, its table's number (63), and what it is judged to need. -/
def lookB (done : Bool) (plan : Option TabPlan) (s : State) : Bool :=
  turnB s (fun s _ cmd l =>
    let u := s.modCore cmd.core (fun k => k.zeroFirst l cmd.asid cmd.team)
    l.op == .tlook && l.done.isSome == done && !s.stopped 0 && l.decided.isNone &&
      (u.table cmd.team (bits (l.w 4).toNat 0 6)).map (fun t => u.judge cmd l 63 t) == plan)

/-- That TLOOK, of a table in a state. -/
def aLook (f : Table → Table) : State :=
  aLoop .tlook (tlookOct 1) id (onTeam (fun t => { t with tables := [(63, f aTable)] }) base)

theorem witness_LoopResults :
    turnB (aLoop .mloop (mloopOct 1) id base) (fun s _ _ l => l.done == none && l.op == .mloop && l.sparse == 0 && !s.stopped 0) = true ∧
    turnB (aLoop .mhad [0, 0] id base) (fun _ _ _ l => l.done == none && l.op == .mhad) = true ∧
    turnB (aLoop .tbld (tbldOct 8) id (withTable .valid base)) (fun s id cmd l => l.done == none && l.op == .tbld &&
      !s.spillBlocked id cmd l.victims && ((s.writeSpills id cmd l.victims).table cmd.team (bits (l.w 5).toNat 0 6)).isSome) = true ∧
    lookB false none (aLoop .tlook (tlookOct 1) id base) = true ∧
    lookB false (some (.stop 0x21)) (aLook (fun t => { t with st := .stale })) = true ∧
    lookB false (some .go) (aLook id) = true ∧
    lookB false (some .build) (aLook (fun t => { t with lost := true })) = true ∧
    lookB false (some (.room [])) (aLook (fun t => { t with st := .spilled, chunks := 0 })) = true ∧
    turnB (aLoop .tlook (tlookOct 1) (fun l => { l with decided := some (true, []) }) (withTable .spilled base)) (fun s id cmd l =>
      l.op == .tlook && l.done.isNone && !s.stopped 0 && l.decided == some (true, []) && !s.spillBlocked id cmd []) = true ∧
    (aTable.asOf false (0, 0) = .valid ∧ ({ aTable with st := .free } : Table).asOf true (0, 0) = .free ∧
      ({ aTable with st := .stale } : Table).asOf true (0, 0) = .stale ∧ (parseFmt []).rebuild = false) ∧
    turnB (aLoop .mloop (mloopOct 1) (fun l => { l with done := some (0, 0) }) base) (fun s _ cmd l => l.done.isSome &&
      s.completable cmd) = true ∧
    statusCode 0x22 ≠ 0 ∧ statusCode 0x300 = 0 := by
  decide +kernel

/-- The group owes a trap for a loop. -/
def owesLoop (n : Nat) (s : State) : State := onGrp (fun g => { g with owed := [⟨0, 0, 7, 9, 0, some n⟩] }) s

/-- MWAIT of loop 0: its age, whether it or an older one has not finished, and whether a trap is owed for one of them. -/
def mwaitB (c : Ctx) : Nat × Bool × Bool :=
  let k := c.grp.loopAge (c.rd .zero 0).toNat
  (k, c.grp.loops.any (fun e => decide (k ≤ c.grp.loopAge e.1)),
    (c.grp.owed.find? (fun o => o.loop.any (fun i => decide (k ≤ c.grp.loopAge i)))).isSome)

/-- MSTAT of loop 0: whether a trap is owed for it, its age, and whether it is in flight. -/
def mstatB (c : Ctx) (s : State) : Bool × Nat × Bool :=
  let n := (c.rd .zero 0).toNat % 65536
  ((c.grp.owed.find? (fun o => o.loop = some n)).isSome, c.grp.loopAge n, ((s.loopsOf c.gid).find? (fun e => e.2.id.toNat = n)).isSome)

/-- A loop that has finished, ALOOP raised; and ALOOP as after eight more. -/
def ranLoop (k : BitVec 16) (s : State) : State := onGrp (fun g => { g with aloop := k }) s

theorem witness_LoopWaits :
    met true (.mwait true (.s 5) .zero gd) (ranLoop 8 base) (fun c _ => mwaitB c == (7, false, false) && (almanacCause c.grp.astat).isNone) =
      true ∧
    met true (.mwait false (.s 5) .zero gd) (ranLoop 9 (aLoop .mloop (mloopOct 1) id base)) (fun c _ => mwaitB c == (8, true, false)) =
      true ∧
    metD true (.mwait true (.s 5) .zero gd) (ranLoop 1 (onGrp (fun g => { g with astat := 0x21 }) base)) (fun c _ =>
      mwaitB c == (0, false, false) && (almanacCause c.grp.astat).isSome) = true ∧
    metD true (.mwait false (.s 5) .zero gd) (owesLoop 0 (ranLoop 1 base)) (fun c _ => mwaitB c == (0, false, true)) = true ∧
    metD true (.mwait false (.s 5) .zero gd) (aLoop .mloop (mloopOct 1) id base) (fun c _ => mwaitB c == (0, true, false)) = true ∧
    met true (.mstat (.s 5) .zero gd) (aLoop .mloop (mloopOct 1) id base) (fun c s => mstatB c s == (false, 0, true)) = true ∧
    met true (.mstat (.s 5) .zero gd) (ranLoop 1 base) (fun c s => mstatB c s == (false, 0, false)) = true ∧
    met true (.mstat (.s 5) .zero gd) (ranLoop 9 (aLoop .mloop (mloopOct 1) id base)) (fun c s => mstatB c s == (false, 8, true)) = true ∧
    metD true (.mstat (.s 5) .zero gd) (owesLoop 0 base) (fun c s => (mstatB c s).1) = true := by
  decide +kernel

/-- The hypotheses that table commands share: table 63 and its state as of the key. -/
def tabB (st : Option TabState) (c : Ctx) (s : State) : Bool :=
  c.grp.fifo.isEmpty && s.tablesQuiet c.grp.core && (c.rd (.s 13) 0).toNat == 63 &&
    (s.table c.grp.team 63).map (fun t => t.asOf c.reckon c.grp.key) == st

/-- TFILL's room for table 63. -/
def tfillRoom (c : Ctx) (s : State) : Option (List Nat) :=
  match s.table c.grp.team 63 with
  | some t => s.makeRoom c.grp.core c.grp.team t.need (parseFmt t.afb).autospill 63 (s.pendingTables c.grp.team) c.reckon c.grp.key
  | none => none

/-- TSPILL's place for the entries of table 63. -/
def spillAt (c : Ctx) (s : State) : Option (Nat × Nat) := (locate c s (c.rd (.s 2) 0) (4 * aTable.count) 128 true).toOption

/-- A loop on a table stands in the ACC order. -/
def tableBusy : State := setS 13 63 (aLoop .tbld (tbldOct 8) id base)

theorem witness_TableCommands :
    met true (.tval (.s 3) (.s 13) gd) (setS 13 63 base) (fun c _ => decide ((c.rd (.s 13) 0).toNat < 64)) = true ∧
    [Instr.tval (.s 3) (.s 13) gd, .tspill (.s 3) (.s 13) (.s 2) gd, .tfill (.s 3) (.s 13) gd, .tdrop (.s 13) gd].all (fun i =>
      metD true i (setS 13 64 base) (fun c _ => decide (64 ≤ (c.rd (.s 13) 0).toNat))) = true ∧
    ((accOne (.tval 63 (.s 3))).cmds.find? 9).isSome = true ∧ ((accOne (.tval 63 (.s 3))).core 0).accQ = [9] ∧ aTable.chunks ≤ 1024 ∧
    (let s := withTable .spilled (accOne (.tspill 63 true (.s 3) 0))
     !s.spillBlocked 9 (blankCmd (.tspill 63 true (.s 3) 0)) [63]) = true ∧
    met true (.tspill (.s 3) (.s 13) (.s 2) gd) (setS 13 63 (withTable .valid base)) (fun c s => tabB (some .valid) c s &&
      spillAt c s == some (0, 0x100)) = true ∧
    met true (.tspill (.s 3) (.s 13) (.s 2) gd) (setS 13 63 (withTable .spilled base)) (fun c s => tabB (some .spilled) c s &&
      spillAt c s == some (0, 0x100)) = true ∧
    metD true (.tspill (.s 3) (.s 13) (.s 2) gd) (setS 13 63 base) (tabB none) = true ∧
    met true (.tfill (.s 3) (.s 13) gd) (setS 13 63 (withTable .valid base)) (tabB (some .valid)) = true ∧
    met true (.tfill (.s 3) (.s 13) gd) (setS 13 63 (withTable .stale base)) (tabB (some .stale)) = true ∧
    met true (.tfill (.s 3) (.s 13) gd) (setS 13 63 (onTeam (fun t => { t with tables := [(63, { aTable with st := .spilled, chunks := 0 })] })
      base)) (fun c s => tabB (some .spilled) c s && tfillRoom c s == some []) = true ∧
    met true (.tfill (.s 3) (.s 13) gd) (setS 13 63 (crowdedBy 1024 0xFFFFFFFF (onTeam (fun t =>
      { t with tables := [(63, { aTable with st := .spilled, chunks := 0 })] }) base))) (fun c s => tabB (some .spilled) c s &&
        tfillRoom c s == none) = true ∧
    metD true (.tfill (.s 3) (.s 13) gd) (setS 13 63 base) (tabB none) = true ∧
    [Instr.tspill (.s 3) (.s 13) (.s 2) gd, .tfill (.s 3) (.s 13) gd].all (fun i =>
      metD true i (setS 13 63 (storing base)) (fun c _ => (c.rd (.s 13) 0).toNat == 63 && !c.grp.fifo.isEmpty) &&
      metD true i tableBusy (fun c s => (c.rd (.s 13) 0).toNat == 63 && !s.tablesQuiet c.grp.core)) = true ∧
    met true (.tdrop (.s 13) gd) (setS 13 63 (withTable .stale base)) (fun c s => decide ((c.rd (.s 13) 0).toNat < 64) &&
      s.tablesQuiet c.grp.core) = true ∧
    met true (.tdrop .zero gd) base (fun c s => s.tablesQuiet c.grp.core) = true ∧
    metD true (.tdrop .zero gd) tableBusy (fun c s => !s.tablesQuiet c.grp.core) = true := by
  decide +kernel
/-! ### Witnesses: Chart and Helm instructions -/

/-- A page of 16 rows of 32 bytes, in frame 0. -/
def aPage (st : PageState) : Page :=
  { st := st, inserted := false, lowerr := 0, holds := 0, refcnt := 1, fill := 8, pins := 0, asid := 0, xref := 1, owner := 1,
    model := 255, lastUse := 0, parent := 0, phash := 0, tok := 16, rowb := 32, kvtype := 3, scales := [], ids := [],
    frame := some 0, fetchSeq := 0 }

/-- A model of 2 layer groups of 4 pages, in pool 0 of both dies. -/
def aModel : Model :=
  { asid := 0, tok := 16, kvtype := 3, pool0 := 0, pool1 := 0, rowb := 32, nlg := 2, maxpg := 4, pfBudget := 64, decBudget := 64,
    chunk := 16, ageQ := 2, maxSeq := 4, stepQ := 0, sliceOff := 128, vocab := 100, salt := 7, pflr := none, declr := none,
    mixedlr := none, pflrAt := 0, declrAt := 0, mixedlrAt := 0 }

/-- A request of that model, in a step with 8 positions. -/
def aReq (st : ReqState) (bt : Map Nat) : Request :=
  { st := st, prio := 3, echo := false, imported := false, cancel := false, model := 255, evq := 0, prompt := 16, donepf := 16,
    gen := 0, maxgen := 9, kvlen := 8, age := 0, dsteps := 0, lastTok := 0, status := 0, draftk := 0, btBase := 0x70000, btBytes := 4,
    promptAddr := 0x72000, outAddr := 0x71000, seed := 0, temp := 0, topk := 0, topp := 0, stopcnt := 0, stopset := [],
    admseq := 0, placed := true, decodePart := false, placeDie := 0, stepno := 1, cookie := 5, bt := bt,
    inStep := some (8, false, 0), ended := false, emitted := 0, returning := false, starved := 0, ending := false }

/-- A pool of two pages and two frames, the first in use. -/
def aPool : Pool :=
  { en := true, low := 0, frameB := 1024, pages := 2, frames := 2, hdrBase := 0x80000, frameBase := 0x90000, capBase := 0xA0000,
    used := [0], retired := [], waiters := [], short := false }

/-- A machine with that pool, pages, the model, and request 1 with a block table. -/
def charted (ps : Map Page) (bt : Map Nat) (s : State) : State :=
  { s with charts := [(0, { Chart.reset with pools := [(0, aPool)] })], pages := ps, models := [(255, aModel)],
           requests := [(1, aReq .decode bt)] }

/-- ChartFree as a check. -/
def freeB (c : Ctx) (s : State) (tag : Nat) (hs ps : List Nat) : Bool := s.tagFree c.grp.core tag && !s.chartHeld hs ps

/-- The hypotheses of an operation on page 0, its code, and what its record must meet. -/
def pageB (quar : Bool) (code : Nat) (f : Page → Bool) (c : Ctx) (s : State) : Bool :=
  freeB c s 63 [] [0] && pageCode c s 0 quar == code && (code != 0 || (s.pages.find? 0).any f)

/-- Page 0 alone, changed; and a block table that names it. -/
def onPage (f : Page → Page) : State := charted [(0, f (aPage .resident))] [(0, 0)] base

/-- BTSET and the others see entry `e` of request 1, and pages with the one that it names now. -/
def entryB (e : Nat) (ps : List Nat) (c : Ctx) (s : State) : Bool := freeB c s 63 [1] (ps ++ (s.entry 1 e).toList)

theorem witness_ChartPageOperations :
    [Instr.pgrefQ (.s 5) .zero 63 gd, .pgrefQf (.s 5) .zero 63 gd].all (fun i =>
      met true i (onPage id) (pageB false 0 (fun _ => true)) &&
      met true i (onPage (fun p => { p with st := .quarantined })) (pageB false 0 (fun _ => true)) &&
      met true i (onPage (fun p => { p with asid := 4095 })) (pageB false 0x43 (fun _ => true))) = true ∧
    [Instr.pgrefInc (.s 5) .zero 63 gd, .pgrefDec (.s 5) .zero 63 gd].all (fun i =>
      met true i (onPage (fun p => { p with asid := 4095 })) (pageB true 0x43 (fun _ => true)) &&
      met true i (onPage (fun p => { p with st := .quarantined })) (fun c s => pageB true (pageCode c s 0 true) (fun _ => true) c s &&
        pageCode c s 0 true != 0)) = true ∧
    met true (.pgrefInc (.s 5) .zero 63 gd) (onPage (fun p => { p with refcnt := 65534 }))
      (pageB true 0 (fun p => decide (p.refcnt < 65535 ∧ p.xref < 65535))) = true ∧
    met true (.pgrefInc (.s 5) .zero 63 gd) (onPage (fun p => { p with refcnt := 65535 }))
      (pageB true 0 (fun p => decide (65535 ≤ p.refcnt))) = true ∧
    met true (.pgrefInc (.s 5) .zero 63 gd) (onPage (fun p => { p with xref := 65535 }))
      (pageB true 0 (fun p => decide (65535 ≤ p.xref))) = true ∧
    met true (.pgrefDec (.s 5) .zero 63 gd) (onPage id) (pageB true 0 (fun p => decide (0 < p.xref))) = true ∧
    met true (.btset (.s 5) (.s 4) (.s 4) .zero 63 gd) (onPage (fun p => { p with refcnt := 65534 })) (fun c s =>
      entryB 1 [0] c s && entryCode c s 1 1 == 0 && pageCode c s 0 true == 0 &&
      (((s.takeSeq c.die).1.seqThere c.die (0 :: (s.entry 1 1).toList)).install 1 1 (some 0)).isSome) = true ∧
    met true (.btset (.s 5) (.s 4) .zero (.s 12) 63 gd) (onPage id) (fun c s => c.rd (.s 12) 0 == 0xFFFFFFFF &&
      entryB 0 [] c s && (s.entry 1 0) == some 0 && entryCode c s 1 0 == 0 &&
      (((s.takeSeq c.die).1.seqThere c.die (s.entry 1 0).toList).install 1 0 none).isSome) = true ∧
    met true (.btget (.s 5) (.s 4) .zero 63 gd) (onPage id) (fun c s => freeB c s 63 [1] [] && entryCode c s 1 0 == 0) = true ∧
    met true (.btget (.s 5) (.s 4) (.s 13) 63 gd) (setS 13 8 (onPage id)) (fun c s => freeB c s 63 [1] [] &&
      entryCode c s 1 (c.rd (.s 13) 0).toNat == 0x45) = true ∧
    met true (.pgalloc (.s 5) .zero .zero 63 gd) (onPage id) (fun c s => freeB c s 63 [0] (s.entry 0 0).toList &&
      (s.liveReq 0 c.grid.asid).isNone) = true ∧
    met true (.pgfetch .zero 63 gd) (onPage id) (pageB true 0 (fun p => p.st == .resident)) = true ∧
    met true (.pgfetch .zero 63 gd) (onPage (fun p => { p with st := .capacity, frame := none }))
      (pageB true 0 (fun p => p.st == .capacity)) = true ∧
    (let s : State := { base with cmds := [(9, blankCmd aChart)] }
     (s.cmds.find? 9 == some (blankCmd aChart) && !s.gridOver (blankCmd aChart) && s.completable (blankCmd aChart)) = true) ∧
    (base.groups.find? 4).any (fun g => g.alive) = true ∧ (base.teams.find? 3).any (fun t => t.ended) = false := by
  decide +kernel

/-- The machine of PGALLOC: request 1, no page, a pool with one page, whose number is then the one that is taken. -/
def preAlloc : State :=
  let s := charted [] [] base
  { s with charts := [(0, { Chart.reset with pools := [(0, { aPool with pages := 1, used := [] })] })] }

theorem preAlloc_header (s : State) (h1 : (s.pool 0 0).pages = 1) (h2 : s.poolPages 0 0 = []) : s.freeHeader 0 0 = some 0 := by
  simp [State.freeHeader, h1, h2, Nat.mod_one]

/-- PGALLOC of the last entry of request 1. -/
theorem witness_ChartPageOperations_alloc :
    met true (.pgalloc (.s 5) (.s 4) (.s 13) 63 gd) (setS 13 7 preAlloc) (fun c s =>
      entryB 7 [] c s && (s.liveReq 1 c.grid.asid).any (fun r => s.model? r.model == some aModel) &&
      decide ((c.rd (.s 13) 0).toNat < aModel.nlg * aModel.maxpg) && decide (0 < (s.pool c.die (aModel.pool c.die)).spare) &&
      decide (0 < s.freeHeaders c.die (aModel.pool c.die)) && c.die == 0 && c.team.grid == 1) = true ∧
    (((preAlloc.takeSeq 0).1.seqThere 0 (preAlloc.entry 1 7).toList).allocAt 0 1 1 7 aModel 255 0 1).isSome = true := by
  refine ⟨by decide +kernel, ?_⟩
  have h : ((preAlloc.takeSeq 0).1.seqThere 0 (preAlloc.entry 1 7).toList).freeHeader 0 0 = some 0 := preAlloc_header _ (by decide +kernel) (by decide +kernel)
  unfold State.allocAt State.allocPage
  rw [show aModel.pool 0 = 0 from rfl, h]
  decide +kernel

/-- A gather list of one entry at SPAD offset 0x100, and the octet that names it: of a request and a layer group. -/
def listed (e : Nat) (s : State) : State := s.modCore 0 (fun k => { k with spad := k.spad.storeNat 0x100 16 e })
def preGath (h lg : Nat) : State :=
  octet [0x100, 1, 0x1000, 0x2000, 0xFFFFFFFF, 0, 0, 0] (listed (h + lg * 2 ^ 32 + 8 * 2 ^ 96) (onPage id))

/-- GatherOctet without an object and scales, and ChartFree, as a check. -/
def gathB (c : Ctx) (s : State) : Bool :=
  let w := octetAt c 2
  w 6 == 0 && w 7 == 0 && decide (1 ≤ w 1) && decide (w 1 ≤ 64) && decide (w 0 + 16 * w 1 ≤ s.spadb c.team) &&
  decide (w 2 < s.spadb c.team) && decide (w 3 < s.spadb c.team) && w 4 == 0xFFFFFFFF && w 0 % 16 == 0 && w 2 % 32 == 0 &&
  w 3 % 32 == 0 && c.grp.fifo.isEmpty && freeB c s 63 ((gatherList c s (w 0) (w 1)).map (fun e => (e.getD 0 0).toNat)) []

/-- GatherFits of the model without scales, as a check. -/
def fitsB (c : Ctx) (s : State) : Bool :=
  let w := octetAt c 2
  let es := gatherList c s (w 0) (w 1)
  let total : Nat := es.foldl (fun (n : Nat) e => n + (e.getD 3 0).toNat) 0
  es.all (fun e => decide ((e.getD 1 0).toNat < aModel.nlg) && (e.getD 3 0).toNat != 0) && decide (total ≤ 65535) &&
  decide (w 2 + total * aModel.rowb ≤ s.spadb c.team) && decide (w 3 + total * aModel.rowb ≤ s.spadb c.team)

/-- AppendOctet without scales, of a request, and ChartFree, as a check. -/
def appB (h : Nat) (c : Ctx) (s : State) : Bool :=
  let w := octetAt c 2
  decide (w 1 < 65536) && w 7 == 0 && decide (w 4 < s.spadb c.team) && decide (w 5 < s.spadb c.team) && w 6 == 0xFFFFFFFF &&
  w 4 % 32 == 0 && w 5 % 32 == 0 && c.grp.fifo.isEmpty && w 0 == h && freeB c s 63 [h] []
def preApp (h n : Word) (f : Page → Page) : State := octet [h, 0, 8, n, 0x1000, 0x2000, 0xFFFFFFFF, 0] (onPage f)

/-- KVAPP of request 1: its code, and what it lacks. -/
def appRun (code : Nat) (lack : Lack) (c : Ctx) (s : State) : Bool :=
  let x := appendStart c s 2 none aModel
  appB 1 c s && (s.liveReq 1 c.grid.asid).any (fun r => r.model == 255) && s.model? 255 == some aModel &&
    !x.1.chartHeld [] (x.1.appendFirst x.2 aModel).toList && appendCode c x.1 x.2 aModel == code &&
    (code != 0 || x.1.appendLack c.die x.2 aModel (x.1.pool c.die 0).spare == lack)

/-- The machine after a KVGATH was accepted; and what its command and its gather are. -/
def gathering : State :=
  match exec (.kvgath false .zero 2 63 gd) (preGath 1 0) with
  | .next s => s
  | _ => base
def gatherIn (s : State) (p : Nat → Cmd → ChartCmd → Gather → GOrd → Bool) : Bool :=
  match s.cmds with
  | (id, cmd) :: _ =>
    match cmd.work with
    | .chart k =>
      match k.op with
      | .gather g =>
        (match g.ords[g.next]? with
         | some o => p id cmd k g o
         | none => false)
      | _ => false
    | _ => false
  | [] => false

theorem witness_ChartGatherAppend :
    met true (.kvgath false .zero 2 63 gd) (preGath 1 0) (fun c s => gathB c s && fitsB c s &&
      (s.liveReq 1 c.grid.asid).any (fun r => r.model == 255) && s.model? 255 == some aModel) = true ∧
    met true (.kvgath false .zero 2 63 gd) (preGath 2 0) (fun c s => gathB c s &&
      (gatherList c s 0x100 1).any (fun e => (s.liveReq (e.getD 0 0).toNat c.grid.asid).isNone)) = true ∧
    met true (.kvgath false .zero 2 63 gd) (preGath 1 2) (fun c s => gathB c s && !fitsB c s &&
      (s.liveReq 1 c.grid.asid).any (fun r => r.model == 255) && s.model? 255 == some aModel) = true ∧
    met true (.kvapp 2 63 gd) (preApp 1 0 id) (appRun 0x45 .nothing) = true ∧
    met true (.kvapp 2 63 gd) (preApp 1 8 id) (appRun 0 .nothing) = true ∧
    met true (.kvapp 2 63 gd) (preApp 1 8 (fun p => { p with st := .capacity, frame := none })) (appRun 0 (.page 0)) = true ∧
    met true (.kvapp 2 63 gd) (preApp 1 40 id) (appRun 0 (.room 2)) = true ∧
    met true (.kvapp 2 63 gd) (reckoning (onGrid (fun g => { g with holds := [0] }) (preApp 1 40 id))) (fun c s => c.reckon &&
      appRun 0 (.room 2) c s) = true ∧
    met true (.kvapp 2 63 gd) (preApp 0 4096 id) (fun c s => appB 0 c s && (s.liveReq 0 c.grid.asid).isNone) = true ∧
    met true (.kvsend (.s 4) (.s 13) .zero 63 gd) (setS 13 65535 (onPage id)) (fun c s =>
      (s.liveReq 1 c.grid.asid).any (fun r => (r.bt.map Prod.snd).dedup == [0]) && freeB c s 63 [1] [0] &&
      (c.rd (.s 13) 0).toNat == 65535 && pageCode c s 0 true == 0) = true ∧
    met true (.kvsend (.s 4) (.s 13) .zero 63 gd) (setS 13 65536 (onPage id)) (fun c s =>
      ((s.requests.find? 1).any (fun r => (r.bt.map Prod.snd).dedup == [0])) && freeB c s 63 [1] [0] &&
      (c.rd (.s 13) 0).toNat == 65536) = true ∧
    met true (.kvsend .zero .zero .zero 63 gd) (onPage id) (fun c s => (s.requests.find? 0).isNone && freeB c s 63 [0] [] &&
      (s.liveReq 0 c.grid.asid).isNone) = true ∧
    gatherIn gathering (fun id cmd k g o => k.op == .gather g && !gathering.gridOver cmd && g.stop.isNone &&
      !gathering.ordBlocked id cmd g o && g.walk.isNone && !gathering.chartHeld [o.handle] (gathering.entry o.handle o.entry).toList &&
      (gathering.gatherCheck cmd.asid none o).1 == 0) = true ∧
    (let s : State := { gathering with pages := [] }
     gatherIn s (fun id cmd _ g o => !s.gridOver cmd && g.stop.isNone && !s.ordBlocked id cmd g o && g.walk.isNone &&
      !s.chartHeld [o.handle] (s.entry o.handle o.entry).toList && (s.gatherCheck cmd.asid none o).1 != 0)) = true := by
  decide +kernel

/-- A key block of 16 ids at SPAD offset 0x200, of the model. -/
def preKey (f : Page → Page) : State :=
  setS 15 255 (setS 13 0x200 ((onPage f).modCore 0 (fun k => { k with spad := (k.spad.storeNat 0x200 8 7).storeNat 0x20C 4 255 })))

/-- A page that carries the tag of that block, in the way of its bucket. -/
def taggedPage (p : Page) : Page := { p with phash := 7, inserted := true, fill := 16 }
def hashed (s : State) : State := s.modChart 0 (fun k => { k with hash := [(56, 0)] })

/-- What the block at the offset holds. -/
def keyB (c : Ctx) (s : State) (p : Model × (DWord × Nat × Nat × List Word) → Bool) : Bool :=
  match keyOperand c s (c.rd (.s 13) 0).toNat with
  | .ok (some k) => p k
  | _ => false

theorem witness_ChartPrefixOperations :
    met true (.pfxh 10 (.s 13) 1 (.s 15) 63 gd) (preKey id) (fun c s => decide ((c.rd (.s 13) 0).toNat < s.spadb c.team) &&
      (c.rd (.s 13) 0).toNat % 4 == 0 && c.grp.fifo.isEmpty && freeB c s 63 [] [] &&
      ownModel c s (c.rd (.s 15) 0).toNat == some aModel && decide (0x200 + 4 * 16 ≤ s.spadb c.team)) = true ∧
    metD true (.pfxh 10 (.s 12) 1 (.s 15) 63 gd) (preKey id) (fun c s => decide (s.spadb c.team ≤ (c.rd (.s 12) 0).toNat)) = true ∧
    met true (.pfxlook (.s 5) (.s 13) (.s 4) (.s 4) 63 gd) (hashed (preKey taggedPage)) (fun c s => keyB c s (fun k =>
      s.hashFind c.die c.grid.asid k.2 == some 0) && c.grp.fifo.isEmpty && entryB 1 [0] c s && entryCode c s 1 1 == 0 &&
      !c.outside 0 && (s.pages.find? 0).all (fun p => p.st != .quarantined) &&
      (((s.takeSeq c.die).1.seqThere c.die (s.entry 1 1).toList).install 1 1 (some 0)).isSome) = true ∧
    met true (.pfxlook (.s 5) (.s 13) (.s 4) (.s 4) 63 gd) (preKey id) (fun c s => keyB c s (fun k =>
      (s.hashFind c.die c.grid.asid k.2).isNone) && c.grp.fifo.isEmpty && entryB 1 [] c s && entryCode c s 1 1 == 0) = true ∧
    met true (.pfxins (.s 5) (.s 13) .zero 63 gd) (preKey (fun p => { p with fill := 16, refcnt := 65534 })) (fun c s =>
      keyB c s (fun k => (s.hashFind (pageDie 0) c.grid.asid k.2).isNone &&
        ((bucketWays k.2.1).find? (fun x => ((s.chart (pageDie 0)).hash.find? x).isNone)).isSome) &&
      c.grp.fifo.isEmpty && pageB true 0 (fun p => decide (p.tok ≤ p.fill) && !p.inserted && decide (p.refcnt < 65535)) c s) = true ∧
    met true (.pfxins (.s 5) (.s 13) .zero 63 gd) (preKey (fun p => { p with fill := 15 })) (fun c s => keyB c s (fun _ => true) &&
      c.grp.fifo.isEmpty && pageB true 0 (fun p => decide (p.fill < p.tok) || p.inserted) c s) = true ∧
    met true (.pfxinsDel (.s 5) .zero 63 gd) (hashed (onPage taggedPage)) (pageB true 0 (fun p => p.inserted && p.holds == 0)) = true ∧
    met true (.pfxinsDel (.s 5) .zero 63 gd) (onPage (fun p => { taggedPage p with holds := 1 }))
      (pageB true 0 (fun p => p.inserted && decide (0 < p.holds))) = true := by
  decide +kernel

/-- A port that owns every semaphore, of a READY package. -/
def owner (port : Nat) (s : State) : State :=
  s.modHelm (fun h => { h with sems := (List.range 16).map (fun n => (n, port)) })

/-- A hand-over of one page for request 1, its packet, and a request that waits for it. -/
def handed : HandOver := { handle := 1, pages := [{ entry := 0, fill := 8, payload := [], scales := [], ids := [] }] }
def aPacket (kind : Nat) (stamp : Nat) (payload : List Byte) : Packet :=
  { kind := kind, key := { stamp := stamp, src := 3, seq := 1 }, space := 0, ord := true, dest := 0, queue := 0, addr := 0, asid := 0,
    reply := 9, late := false, payload := payload }
def importing : State :=
  let s := charted [] [] base
  { s with requests := [(1, { aReq .remote [] with imported := true })],
           mer := { s.mer with inbound := [aPacket 6 5 (recordBytes handed.handle handed.pages)] } }

/-- A KVSEND of request 1 whose pages have gone out and whose record was sent. -/
def sending : State :=
  let s := charted [] [] base
  { s with requests := [(1, { aReq .decode [] with inStep := none })],
           cmds := [(9, blankCmd (.chart { op := .send { handle := 1, dest := 3, rreq := 0, seqs := [], started := [], acks := some 0,
                                                          recorded := true }, results := [], status := none, pins := [] }))] }

/-- The record of `importing` in another ASID's model; and a machine that waits for nothing. -/
def foreign : State := { importing with models := [(255, { aModel with asid := 4095 })] }

theorem witness_ChartEvents :
    ((onPage (fun p => { p with st := .evicting })).pages.find? 0 = some (aPage .evicting) ∧ (aPage .evicting).refcnt ≠ 0 ∧
      (aPage .evicting).frame = some 0 ∧ ((onPage (fun p => { p with st := .evicting })).pool 0 0).waiters = []) ∧
    (onPage (fun p => { p with st := .fetching })).pages.find? 0 = some (aPage .fetching) ∧
    ((onPage id).pages.find? 0 = some (aPage .resident) ∧ ((onPage id).chart 0).scrub = true) ∧
    (let s : State := { onPage id with requests := [] }
     s.pages.find? 0 = some (aPage .resident) ∧ s.requests = []) ∧
    ((owner 1 base).pkg.ready = true ∧ (owner 1 base).helm.sems.find? 2 = some 1 ∧ base.helm.sems.find? 2 ≠ some 1) ∧
    (importing.mer.recordOf handed = some (aPacket 6 5 (recordBytes handed.handle handed.pages)) ∧
      (importing.requests.find? 1).map (fun r => (r.st, r.imported)) = some (.remote, true) ∧ importing.model? 255 = some aModel ∧
      (aPacket 6 5 []).asid = aModel.asid ∧ 1 ≤ (importing.pool 0 0).spare ∧ 1 ≤ importing.freeHeaders 0 0) ∧
    (foreign.mer.recordOf handed = some (aPacket 6 5 (recordBytes handed.handle handed.pages)) ∧
      (foreign.requests.find? 1).map (fun r => (r.st, r.imported)) = some (.remote, true) ∧
      (foreign.model? 255).map (fun m => m.asid) = some 4095) ∧
    (({ importing with requests := [] } : State).mer.recordOf handed).isSome = true ∧
    (sending.cmds.all (fun e => !sending.gridOver e.2 && sending.completable e.2) = true ∧ sending.mer.carries 9 = false ∧
      (sending.requests.find? 1).map (fun r => (r.st, r.inStep)) = some (.decode, none) ∧
      (sending.cmds.find? 9).all (fun cmd => match cmd.work with
        | .chart k => ((finishChart 9 cmd k 0 [] sending).requests.find? 1).map (fun r => (r.st, r.inStep)) == some (.decode, none)
        | _ => false) = true) := by
  decide +kernel

/-- The machine of a step grid of partition 0 with request 1, changed. -/
def stepping (f : Request → Request) : State :=
  (onGrid (fun g => { g with step := some (0, [1]) }) (charted [(0, aPage .resident)] [(0, 0)] base)).modReq 1 f

/-- The code that keeps request 1 from ending its step. -/
def stepB (code : Nat) (c : Ctx) (s : State) : Bool :=
  match stepCheck c s 1 with
  | .ok _ => code == 0
  | .error k => k == code

/-- TOKEMIT of `n` tokens at SPAD offset 0x100. -/
def emitB (n : Nat) (c : Ctx) (s : State) : Bool :=
  let ps : List Place := (List.range (4 * n)).map (fun k => (.spad 0, 0x100 + k))
  (locate c s (c.rd (.s 2) 0) (4 * n) 4 true).toOption == some (0, 0x100) && c.grp.fifo.isEmpty &&
    spanB c s (BitVec.ofNat 64 (0xFE * 2 ^ 56 + 0x0F000000 + bits (c.rd (.s 2) 0).toNat 0 21)) ps .read true &&
    (List.range n).all (fun i => decide ((((spanAccessed c s ps .read).core 0).spad.nat (0x100 + 4 * i) 4) < 100))

/-- SQROLL may do its page work: nothing of the group names request 1, and nothing holds its pages. -/
def rollB (c : Ctx) (s : State) : Bool :=
  !s.cmds.any (fun e => e.2.namesReq c.gid 1) &&
    (s.requests.find? 1).any (fun r => !s.chartHeld [1] (r.bt.map Prod.snd) && s.model? r.model == some aModel)

/-- Where TOKEMIT's locator lies for `n` tokens. -/
def emitAt (n : Nat) (c : Ctx) (s : State) : Option (Nat × Nat) := (locate c s (c.rd (.s 2) 0) (4 * n) 4 true).toOption

/-- The instructions that end a request's part of the step. -/
def enders : List Instr := [.sqstop (.s 5) (.s 4) .zero gd, .sqroll (.s 5) (.s 4) .zero gd, .sqyield true (.s 5) (.s 4) gd]

theorem witness_SequenceInstructions :
    met true (.sqget (.s 5) (.s 4) 63 gd) (stepping id) (fun c s => (s.liveReq 1 c.grid.asid).isSome) = true ∧
    met true (.sqget (.s 5) .zero 63 gd) (stepping id) (fun c s => (s.liveReq 0 c.grid.asid).isNone) = true ∧
    met true (.tokemit (.s 5) (.s 4) (.s 2) (.s 13) gd) (setS 13 16 (stepping id)) (fun c s => stepB 0 c s &&
      (c.rd (.s 13) 0).toNat == 16 && emitB 16 c s && s.model? 255 == some aModel) = true ∧
    met true (.tokemit (.s 5) (.s 4) (.s 2) (.s 4) gd) (stepping id) (fun c s => stepB 0 c s && (c.rd (.s 4) 0).toNat == 1 &&
      emitB 1 c s && ((spanAccessed c s ((List.range 4).map (fun k => (.spad 0, 0x100 + k))) .read).model? 255).map (fun m => m.vocab) ==
        some aModel.vocab) = true ∧
    [(0 : Word), 17].all (fun n => met true (.tokemit (.s 5) (.s 4) (.s 2) (.s 13) gd) (setS 13 n (stepping id)) (fun c s =>
      stepB 0 c s && c.rd (.s 13) 0 == n && emitAt 1 c s == some (0, 0x100) && c.grp.fifo.isEmpty)) = true ∧
    met true (.tokemit (.s 5) (.s 4) (.s 2) (.s 4) gd) (stepping (fun r => { r with ended := true })) (fun c s => stepB 0x61 c s &&
      (c.rd (.s 4) 0).toNat == 1 && emitAt 1 c s == some (0, 0x100) && c.grp.fifo.isEmpty) = true ∧
    metD true (.tokemit (.s 5) (.s 4) (.s 12) (.s 4) gd) (stepping id) (fun c s => (c.rd (.s 4) 0).toNat == 1 &&
      (locate c s (c.rd (.s 12) 0) 4 4 true).toOption.isNone) = true ∧
    met true (.sqstop (.s 5) (.s 4) .zero gd) (stepping id) (stepB 0) = true ∧
    met true (.sqroll (.s 5) (.s 4) (.s 13) gd) (setS 13 8 (stepping id)) (fun c s => stepB 0 c s && (c.rd (.s 13) 0).toNat == 8 &&
      rollB c s && (s.requests.find? 1).any (fun r => (s.rollBack 1 8 r aModel).isSome)) = true ∧
    met true (.sqroll (.s 5) (.s 4) .zero gd) (stepping id) (fun c s => stepB 0 c s && (c.rd .zero 0).toNat == 0 && rollB c s) = true ∧
    met true (.sqroll (.s 5) (.s 4) (.s 13) gd) (setS 13 9 (stepping id)) (fun c s => stepB 0 c s && (c.rd (.s 13) 0).toNat == 9) = true ∧
    met true (.sqyield false (.s 5) (.s 4) gd) (stepping id) (stepB 0) = true ∧
    met true (.sqyield true (.s 5) (.s 4) gd) (stepping id) (fun c s => stepB 0 c s && c.grid.step == some (0, [1])) = true ∧
    enders.all (fun i => met true i base (stepB 0x60) && met true i { stepping id with requests := [] } (stepB 0x63) &&
      met true i (stepping (fun r => { r with ended := true })) (stepB 0x61) &&
      met true i (stepping (fun r => { r with cancel := true, ended := true })) (stepB 0x64)) = true ∧
    met true (.sqstop (.s 5) .zero .zero gd) (stepping id) (fun c s => (match stepCheck c s 0 with
      | .error k => k == 0x60
      | .ok _ => false) && c.grid.step == some (0, [1])) = true := by
  decide +kernel
/-! ### Witnesses: Helm -/

/-- A machine whose queue 63 has one entry: command, address, ARG0; what it names lies at 0xC000. -/
def ringed (cmd addr arg0 : Nat) (bytes image : Nat) (s : State) : State :=
  ({ s with mem := (s.mem.storeNat 0xB000 64 (cmd + addr * 2 ^ 64 + arg0 * 2 ^ 128 + 5 * 2 ^ 192)).storeNat 0xC000 bytes image }).modQueue 63
    (fun k => { k with en := true, rbase := 0xB000, ebase := 0xB800, rlog := 4, elog := 4, rtail := 1 })

/-- RingGives as a check, of queue 63, and what must hold after it. -/
def ringB (cmd : Nat) (s : State) (p : Entry → State → Bool) : Bool :=
  s.pkg.ready && s.ringTurn == some 63 && (s.ringEntry 63).1.cmd == cmd && p (s.ringEntry 63).1 (s.ringEntry 63).2

/-- A launch record of one group on queue 63; a request of model 255; a model with TOK 16, ROWB 32, one layer group, 4 pages. -/
def launchImage : Nat :=
  0x10000 + 0x20000 * 2 ^ 64 + 2 ^ 256 + 2 ^ 288 + 2 ^ 296 + 0x11 * 2 ^ 304 + 8 * 2 ^ 320 + 63 * 2 ^ 408
def requestImage : Nat := 255 * 2 ^ 16 + 2 ^ 64 + 2 ^ 24 * 2 ^ 160
def modelImage : Nat :=
  1 + 16 * 2 ^ 384 + 3 * 2 ^ 416 + 32 * 2 ^ 448 + 2 ^ 464 + 3 * 2 ^ 480 + 2 ^ 640 + 128 * 2 ^ 672 + 2 ^ 24 * 2 ^ 704

/-- The machine with model 255, pools on both dies and block-table arenas; and that with request 1 too. -/
def served : State :=
  ({ base with models := [(255, aModel)], charts := [(0, { Chart.reset with pools := [(0, aPool)] }),
                                                      (1, { Chart.reset with pools := [(0, aPool)] })] }).modHelm
    (fun h => { h with btBase := [(0, 0x70000)], btSize := [(0, 32)] })
def withReq (s : State) : State := { s with requests := [(1, aReq .decode [])] }

theorem witness_RingCommands :
    ringB 1 (ringed 1 0xC000 0 256 launchImage base) (fun e u => e.addr.toNat % 256 == 0 && u.asidEn (u.queue 63).asid &&
      (match u.readVa (u.queue 63).asid e.addr.toNat 256 with
       | (v, some bs) => !(v.refusedRecord (u.queue 63).asid (parseLaunch bs)).2 && (parseLaunch bs).queue == 63
       | _ => false)) = true ∧
    ringB 1 (ringed 1 0xC000 0 256 0 base) (fun e u => u.asidEn (u.queue 63).asid &&
      (match u.readVa (u.queue 63).asid e.addr.toNat 256 with
       | (v, some bs) => (v.refusedRecord (u.queue 63).asid (parseLaunch bs)).2
       | _ => false)) = true ∧
    ringB 1 (ringed 1 0xC001 0 0 0 base) (fun e _ => e.addr.toNat % 256 != 0) = true ∧
    ringB 1 (ringed 1 0xC000 0 0 0 (base.modQueue 63 (fun k => { k with asid := 4095 }))) (fun e u => e.addr.toNat % 256 == 0 &&
      !u.asidEn (u.queue 63).asid) = true ∧
    ringB 1 (ringed 1 0xFFFFFFFF00000000 0 0 0 base) (fun e u => e.addr.toNat % 256 == 0 && u.asidEn (u.queue 63).asid &&
      (u.readVa (u.queue 63).asid e.addr.toNat 256).2.isNone) = true ∧
    ringB 2 (ringed 2 0xC000 0 256 0 served) (fun e u => e.addr.toNat % 256 == 0 &&
      (match u.readVa (u.queue 63).asid e.addr.toNat 256 with
       | (v, some bs) => (v.model? (parseRequest bs 63).model).isNone
       | _ => false)) = true ∧
    ringB 2 (ringed 2 0xC000 0 256 (requestImage - 2 ^ 64) served) (fun e u => e.addr.toNat % 256 == 0 &&
      (match u.readVa (u.queue 63).asid e.addr.toNat 256 with
       | (v, some bs) => (v.model? (parseRequest bs 63).model).any (fun m => m.asid == (u.queue 63).asid) && !(parseRequest bs 63).ok
       | _ => false)) = true ∧
    ringB 2 (ringed 2 0xFFFFFFFF00000000 0 0 0 base) (fun e u => e.addr.toNat % 256 == 0 &&
      (u.readVa (u.queue 63).asid e.addr.toNat 256).2.isNone) = true ∧
    ringB 2 (ringed 2 0xC0FF 0 0 0 base) (fun e _ => e.addr.toNat % 256 != 0) = true ∧
    ringB 3 (ringed 3 0 1 0 0 (withReq served)) (fun e u => (u.requests.find? e.arg0).any (fun r => !r.cancel &&
      (u.model? r.model).any (fun m => m.asid == (u.queue 63).asid))) = true ∧
    ringB 3 (ringed 3 0 0xFFFFFFFF 0 0 (withReq served)) (fun e u => (u.requests.find? e.arg0).isNone) = true ∧
    ringB 4 (ringed 4 0xC000 255 1024 modelImage { served with models := [] }) (fun e u => e.addr.toNat % 256 == 0 && decide (e.arg0 ≤ 255) &&
      (u.model? e.arg0).isNone &&
      (match u.readVa (u.queue 63).asid e.addr.toNat 1024 with
       | (v, some bs) => leAt bs 0 1 == 1 && (parseModel bs 0).pflrAt == 0 && (parseModel bs 0).declrAt == 0 &&
           (parseModel bs 0).mixedlrAt == 0 && (parseModel bs 0).ok && v.poolsOk (parseModel bs 0) && (u.queue 63).asid == 0 &&
           (v.template 0 0).2 == some none
       | _ => false)) = true ∧
    ringB 4 (ringed 4 0xFFFFFFFF00000000 0 0 0 base) (fun e u => e.addr.toNat % 256 == 0 && (u.model? e.arg0).isNone &&
      (u.readVa (u.queue 63).asid e.addr.toNat 1024).2.isNone) = true ∧
    ringB 4 (ringed 4 0xC001 0 0 0 base) (fun e _ => e.addr.toNat % 256 != 0) = true ∧
    ringB 5 (ringed 5 0 254 0 0 served) (fun e u => (u.model? e.arg0).isNone) = true ∧
    ringB 3 (ringed 3 0 1 0 0 (withReq { served with models := [(255, { aModel with asid := 4095 })] })) (fun e u =>
      (u.requests.find? e.arg0).any (fun r => (u.model? r.model).any (fun m => m.asid != (u.queue 63).asid))) = true ∧
    ringB 4 (ringed 4 0xC000 256 0 0 served) (fun e u => decide (255 < e.arg0) && (u.model? e.arg0).isNone) = true ∧
    ringB 4 (ringed 4 0xC000 255 0 0 served) (fun e u => (u.model? e.arg0).isSome) = true ∧
    ringB 5 (ringed 5 0 255 0 0 served) (fun e u => (u.model? e.arg0).any (fun m => m.asid == (u.queue 63).asid) &&
      !u.requests.any (fun r => r.2.st.live && r.2.model == e.arg0)) = true ∧
    ringB 5 (ringed 5 0 255 0 0 (withReq served)) (fun e u => (u.model? e.arg0).any (fun m => m.asid == (u.queue 63).asid) &&
      u.requests.any (fun r => r.2.st.live && r.2.model == e.arg0)) = true ∧
    ringB 0 (ringed 0 0 0 0 0 base) (fun _ _ => true) = true ∧ ringB 6 (ringed 6 0 0 0 0 base) (fun _ _ => true) = true ∧
    base.ringTurn ≠ some 63 := by
  decide +kernel

/-- ADMIT of a request: everything but which record it takes, which is open; one is free. -/
theorem witness_RingCommands_admit :
    ringB 2 (ringed 2 0xC000 0 256 requestImage served) (fun e u => e.addr.toNat % 256 == 0 &&
      (match u.readVa (u.queue 63).asid e.addr.toNat 256 with
       | (v, some bs) => v.requests.isEmpty && v.model? (parseRequest bs 63).model == some aModel &&
           aModel.asid == (u.queue 63).asid && (parseRequest bs 63).ok && v.tablePlace 0 aModel == some 0x70000 &&
           !decide ((v.records 1).length < (v.records 0).length)
       | _ => false)) = true ∧
    ∀ v : State, v.requests = [] → (v.freeRecord 0).isSome = true := by
  refine ⟨by decide +kernel, fun v h => ?_⟩
  simp [State.freeRecord, State.records, h]

/-- A partition's state changed; every core of a partition halted. -/
def onPart (p : Nat) (f : Part → Part) (s : State) : State := s.modPart p f
def allHalted (p : Nat) (s : State) : State :=
  (s.partCores p).foldl (fun (s : State) c => s.modCore c (fun k => { k with halted := true })) s

theorem witness_HostDoorbells :
    ((owner 1 base).pkg.ready = true ∧ (owner 1 base).helm.sems.find? 15 = some 1 ∧ (owner 1 base).helm.sems.find? 0 = some 1 ∧
      base.helm.sems.find? 15 = none ∧ base.pkg.ready = true ∧ Map.sorted (owner 1 base).helm.sems = true) ∧
    (bits 0x808 0 4 ≤ 8 ∧ bits 0x808 8 4 ≤ 8) ∧
    (let s := base.modHelm (fun h => { h with want := [(1, 8)] })
     s.k 1 ≠ s.kWant 1 ∧ (s.part 2).halt = .run ∧ (s.part 3).halt = .run ∧
      ((List.range 48).map (fun c => 48 + c)).any (fun c =>
        s.moving c && (!(s.groupsOn c).isEmpty || !(s.core c).dispatchQ.isEmpty)) = false) ∧
    (let s := (base.modCore 95 (fun k => { k with dispatchQ := [3] })).modHelm (fun h => { h with want := [(1, 8)] })
     s.k 1 ≠ s.kWant 1 ∧ (s.part 2).halt = .run ∧ (s.part 3).halt = .run ∧
      ((List.range 48).map (fun c => 48 + c)).any (fun c =>
        s.moving c && (!(s.groupsOn c).isEmpty || !(s.core c).dispatchQ.isEmpty)) = true) ∧
    ((onPart 3 (fun p => { p with halt := .shadow }) base).part 3).halt ≠ .run ∧
    (({ Part.reset with halt := .shadow } : Part).resuming = false ∧ ({ Part.reset with halt := .shadow } : Part).swapOut = false) ∧
    (let s := onPart 3 (fun p => { p with halt := .halting }) base
     (s.part 3).halt = .halting ∧ (s.partCores 3).any (fun c => !(s.core c).halted) = true) ∧
    (let s := allHalted 1 (onPart 1 (fun p => { p with halt := .halting }) base)
     (s.part 1).halt = .halting ∧ (s.partCores 1).any (fun c => !(s.core c).halted) = false ∧
      (s.partCores 1).all s.coreQuiet = true) ∧
    ((onPart 3 (fun p => { p with halt := .halted }) base).part 3).halt = .halted ∧
    (let s := onPart 1 (fun p => { p with halt := .shadow, swapOut := true }) base
     s.pkg.trip = false ∧ (s.part 1).halt = .shadow ∧ (s.part 1).swapOut = true ∧
      (s.partCores 1).flatMap (fun c => (s.teamsOn c).map Prod.fst) = [3] ∧ (s.teamQuiet 3 && s.spadQuiet 3) = true) ∧
    (let s := onPart 3 (fun p => { p with halt := .shadow, resuming := true }) base
     (s.part 3).halt = .shadow ∧ (s.part 3).resuming = true ∧ s.pkg.trip = false) := by
  decide +kernel

/-- The grid in a stage, at the head of queue 63. -/
def atHead (st : Stage) (s : State) : State :=
  (onGrid (fun g => { g with stage := st, queue := 63 }) s).modQueue 63 (fun k => { k with grids := [1] })

/-- A lease of a range, listed at 0x40000; of one page. -/
def leaseOf (a n : Nat) (s : State) : State :=
  onRec (fun r => { r with leasePtr := 0x40000, leaseCnt := 1 }) { s with mem := s.mem.storeNat 0x40000 16 (a + n * 2 ^ 64) }
def leaseOne : State → State := leaseOf 0x50000 65536

/-- Nothing of the grid is on a core any more. -/
def emptied (s : State) : State := { s with groups := [], teams := [] }

/-- A second grid of a higher PRIO, at the head and with no place to go. -/
def pressed : State :=
  onPart 1 (fun p => { p with halt := .halting }) (onPart 3 (fun p => { p with halt := .halting })
    { base with grids := base.grids ++ [(50, { placedGrid with
        stage := .held, record := { placedGrid.record with prio := 7 } })] })

theorem witness_GridLife :
    (bestHead (atHead .waiting base).heads = some (63, 1, 0) ∧
      [b2n placedGrid.decodeRole, b2n placedGrid.decodeRole + 2].any (fun p =>
        ((atHead .waiting base).stepGrid p).any (atHead .waiting base).candidate) = false) ∧
    (let s := onPart 3 (fun p => { p with running := some 1 }) (atHead .waiting base)
     s.stepGrid 3 = some 1 ∧ s.candidate 1 = true) ∧
    (base.grids.find? 1).map (fun g => g.record.used) = some [] ∧
    (let s := onRec (fun r => { r with leasePtr := 0xFFFFFFFF00000000, leaseCnt := 1 }) (atHead .dispatched base)
     (s.grids.find? 1).any (fun (g : Grid) => g.stage == .dispatched && s.asidEn g.asid && (s.leaseList g).2.isNone) = true) ∧
    (let s := leaseOf (2 ^ 56 - 65536) 65537 (atHead .dispatched base)
     (s.grids.find? 1).any (fun (g : Grid) => g.stage == .dispatched && s.asidEn g.asid &&
       (s.leaseList g).2.any (fun rs => (leaseUnits rs).isNone)) = true) ∧
    (let s := leaseOf (2 ^ 56 - 65536) 65536 (atHead .dispatched base)
     (s.grids.find? 1).any (fun (g : Grid) => g.stage == .dispatched && s.asidEn g.asid &&
       (match s.leaseList g with
        | (u, some rs) => (leaseUnits rs).any (fun us => !(u.stageAll 1 g.asid us).2)
        | _ => false)) = true) ∧
    (let s := leaseOne (atHead .dispatched base)
     (s.grids.find? 1).any (fun (g : Grid) => g.stage == .dispatched && s.asidEn g.asid &&
       (match s.leaseList g with
        | (u, some rs) => (leaseUnits rs).any (fun us => us == [5] && (u.stageAll 1 g.asid us).2)
        | _ => false)) = true) ∧
    (let s := onGrid (fun g => { g with asid := 4095 }) (atHead .dispatched base)
     (s.grids.find? 1).any (fun (g : Grid) => g.stage == .dispatched && !s.asidEn g.asid) = true) ∧
    (((atHead .leased base).grids.find? 1).any (fun (g : Grid) => g.stage == .leased &&
      decide ((atHead .leased base).helm.savSize.toNat < g.arenaNeed)) = true) ∧
    (let s := (atHead .leased base).modHelm (fun h => { h with savBase := 0x1000000, savSize := 0x10000000 })
     (s.grids.find? 1).any (fun (g : Grid) => g.stage == .leased && decide (g.arenaNeed ≤ s.helm.savSize.toNat) &&
       (firstFit s.helm.savBase.toNat s.helm.savSize.toNat 256 g.arenaNeed (s.grids.filterMap (fun e => e.2.arena))).isSome) = true) ∧
    (let s0 := (atHead .leased base).modHelm (fun h => { h with savBase := 0x1000000, savSize := 0x10000000 })
     let s : State := { s0 with grids := s0.grids ++ [(50, { placedGrid with arena := some (0x1000000, 0x10000000) })] }
     (s.grids.find? 1).any (fun (g : Grid) => g.stage == .leased && decide (g.arenaNeed ≤ s.helm.savSize.toNat) &&
       (firstFit s.helm.savBase.toNat s.helm.savSize.toNat 256 g.arenaNeed (s.grids.filterMap (fun e => e.2.arena))).isNone) = true) ∧
    (let s := onGrid (fun g => { g with holding := true, holds := [0] }) (reckoning (atHead .saved (onPage (fun p => { p with st := .quarantined }))))
     (s.grids.find? 1).any (fun (g : Grid) => g.stage == .saved && g.record.reckon && g.holding &&
       g.holds.any (fun n => (s.pages.find? n).any (fun (p : Page) => decide (p.st ≠ .resident)))) = true) ∧
    (let s := onGrid (fun g => { g with holding := false, step := some (0, [1]) }) (reckoning (atHead .saved (onPage id)))
     (s.grids.find? 1).any (fun (g : Grid) => g.stage == .saved && g.record.reckon && !g.holding && (s.holdPages g).2 == [0]) = true) ∧
    (({ base with ms := { base.ms with change := some { tcsize := 1, ilv := false } } } : State).ms.change.isSome = true) ∧
    (((atHead .saved base).grids.find? 1).any (fun (g : Grid) => g.stage == .saved && !g.record.reckon) = true) ∧
    (let s := onGrid (fun g => { g with holding := true, holds := [0] }) (reckoning (atHead .saved (onPage id)))
     (s.grids.find? 1).any (fun (g : Grid) => g.stage == .saved && g.record.reckon && g.holding &&
       !g.holds.any (fun n => (s.pages.find? n).any (fun (p : Page) => decide (p.st ≠ .resident)))) = true) ∧
    (let s := emptied (atHead .held base)
     (s.grids.find? 1).any (fun (g : Grid) => s.ms.change.isNone && (s.awayClusters 1).isEmpty && g.placing && !s.returnFirst 1 g) = true) ∧
    (let s := onTeam (fun t => { t with swapped := true }) base
     (s.grids.find? 1).any (fun (g : Grid) => s.awayClusters 1 == [2] && g.ending.isNone && !s.headWaits g) = true) ∧
    (let s := base.modCore 95 (fun k => { k with dispatchQ := [3] })
     (s.core 95).dispatchQ = [3] ∧ (s.part (s.partOf 95)).halt = .run ∧ (s.core 95).halted = false ∧
      (s.roomAt 95 (s.teamNeed 3)).isSome = true) ∧
    (let s := base.modCore 94 (fun k => { k with dispatchQ := [7, 8] })
     (s.placeable (s.partOf 95)).contains 95 = true ∧ s.groupsOn 95 = [] ∧ (s.core 95).dispatchQ = [] ∧
      s.longQueue 95 = some 94 ∧ (s.core 94).dispatchQ.getLast? = some 8) ∧
    ((pressed.grids.find? 1).any (fun (g : Grid) => pressed.grids.any (fun e => pressed.stuck e.2 && e.2.decodeRole == g.decodeRole &&
        (pressed.yielders g.decodeRole e.2.record.prio).any (fun y => y.1 = 1) &&
        (pressed.yielders g.decodeRole e.2.record.prio).all (fun y => decide (g.record.prio ≤ y.2.record.prio)))) = true ∧
      pressed.lastPlaced 1 = some 2 ∧
      ((pressed.clusterTeams 2).filter (fun t => t.2.started && !t.2.swapped)).all (fun t => pressed.teamIdle t.1) = true) ∧
    ((emptied base).grids.find? 1).any (fun (g : Grid) => (emptied base).gridEnded 1 g && g.step.isNone) = true ∧
    (base.grids.find? 1).any (fun (g : Grid) => !base.gridEnded 1 g) = true ∧
    (let s := (onGrp (fun g => { g with lastSlot := some 0 }) base).modQueue 0 (fun k => { k with wdog := 1 })
     (s.grids.find? 1).any (fun (g : Grid) => g.ending.isNone && (s.queue g.queue).wdog != 0 && g.dog.isNone &&
       (s.gridGroups 1).any (fun e => e.2.lastSlot.isSome) && s.gridBegun 1 g) = true) ∧
    (let s := (onGrid (fun g => { g with dog := some [4] }) base).modQueue 0 (fun k => { k with wdog := 1 })
     (s.grids.find? 1).any (fun (g : Grid) => g.ending.isNone && (s.queue g.queue).wdog != 0 && g.dog == some [4]) = true) := by
  decide +kernel

/-- Requests that partition 3 may take into a batch, of a model with a decode template; two frames of the pool are free. -/
def batching (f : Model → Model) : State :=
  let s := charted [] [] base
  { s with models := [(255, f { aModel with declr := some placedGrid.record })],
           charts := [(0, Chart.reset), (1, { Chart.reset with pools := [(0, { aPool with used := [] })] })],
           requests := [(16385, { aReq .decode [] with inStep := none, decodePart := true, placeDie := 1 })] }

/-- What the formation of a batch comes to. -/
def batchB (s : State) (p : Option (Model × Batch) → Bool) : Bool :=
  s.pkg.ready && s.partExists 3 && (s.part 3).halt == .run && (s.part 3).running.isNone && s.k 1 == s.kWant 1 &&
    p ((s.relieve 3).batchOf ((s.relieve 3).ranking 3))

theorem witness_StepsOfRequests :
    batchB base Option.isNone = true ∧
    batchB (batching id) (fun b => b.any (fun x => !x.2.seqs.isEmpty)) = true ∧
    batchB (batching (fun m => { m with decBudget := 0 })) (fun b => b.any (fun x => x.2.seqs.isEmpty)) = true ∧
    ((onPart 3 (fun p => { p with running := some 1 }) base).part 3).running.isSome = true ∧
    (base.effPrio { aReq .decode [] with prio := 2 } < base.effPrio (aReq .decode []) ∧ (batching id).model? 255 ≠ none ∧ aModel.ageQ ≠ 0) ∧
    (ReqState.rank .decode < ReqState.rank .prefill ∨ ReqState.rank .prefill < ReqState.rank .decode) ∧
    (let s : State := { onPage id with requests := [(1, aReq .swapped [(0, 0)])] }
     s.model? 255 = some aModel ∧ 2 * (s.pool (1 / 16384) (aModel.poolOn 0)).low ≤ (s.pool 0 0).free ∧
      (aReq .swapped [(0, 0)]).pages.all (fun n => (s.pages.find? n).any (fun q => decide (q.st = .resident))) = true) ∧
    (let s : State := { onPage (fun p => { p with st := .capacity, frame := none }) with requests := [(1, aReq .swapped [(0, 0)])] }
     (aReq .swapped [(0, 0)]).pages.all (fun n => (s.pages.find? n).any (fun q => decide (q.st = .resident))) = false) ∧
    (let s : State := { onPage id with requests := [(1, aReq .handoff [(0, 0)])] }
     (aReq .handoff [(0, 0)]).cancel = false ∧ s.chartNames 1 = false ∧
      (aReq .handoff [(0, 0)]).pages.any (fun n => (s.pages.find? n).any (fun q => decide (0 < q.pins))) = false ∧
      s.decodeTarget = some (1 / 16384)) ∧
    (aReq .handoff [(0, 0)]).pages.any (fun n => ((onPage (fun p => { p with pins := 1 })).pages.find? n).any
      (fun q => decide (0 < q.pins))) = true ∧
    (let s : State := { sending with requests := [(1, aReq .handoff [])] }
     s.chartNames 1 = true) := by
  decide +kernel

/-- A request that moves to die 0, where a record is free. -/
theorem witness_StepsOfRequests_move :
    let s := ({ onPage id with requests := [(16384, aReq .handoff [(0, 0)])] } : State).modHelm (fun h => { h with k := [(1, 8)] })
    s.decodeTarget = some 0 ∧ s.chartNames 16384 = false ∧ ∃ h', s.freeRecord 0 = some h' := by
  refine ⟨by decide +kernel, by decide +kernel, Option.isSome_iff_exists.1 ?_⟩
  have h : (({ onPage id with requests := [(16384, aReq .handoff [(0, 0)])] } : State).modHelm
    (fun h => { h with k := [(1, 8)] })).records 0 = [] := by decide +kernel
  simp [State.freeRecord, h]
/-! ### Witnesses: Meridian -/

/-- Endpoint 7, with port 15 up to endpoints 3 and 8191 and the wall-time space only; time 100; changed. -/
def meshed (f : Mer → Mer) : State :=
  base.modMer (fun m => f { m with
    mepid := 7, time := 100, ports := [(15, { up := true, huaxel := true, trained := true })], routes := [(3, 0x3F), (8191, 0x3F)] })

/-- NetReady as a check. -/
def netB (tag : Nat) (addr : DWord) (n : Nat) (c : Ctx) (s : State) : Bool :=
  s.tagFree c.grp.core tag && c.grp.fifo.isEmpty && (viewPlace (viewOf c s) addr n).isSome && !s.namesAway c.team addr n

/-- The bytes of a local range can be reached, and the route to an endpoint has a code. -/
def placesB (addr : DWord) (n : Nat) (need : Need) (dest : Nat) (ord : Bool) (code : Nat) (c : Ctx) (s : State) : Bool :=
  (netPlaces c s addr n need).isSome && routeCode c s [dest] ord == code

/-- The operand block of an NRED, at SPAD offset 0x100: COLL 65535 to endpoint 8191, two parties, one element. -/
def redImage : Nat := 65535 + 8191 * 2 ^ 64 + 2 * 2 ^ 96 + 2 ^ 128 + 0x40000 * 2 ^ 256 + 0x40004 * 2 ^ 320
def redBytes : List Byte := leBytes 48 redImage

/-- A delivery queue 63 in use, unordered, of 128 bytes; and with a message in it. -/
def queued (ms : List Msg) (m : Mer) : Mer :=
  { m with qcfg := [(63, BitVec.ofNat 64 (128 + 2 ^ 32))], qbase := [(63, 0xD0000)],
           queues := [(63, { DQueue.empty with msgs := ms })] }
def aMsg (n : Nat) : Msg := { src := 3, stamp := 5, ord := true, logical := false, payload := List.replicate n 0 }

/-- A machine with that block; NRED of it sees the block, and its ranges lie in an aperture. -/
def blocked (n : Nat) : State := (meshed id).modCore 0 (fun k => { k with spad := k.spad.storeNat 0x100 48 n })
def nredB (inside : Bool) (c : Ctx) (s : State) : Bool :=
  let ps : List Place := (List.range 48).map (fun i => (.spad 0, 0x100 + i))
  let u := spanAccessed c s ps .read
  let n := nredOf .addF32 (ps.map u.byteAt)
  s.tagFree c.grp.core 63 && c.grp.fifo.isEmpty && (locate c s (c.rd (.s 2) 0) 48 16 true).toOption == some (0, 0x100) &&
    spanB c s (ownSpad c 0x100) ps .read true && (viewPlace (viewOf c u) n.src n.len).isSome == inside &&
    (!inside || (!u.namesAway c.team n.src n.len && (viewPlace (viewOf c u) n.dst n.len).isSome && !u.namesAway c.team n.dst n.len))

/-- A replica set 255 of two endpoints. -/
def replicated : State :=
  { meshed (fun m => { m with mrepset := 0xE0000 }) with mem := (meshed id).mem.storeNat (0xE0000 + 64 * 255) 6 (2 + 3 * 2 ^ 16 + 8191 * 2 ^ 32) }

/-- Commands whose local range is at no aperture: pair s14. -/
def outside (s : State) : State := setS 15 0xFF000000 s

theorem witness_MeridianCommands :
    met true (.nsend .ord (.s 4) (.s 13) 0 63 gd) (setS 13 (8191 + 63 * 2 ^ 16) (meshed id)) (fun c s => netB 63 0x40000 1 c s &&
      placesB 0x40000 1 .read 8191 true 0 c s && readPair c.grp 0 == 0x40000) = true ∧
    met true (.nput false .rod (.s 4) (.s 13) 0 5 63 gd) (setS 13 8191 (meshed id)) (fun c s => netB 63 0x40000 1 c s &&
      placesB 0x40000 1 .read 8191 false 0 c s) = true ∧
    met true (.nput true .ord (.s 4) (.s 13) 0 5 63 gd) (setS 13 255 replicated) (fun c s => netB 63 0x40000 1 c s &&
      (s.replicaSet 255).2 == some [3, 8191]) = true ∧
    met true (.nget false (.s 4) (.s 13) 5 0 63 gd) (setS 13 3 (meshed id)) (fun c s => netB 63 0x40000 1 c s &&
      placesB 0x40000 1 .write 3 false 0 c s) = true ∧
    met true (.nget false (.s 4) (.s 13) 5 0 63 gd) (setS 13 8192 (meshed id)) (fun c s => netB 63 0x40000 1 c s &&
      (c.rd (.s 13) 0).toNat == 8192) = true ∧
    met true (.nred .addF32 (.s 2) 63 gd) (blocked redImage) (nredB true) = true ∧
    metD true (.nred .addF32 (.s 2) 63 gd) (blocked (redImage + 0xFF00000000000000 * 2 ^ 256)) (nredB false) = true ∧
    metD true (.nred .addF32 (.s 12) 63 gd) (meshed id) (fun c s => s.tagFree c.grp.core 63 && c.grp.fifo.isEmpty &&
      (locate c s (c.rd (.s 12) 0) 48 16 true).toOption.isNone) = true ∧
    (let n := nredOf .addF32 redBytes
     n.coll = 65535 ∧ n.waits = [8191] ∧ n.npart = 2 ∧ n.count = 1 ∧ n.src = 0x40000 ∧ n.dst = 0x40004 ∧ n.len = 4) ∧
    met true (.nrecv (.s 13) 0 .zero 63 gd) (setS 13 63 (meshed (queued []))) (fun c s => netB 63 0x40000 16 c s &&
      (c.rd (.s 13) 0).toNat == 63 && c.mayPoll s 63 && (netPlaces c s 0x40000 16 .write).isSome) = true ∧
    met true (.nrecv (.s 13) 0 .zero 63 gd) (setS 13 64 (meshed id)) (fun c s => netB 63 0x40000 16 c s &&
      (c.rd (.s 13) 0).toNat == 64) = true ∧
    [Instr.nsend .ord (.s 4) .zero 7 63 gd, .nput false .uud (.s 4) .zero 7 5 63 gd, .nget true (.s 4) .zero 5 7 63 gd].all (fun i =>
      metD true i (outside (meshed id)) (fun c s => s.tagFree c.grp.core 63 && c.grp.fifo.isEmpty &&
        (viewPlace (viewOf c s) (readPair c.grp 7) (0 + (c.rd (.s 4) 0).toNat)).isNone)) = true ∧
    metD true (.nrecv .zero 7 .zero 63 gd) (outside (meshed id)) (fun c s => s.tagFree c.grp.core 63 && c.grp.fifo.isEmpty &&
      (viewPlace (viewOf c s) (readPair c.grp 7) (16 + (c.rd .zero 0).toNat)).isNone) = true ∧
    met true (.npoll (.s 5) .zero gd) (meshed id) (fun c s => !c.mayPoll s 0) = true ∧
    met true (.npoll (.s 5) (.s 13) gd) (setS 13 63 (meshed (queued [aMsg 8]))) (fun c s => c.mayPoll s 63 && !pollWaits c s 63 &&
      (s.dqueue 63).msgs == [aMsg 8]) = true ∧
    met true (.npoll (.s 5) (.s 13) gd) (setS 13 63 (reckoning (meshed (queued [])))) (fun c s => c.reckon && c.mayPoll s 63 &&
      !pollWaits c s 63 && (s.dqueue 63).msgs.isEmpty) = true ∧
    met false (.ntime true 5 gd) (reckoning base) (fun c _ => c.reckon) = true ∧
    met false (.ntime false 5 gd) base (fun c _ => !c.reckon) = true ∧ met false (.ntime true 5 gd) base (fun c _ => !c.reckon) = true := by
  decide +kernel

/-- An ordered packet from endpoint 3 to an endpoint, for queue 63 or as a kind, with a stamp. -/
def pktTo (kind dest stamp : Nat) : Packet := { aPacket kind stamp [0] with dest := dest, queue := 63 }

/-- The machine with that packet queued for the own endpoint, every input's horizon beyond it or not. -/
def crossing (known : Bool) : State :=
  meshed (fun m => { m with queued := [{ out := 16, inp := 15, pkt := pktTo 0 7 5 }],
                            horizon := if known then [(linkSpace 15 0, { stamp := 5, src := 3, seq := 1 })] else [] })

/-- A staged packet of a command of die 0. -/
def stagedIn : State :=
  { meshed (fun m => { m with staged := [pktTo 0 8191 0] }) with
    cmds := [(9, blankCmd (.net { Net.blank .send with src := 0x40000, len := 1, waits := [8191], ord := true }))] }

/-- A package whose spaces are those of ASIDs 4 and 5, or none. -/
def spaced (m : Mer) : Mer := { m with spaces := [(0, 0x1005)] }

theorem witness_OrderedSwitch :
    ((meshed id).mer.active = true ∧ (meshed id).mer.ports.find? 15 = some { up := true, huaxel := true, trained := true } ∧
      (pktTo 0 7 5).ord = true ∧ (pktTo 0 7 5).key.src = 3 ∧ (meshed id).mer.mepid = 7 ∧
      (meshed id).mer.horizon.find? (linkSpace 15 0) = none) ∧
    (meshed (fun m => { m with fenced := [(15, 0)] })).mer.fenced.contains (15, 0) = true ∧
    (stagedIn.mer.staged.find? (fun p => p.reply = 9) = some (pktTo 0 8191 0) ∧ stagedIn.inputOf 9 = 16 ∧
      stagedIn.injectable (pktTo 0 8191 0) = true) ∧
    ((meshed id).mer.outputFor (pktTo 0 7 5) = some 17 ∧ (meshed id).mer.outputFor (pktTo 0 8191 5) = some 15 ∧
      (meshed id).mer.outputFor (pktTo 0 5 5) = none ∧ (meshed id).mer.enabled 0 = true ∧ (meshed id).mer.enabled 4101 = false ∧
      (meshed spaced).mer.enabled 4101 = true ∧ (meshed id).mer.late 15 17 (pktTo 0 7 5) = false) ∧
    ((crossing true).mer.queuedFor 16 0 ≠ [] ∧ (smallestOf ((crossing true).mer.queuedFor 16 0)).isSome = true ∧
      (crossing true).emittable 16 0 (pktTo 0 7 5).key = true ∧ (crossing true).mer.leads 16 0 (pktTo 0 7 5).key = true) ∧
    (let s := meshed (fun m => { m with
        queued := [{ out := 15, inp := 16, pkt := pktTo 0 8191 5 }]
        horizon := [(linkSpace 15 0, { stamp := 9, src := 0, seq := 0 })] })
     (smallestOf (s.mer.queuedFor 15 0)).isSome = true ∧ s.emittable 15 0 (pktTo 0 8191 5).key = true ∧
      s.mer.leads 15 0 (pktTo 0 8191 5).key = true) ∧
    (let s := meshed (fun m => { m with queued := [{ out := 17, inp := 16, pkt := pktTo 0 7 5 }] })
     (smallestOf (s.mer.queuedFor 17 0)).isSome = true ∧ s.emittable 17 0 (pktTo 0 7 5).key = false ∧
      s.mer.inputs.contains 15 = true ∧ s.mer.fenced.contains (15, 0) = false ∧
      s.mer.queued.any (fun q => q.pkt.space == 0 && !(s.mer.queuedFor q.out 0).any (fun x => x.inp == 15) &&
        !s.promises 15 0 q.pkt.key) = true) ∧
    (meshed (fun m => { m with queued := [{ out := 16, inp := 15, pkt := pktTo 0 7 5 }, { out := 17, inp := 15, pkt := pktTo 0 7 4 }] })).mer.leads
      16 0 (pktTo 0 7 5).key = false ∧
    ((meshed (fun m => { m with inbound := [pktTo 5 7 5] })).mer.nextIn 0 = some (pktTo 5 7 5) ∧ (pktTo 5 7 5).kind = 5) := by
  decide +kernel

/-- BEACON_SEND has something to say, of a logical space. -/
theorem witness_OrderedSwitch_beacon :
    let s := meshed (fun m => { m with
      spaces := [(0, 0x1005)], horizon := [(linkSpace 15 4101, { stamp := 4, src := 0, seq := 0 })],
      queued := [{ out := 15, inp := 16, pkt := { pktTo 0 8191 5 with space := 4101 } }] })
    (s.tick.mer.logicals.filterMap (fun sp => (s.tick.beaconDue 15 sp).map (fun k => (sp, k)))).isEmpty = false := by
  decide +kernel

/-- The machine with a packet that its endpoint takes in next. -/
def takes (p : Packet) (f : Mer → Mer) : State := meshed (fun m => f { m with inbound := [p] })

/-- What becomes of a message of the packet. -/
def arriveB (s : State) (n : Nat) (p : Arrival → Bool) : Bool := p (s.arrive 63 0 (aMsg n))

/-- A contribution of one word, of two parties, from endpoint 3; the round that it opens. -/
def contribution : Packet := { aPacket 2 5 (leBytes 24 (2 + 2 ^ 32 + 7 * 2 ^ 64 + 2 * 2 ^ 96 + 2 ^ 128) ++ leBytes 4 1) with dest := 7 }
def aContribution (src : Nat) : Contribution := { key := { stamp := 5, src := src, seq := 1 }, reply := 9, data := leBytes 4 1 }
def aRound (bad : Bool) (cs : List Contribution) : RedRound :=
  { asid := 0, coll := 2, round := 1, space := 0, root := 7, npart := 2, count := 1, op := 0, contribs := cs, bad := bad }

/-- An NRED in flight, of root 3 or the own endpoint, and a packet of a kind for it that is taken in next. -/
def reducing (root : Nat) (f : Mer → Mer) : State :=
  { meshed f with cmds := [(9, blankCmd (.net { Net.blank .red with len := 4, waits := [root], ord := true, sent := true }))] }
def answered (p : Packet) : State := reducing 3 (fun m => { m with inbound := [p] })

/-- A put of a length, and an unordered message. -/
def putTo (n : Nat) : Packet := { pktTo 0 7 5 with queue := 64, addr := 0x40000, payload := List.replicate n 0 }
def plainTo : Packet := { pktTo 0 7 5 with ord := false }

theorem witness_DeliveryAndReductions :
    ((takes (pktTo 0 7 5) (queued [])).mer.nextIn 0 = some (pktTo 0 7 5) ∧ (pktTo 0 7 5).payload.length = 1 ∧
      arriveB (takes (pktTo 0 7 5) (queued [])) 112 (fun a => match a with | .stored _ => true | _ => false) = true) ∧
    ((takes (pktTo 0 7 5) id).mer.nextIn 0 = some (pktTo 0 7 5) ∧ arriveB (takes (pktTo 0 7 5) id) 1 (fun a => a == .refused) = true) ∧
    arriveB (takes (pktTo 0 7 5) (queued [])) 113 (fun a => a == .refused) = true ∧
    arriveB (takes (pktTo 0 7 5) (queued [aMsg 48])) 49 (fun a => a == .held) = true ∧
    (let p := { pktTo 0 7 5 with payload := [] }
     (takes p id).mer.nextIn 0 = some p ∧ lenOk (p.queue == 64) p.payload.length = false) ∧
    (lenOk false 65536 = true ∧ lenOk false 65537 = false ∧ lenOk true 16777216 = true ∧ lenOk true 16777217 = false) ∧
    ((takes (putTo 1) id).mer.nextIn 0 = some (putTo 1) ∧ (putTo 1).payload.length = 1) ∧
    (meshed id).mer.nextIn 0 = none ∧ (plainTo.ord = false ∧ plainTo.key.src = 3) ∧
    ((queued [] (meshed id).mer).qEn 63 = true ∧ (queued [] (meshed id).mer).qOrd 63 = false ∧ (16 + 112 + 63) / 64 * 64 ≤ 128) ∧
    (meshed id).mer.active = true ∧
    (let s := meshed (fun m => { m with asked := [(9, .get 0 0x40000 8)] })
     s.mer.asked.contains (9, .get 0 0x40000 8) = true ∧ s.rodWaits 9 [7] false = false) ∧
    ((takes contribution (fun m => { m with closed := [(0, 2, 1)] })).mer.nextIn 0 = some contribution ∧
      (redFields contribution).1 = [2, 1, 7, 2, 1, 0]) ∧
    (let m := (takes contribution (fun m => { m with rounds := [aRound false [aContribution 4]] })).mer
     m.nextIn 0 = some contribution ∧ m.closed = [] ∧ m.rounds.any (fun r => (r.asid, r.coll, r.round) = (0, 2, 1)) = true) ∧
    ((takes contribution id).mer.nextIn 0 = some contribution ∧ (takes contribution id).mer.rounds = []) ∧
    (let r := aRound false [aContribution 4, aContribution 3]
     let s := meshed (fun m => { m with rounds := [r], horizon := [(linkSpace 15 0, { stamp := 6, src := 0, seq := 0 })] })
     s.mer.roundOf 0 2 1 = some r ∧ (r.contribs.foldl (fun xs c => insertKey c xs) []).getLast? = some (aContribution 4) ∧
      r.npart = 2 ∧ s.received 0 (aContribution 4).key = true) ∧
    (meshed (fun m => { m with rounds := [aRound true [aContribution 4]] })).mer.roundOf 0 2 1 = some (aRound true [aContribution 4]) ∧
    (let p := { pktTo 3 7 5 with payload := leBytes 4 1 }
     (answered p).mer.replyFor 3 9 = some p ∧ ((answered p).redWaits 9).any (fun x => x.2.len == 4) = true) ∧
    (let p := { pktTo 4 7 5 with queue := 1 }
     (answered p).mer.replyFor 4 9 = some p ∧ ((answered p).redWaits 9).isSome = true) ∧
    (let p := { pktTo 4 7 5 with queue := 0 }
     (answered p).mer.replyFor 4 9 = some p) := by
  decide +kernel

/-- No entry of an exposure table covers a put of 2 ** 65 bytes. -/
theorem witness_DeliveryAndReductions_exposed (s : State) : (s.exposed 0 0x40000 (2 ^ 65) true).2 = false := by
  have h (bs : List Byte) : leNat (bs.take 8) < 2 ^ 64 := by
    refine lt_of_lt_of_le (leNat_lt _) (le_trans (Nat.pow_le_pow_right (by decide) (List.length_take_le 8 bs)) (by decide))
  simp only [State.exposed, List.any_eq_false]
  intro i _ he
  simp only [exposes, Bool.and_eq_true, decide_eq_true_eq] at he
  have h1 := h ((((s.readPhys s.mer.mexpose.toNat 8192).2.drop (32 * i)).take 32))
  have h2 := h (((((s.readPhys s.mer.mexpose.toNat 8192).2.drop (32 * i)).take 32).drop 8))
  omega

/-- Two grandmasters, behind ports 14 and 15 at one distance. -/
def mastered : State := meshed (fun m => { m with ports := (14, { up := true, huaxel := true, trained := true }) :: m.ports,
                                                  masters := [(14, (5, 2)), (15, (5, 2))] })

theorem witness_LinksAndRoutes :
    (meshed id).mer.ports.find? 15 = some { up := true, huaxel := true, trained := true } ∧
    (mastered.mer.parent.isSome = true ∧ mastered.mer.parent.any (fun x => x.2.2 == 14) = true ∧
      mastered.mer.parent.any (fun x => x.2.2 == 15) = false) ∧
    ((owner 1 base).helm.sems.find? 1 = some 1 ∧ (owner 1 base).helm.sems.find? 2 = some 1 ∧ (owner 1 base).pkg.ready = true) ∧
    (((meshed id).dqueue 63).msgs = [] ∧ ((meshed id).dqueue 63).waiting = [] ∧ ((meshed (queued [aMsg 8])).dqueue 63).msgs ≠ []) ∧
    (reducing 3 id).cmds.any (fun e => match e.2.work with
      | .net n => n.sent && !n.uud && n.status.isNone && !n.waits.all (fun d => d = (reducing 3 id).mer.mepid)
      | _ => false) = true := by
  decide +kernel
/-! ### Witnesses: memory window, package, the machine as a whole -/

/-- The machine whose ports' semaphores belong to port 1, with nothing enabled in memory. -/
def idleMem : State := (owner 1 base).modMs (fun m => { m with asidBase := 0 })

theorem witness_MemoryWindowEvents :
    ((owner 1 base).pkg.ready = true ∧ (owner 1 base).helm.sems.find? 4 = some 1) ∧
    (base.ms.inval = [] ∧
      ({ base.ms with inval := [{ asid := 3, all := false, unit := 5, count := 2 }] } : MemSys).inval =
        { asid := 3, all := false, unit := 5, count := 2 } :: []) ∧
    (256 < (257 * 512 : DWord).toNat / 512 % 512 ∧ (256 * 512 : DWord).toNat / 512 % 512 ≤ 256) ∧
    (base.ms.tcsize = (8 * 2 ^ 19 : DWord).toNat / 512 % 512 ∧ base.ms.ilv = (8 * 2 ^ 19 : DWord).getLsbD 0 ∧ base.ms.regionsOk = true ∧
      (8 * 2 ^ 19 : DWord).getLsbD 23 = false) ∧
    (base.ms.tcsize ≠ (256 * 512 : DWord).toNat / 512 % 512 ∧ ({ base.ms with tcsize := 256 } : MemSys).regionsOk = true) ∧
    ({ base.ms with shdBase := 512 * 10 ^ 9, shdSize := 65536, tcsize := 256 } : MemSys).regionsOk = false ∧
    ((owner 1 base).inUse = true ∧ idleMem.inUse = false ∧ idleMem.ms.change = none) ∧
    ((idleMem.modMs (fun m => { m with change := some { tcsize := 0, ilv := true } })).ms.change = some { tcsize := 0, ilv := true } ∧
      base.ms.ilv = false ∧ base.mem.wf = true) ∧
    (({ base.ms with nrtest := true } : MemSys).nrtest = true ∧ base.ms.nrtest = false) ∧
    (((base.ms.nrgen.getD 767 0 >>> 1) ^^^ (if (base.ms.nrgen.getD 767 0).getLsbD 0 then 0x80200003 else 0)).toNat % 2 ^ base.ms.nrk = 0 ∧
      (let m : MemSys := { base.ms with nrgen := [(767, 2)] }
       ((m.nrgen.getD 767 0 >>> 1) ^^^ (if (m.nrgen.getD 767 0).getLsbD 0 then 0x80200003 else 0)).toNat % 2 ^ m.nrk ≠ 0)) := by
  decide +kernel

/-- Partitions ACTIVE, clocks in MHz, and one die that may be hot. -/
def powered (acts : List Nat) (clocks : Map Nat) (hots : List Nat) : State :=
  base.modPkg (fun p => { p with power := acts.map (fun a => (a, .active)), pclk := clocks, hotDies := hots })

theorem witness_GovernorInterval :
    (base.pkg.trip = false ∧ base.pkg.plimit * 10 < 24001 ∧ 23749 + 250 < base.pkg.plimit * 10 ∧
      24000 ≤ base.pkg.plimit * 10 ∧ base.pkg.plimit * 10 ≤ 23750 + 250) ∧
    ((powered [1, 3] [(1, 1900), (3, 1900)] []).active 3 = true ∧ 950 < (powered [1, 3] [(1, 1900), (3, 1900)] []).pkg.clock 3) ∧
    ((powered [1] [] [0]).pkg.hotDies ≠ [] ∧ (powered [1] [] [0]).pkg.clock 1 ≤ 950) ∧
    ((powered [1] [] []).active 1 = true ∧ (powered [1] [] []).pkg.clock 1 < (powered [1] [] []).pkg.limit 1) := by
  decide +kernel

theorem witness_PowerAndThermalEvents :
    ((owner 1 base).helm.sems.find? 0 = some 1 ∧ (owner 1 base).pkg.power.sorted = true) ∧
    (let s := powered [3] [] []
     s.active 3 = true ∧ s.vacant 3 = true) ∧
    (let s := base.modPkg (fun p => { p with pwrOff := true })
     s.pkg.pwrOff = true ∧ s.pkg.power.getD 3 .idle = .idle ∧ (s.part 3).halt = .run ∧ s.vacant 3 = true ∧
      s.cmds.any (fun e => (s.partCores 3).contains e.2.core) = false) ∧
    (0 ∈ (powered [] [] [0]).pkg.hotDies ∧ 840 ≤ 840 ∧ 800 ≤ 800) := by
  decide +kernel

/-- An image of a type with a magic word, and a board of the largest population with some images. -/
def anImage (kind : Nat) (magic : Word) : Image :=
  { magic := magic, kind := kind, svn := 63, digest := 0, modulus := [], header := [], body := [], signature := [] }
def aBoard (is : List Image) : Board := { lpddrChannels := 0xFFFF, lpddrGb := 256, cxlGb := List.replicate 8 3584, images := is }

theorem witness_BringUpAndAttestation :
    (boardOk (aBoard [anImage 5 0, anImage 1 0]) = true ∧
      bootOrder (aBoard [anImage 5 0, anImage 1 0]).images = [anImage 1 0, anImage 5 0] ∧
      [anImage 1 0, anImage 5 0].find? (fun i => !imageAccepted i base.pkg.fuse) = some (anImage 1 0)) ∧
    (boardOk (aBoard [anImage 5 0]) = true ∧ ∀ i ∈ (aBoard [anImage 5 0]).images, i.kind ≠ 1) ∧
    (owner 1 base).helm.sems.find? 4 = some 1 ∧
    ((base.modPkg (fun p => { p with attBusy := true })).pkg.attBusy = true ∧ base.pkg.ready = true ∧ base.pkg.loaded.Nodup) := by
  decide +kernel

theorem witness_RegisterWrites :
    ((owner 1 base).pkg.ready = true ∧ (List.range 5).all (fun n => (owner 1 base).helm.sems.find? n == some 1) = true) ∧
    (({ base.ms with rmdSize := (0x1FFFF : DWord).toNat / 65536 * 65536 } : MemSys) ≠ base.ms) ∧
    (({ base.ms with shdSize := 65536, stgSize := 65536 } : MemSys).regionsOk = false ∧
      ({ base.ms with stgSize := 65536 } : MemSys).regionsOk = true) ∧
    (base.helm.sems.find? 0 ≠ some 1 ∧ base.helm.sems.find? 4 ≠ some 1) ∧ (0x170 ≤ 0x170 ∧ 0xA0 ≤ 0x14F ∧ 0x14F < 0x150) := by
  decide +kernel

/-- What the first turn of the agenda comes to: its split is ready, and its word, or the miss it meets. -/
def turnFetch (s : State) : Option Fetched :=
  match s.agenda with
  | .issue gid slot :: rest =>
    let u := { s with agenda := rest }
    let v := (u.mergeAll gid).modSplit gid slot Split.beforeIssue
    (match u.groups.find? gid, v.groups.find? gid with
     | some g0, some g =>
       (match g0.splits.find? slot, g.splits.find? slot with
        | some sp0, some sp => if u.ready g0 sp0 then some (v.fetch g.core g.seq (v.asidOf g) sp.pc) else none
        | _, _ => none)
     | _, _ => none)
  | _ => none

/-- The word that it comes to. -/
def turnWord (s : State) : Option DWord :=
  (turnFetch s).bind (fun f => match f with
    | .word w _ => some w
    | _ => none)

theorem witness_StepRunsTheDecodedInstruction :
    (turnWord (State.reset.place 0x11013F8000000000) = some 0x11013F8000000000 ∧
      (decode 0x11013F8000000000).toOption.isSome = true) ∧
    (turnWord (State.reset.place 0x4F00000000000000) = some 0x4F00000000000000 ∧
      (match decode 0x4F00000000000000 with
       | .ok _ => false
       | .error _ => true) = true) ∧
    (turnFetch { State.reset.place 0 with dies := [], cores := [] }).any (fun f => match f with
      | .miss _ _ => true
      | _ => false) = true ∧
    (encode .invalidationComplete).isNone = true ∧
    ((0x10000 : DWord).toNat < 2 ^ 56 ∧ ((State.reset.place 0).mapped 0 .fetch 0x10000) = some 0x10000) ∧
    (let s := State.reset.place 0x11013F8000000000
     ((((s.core 0).lineBuf 0).find? (icKey 0x10000 (s.asidTag 0))).isSome ||
       ((s.die 0).icache.find? (icKey 0x10000 (s.asidTag 0))).isSome) = true) := by
  decide +kernel

theorem witness_DecodeOfEncode :
    (Instr.mloop false (.s 47) 5 gd).wf = true ∧ (encode (.mloop false (.s 47) 5 gd)).isSome = true := by
  decide +kernel

theorem witness_MemoryStaysCanonical :
    let s := State.reset.place 0x5400000000000000
    s.mem.wf = true ∧ (match step s with
      | .next _ => true
      | _ => false) = true := by
  decide +kernel

/-! ### The standards of R516, R536 and R537 -/

/-- FIPS 180-4, the digest of the message "abc". -/
theorem test_sha512 : (sha512 [97, 98, 99]).take 8 = [221, 175, 53, 161, 147, 97, 122, 186] := by decide +kernel

/-- FIPS 197, appendix C.3. -/
theorem test_aes256 : (aesEncrypt (aesKeys (List.range 32)) ((List.range 16).map (fun i => 17 * i))).take 4 = [0x8E, 0xA2, 0xB7, 0xCA] := by decide +kernel

/-- IEEE 1619, annex B, vector 10: the first block of data unit 0xFF. -/
theorem test_xts : (xts true 0x92459474098205513799931697418802952783336462842393975853265941312776966649575999699370245777496226357174286053234590452818281827 0xFF ((List.range 128).map (BitVec.ofNat 8))).take 16 =
    [28, 59, 58, 16, 47, 119, 3, 134, 228, 131, 108, 153, 227, 112, 207, 155] := by decide +kernel
/-! ### Results that the spec works out -/

/-- The state after an instruction, and what lane `l` then reads from a v register. -/
def after (i : Instr) (s : State) : State :=
  match exec i s with
  | .next t => t
  | _ => State.reset
def laneAfter (i : Instr) (s : State) (n : Fin 176) (l : Nat) : Word := (after i s).lane 4 (.v n) l

/-- v1, v2 and v3 with one value each in every lane. -/
def abc (a b c : Word) : State := setV 1 (fun _ => a) (setV 2 (fun _ => b) (setV 3 (fun _ => c) base))

/-- The example of R234 (spec/05_integer_lane.md): IADD, ISUB, IMUL, SHL, SAR, IMIN. -/
theorem test_integer_examples :
    laneAfter (.iadd .wrap (.v 9) (.v 1) (.v 2) gd) (abc 0x7FFFFFF0 0x20 0) 9 31 = 0x80000010 ∧
    laneAfter (.iadd .sat (.v 9) (.v 1) (.v 2) gd) (abc 0x7FFFFFF0 0x20 0) 9 0 = 0x7FFFFFFF ∧
    laneAfter (.iadd .usat (.v 9) (.v 1) (.v 2) gd) (abc 0xFFFFFFF0 0x20 0) 9 0 = 0xFFFFFFFF ∧
    laneAfter (.isub .usat (.v 9) (.v 1) (.v 2) gd) (abc 5 7 0) 9 0 = 0 ∧
    laneAfter (.imul .sat (.v 9) (.v 1) (.v 2) gd) (abc 0x10000 0xFFFF0000 0) 9 0 = 0x80000000 ∧
    laneAfter (.shl (.v 9) (.v 1) (.v 2) gd) (abc 1 33 0) 9 0 = 2 ∧
    laneAfter (.sar (.v 9) (.v 1) (.v 2) gd) (abc 0x80000000 31 0) 9 0 = 0xFFFFFFFF ∧
    laneAfter (.imin true (.v 9) (.v 1) (.v 2) gd) (abc 0xFFFFFFFF 1 0) 9 0 = 1 ∧
    laneAfter (.iminImm true (.v 9) (.v 1) 0xFFFFFE gd) (abc 3 0 0) 9 0 = 3 := by
  decide +kernel

/-- The example of R236 (spec/05_integer_lane.md). -/
theorem test_integer_group_examples :
    laneAfter (.bfe false (.v 9) (.v 1) (.v 2) gd) (abc 0xABCD1234 0xC1C 0) 9 0 = 0xA ∧
    laneAfter (.bfe true (.v 9) (.v 1) (.v 2) gd) (abc 0xABCD1234 0xC1C 0) 9 0 = 0xFFFFFFFA ∧
    laneAfter (.bfe false (.v 9) (.v 1) (.v 2) gd) (abc 0x80000000 0x420 0) 9 0 = 0 ∧
    laneAfter (.bfe true (.v 9) (.v 1) (.v 2) gd) (abc 0x80000000 0x420 0) 9 0 = 0xFFFFFFFF ∧
    laneAfter (.bfi (.v 9) (.v 1) (.v 2) (.v 3) gd) (abc 0xFFFFFFFF 0 0x81C) 9 0 = 0x0FFFFFFF ∧
    laneAfter (.bysel (.v 9) (.v 1) (.v 2) (.v 3) gd) (abc 0x44332211 0x88776655 0x00A581E0) 9 0 = 0xA5885511 ∧
    laneAfter (.shf false (.v 9) (.v 1) (.v 2) (.v 3) gd) (abc 1 3 36) 9 0 = 0x30000000 ∧
    laneAfter (.imulh (.v 9) (.v 1) (.v 2) gd) (abc 0xFFFFFFFF 2 0) 9 0 = 0xFFFFFFFF ∧
    laneAfter (.imulhu (.v 9) (.v 1) (.v 2) gd) (abc 0xFFFFFFFF 2 0) 9 0 = 1 ∧
    laneAfter (.clz (.v 9) (.v 1) gd) (abc 0 0 0) 9 0 = 32 := by
  decide +kernel

/-- `MOVX x0, 0, 4`: lane l reads 4l (spec/05_integer_lane.md R237). -/
theorem test_movx : (after (.movx (.x 0) 0x40000 gd) base).lane 4 (.x 0) 31 = 124 := by
  decide +kernel

/-- Lanes 0 to 3 with 5, 9, 5 and 2, lane 2 not participating; and lanes 0 to 3 alone with 2 ** 24, 1, 1 and 0. -/
def fewLanes : State := onSplit (fun sp => { sp with mask := 0xB }) (setV 1 (fun l => [5, 9, 5, 2].getD l 0) base)
def fourLanes : State := onSplit (fun sp => { sp with mask := 0xF }) (setV 1 (fun l => [0x4B800000, 0x3F800000, 0x3F800000, 0].getD l 0) base)

/-- The examples of R243 to R245 (spec/05_integer_lane.md): SCAN, MATCH, LPRED, RDUX. -/
theorem test_lane_examples :
    [0, 1, 2, 3].map (laneAfter (.scan .add .i32 (.v 9) (.v 1) gd) fewLanes 9) = [5, 14, 0, 16] ∧
    [0, 1, 2, 3].map (laneAfter (.scan .addx .i32 (.v 9) (.v 1) gd) fewLanes 9) = [0, 5, 0, 14] ∧
    [0, 1, 2, 3].map (laneAfter (.scan .max .i32 (.v 9) (.v 1) gd) fewLanes 9) = [5, 9, 0, 9] ∧
    [0, 1, 2, 3].map (laneAfter (.matchLanes (.v 9) (.v 1) gd) fewLanes 9) = [1, 2, 0, 8] ∧
    [0, 2, 3].map (laneAfter (.lpred .bits false (.v 9) (.v 1) gd) fewLanes 9) = [0xB, 0, 0xB] ∧
    [1, 2].map (laneAfter (.rdux .add false (.v 9) (.v 1) gd) fewLanes 9) = [16, 0] ∧
    laneAfter (.rdux .fadd false (.v 9) (.v 1) gd) fourLanes 9 0 = 0x4B800000 := by
  decide +kernel

/-- The examples of R262, R263 and R269 (spec/06_float.md): FMUL, FFMA, CVTFI, CVTIF. -/
theorem test_float_examples :
    laneAfter (.fmul .rz (.v 9) (.v 1) (.v 2) gd) (abc 0x7F7FFFFF 0x40000000 0) 9 0 = 0x7F7FFFFF ∧
    laneAfter (.fmul .rn (.v 9) (.v 1) (.v 2) gd) (abc 0x7F7FFFFF 0x40000000 0) 9 0 = 0x7F800000 ∧
    laneAfter (.ffma .rn (.v 9) (.v 1) (.v 2) (.v 3) gd) (abc 0x3F800800 0x3F800800 0xBF801000) 9 0 = 0x33800000 ∧
    laneAfter (.fmul .rn (.v 9) (.v 1) (.v 2) gd) (abc 0x3F800800 0x3F800800 0) 9 0 = 0x3F801000 ∧
    laneAfter (.cvtfi false .rn (.v 9) (.v 1) gd) (abc 0xBF333333 0 0) 9 0 = 0xFFFFFFFF ∧
    laneAfter (.cvtfi false .rz (.v 9) (.v 1) gd) (abc 0xBF333333 0 0) 9 0 = 0 ∧
    laneAfter (.cvtfi true .rn (.v 9) (.v 1) gd) (abc 0xBF333333 0 0) 9 0 = 0 ∧
    laneAfter (.cvtif false .rn (.v 9) (.v 1) gd) (abc 16777217 0 0) 9 0 = 0x4B800000 ∧
    laneAfter (.cvtif false .ru (.v 9) (.v 1) gd) (abc 16777217 0 0) 9 0 = 0x4B800001 := by
  decide +kernel

/-- The examples of R254, R255, R271 and R273 (spec/06_float.md): CVTN8 and DQ4. -/
theorem test_quantisation_examples :
    [(0x3B900000 : Word), 0xBBA3D70A, 0x40080000, 0x40180000].map (fun x =>
      laneAfter (.cvtn8 0 false false (.v 9) (.v 1) (.v 2) gd) (abc x 0x3F800000 0) 9 0) = [0, 0x81, 0x40, 0x42] ∧
    [(0x43F7F333 : Word), 0x43F80000, 0xFF800000].map (fun x =>
      laneAfter (.cvtn8 0 true false (.v 9) (.v 1) (.v 2) gd) (abc x 0x3F800000 0) 9 0) = [0x7F, 0x80, 0x80] ∧
    [(0x43F80000 : Word), 0xFF800000].map (fun x =>
      laneAfter (.cvtn8 0 false false (.v 9) (.v 1) (.v 2) gd) (abc x 0x3F800000 0) 9 0) = [0x7F, 0xFF] ∧
    laneAfter (.cvtn8 0 false true (.v 9) (.v 1) (.v 2) gd) (abc 0x47700000 0x3F800000 0) 9 0 = 0x7B ∧
    laneAfter (.cvtn8 0 true true (.v 9) (.v 1) (.v 2) gd) (abc 0x47700000 0x3F800000 0) 9 0 = 0x7C ∧
    laneAfter (.cvtn8 2 false false (.v 9) (.v 1) (.v 2) gd) (setV 9 (fun _ => 0x11223344) (abc 0x3DCCCCCD 0x3C800000 0)) 9 0 = 0x114D3344 ∧
    laneAfter (.dq4 .e5 (.v 9) (.v 1) (.v 2) (.v 3) 5 gd) (abc 0x00B00000 0x40 0) 9 0 = 0xC0400000 ∧
    laneAfter (.dq4 .e5 (.v 9) (.v 1) (.v 2) (.v 3) 5 gd) (abc 0x00800000 0x40 0x80) 9 0 = nan32 := by
  decide +kernel

/-- The examples of R329 and R331 (spec/08_almanac_direct.md): step sums, and the two FP32 tile modes. -/
theorem test_step_examples :
    stepValue [fval 0x71800000, fval 0xF1800000, fval 0x3F000000] = 0 ∧
    stepValue (List.replicate 32 (mulF (fval 0x43F00000) (fval 0x43F00000))) = 0x4AE10000 ∧
    fadd32 .rn (fadd32 .rn 0x4B800000 0x3F800000) 0x3F800000 = 0x4B800000 ∧
    (let a := twosumAdd 0x4B800000 0 0x3F800000
     let b := twosumAdd a.1 a.2 0x3F800000
     fadd32 .rn b.1 b.2) = 0x4B800001 := by
  decide +kernel

/-- The example of R352 (spec/08_almanac_direct.md): the transform of 16 values with .S4. -/
theorem test_hadamard_examples :
    hadamard 4 0x3E800000 (List.replicate 16 0x3F800000) = 0x40800000 :: List.replicate 15 0 ∧
    hadamard 4 0x3E800000 (0x3F800000 :: List.replicate 15 0) = List.replicate 16 0x3E800000 := by
  decide +kernel

/-- SipHash-2-4 of the bytes 0 to 14 under the key 0 to 15: the test value of its authors' paper (R405 names the function). -/
theorem test_sipHash :
    sipHash 0x0F0E0D0C0B0A09080706050403020100 ((List.range 15).map (fun i => BitVec.ofNat 8 i)) = 0xA129CA6149BE45E5 := by
  decide +kernel

/-- The clocks of partitions 0 to 3, all ACTIVE, after a governor interval at a power in 0.1 W. -/
def clocksAfter (power : Nat) (clocks : List Nat) : List Nat :=
  match execGovernorInterval power ((powered [0, 1, 2, 3] ((List.range 4).zip clocks) []).modPkg (fun p => { p with plimit := 2000 })) with
  | .next t => (List.range 4).map t.pkg.clock
  | _ => []

/-- The example of R545 (spec/14_package.md). -/
theorem test_governor_example :
    clocksAfter 21000 [1500, 1900, 1500, 1900] = [1500, 1850, 1500, 1900] ∧
    clocksAfter 20400 [1500, 1850, 1500, 1900] = [1500, 1850, 1500, 1850] ∧
    clocksAfter 19900 [1500, 1850, 1500, 1850] = [1500, 1850, 1500, 1850] ∧
    clocksAfter 19600 [1500, 1850, 1500, 1850] = [1550, 1850, 1500, 1850] := by
  decide +kernel

/-- Endpoint 0x40 with three ports and their horizons, and a packet queued for its die 0, as the example under R490
(spec/12_meridian.md) has them. -/
def switchAt (hs : List PKey) (k : PKey) : State :=
  base.modMer (fun m => { m with
    mepid := 0x40, time := 0x1000, ports := [0, 1, 2].map (fun p => (p, { up := true, huaxel := true, trained := true }))
    horizon := hs.zipIdx.map (fun e => (linkSpace e.2 0, e.1))
    queued := [{ out := 16, inp := 0, pkt := { aPacket 0 0 [] with key := k } }] })

/-- At 120 a is not emitted, since H2 = 38+ is below it; at 150 it is. -/
theorem test_switch_example :
    let a : PKey := { stamp := 40, src := 0x11, seq := 1 }
    let b : PKey := { stamp := 40, src := 0x22, seq := 7 }
    let p := fun (n : Nat) => ({ stamp := n, src := 0xFFFF, seq := 0xFFFFFFFF } : PKey)
    (switchAt [a, b, p 38] a).emittable 16 0 a = false ∧ (switchAt [a, b, p 45] a).emittable 16 0 a = true ∧
    (switchAt [a, b, p 45] b).emittable 16 0 b = true ∧ pkLt a b = true := by
  decide +kernel

/-! ### Words that the spec writes out -/

/-- A word decodes to an instruction, and is the word that the instruction encodes to. -/
def both (w : DWord) (i : Instr) : Bool := decode w == .ok i && encode i == some w

/-- Integer, lane and float words (spec/05_integer_lane.md, spec/06_float.md). -/
theorem test_words_lane :
    [(0x0105050900000040, Instr.iadd .sat (.v 5) (.v 5) (.v 9) gd), (0x07B3B30000040400, .shrImm (.s 3) (.s 3) 4 gd),
     (0x11F0000400000400, .movx (.x 0) 0x40000 gd), (0x1203010200000402, .iset .ne .replace 3 (.v 1) (.v 2) ⟨.none, 1, false⟩),
     (0x200201BE01000400, .lxch .back (.v 2) (.v 1) (.s 14) (.v 1) gd), (0x0D05050600000040, .fmul .rz (.v 5) (.v 5) (.v 6) gd),
     (0x3008020304000410, .ffma .rn (.v 8) (.v 2) (.v 3) (.v 4) ⟨.a, 0, false⟩),
     (0x3102010300001000, .fset .gt .replace 2 (.v 1) (.v 3) gd), (0x340901B500001200, .cvtn8 2 false false (.v 9) (.v 1) (.s 5) gd),
     (0x370801B6B2030180, .rngx .x4 true (.v 8) (.v 1) 3 (.s 2) 3 gd)].all (fun e => both e.1 e.2) = true := by
  decide +kernel
/-- Integer immediates, wide immediates and pair words (spec/02_encoding.md R72, R75; spec/05_integer_lane.md R237). -/
theorem test_words_pair :
    [(0x8181800101820002, Instr.pairWord ⟨.iadd, .v 3, .imm 1⟩ ⟨.iadd, .v 4, .imm 2⟩), (0x11013F8000000000, .movw (.v 1) 0x3F800000 gd),
     (0x200C07CE07000000, .lxch .at (.v 12) (.v 7) (.s 30) (.v 7) gd)].all (fun e => both e.1 e.2) = true := by
  decide +kernel

/-- Control, barrier and system words (spec/03_sequencer.md). -/
theorem test_words_sequencer :
    [(0x5801000000070800, Instr.brd 1 7 gd), (0x59B4B20000000800, .barv (.s 4) (.s 2) gd), (0x5BB3000000020000, .grow (.s 3) 2 gd),
     (0x5800000000001800, .exit gd), (0x74B1000000120000, .movs (.s 1) 0x12 gd)].all (fun e => both e.1 e.2) = true := by
  decide +kernel

/-- Memory words (spec/04_loadstore.md R217 to R221). -/
theorem test_words_memory :
    [(0x5005B20600101280, Instr.ld .w (.ordered .cluster) (.v 5) (.s 2) (.v 6) 0x10 gd),
     (0x5107B40200000AC0, .st .w (.ordered .package) (.v 7) (.s 4) (.v 2) 0 gd),
     (0x5304B609FFF82400, .atom .cas .plain (.v 4) (.s 6) (.v 9) 0xFFF8 gd),
     (0x5403B0FF00400A40, .red .addBf16 (.ordered .team) (.v 3) (.s 0) .zero 0x40 gd)].all (fun e => both e.1 e.2) = true := by
  decide +kernel

/-- Traverse and Almanac words (spec/07_traverse.md, spec/08_almanac_direct.md, spec/09_almanac_lookup.md). -/
theorem test_words_engine :
    [(0x60B2B4B6B8030100, Instr.xferCopy { sacc := false, wbuf := false, scope := .cluster, bar := .s 2, recp := 2, src := 3, dst := 4, tag := 3 } gd),
     (0x63FFB4B6B8070180, .xmcast { sacc := false, wbuf := true, scope := .cluster, bar := .zero, recp := 2, src := 3, dst := 4, tag := 7 } gd),
     (0x61BCBA0000000680, .twaitl true .cluster (.s 12) (some 5) gd), (0x64B9B10000000080, .mfmt .b (.s 9) (.s 1) gd),
     (0x65C4B80000000000, .mloop false (.s 20) 1 gd), (0x66C5C40000000C40, .mwait true (.s 21) (.s 20) gd),
     (0x66C7C40000001000, .mstat (.s 23) (.s 20) gd), (0x660CB50000000400, .accrd false (.v 12) (.s 5) gd),
     (0x6600B50C00000800, .accwr (.s 5) (.v 12) gd), (0x67C6B2B300000280, .mhad .p64 .s8 (.s 22) (.s 2) (.s 3) gd),
     (0x68D6C00000000000, .tbld (.s 38) 2 gd), (0x69D7C80000000000, .tlook (.s 39) 3 gd), (0x6AB3B20000000000, .tval (.s 3) (.s 2) gd),
     (0x6AB4B2B500000400, .tspill (.s 4) (.s 2) (.s 5) gd), (0x6AB4B20000000800, .tfill (.s 4) (.s 2) gd),
     (0x6A00B20000000C00, .tdrop (.s 2) gd)].all (fun e => both e.1 e.2) = true := by
  decide +kernel

/-- Chart, Helm and Meridian words (spec/10_chart.md, spec/11_helm.md, spec/12_meridian.md). -/
theorem test_words_services :
    [(0x6CFFC00000040000, Instr.kvgath false .zero 2 4 gd), (0x6D00C80000050000, .kvapp 3 5 gd),
     (0x6ED5B2C500001000, .btget (.s 37) (.s 2) (.s 21) 0 gd), (0x6EBAB3B4B8020C00, .btset (.s 10) (.s 3) (.s 4) (.s 8) 2 gd),
     (0x6E00D50000010800, .pgfetch (.s 37) 1 gd), (0x70C6B20000120000, .sqget (.s 22) (.s 2) 18 gd),
     (0x70BBB2B700000C00, .sqroll (.s 11) (.s 2) (.s 7) gd), (0x70BFB2BEB6000400, .tokemit (.s 15) (.s 2) (.s 14) (.s 6) gd),
     (0x72BCBAB4000600C0, .nsend .ord (.s 12) (.s 10) 2 6 gd), (0x72BCBAB4B6020440, .nput false .rod (.s 12) (.s 10) 2 3 2 gd),
     (0x7300B20000030040, .nred .addF32 (.s 2) 3 gd), (0x73B5BE0000000400, .npoll (.s 5) (.s 14) gd),
     (0x7300BEB6BF090800, .nrecv (.s 14) 3 (.s 15) 9 gd), (0x73C4000000000C40, .ntime true 10 gd)].all (fun e => both e.1 e.2) = true := by
  decide +kernel

/-! ### Ill-formed instructions -/

/-- The table of R75 (spec/02_encoding.md): which pair words are legal. -/
theorem test_pair_legality :
    (Instr.pairWord ⟨.iadd, .v 3, .imm 1⟩ ⟨.iadd, .v 4, .imm 2⟩).wf = true ∧
    (Instr.pairWord ⟨.isub, .v 6, .reg (.v 1)⟩ ⟨.iadd, .v 1, .imm 2⟩).wf = true ∧
    (Instr.pairWord ⟨.fmul, .v 8, .imm 0x2000⟩ ⟨.fadd, .v 9, .reg (.v 10)⟩).wf = true ∧
    (Instr.pairWord ⟨.imul, .v 0, .reg (.s 1)⟩ ⟨.shl, .v 5, .imm 3⟩).wf = true ∧
    (Instr.pairWord ⟨.iadd, .v 1, .reg (.v 5)⟩ ⟨.iadd, .v 2, .imm 3⟩).wf = false ∧
    (Instr.pairWord ⟨.iadd, .v 1, .imm 2⟩ ⟨.isub, .v 6, .reg (.v 1)⟩).wf = false ∧
    (Instr.pairWord ⟨.iadd, .v 4, .imm 1⟩ ⟨.iadd, .v 4, .imm 1⟩).wf = false ∧
    (Instr.pairWord ⟨.iadd, .s 2, .reg (.v 3)⟩ ⟨.mov, .v 7, .imm 0⟩).wf = false := by
  decide +kernel

/-- One ill-formed instruction for each check: HOLD of a field that is not read, is no v register, or that the form has none of; a
result wider than its destination; a register that must be uniform; register groups; a base; ATOM's data; SCAN's types; an LPRED
form; GROW's range; a special register; XFER's fields; a destination that may not be a v register; a word outside the hint region. -/
theorem test_ill_formed :
    [Instr.inot (.v 1) (.v 2) ⟨.b, 0, false⟩, .iadd .wrap (.v 1) (.s 2) (.v 3) ⟨.a, 0, false⟩, .tclr none ⟨.a, 0, false⟩,
     .iand (.s 1) (.v 2) (.v 3) gd, .iadd .wrap (.s 1) (.x 2) .zero gd, .iand (.x 1) (.x 2) .zero gd, .mmov 1 (.v 2) gd,
     .ld .q .plain (.v 2) (.s 2) .zero 0 gd, .ld .w .plain (.s 2) (.s 2) .zero 0 gd, .ldu .d .plain (.x 2) (.s 2) .zero 0 gd,
     .st .d .plain (.h 2) (.s 2) .zero 0 gd, .rngx .x4 false (.v 174) (.v 1) 0 .zero 0 gd,
     .ld .w .plain (.v 2) (.s 3) .zero 0 gd, .pref (.x 2) .zero 0 gd, .atom .cas .plain (.v 3) (.s 2) .zero 0 gd,
     .atom .add .plain (.s 4) (.s 2) .zero 0 gd, .scan .add .u32 (.v 1) (.v 2) gd, .scan .or .f32 (.v 1) (.v 2) gd,
     .lpred .same true (.v 1) (.v 2) gd, .rdux .add true (.v 1) (.v 2) gd, .grow (.s 1) 0 gd, .shrink 23 gd, .movs (.s 1) 0x1D gd,
     .movs (.s 1) 0 gd, .xferCopy { sacc := false, wbuf := false, scope := .team, bar := .v 1, recp := 0, src := 0, dst := 0, tag := 0 } gd,
     .xferFill { sacc := true, wbuf := false, scope := .team, bar := .zero, recp := 0, src := 0, dst := 0, tag := 0 } gd,
     .xmcast { sacc := false, wbuf := false, scope := .team, bar := .zero, recp := 0, src := 0, dst := 0, tag := 0 } gd,
     .sqget (.v 1) .zero 0 gd, .npoll (.v 1) .zero gd, .hint 0x7700000000000000].map Instr.wf =
    List.replicate 30 false := by
  decide +kernel

/-- A full word with major opcode 0x13, which the opcode map does not have, decodes to nothing (spec/02_encoding.md R77). -/
theorem test_undefined_word : (decode 0x13C8000000000000).toOption = none := by decide +kernel

end Sys2Proof.Tests
end

namespace Sys2Proof.Machine

/-! ### The prelude of an instruction, case by case (R70, R79, R105, R134) -/

/-- Noting no access leaves the machine as it is. -/
theorem record_nil (s : State) (cl : Nat) : s.record cl [] = s := by
  have hid : ∀ m : Map Cluster, m.modify cl (fun c => { c with accesses := c.accesses ++ [] }) = m := by
    intro m
    induction m with
    | nil => rfl
    | cons e m ih =>
      obtain ⟨k, a⟩ := e
      by_cases hk : cl = k <;> simp_all [Map.modify]
  show { s with clusters := s.clusters.modify cl (fun c => { c with accesses := c.accesses ++ [] }) } = s
  rw [hid]

/-- An effect that does not take hold leaves no note of its h registers: it is that of the machine without the note. -/
theorem withRegs_still {hs : List Access} {c : Ctx} {s : State} (k : Ctx → State → State)
    (hm : c.moved (k c (s.record c.team.cluster hs)) = false) : withRegs hs c s k = k c s := by
  unfold withRegs
  split
  · rfl
  · cases hs with
    | nil => simp [record_nil]
    | cons a as => simp [hm]

/-- An effect that would take hold gives way to the trap where an earlier group's access to an h register conflicts. -/
theorem withRegs_race {hs : List Access} {c : Ctx} {s : State} {o : Word} (k : Ctx → State → State) (hw : c.resumed = false)
    (hm : c.moved (k c (s.record c.team.cluster hs)) = true) (ho : firstRace c.cl hs = some o) :
    withRegs hs c s k = takeTrap c { cause := 0x06, lanes := c.act, other := o } s := by
  cases hs with
  | nil => simp [firstRace] at ho
  | cons a as => simp [withRegs, hw, hm, ho]

section Prelude

variable {i : Instr} {sync : Bool} {c : Ctx} {s : State} (k : Ctx → State → State)

theorem issueAs_of_ctx (hc : s.ctx? i = some c) : issueAs sync i s k = .next (prelude i sync c s k) := by
  simp [issueAs, hc]

/-- Nothing keeps an instruction back before its lanes are looked at: no register is pending, and it is neither privileged
here nor out of the allotment (R79, R105). -/
def Ctx.admits (c : Ctx) (s : State) (i : Instr) : Prop :=
  s.scoreboardBusy i c.grp = false ∧ privilegedUse i c = false ∧ i.rangeBad c.grp.vallot = false

/-- With no participating lane an instruction retires, unless its word alone denies it (R70, R71). -/
theorem prelude_idle (h : c.admits s i) (ha : c.act = 0) :
    prelude i sync c s k = if deniedWrite i then trap c 0x0E s else retire c s := by
  obtain ⟨h1, h2, h3⟩ := h
  simp [prelude, h1, h2, h3, ha]

/-- With a participating lane only Reckoning mode can keep an admitted instruction from its effect. -/
theorem prelude_admitted (h : c.admits s i) (ha : c.act ≠ 0) : prelude i sync c s k =
    if c.reckon then
      if sync && !s.smallest c.team.cluster (c.effectKey s) then (if c.waiting then s else block c .key s)
      else withRegs (hAccesses c.grp.team c.grp.ggid i) c s k
    else k c s := by
  obtain ⟨h1, h2, h3⟩ := h
  unfold prelude
  rw [if_neg (by simp [h1]), if_neg (by simp [h2]), if_neg (by simp [h3]), if_neg ha]

/-- Outside Reckoning mode an admitted instruction is its own effect. -/
theorem prelude_free (h : c.admits s i) (ha : c.act ≠ 0) (hr : c.reckon = false) : prelude i sync c s k = k c s := by
  rw [prelude_admitted k h ha, hr]
  rfl

/-- In Reckoning mode a synchronising operation waits for its key (R36). -/
theorem prelude_key (h : c.admits s i) (ha : c.act ≠ 0) (hr : c.reckon = true) (hs : sync = true)
    (hk : s.smallest c.team.cluster (c.effectKey s) = false) :
    prelude i sync c s k = if c.waiting then s else block c .key s := by
  rw [prelude_admitted k h ha]
  simp [hr, hs, hk]

/-- In Reckoning mode an operation whose turn it is looks at its h registers (R134). -/
theorem prelude_regs (h : c.admits s i) (ha : c.act ≠ 0) (hr : c.reckon = true)
    (hk : sync = true → s.smallest c.team.cluster (c.effectKey s) = true) :
    prelude i sync c s k = withRegs (hAccesses c.grp.team c.grp.ggid i) c s k := by
  have hturn : (sync && !s.smallest c.team.cluster (c.effectKey s)) = false := by
    cases sync with
    | false => rfl
    | true => simp [hk rfl]
  rw [prelude_admitted k h ha]
  simp [hr, hturn]

end Prelude

/-- An instruction that retires at the next word and does nothing else has completed. -/
theorem done_retire {i : Instr} {c : Ctx} {s : State} (hc : s.ctx? i = some c) :
    Done c 1 (c.sp.pc + 8) keepRegs keepMasks keepRest s (retire c s) := by
  obtain ⟨hg, hsp, ht, -, -⟩ := ctx_group hc
  exact done_of_touched 1 _ hg ht hsp rfl (touched_refl hg ht)

/-- Settles O17: the prelude's branches, one by one. -/
theorem issueOutcomes : Obligations.IssueOutcomes := by
  unfold Obligations.IssueOutcomes
  intro i sync c s k hc
  rw [issueAs_of_ctx k hc]
  refine ⟨fun h => ?_, fun h hp => ?_, fun h hp hb => ?_, fun h ha hd => ?_, fun h ha hd => ?_, fun h ha hr hs hk => ?_,
    fun h ha hr => ?_, fun h ha ht hw => ?_, fun h ha ht hw hm hn => ?_, fun o h ha ht hw hm ho => ?_,
    fun h ha ht hw hm _ => ?_⟩
  · simp [prelude, h]
  · simp [prelude, h, hp, trap]
  · simp [prelude, h, hp, hb, trap]
  · exact ⟨retire c s, by rw [prelude_idle k h ha, hd]; rfl, done_retire hc⟩
  · rw [prelude_idle k h ha, hd]; rfl
  · rw [prelude_key k h ha hr hs hk]
  · rw [prelude_free k h ha hr]
  · rw [prelude_regs k h ha ht.1 ht.2, withRegs, if_pos hw]
  · rw [prelude_regs k h ha ht.1 ht.2, withRegs_clear k (fun _ => hn) (by simpa [hw] using hm), if_pos hw]
  · rw [prelude_regs k h ha ht.1 ht.2, withRegs_race k hw hm ho]
  · rw [prelude_regs k h ha ht.1 ht.2, withRegs_still k hm]

end Sys2Proof.Machine

namespace Sys2Proof.Machine

/-! ### The issuing group stands as its instruction saw it -/

/-- The issuing group is there, and has retired nothing since the context was taken. -/
def Ctx.stands (c : Ctx) (u : State) : Prop := ∃ g, u.groups.find? c.gid = some g ∧ g.icnt = c.grp.icnt

theorem stands_of_ctx {i : Instr} {c : Ctx} {s : State} (h : s.ctx? i = some c) : c.stands s :=
  ⟨c.grp, (ctx_group h).1, rfl⟩

theorem Ctx.stands.of_groups {c : Ctx} {s u : State} (h : c.stands s) (hg : u.groups = s.groups) : c.stands u := by
  unfold Ctx.stands
  rw [hg]
  exact h

theorem stands_noted {i j : Instr} {c : Ctx} {s : State} (h : s.ctx? i = some c) : c.stands (s.noted c j) :=
  (stands_of_ctx h).of_groups (noted_groups s c j)

/-- A change of a group that retires nothing leaves the issuing group standing. -/
theorem Ctx.stands.modGroup {c : Ctx} {s : State} (h : c.stands s) (n : Nat) (f : Group → Group) (hf : ∀ g, (f g).icnt = g.icnt) :
    c.stands (s.modGroup n f) := by
  obtain ⟨g, hg, hi⟩ := h
  by_cases hn : c.gid = n
  · exact ⟨f g, by simp [hn ▸ hg, hn], (hf g).trans hi⟩
  · exact ⟨g, by simp [Map.find?_modify_other _ _ _ _ hn, hg], hi⟩

theorem Ctx.stands.writeReg {c : Ctx} {s : State} (h : c.stands s) (d : Reg) (f : Nat → Word) : c.stands (writeReg c d f s) := by
  cases d with
  | v n => exact h.modGroup c.gid _ (fun _ => rfl)
  | s n => exact h.modGroup c.gid _ (fun _ => rfl)
  | h n => exact h.of_groups rfl
  | x n => exact h.modGroup c.gid _ (fun _ => rfl)
  | zero => exact h

theorem Ctx.stands.addPend {c : Ctx} {s : State} (h : c.stands s) (rs : List Nat) : c.stands (addPend c.gid rs s) :=
  h.modGroup c.gid _ (fun _ => rfl)

/-- An instruction that retires from where its group stands has taken effect. -/
theorem Ctx.stands.moved_retireTo {c : Ctx} {u : State} (h : c.stands u) (obs : Option Key) (pc : DWord) :
    c.moved (retireTo c 1 obs pc u) = true := by
  obtain ⟨g, hg, hi⟩ := h
  have hne : c.grp.icnt + BitVec.ofNat 64 1 ≠ c.grp.icnt := by
    intro e
    simp at e
  have hr : ∀ g : Group, (g.rouse c.grp.core c.grp.seq (some c.slot)).icnt = g.icnt := by
    intro g; unfold Group.rouse; split <;> rfl
  unfold Ctx.moved retireTo
  rw [issued_groups]
  simp [State.retireAt, State.modSplit, hg, hr, Group.count, hi, hne]

theorem Ctx.stands.moved_retire {c : Ctx} {u : State} (h : c.stands u) : c.moved (retire c u) = true := h.moved_retireTo _ _

/-- An instruction that issues clear and retires answers where it retires to. -/
theorem issueAs_retires {sync : Bool} {i : Instr} {c : Ctx} {s u : State} {obs : Option Key} {pc : DWord}
    {k : Ctx → State → State} (h : Clear sync i c s) (hk : k c (s.noted c i) = retireTo c 1 obs pc u) (hu : c.stands u) :
    issueAs sync i s k = .next (retireTo c 1 obs pc u) := by
  rw [issueAs_clear k h (by rw [hk]; exact hu.moved_retireTo obs pc), hk]

/-- A split that stands as the context saw it, or waits to be issued again, has not taken effect. -/
theorem moved_false {c : Ctx} {t : State}
    (h : ∀ g, t.groups.find? c.gid = some g → g.icnt = c.grp.icnt ∧
      ∀ sp, g.splits.find? c.slot = some sp → sp.wait = c.sp.wait ∨ sp.wait = .none ∨ sp.wait = .stalled) : c.moved t = false := by
  unfold Ctx.moved
  cases hg : t.groups.find? c.gid with
  | none => rfl
  | some g =>
    obtain ⟨hi, hw⟩ := h g hg
    cases hs : g.splits.find? c.slot with
    | none => simp [hi, hs]
    | some sp => rcases hw sp hs with hw | hw | hw <;> simp [hi, hs, hw]

/-- An instruction that has changed no group has not taken effect. -/
theorem moved_same {i : Instr} {c : Ctx} {s t : State} (h : s.ctx? i = some c) (hg : t.groups = s.groups) : c.moved t = false := by
  obtain ⟨hgrp, hsp, -⟩ := ctx_group h
  refine moved_false (fun g h1 => ?_)
  rw [hg, hgrp] at h1
  obtain rfl := Option.some.inj h1
  exact ⟨rfl, fun sp h2 => .inl (by rw [hsp] at h2; rw [← Option.some.inj h2])⟩

/-- An instruction that issues clear and does not take effect answers its own effect, and notes nothing. -/
theorem issueAs_still {sync : Bool} {i : Instr} {c : Ctx} {s : State} {k : Ctx → State → State} (h : Clear sync i c s)
    (hm : c.moved (k c (s.record c.team.cluster (hAccesses c.grp.team c.grp.ggid i))) = false) :
    issueAs sync i s k = .next (k c s) := by
  obtain ⟨hc, h1, h2, h3, h4, -, h5⟩ := h
  rw [issueAs_of_ctx k hc]
  cases hr : c.reckon with
  | false => rw [prelude_free k ⟨h1, h2, h3⟩ h4 hr]
  | true => rw [prelude_regs k ⟨h1, h2, h3⟩ h4 hr (h5 hr).1, withRegs_still k hm]

/-- An instruction whose effect in some case is to change nothing waits there at issue. -/
theorem diverts_stay {sync : Bool} {i : Instr} {p : Ctx → State → Prop} {k : Ctx → State → State}
    (he : ∀ s, exec i s = issueAs sync i s k) (hk : ∀ c s, p c s → k c s = s)
    (hp : ∀ c s as, p c s → p c (s.record c.team.cluster as)) : Diverts sync i p (fun _ s => s) := by
  intro c s hc h
  have hr := hk c _ (hp c s (hAccesses c.grp.team c.grp.ggid i) h)
  rw [he, issueAs_still hc (by rw [hr]; exact moved_same hc.1 rfl), hk c s h]

end Sys2Proof.Machine

namespace Sys2Proof.Machine

/-! ### What writes and acquires leave of the groups -/

/-- Steps that each leave the groups leave them together. -/
theorem foldl_groups {α : Type} {f : State → α → State} (h : ∀ s a, (f s a).groups = s.groups) (l : List α) (s : State) :
    (l.foldl f s).groups = s.groups := by
  induction l generalizing s with
  | nil => rfl
  | cons a l ih => exact (ih _).trans (h s a)

@[simp] theorem State.logByte_groups (s : State) (p : Place) : (s.logByte p).groups = s.groups := by
  unfold State.logByte; split <;> rfl

@[simp] theorem State.markWritten_groups (s : State) (pa : Nat) : (s.markWritten pa).groups = s.groups := by
  unfold State.markWritten; split <;> rfl

@[simp] theorem State.markStale_groups (s : State) (sp : Space) (lo hi : Nat) : (s.markStale sp lo hi).groups = s.groups := by
  unfold State.markStale; split <;> rfl

@[simp] theorem State.physStore_groups (s : State) (pa : Nat) (bs : List Byte) : (s.physStore pa bs).groups = s.groups :=
  (sameAgents_physStore s pa bs).groups

@[simp] theorem State.putByte_groups (s : State) (p : Place) (b : Byte) : (s.putByte p b).groups = s.groups := by
  obtain ⟨sp, a⟩ := p
  cases sp <;> simp [State.putByte]

@[simp] theorem State.putBytes_groups (s : State) (ps : List (Place × Byte)) : (s.putBytes ps).groups = s.groups :=
  foldl_groups (f := fun s (e : Place × Byte) => s.putByte e.1 e.2) (fun s e => State.putByte_groups s e.1 e.2) ps s

@[simp] theorem State.compass_groups (s : State) (core : Nat) (p : Place) : (s.compass core p).groups = s.groups := by
  obtain ⟨sp, a⟩ := p
  cases sp with
  | global => unfold State.compass; dsimp only; repeat' split
              all_goals rfl
  | spad c => rfl
  | wbuf c => rfl

@[simp] theorem State.endShadows_groups (s : State) (op : RedOp) (reckon : Bool) (pa n : Nat) :
    (s.endShadows op reckon pa n).groups = s.groups := by
  unfold State.endShadows; split <;> rfl

@[simp] theorem State.putShadow_groups (s : State) (pa : Nat) (sh : Shadow) : (s.putShadow pa sh).groups = s.groups := by
  unfold State.putShadow; split
  · exact State.physStore_groups _ _ _
  · rfl

@[simp] theorem State.countMgmt_groups (s : State) (k : Nat) : (s.countMgmt k).groups = s.groups := rfl

@[simp] theorem State.keyMarks_groups (s : State) (cl : Nat) (k : Key) : (s.keyMarks cl k).groups = s.groups := by
  unfold State.keyMarks; split <;> rfl

@[simp] theorem Ctx.marks_groups (c : Ctx) (s : State) : (c.marks s).groups = s.groups := by
  unfold Ctx.marks; split
  · exact State.keyMarks_groups _ _ _
  · rfl

theorem sameAgents_seeAll (s : State) (cores : List Nat) : SameAgents s (s.seeAll cores) := by
  unfold State.seeAll; split
  · exact SameAgents.refl s
  · exact ⟨rfl, rfl, rfl, rfl, rfl, rfl, rfl, rfl, rfl⟩

/-- An acquire changes only what a core sees. -/
theorem sameAgents_acquire (s : State) (core cl : Nat) (sc : Scope) : SameAgents s (s.acquire core cl sc) := by
  cases sc with
  | group => exact SameAgents.refl s
  | team => exact SameAgents.refl s
  | cluster =>
    unfold State.acquire
    dsimp only
    split
    · exact SameAgents.refl s
    · exact ⟨rfl, rfl, rfl, rfl, rfl, rfl, rfl, rfl, rfl⟩
  | package => exact sameAgents_seeAll s [core]
  | pod => exact sameAgents_seeAll s [core]

@[simp] theorem Ctx.acquire_groups (c : Ctx) (ord : Order) (s : State) : (c.acquire ord s).groups = s.groups := by
  cases ord with
  | plain => rfl
  | ordered sc => exact (sameAgents_acquire s _ _ sc).groups

@[simp] theorem atomLane_groups (op : AtomOp) (core : Nat) (a b : Word) (ps : List Place) (s : State) :
    (atomLane op core a b ps s).1.groups = s.groups := by
  unfold atomLane
  dsimp only
  split <;> simp

/-- The lanes of an ATOM leave the groups. -/
@[simp] theorem atomLanes_groups (c : Ctx) (op : AtomOp) (d : Reg) (places : Nat → List Place) (s : State) :
    (atomLanes c op d places s).1.groups = s.groups := by
  unfold atomLanes
  generalize ([] : Map Word) = m
  induction lanesIn c.act generalizing s m with
  | nil => rfl
  | cons l ls ih => rw [List.foldl_cons, ih]; exact atomLane_groups ..

@[simp] theorem redShadowLane_groups (op : RedOp) (reckon : Bool) (pa : Nat) (a : Word) (s : State) :
    (redShadowLane op reckon pa a s).groups = s.groups := by
  have hl : (((List.range (redSize op)).foldl (fun s k => s.logByte (.global, pa + k)) s).markWritten pa).groups = s.groups :=
    (State.markWritten_groups _ _).trans (foldl_groups (fun s k => State.logByte_groups s (.global, pa + k)) _ s)
  unfold redShadowLane
  dsimp only
  split
  · simpa using hl
  · split <;> simpa using hl

/-- A lane's RED leaves the groups. -/
@[simp] theorem redLane_groups (op : RedOp) (reckon : Bool) (core : Nat) (a : Word) (ps : List Place) (s : State) :
    (redLane op reckon core a ps s).groups = s.groups := by
  unfold redLane
  split
  · split <;> simp
  · dsimp only
    split <;> simp

@[simp] theorem redLanes_groups (c : Ctx) (op : RedOp) (d : Reg) (places : Nat → List Place) (s : State) :
    (redLanes c op d places s).groups = s.groups :=
  foldl_groups (fun s l => redLane_groups op c.reckon c.grp.core (c.rd d l) (places l) s) _ s

/-! ### Stores (R188, R219) -/

/-- An access leaves the issuing group standing. -/
theorem Ctx.stands.accessed {c : Ctx} {s : State} (h : c.stands s) (act : Word) (addr : Nat → DWord) (size : Nat) (need : Need)
    (k : AccessKind) : c.stands (accessed c s act addr size need k) :=
  h.of_groups (sameAgents_accessed c s act addr size need k).groups

/-- A store's entry in the FIFO, by the group it is of. -/
def storeEntry (bytes : List (Place × Byte)) (g : Group) : Group := { g with fifo := g.fifo ++ [{ bytes := bytes, key := g.key }] }

/-- An instruction that puts a store in its group's FIFO as it retires has completed. -/
theorem done_pushStore {c : Ctx} {s u : State} (hg : s.groups.find? c.gid = some c.grp)
    (ht : s.teams.find? c.grp.team = some c.team) (hsp : c.grp.splits.find? c.slot = some c.sp) (h : SameAgents s u)
    (bytes : List (Place × Byte)) :
    Done c 1 (c.sp.pc + 8) keepRegs keepMasks (storeEntry bytes) u (retire c (pushStore c.gid bytes u)) :=
  done_of_touched 1 _ (by rw [h.groups]; exact hg) (by rw [h.teams]; exact ht) hsp rfl
    (touched_group (storeEntry bytes) (fun _ => ⟨rfl, rfl⟩) (touched_agents h hg ht))

/-- Settles O11: with room the access goes through and the entry is pushed; without, the effect is the state itself. -/
theorem storesEnterTheFifo : Obligations.StoresEnterTheFifo := by
  unfold Obligations.StoresEnterTheFifo
  refine ⟨fun sz ord d base idx off g c s hc => ?_, fun sz ord d base idx off g c s hc hfull => ?_⟩
  · dsimp only
    intro hroom hok
    obtain ⟨hg, hsp, ht, -, -⟩ := ctx_group hc.1
    have hagents := sameAgents_accessed c (s.noted c (.st sz ord d base idx off g)) c.act (c.addrAt base idx off) (stBytes sz)
      .write .write
    have hdone := done_pushStore (c := c) (by simpa using hg) (by simpa using ht) hsp hagents
      (storeBytes c (accessed c (s.noted c (.st sz ord d base idx off g)) c.act (c.addrAt base idx off) (stBytes sz) .write .write)
        (c.addrAt base idx off) sz d)
    refine ⟨_, ?_, hdone⟩
    show execSt sz ord d base idx off g s = _
    unfold execSt issue
    refine issueAs_retires hc ?_ ((stands_noted hc.1).accessed ..|>.modGroup _ _ (fun _ => rfl))
    simp only [fifoRoom, hroom, decide_true, if_true]
    exact access_ok _ hok
  · refine diverts_stay (sync := false) (p := fun c _ => 16 ≤ c.grp.fifo.length) (fun _ => rfl) ?_ (fun _ _ _ h => h) c s hc hfull
    intro c s hfull
    have : fifoRoom c.grp = false := by simpa [fifoRoom] using hfull
    simp [this]

/-! ### ATOM, RED and FENCE (R200, R207, R220 to R222) -/

/-- The reductions of Reckoning mode are not refused there (R50, R221). -/
theorem redRefused_false {op : RedOp} (h : op = .addI32 ∨ op = .addN8e4 ∨ op = .addN8e5) : redRefused op = false := by
  rcases h with rfl | rfl | rfl <;> rfl

/-- An acquire that retires has completed. -/
theorem done_acquire {c : Ctx} {s : State} (hg : s.groups.find? c.gid = some c.grp)
    (ht : s.teams.find? c.grp.team = some c.team) (hsp : c.grp.splits.find? c.slot = some c.sp) (core cl : Nat) (sc : Scope) :
    Done c 1 (c.sp.pc + 8) keepRegs keepMasks keepRest (s.acquire core cl sc) (retire c (s.acquire core cl sc)) := by
  have h := sameAgents_acquire s core cl sc
  exact done_of_touched 1 _ (by rw [h.groups]; exact hg) (by rw [h.teams]; exact ht) hsp rfl (touched_agents h hg ht)

/-- An ATOM whose FIFO is empty and whose access is in order. -/
theorem execAtom_completes {op : AtomOp} {ord : Order} {d base idx : Reg} {off : BitVec 16} {g : Guard} {c : Ctx} {s : State}
    (hc : Clear true (.atom op ord d base idx off g) c s) (hf : c.grp.fifo = [])
    (hok : AccessOk c (s.noted c (.atom op ord d base idx off g)) c.act (c.addrAt base idx off) 4 .atomic .atom true false true) :
    let u := accessed c (s.noted c (.atom op ord d base idx off g)) c.act (c.addrAt base idx off) 4 .atomic .atom
    let r := atomLanes c op d (lanePlaces c u (c.addrAt base idx off) 4 .atomic) (c.acquire ord u)
    exec (.atom op ord d base idx off g) s =
      .next (retire c (addPend c.gid (regCodes (d, 1)) (writeReg c d (fun l => r.2.getD l 0) (c.marks r.1)))) := by
  intro u r
  have hu : c.stands u := (stands_noted hc.1).accessed ..
  show issueAs true _ s _ = _
  refine issueAs_retires hc ?_ (((hu.of_groups (u := c.marks r.1) (by simp [r])).writeReg d _).addPend _)
  simp only [hf, List.isEmpty_nil, if_true]
  exact access_ok _ hok

/-- A RED that Reckoning mode does not refuse, whose FIFO is empty, whose access is in order and which finds room. -/
theorem execRed_completes {op : RedOp} {ord : Order} {d base idx : Reg} {off : BitVec 16} {g : Guard} {c : Ctx} {s : State}
    (hc : Clear false (.red op ord d base idx off g) c s) (hf : c.grp.fifo = [])
    (hop : c.reckon = true → op = .addI32 ∨ op = .addN8e4 ∨ op = .addN8e5)
    (hok : AccessOk c (s.noted c (.red op ord d base idx off g)) c.act (c.addrAt base idx off) (redSize op) .atomic
      (.red (redFn op)) true (redShadowed op) true) :
    let s' := s.noted c (.red op ord d base idx off g)
    let u := accessed c s' c.act (c.addrAt base idx off) (redSize op) .atomic (.red (redFn op))
    let places := lanePlaces c s' (c.addrAt base idx off) (redSize op) .atomic
    (c.reckon = true → redNoRoom c u op places = []) →
    exec (.red op ord d base idx off g) s = .next (retire c (c.marks (redLanes c op d places u))) := by
  intro s' u places hroom
  have hu : c.stands u := (stands_noted hc.1).accessed ..
  have hnot : (c.reckon && redRefused op) = false := by
    cases hr : c.reckon with
    | false => rfl
    | true => simp [redRefused_false (hop hr)]
  have hnil : (if (c.reckon && redShadowed op) = true then redNoRoom c u op places else []) = [] := by
    split
    · rename_i h
      exact hroom (by simp only [Bool.and_eq_true] at h; exact h.1)
    · rfl
  show issueAs false _ s _ = _
  refine issueAs_retires hc ?_ (hu.of_groups (by simp))
  simp only [hnot, hf, List.isEmpty_nil, if_true, Bool.false_eq_true, if_false]
  rw [access_ok _ hok]
  show (match (if (c.reckon && redShadowed op) = true then redNoRoom c u op places else []) with
    | l :: ls => _
    | [] => _) = _
  rw [hnil]
  rfl

/-- Settles O13. -/
theorem atomicsComplete : Obligations.AtomicsComplete := by
  unfold Obligations.AtomicsComplete
  refine ⟨fun op ord d base idx off g c s hc hf hok => execAtom_completes hc hf hok,
    fun op ord d base idx off g c s hc hf hop hok hroom => execRed_completes hc hf hop hok hroom,
    fun sc g c s hc hf => ?_⟩
  obtain ⟨hg, hsp, ht, -, -⟩ := ctx_group hc.1
  have hdone := done_acquire (c := c) (s := s.noted c (.fence sc g)) (by simpa using hg) (by simpa using ht) hsp c.grp.core
    c.team.cluster sc
  refine ⟨_, ?_, hdone⟩
  show issueAs false _ s _ = _
  refine issueAs_retires hc ?_ ((stands_noted hc.1).of_groups (sameAgents_acquire _ _ _ _).groups)
  simp only [hf, List.isEmpty_nil, if_true]
  rfl

end Sys2Proof.Machine

namespace Sys2Proof.Machine

/-! ### Helm's registers (R430, R431, R458) -/

/-- A partition after one partition is changed. -/
theorem part_modPart (s : State) (n p : Nat) (f : Part → Part) :
    (s.modPart n f).part p = if p = n then f (s.part n) else s.part p := Map.getD_put _ _ _ _ _

/-- A die's requested k after a k is asked for. -/
theorem kWant_ask (s : State) (die v d : Nat) :
    (s.modHelm (fun h => { h with want := h.want.put 0 die v })).kWant d = if d = die then v else s.kWant d :=
  Map.getD_put _ _ _ _ _

/-- What is found of a table whose entries were filtered by value, where the first entry of that number stays. -/
theorem Map.find?_filter_value {α : Type} (m : Map α) (q : α → Bool) (k : Nat) (h : ∀ a, m.find? k = some a → q a = true) :
    Map.find? (List.filter (fun e => q e.2) m) k = m.find? k := by
  induction m with
  | nil => rfl
  | cons e m ih =>
    obtain ⟨j, b⟩ := e
    by_cases hk : k = j
    · have hb : q b = true := h b (by simp [Map.find?, hk])
      simp [Map.find?, hb, hk]
    · have hm := ih (fun a ha => h a (by simpa [Map.find?, hk] using ha))
      cases hb : q b <;> simp [Map.find?, hb, hk, hm]

/-- A value that a filter drops is found no more. -/
theorem Map.find?_filter_dropped {α : Type} (m : Map α) (q : α → Bool) (k : Nat) (a : α) (ha : q a = false) :
    Map.find? (List.filter (fun e => q e.2) m) k ≠ some a := by
  induction m with
  | nil => simp [Map.find?]
  | cons e m ih =>
    obtain ⟨j, b⟩ := e
    cases hb : q b with
    | false => simpa [hb] using ih
    | true =>
      by_cases hk : k = j
      · have : b ≠ a := fun h => by rw [h, ha] at hb; cases hb
        simpa [Map.find?, hb, hk] using this
      · simpa [Map.find?, hb, hk] using ih

/-- A host port of a package that is ready reaches the windows. -/
theorem open_of_ready {s : State} {port : Nat} (hr : s.pkg.ready = true) (hp : port < 2) : s.open port = true := by
  simp [State.open, hr, hp]

/-- A guarded write by the semaphore's owner. -/
theorem guarded_owner {s : State} {port sem : Nat} (f : State → State) (hr : s.pkg.ready = true) (hp : port < 2)
    (ho : s.helm.sems.find? sem = some port) : s.guarded port sem f = f s := by
  simp [State.guarded, hr, hp, ho]

/-- A guarded write by any other port. -/
theorem guarded_other {s : State} {port sem : Nat} (f : State → State) (hr : s.pkg.ready = true) (hp : port < 2)
    (ho : s.helm.sems.find? sem ≠ some port) :
    s.guarded port sem f = s.modHelm (fun h => { h with semViol := h.semViol.set port true }) := by
  simp [State.guarded, hr, hp, ho]

/-- What PARTK leaves as the k asked for of each die, and that no k in force changes (R430). -/
theorem execPartk_owner {s : State} {port : Nat} (val : DWord) (hr : s.pkg.ready = true) (hp : port < 2)
    (ho : s.helm.sems.find? 0 = some port) :
    ∃ t, exec (.partk port val) s = .next t ∧
      t.kWant 0 = (if bits val.toNat 0 4 ≤ 8 then bits val.toNat 0 4 else s.kWant 0) ∧
      t.kWant 1 = (if bits val.toNat 8 4 ≤ 8 then bits val.toNat 8 4 else s.kWant 1) ∧ t.helm.k = s.helm.k := by
  refine ⟨_, rfl, ?_⟩
  rw [guarded_owner _ hr hp ho]
  dsimp only
  by_cases h0 : bits val.toNat 0 4 ≤ 8 <;> by_cases h1 : bits val.toNat 8 4 ≤ 8 <;>
    simp [h0, h1, Nat.not_lt.mpr, Nat.lt_of_not_le, kWant_ask, State.modHelm_helm]

/-- PHALT asks each partition what its bits say (R458). -/
theorem execPhalt_owner {s : State} {port : Nat} (val : DWord) (hr : s.pkg.ready = true) (hp : port < 2)
    (ho : s.helm.sems.find? 0 = some port) :
    ∃ t, exec (.phalt port val) s = .next t ∧ ∀ p, p < 4 →
      t.part p = (s.part p).ask (bit val.toNat p) (bit val.toNat (8 + p)) (bits val.toNat 16 6) := by
  refine ⟨_, rfl, fun p hlt => ?_⟩
  rw [guarded_owner _ hr hp ho]
  have hq : ∀ p, (s.modHelm (fun h => { h with partQ := bits val.toNat 16 6 })).part p = s.part p := fun _ => rfl
  simp only [show List.range 4 = [0, 1, 2, 3] from rfl, List.foldl_cons, List.foldl_nil, part_modPart, hq]
  interval_cases p <;> simp

/-- A partition takes a halt or a resume at once unless one is in progress (R458). -/
theorem ask_cases (p : Part) (swap : Bool) (q : Nat) :
    (p.halt = .run → p.ask true swap q = { p with halt := .halting, swapOut := swap, partQ := q } ∧ p.ask false swap q = p) ∧
    (p.halt = .shadow → p.resuming = false → p.swapOut = false →
      p.ask false swap q = { p with resuming := true, partQ := q } ∧ p.ask true swap q = p) ∧
    ∀ h, (p.halt = .halting ∨ p.halt = .halted) → p.ask h swap q = { p with next := p.next ++ [(h, swap, q)] } := by
  refine ⟨fun h => ?_, fun h hr hs => ?_, fun a h => ?_⟩
  · simp [Part.ask, Part.busy, Part.start, h]
  · simp [Part.ask, Part.busy, Part.start, h, hr, hs]
  · rcases h with h | h <;> simp [Part.ask, Part.busy, h]

/-- A semaphore's reads and writes by a port (R431). -/
theorem semaphore_accesses {s : State} {port n : Nat} (hr : s.pkg.ready = true) (hp : port < 2) (hn : n < 16) :
    (s.helm.sems.find? n = none → exec (.semaphoreRead port n false) s =
      .next (s.modHelm (fun h => { h with sems := h.sems.set n port }))) ∧
    (s.helm.sems.find? n = none → exec (.semaphoreRead port n true) s =
      .next (s.modHelm (fun h => { h with sems := h.sems.set n (h.tie.getD n 0), tie := h.tie.put 0 n (1 - h.tie.getD n 0) }))) ∧
    (∀ o tie, s.helm.sems.find? n = some o → exec (.semaphoreRead port n tie) s = .next s) ∧
    (s.helm.sems.find? n = some port → exec (.semaphoreWrite port n 0) s =
      .next (s.modHelm (fun h => { h with sems := h.sems.erase n }))) ∧
    (∀ val, s.helm.sems.find? n ≠ some port ∨ val ≠ 0 → exec (.semaphoreWrite port n val) s = .next s) := by
  have ho := open_of_ready hr hp
  have hn' : ¬ 16 ≤ n := by omega
  refine ⟨fun h => ?_, fun h => ?_, fun o tie h => ?_, fun h => ?_, fun val h => ?_⟩
  · show execSemaphoreRead port n false s = _
    simp [execSemaphoreRead, ho, hn', h]
  · show execSemaphoreRead port n true s = _
    simp [execSemaphoreRead, ho, hn', h, State.modHelm]
  · show execSemaphoreRead port n tie s = _
    simp [execSemaphoreRead, h]
  · show execSemaphoreWrite port n 0 s = _
    simp [execSemaphoreWrite, ho, h]
  · show Host.Outcome.next (if _ then _ else _) = _
    rw [if_neg]
    rintro ⟨-, hv, hf⟩
    exact h.elim (fun h => h hf) (fun h => h hv)

/-- K_CHANGE_APPLY puts the k asked for in force where nothing stands in its way (R14, R461). -/
theorem execKChangeApply_free {s : State} {die : Nat} (hd : die < 2) (hk : s.k die ≠ s.kWant die)
    (h0 : (s.part (2 * die)).halt = .run) (h1 : (s.part (2 * die + 1)).halt = .run)
    (hc : ((List.range 48).map (fun c => die * 48 + c)).any (fun c =>
      s.moving c && (!(s.groupsOn c).isEmpty || !(s.core c).dispatchQ.isEmpty)) = false) :
    exec (.kChangeApply die) s = .next (s.modHelm (fun h => { h with k := h.k.put 0 die (s.kWant die) })) := by
  show Host.Outcome.next (if _ then _ else _) = _
  rw [if_neg]
  rintro (h | h | h | h | h)
  · omega
  · exact hk h
  · exact h h0
  · exact h h1
  · rw [hc] at h; cases h

/-- And changes nothing where a halt or a column that is not empty does. -/
theorem execKChangeApply_held {s : State} {die : Nat} (h : (s.part (2 * die)).halt ≠ .run ∨ (s.part (2 * die + 1)).halt ≠ .run ∨
    ((List.range 48).map (fun c => die * 48 + c)).any (fun c =>
      s.moving c && (!(s.groupsOn c).isEmpty || !(s.core c).dispatchQ.isEmpty)) = true) :
    exec (.kChangeApply die) s = .next s := by
  show Host.Outcome.next (if _ then _ else _) = _
  rw [if_pos (.inr (.inr h))]

/-- A link that goes down takes its port's semaphores, and no other's (R431). -/
theorem execHostLinkDown_sems (port : Nat) (s : State) : ∃ t, exec (.hostLinkDown port) s = .next t ∧
    ∀ n, t.helm.sems.find? n ≠ some port ∧ (Map.sorted s.helm.sems = true → s.helm.sems.find? n ≠ some port →
      t.helm.sems.find? n = s.helm.sems.find? n) := by
  refine ⟨_, rfl, fun n => ⟨?_, fun _ hn => ?_⟩⟩
  · exact Map.find?_filter_dropped s.helm.sems (fun o => decide (o ≠ port)) n port (by simp)
  · refine Map.find?_filter_value s.helm.sems (fun o => decide (o ≠ port)) n (fun a ha => ?_)
    simpa using fun h : a = port => hn (h ▸ ha)

/-- Settles O41: the doorbells' rules one by one, and the stages of a halt. -/
theorem hostDoorbells : Obligations.HostDoorbells := by
  unfold Obligations.HostDoorbells
  refine ⟨fun port q val s hr hp hq => ?_, fun port n s hr hp hn => semaphore_accesses hr hp hn, execHostLinkDown_sems,
    fun port s val hr hp ho => execPartk_owner val hr hp ho, fun port s val hr hp ho => ?_,
    fun die s hd hk h0 h1 hc => execKChangeApply_free hd hk h0 h1 hc, fun die s h => execKChangeApply_held h,
    fun port val s hr hp ho => execPhalt_owner val hr hp ho, ask_cases, fun p s hp hh => ⟨fun hc => ?_, fun hc hq => ?_⟩,
    fun p s u v hp hh hu hv => ?_, fun p s tids hp ht hh hs htids hq => ?_, fun p s u v hp hh hr ht hu hv => ?_⟩
  · have ho := open_of_ready hr hp
    exact ⟨congrArg Host.Outcome.next (if_pos ⟨ho, hq⟩), congrArg Host.Outcome.next (if_pos ⟨ho, hq⟩)⟩
  · exact ⟨congrArg Host.Outcome.next (guarded_other _ hr hp ho), congrArg Host.Outcome.next (guarded_other _ hr hp ho)⟩
  · exact congrArg Host.Outcome.next ((if_neg (by simp [hh]; omega)).trans (if_pos hc))
  · exact congrArg Host.Outcome.next (((if_neg (by simp [hh]; omega)).trans (if_neg (by simp [hc]))).trans (if_pos hq))
  · subst hu hv
    exact congrArg Host.Outcome.next (if_neg (by simp [hh]; omega))
  · subst htids
    exact congrArg Host.Outcome.next (if_neg (by simp [hh, hs, ht, hq]; omega))
  · subst hu hv
    exact congrArg Host.Outcome.next (if_neg (by simp [hh, hr, ht]; omega))

end Sys2Proof.Machine

namespace Sys2Proof.Machine

/-! ### Steps of requests (R442 to R450) -/

/-- BATCH_FORM of a partition that may form one (R445, R446). -/
theorem execBatchForm_free {s : State} {p : Nat} (hr : s.pkg.ready = true) (hp : p < 4) (he : s.partExists p = true)
    (hh : (s.part p).halt = .run) (hrun : (s.part p).running = none) (hk : s.k (p / 2) = s.kWant (p / 2)) :
    exec (.batchForm p) s = .next (match (s.relieve p).batchOf ((s.relieve p).ranking p) with
      | none => s.relieve p
      | some (m, b) => if b.seqs.isEmpty then s.relieve p
        else ((s.relieve p).modPart p (fun x => { x with skip := [] })).launchBatch p m b) := by
  refine congrArg Host.Outcome.next ((if_neg ?_).trans rfl)
  simp [hr, he, hh, hrun, hk]
  omega

/-- A partition that runs a step forms no batch. -/
theorem execBatchForm_running {s : State} {p : Nat} (h : (s.part p).running.isSome = true) : exec (.batchForm p) s = .next s :=
  congrArg Host.Outcome.next (if_pos (by simp [h]))

/-- The order of requests: by effective priority, then by the rank of their states, then by ADMSEQ (R446). -/
theorem before_cases (s : State) (a b : Request) :
    (s.effPrio b < s.effPrio a → s.before a b = true ∧ s.before b a = false) ∧
    (s.effPrio b = s.effPrio a → a.st.rank < b.st.rank → s.before a b = true ∧ s.before b a = false) ∧
    (s.effPrio b = s.effPrio a → a.st.rank = b.st.rank → a.admseq < b.admseq → s.before a b = true ∧ s.before b a = false) := by
  unfold State.before
  refine ⟨fun h => ?_, fun h hr => ?_, fun h hr ha => ?_⟩
  · have h1 : ¬ s.effPrio a < s.effPrio b := by omega
    have h2 : ¬ s.effPrio b = s.effPrio a := by omega
    simp [h, h1, h2]
  · have h1 : ¬ b.st.rank < a.st.rank := by omega
    have h2 : ¬ b.st.rank = a.st.rank := by omega
    simp [h, hr, h1, h2]
  · simp [h, hr, ha, Nat.le_of_lt ha]

/-- Effective priority rises with age in the model's quanta, to 15 (R446). -/
theorem effPrio_aged {s : State} {r : Request} {m : Model} (hm : s.model? r.model = some m) (hq : m.ageQ ≠ 0) :
    s.effPrio r = min 15 (r.prio + r.age / m.ageQ) := by
  simp [State.effPrio, hm, hq]

/-- A request that fails keeps its first code (R443). -/
theorem mark_status (r : Request) (code : Word) :
    (r.status ≠ 0 → r.mark code = r) ∧ (r.status = 0 → (r.mark code).status = code) := by
  unfold Request.mark
  exact ⟨fun h => if_neg h, fun h => by rw [if_pos h]⟩

/-- SWAPPED_RETURN of a request that may return: DECODE with its pages resident, else their fetch (R447). -/
theorem execSwappedReturn_due {s : State} {h : Nat} {r : Request} {m : Model} (hr : s.requests.find? h = some r)
    (hm : s.model? r.model = some m) (hs : r.st = .swapped) (hc : r.cancel = false)
    (hd : r.returning = true ∨
      2 * (s.pool (h / 16384) (m.poolOn (h / 16384))).low ≤ (s.pool (h / 16384) (m.poolOn (h / 16384))).free) :
    exec (.swappedReturn h) s = .next
      (if r.pages.all (fun n => (s.pages.find? n).any (fun q => decide (q.st = .resident))) then
        s.modReq h (fun r => { r with st := .decode, returning := false })
      else (s.modReq h (fun r => { r with returning := true })).fetchAll r.pages) := by
  show execSwappedReturn h s = _
  simp only [execSwappedReturn, hr, hm, hs, hc]
  rw [if_neg (by simp), if_pos hd]

/-- BLOCK_HAND_OVER of a request that nothing holds, with a decode partition to go to (R450). -/
theorem execBlockHandOver_free {s : State} {h d : Nat} {r : Request} (hr : s.requests.find? h = some r) (hs : r.st = .handoff)
    (hc : r.cancel = false) (hn : s.chartNames h = false)
    (hp : r.pages.any (fun n => (s.pages.find? n).any (fun q => decide (0 < q.pins))) = false) (hd : s.decodeTarget = some d) :
    exec (.blockHandOver h) s = .next (
      if d = h / 16384 then
        s.modReq h (fun _ => { r with st := .decode, placed := true, decodePart := true, placeDie := d })
      else
        match s.freeRecord d with
        | none => s
        | some h' => s.moveRecord h { r with st := .decode, placed := true, decodePart := true, placeDie := d } h') := by
  show execBlockHandOver h s = _
  simp only [execBlockHandOver, hr, hs, hc, hn, hp, hd]
  exact congrArg Host.Outcome.next (if_neg (by simp))

/-- BLOCK_HAND_OVER waits while a Chart command names the request or one of its pages is pinned. -/
theorem execBlockHandOver_held {s : State} {h : Nat} {r : Request} (hr : s.requests.find? h = some r)
    (hw : s.chartNames h = true ∨ r.pages.any (fun n => (s.pages.find? n).any (fun q => decide (0 < q.pins))) = true) :
    exec (.blockHandOver h) s = .next s := by
  show execBlockHandOver h s = _
  simp only [execBlockHandOver, hr]
  rw [if_pos (.inr (.inr hw))]

/-- Settles O43. -/
theorem stepsOfRequests : Obligations.StepsOfRequests := by
  unfold Obligations.StepsOfRequests
  refine ⟨fun p s hr hp he hh hrun hk => ?_, fun p s h => execBatchForm_running h, before_cases,
    fun s r m hm hq => effPrio_aged hm hq, mark_status, fun h r m s hr hm hs hc hd => ?_, fun h r d s hr hs hc hn hp hd => ?_,
    fun h r s hr hw => execBlockHandOver_held hr hw⟩
  · rw [execBatchForm_free hr hp he hh hrun hk]
    refine ⟨fun hb => by rw [hb], fun m b hb hne => ?_, fun m b hb hnil => ?_⟩
    · rw [hb]
      simp [hne]
    · rw [hb]
      simp [hnil]
  · rw [execSwappedReturn_due hr hm hs hc hd]
    exact ⟨fun ha => by rw [if_pos ha], fun ha => by rw [if_neg (by simp [ha])]⟩
  · rw [execBlockHandOver_free hr hs hc hn hp hd]
    exact ⟨fun hd' => by rw [if_pos hd'], fun h' hd' hf => by rw [if_neg hd', hf]⟩

end Sys2Proof.Machine

namespace Sys2Proof.Machine

/-! ### Engine commands: what their acceptance changes (R22, R30, R212, R292) -/

/-- From `s` to `t` no tag has changed. -/
structure SameTags (s t : State) : Prop where
  eq : ∀ k, (t.core k).tags = (s.core k).tags

theorem SameTags.refl (s : State) : SameTags s s := ⟨fun _ => rfl⟩

theorem SameTags.trans {s t u : State} (h : SameTags s t) (k : SameTags t u) : SameTags s u :=
  ⟨fun n => (k.eq n).trans (h.eq n)⟩

theorem SameTags.foldl {α : Type} {f : State → α → State} (h : ∀ s a, SameTags s (f s a)) (l : List α) (s : State) :
    SameTags s (l.foldl f s) := by
  induction l generalizing s with
  | nil => exact SameTags.refl s
  | cons a l ih => exact (h s a).trans (ih _)

theorem sameTags_of_cores {s t : State} (h : t.cores = s.cores) : SameTags s t :=
  ⟨fun k => by unfold State.core; rw [h]⟩

theorem SameTags.tag {s t : State} (h : SameTags s t) (core n : Nat) : t.tag core n = s.tag core n := by
  unfold State.tag
  rw [h.eq]

/-- A change of every core that keeps its number and its tags. -/
theorem sameTags_map {s t : State} (f : Nat × Core → Nat × Core) (ht : t.cores = s.cores.map f)
    (hf : ∀ e, (f e).1 = e.1 ∧ (f e).2.tags = e.2.tags) : SameTags s t := by
  refine ⟨fun k => ?_⟩
  have hm : s.cores.map f = s.cores.map (fun e => (e.1, (f (e.1, e.2)).2)) :=
    List.map_congr_left (fun e _ => Prod.ext (hf e).1 rfl)
  unfold State.core
  rw [ht, hm]
  exact find?_getD_map s.cores (fun k x => (f (k, x)).2) k Core.reset (fun c => c.tags) (fun k a => (hf (k, a)).2)

/-- A further change that leaves the cores. -/
theorem SameTags.andCores {s t u : State} (h : SameTags s t) (hu : u.cores = t.cores) : SameTags s u :=
  h.trans (sameTags_of_cores hu)

/-- A further change of one core that leaves its tags. -/
theorem SameTags.modCore {s t : State} (h : SameTags s t) (core : Nat) (f : Core → Core) (hf : ∀ k, (f k).tags = k.tags) :
    SameTags s (t.modCore core f) := by
  refine ⟨fun k => ?_⟩
  rw [core_modCore, ← h.eq k]
  split
  · rename_i hk; rw [hf, hk]
  · rfl

/-- From `s` to `t` only cores have changed, and none of their tags. -/
structure KeepsTags (s t : State) : Prop where
  others : { t with cores := s.cores } = s
  tags : SameTags s t

theorem KeepsTags.refl (s : State) : KeepsTags s s := ⟨rfl, SameTags.refl s⟩

theorem KeepsTags.trans {s t u : State} (h : KeepsTags s t) (k : KeepsTags t u) : KeepsTags s u :=
  ⟨by rw [← h.others, ← k.others], h.tags.trans k.tags⟩

theorem KeepsTags.foldl {α : Type} {f : State → α → State} (h : ∀ s a, KeepsTags s (f s a)) (l : List α) (s : State) :
    KeepsTags s (l.foldl f s) := by
  induction l generalizing s with
  | nil => exact KeepsTags.refl s
  | cons a l ih => exact (h s a).trans (ih _)

theorem KeepsTags.groups {s t : State} (h : KeepsTags s t) : t.groups = s.groups := by
  have := congrArg State.groups h.others; exact this
theorem KeepsTags.teams {s t : State} (h : KeepsTags s t) : t.teams = s.teams := by
  have := congrArg State.teams h.others; exact this
theorem KeepsTags.uid {s t : State} (h : KeepsTags s t) : t.uid = s.uid := by
  have := congrArg State.uid h.others; exact this
theorem KeepsTags.cmds {s t : State} (h : KeepsTags s t) : t.cmds = s.cmds := by
  have := congrArg State.cmds h.others; exact this

/-- A line recalled from the atomic line buffers leaves the tags. -/
theorem keepsTags_recall (s : State) (keep : Option Nat) (line : Nat) : KeepsTags s (s.recall keep line) := by
  unfold State.recall
  split
  · refine ⟨rfl, sameTags_map _ rfl (fun e => ?_)⟩
    split <;> exact ⟨rfl, rfl⟩
  · exact KeepsTags.refl s

/-- The lines that an engine takes ownership of leave the atomic line buffers. -/
theorem keepsTags_recallOwned (q : Nat → Bool) (s : State) :
    KeepsTags s (s.cores.foldl (fun s e => e.2.alb.foldl (fun s line => if q line then s.recall none line else s) s) s) := by
  refine KeepsTags.foldl (fun s e => KeepsTags.foldl (fun s line => ?_) _ s) _ s
  split
  · exact keepsTags_recall s none line
  · exact KeepsTags.refl s

theorem tag_putTag (s : State) (core t : Nat) (v : Tag) : (s.putTag core t v).tag core t = v := by
  unfold State.tag State.putTag
  rw [core_modCore, if_pos rfl]
  simp [Map.getD_put]

/-- The command that acceptance puts in flight. -/
def newCmd (s : State) (c : Ctx) (tag bar : Option Nat) (view : List MemberView) (owned : List (Space × Nat × Nat))
    (work : Work) : Cmd :=
  { core := c.grp.core, grp := c.gid, team := c.grp.team, cluster := c.team.cluster, grid := c.team.grid,
    asid := c.grid.asid, ggid := c.grp.ggid, reckon := c.reckon, key := c.grp.key, keyed := true, tag := tag, bar := bar,
    view := view, act := c.act, owned := owned, recalled := [], grant := s.uid + 1, regions := [], mark := s.undo.length,
    uncounted := [], work := work }

/-- What acceptance of a command does, but for the atomic line buffers. -/
theorem keepsTags_accept (s : State) (c : Ctx) (tag bar : Option Nat) (view : List MemberView)
    (owned : List (Space × Nat × Nat)) (work : Work) :
    KeepsTags (match tag with
      | some t => { s with uid := s.uid + 1, cmds := s.cmds.set (s.uid + 1) (newCmd s c tag bar view owned work) }.putTag c.grp.core t
          { st := .pending, status := 2, cmd := s.uid + 1, team := c.grp.team, key := c.grp.key }
      | none => { s with uid := s.uid + 1, cmds := s.cmds.set (s.uid + 1) (newCmd s c tag bar view owned work) })
      (s.accept c tag bar view owned work) := by
  cases tag <;> exact keepsTags_recallOwned (fun line => (newCmd s c _ bar view owned work).owns (.global, line)) _

theorem accept_uid (s : State) (c : Ctx) (tag bar : Option Nat) (view : List MemberView) (owned : List (Space × Nat × Nat))
    (work : Work) : (s.accept c tag bar view owned work).uid = s.uid + 1 := by
  rw [(keepsTags_accept s c tag bar view owned work).uid]; cases tag <;> rfl

theorem accept_cmds (s : State) (c : Ctx) (tag bar : Option Nat) (view : List MemberView) (owned : List (Space × Nat × Nat))
    (work : Work) : (s.accept c tag bar view owned work).cmds = s.cmds.set (s.uid + 1) (newCmd s c tag bar view owned work) := by
  rw [(keepsTags_accept s c tag bar view owned work).cmds]; cases tag <;> rfl

theorem accept_groups (s : State) (c : Ctx) (tag bar : Option Nat) (view : List MemberView) (owned : List (Space × Nat × Nat))
    (work : Work) : (s.accept c tag bar view owned work).groups = s.groups := by
  rw [(keepsTags_accept s c tag bar view owned work).groups]; cases tag <;> rfl

theorem accept_teams (s : State) (c : Ctx) (tag bar : Option Nat) (view : List MemberView) (owned : List (Space × Nat × Nat))
    (work : Work) : (s.accept c tag bar view owned work).teams = s.teams := by
  rw [(keepsTags_accept s c tag bar view owned work).teams]; cases tag <;> rfl

theorem accept_tag (s : State) (c : Ctx) (t : Nat) (bar : Option Nat) (view : List MemberView) (owned : List (Space × Nat × Nat))
    (work : Work) : (s.accept c (some t) bar view owned work).tag c.grp.core t =
      { st := .pending, status := 2, cmd := s.uid + 1, team := c.grp.team, key := c.grp.key } := by
  rw [(keepsTags_accept s c (some t) bar view owned work).tags.tag]
  exact tag_putTag ..

/-! ### Engine accesses (R212, R213) -/

/-- A group but for the traps it owes. -/
def Group.unowing (g : Group) : Group := { g with owed := [] }

/-- From `s` to `t` a race check of an engine has been made: groups may owe a trap, and metadata is recorded; the rest that a
command works with is as it was. -/
structure Checked (s t : State) : Prop where
  groups : ∀ k, (t.groups.find? k).map Group.unowing = (s.groups.find? k).map Group.unowing
  teams : t.teams = s.teams
  uid : t.uid = s.uid
  cmds : t.cmds = s.cmds
  cores : t.cores = s.cores

theorem Checked.refl (s : State) : Checked s s := ⟨fun _ => rfl, rfl, rfl, rfl, rfl⟩

theorem Checked.record {s t : State} (h : Checked s t) (cl : Nat) (as : List Access) : Checked s (t.record cl as) :=
  ⟨h.groups, h.teams, h.uid, h.cmds, h.cores⟩

theorem checked_owe (s : State) (id : Nat) (cmd : Cmd) (sub : Nat) (addr : DWord) (other : Word) (status : Nat) :
    Checked s (s.owe id cmd sub addr other status) := by
  refine ⟨fun k => ?_, rfl, rfl, rfl, rfl⟩
  by_cases hk : k = cmd.grp
  · subst hk
    simp only [State.owe, State.modGroup_groups, Map.find?_modify_self, Option.map_map]
    rfl
  · simp [State.owe, Map.find?_modify_other _ _ _ _ hk]

theorem checked_engineAccess (s : State) (id : Nat) (cmd : Cmd) (k : AccessKind) (ps : List (Place × DWord)) :
    Checked s (s.engineAccess id cmd k ps) := by
  unfold State.engineAccess
  split
  · split
    · exact Checked.refl s
    · dsimp only
      refine Checked.record ?_ _ _
      split
      · exact checked_owe ..
      · split
        · exact checked_owe ..
        · exact Checked.refl s
  · exact Checked.refl s

theorem checked_sourceAccess (s : State) (id : Nat) (ps : List (Place × DWord)) : Checked s (s.sourceAccess id ps) := by
  unfold State.sourceAccess
  split
  · exact checked_engineAccess ..
  · exact Checked.refl s

/-- A group found after a check was there before it, but for what it owes. -/
theorem Checked.find {s t : State} (h : Checked s t) {k : Nat} {g : Group} (hg : s.groups.find? k = some g) :
    ∃ g', t.groups.find? k = some g' ∧ g'.unowing = g.unowing := by
  have := h.groups k
  rw [hg] at this
  exact Option.map_eq_some_iff.mp this

theorem Checked.stands {c : Ctx} {s t : State} (h : Checked s t) (hs : c.stands s) : c.stands t := by
  obtain ⟨g, hg, hi⟩ := hs
  obtain ⟨g', hg', he⟩ := h.find hg
  exact ⟨g', hg', (congrArg Group.icnt he).trans hi⟩

theorem readReg_unowing (g : Group) (h : Map Word) (r : Reg) (l : Nat) : readReg g.unowing h r l = readReg g h r l := by
  cases r <;> rfl

/-- A check leaves what lanes read. -/
theorem Checked.lane {s t : State} (h : Checked s t) (gid : Nat) (r : Reg) (l : Nat) : t.lane gid r l = s.lane gid r l := by
  unfold State.lane
  have hk := h.groups gid
  cases hg : s.groups.find? gid with
  | none =>
    rw [hg] at hk
    rw [Option.map_eq_none_iff.mp hk]
  | some g =>
    obtain ⟨g', hg', he⟩ := h.find hg
    have hteam : g'.team = g.team := by have := congrArg Group.team he; exact this
    rw [hg']
    show readReg g' _ r l = readReg g _ r l
    rw [h.teams, hteam, ← readReg_unowing g', he, readReg_unowing]

/-- A check leaves the mask registers. -/
theorem Checked.mask {s t : State} (h : Checked s t) (gid : Nat) (n : Fin 8) : t.mask gid n = s.mask gid n := by
  unfold State.mask
  have hk := h.groups gid
  cases hg : s.groups.find? gid with
  | none =>
    rw [hg] at hk
    rw [Option.map_eq_none_iff.mp hk]
  | some g =>
    obtain ⟨g', hg', he⟩ := h.find hg
    have hm : g'.m = g.m := by have := congrArg Group.m he; exact this
    rw [hg']
    show readMask g' n = readMask g n
    simp [readMask, hm]

/-! ### XFER and XMCAST (R296 to R298, R306, R307) -/

/-- The transfer as acceptance fixes it: in Reckoning mode a gather or scatter reads its indices then (R302). -/
def Xfer.fixedAt (x : Xfer) (c : Ctx) (s : State) (id : Nat) (cmd : Cmd) : Xfer :=
  if c.reckon ∧ (x.fn = 5 ∨ x.fn = 6) then
    { x with idx := s.readIndices id cmd x, fixed := (x.shape.dim x.shape.last).tile } else x

theorem fixedAt_fields (x : Xfer) (c : Ctx) (s : State) (id : Nat) (cmd : Cmd) :
    { x.fixedAt c s id cmd with idx := none, fixed := 0 } = { x with idx := none, fixed := 0 } ∧
      (c.reckon = false → x.fixedAt c s id cmd = x) := by
  unfold Xfer.fixedAt
  constructor
  · split <;> rfl
  · intro h; rw [if_neg (by simp [h])]

/-- Acceptance of a transfer: the command in flight, its tag PENDING, the registers as they were. -/
structure XferAccepted (c : Ctx) (tag : Nat) (bar : Option Nat) (view : List MemberView) (x : Xfer) (s t : State) : Prop where
  uid : t.uid = s.uid + 1
  cmd : ∃ cmd y, t.cmds.find? (s.uid + 1) = some cmd ∧ cmd.tag = some tag ∧ cmd.bar = bar ∧ cmd.grp = c.gid ∧
      cmd.view = view ∧ cmd.key = c.grp.key ∧ cmd.work = .xfer y ∧
      { y with idx := none, fixed := 0 } = { x with idx := none, fixed := 0 } ∧ (c.reckon = false → y = x) ∧
      (∀ k, k ≠ s.uid + 1 → t.cmds.find? k = s.cmds.find? k)
  tag : t.tag c.grp.core tag = { st := .pending, status := 2, cmd := s.uid + 1, team := c.grp.team, key := c.grp.key }
  lane : ∀ r l, t.lane c.gid r l = s.lane c.gid r l
  mask : ∀ k, t.mask c.gid k = s.mask c.gid k
  stands : c.stands s → c.stands t

/-- A core's ACC order taken longer leaves everything else of the acceptance. -/
theorem XferAccepted.queued {c : Ctx} {tag : Nat} {bar : Option Nat} {view : List MemberView} {x : Xfer} {s t : State}
    (h : XferAccepted c tag bar view x s t) (core : Nat) (f : Core → Core) (hf : ∀ k, (f k).tags = k.tags) :
    XferAccepted c tag bar view x s (t.modCore core f) := by
  obtain ⟨h1, h2, h3, h4, h5, h6⟩ := h
  refine ⟨h1, h2, ?_, h4, h5, h6⟩
  rw [← h3]
  exact ((SameTags.refl t).modCore core f hf).tag ..

theorem acceptXfer_accepts (c : Ctx) (tag : Nat) (bar : Option Nat) (view : List MemberView) (recPs : List (Place × DWord))
    (x : Xfer) (s : State) : XferAccepted c tag bar view x s (acceptXfer c tag bar view recPs x s) := by
  -- the state with the command accepted, then with its units owned, recalled and its sources noted
  let s1 := s.accept c (some tag) bar view [] (.xfer x)
  let cmd := newCmd s c (some tag) bar view [] (.xfer x)
  have huid : s1.uid = s.uid + 1 := accept_uid ..
  have hcmds : s1.cmds = s.cmds.set (s.uid + 1) cmd := accept_cmds ..
  have hfind : s1.cmds.find? s1.uid = some cmd := by rw [hcmds, huid, Map.find?_set_self]
  let y := x.fixedAt c s1 s1.uid cmd
  let owned := s1.ownedUnits cmd y
  let s2 : State := { s1 with cmds := s1.cmds.modify s1.uid (fun k => { k with owned := owned, work := .xfer y }) }
  let s3 := s2.cores.foldl (fun s e =>
      e.2.alb.foldl (fun s line => if ({ cmd with owned := owned }).owns (.global, line) then s.recall none line else s) s) s2
  let s4 := s3.sourceAccess s1.uid (recPs ++ s3.sourcePlaces cmd y)
  have h3 : KeepsTags s2 s3 := keepsTags_recallOwned (fun line => ({ cmd with owned := owned }).owns (.global, line)) s2
  have h4 : Checked s3 s4 := checked_sourceAccess ..
  have heq : acceptXfer c tag bar view recPs x s =
      if y.sacc then s4.modCore c.grp.core (fun k => { k with accQ := k.accQ ++ [s1.uid] }) else s4 := by
    unfold acceptXfer
    show (match s1.cmds.find? s1.uid with
      | none => s1
      | some cmd => _) = _
    rw [hfind]
    rfl
  have hg3 : s3.groups = s.groups := h3.groups.trans (accept_groups ..)
  have ht3 : s3.teams = s.teams := h3.teams.trans (accept_teams ..)
  have hlane3 : ∀ r l, s3.lane c.gid r l = s.lane c.gid r l := fun r l => by unfold State.lane; rw [hg3, ht3]
  have hmask3 : ∀ k, s3.mask c.gid k = s.mask c.gid k := fun k => by unfold State.mask; rw [hg3]
  have hcmds4 : s4.cmds = (s.cmds.set (s.uid + 1) cmd).modify (s.uid + 1) (fun k => { k with owned := owned, work := .xfer y }) := by
    rw [h4.cmds, h3.cmds, ← hcmds, ← huid]
  have hacc : XferAccepted c tag bar view x s s4 := by
    refine ⟨?_, ⟨{ cmd with owned := owned, work := .xfer y }, y, ?_, rfl, rfl, rfl, rfl, rfl, rfl,
      (fixedAt_fields x c s1 s1.uid cmd).1, (fixedAt_fields x c s1 s1.uid cmd).2, fun k hk => ?_⟩, ?_, fun r l => ?_,
      fun k => ?_, fun hs => ?_⟩
    · rw [h4.uid, h3.uid, ← huid]
    · rw [hcmds4]; simp [Map.find?_set_self]
    · rw [hcmds4, Map.find?_modify_other _ _ _ _ hk, Map.find?_set_other _ _ _ _ hk]
    · have : s4.tag c.grp.core tag = s3.tag c.grp.core tag := (sameTags_of_cores h4.cores).tag ..
      rw [this, h3.tags.tag]
      exact accept_tag s c tag bar view [] (.xfer x)
    · rw [h4.lane, hlane3]
    · rw [h4.mask, hmask3]
    · exact h4.stands (hs.of_groups hg3)
  rw [heq]
  split
  · exact hacc.queued _ _ (fun _ => rfl)
  · exact hacc

/-- Reading a record leaves the groups. -/
theorem readRecord_groups (s : State) (reckon : Bool) (core asid : Nat) (addr : DWord) (ps : List Place) :
    (s.readRecord reckon core asid addr ps).2.groups = s.groups := by
  unfold State.readRecord
  simp only [apply_ite State.groups, State.modCore_groups, ite_self]

/-- A transfer whose checks pass is taken. -/
theorem startXfer_taken {fn : Nat} {a : XArgs} {mcast : Bool} {c : Ctx} {s u : State} {ps : List Place} {bs : List Byte}
    {bar : Option Nat} (h : XferOk fn a mcast c s ps bs u bar) :
    startXfer fn a mcast c s = xferTaken fn a mcast c s ps bs u bar := by
  obtain ⟨hfree, hfifo, hps, hbs, hu, hrec, hobj, hmem, haddr, haway⟩ := h
  -- the barrier object, as the instruction looks for it
  have hloc : (if a.bar = .zero then (.ok none : Except Trap (Option Nat))
      else if mcast = true ∧ bits (c.uni a.bar).toNat 24 4 ≠ 15 then .error { cause := 0x03, lanes := c.act }
      else (locate c u (c.uni a.bar) 16 16 true).map (fun p => some (p.2 - c.team.spadBase))) = .ok bar := by
    by_cases hz : a.bar = .zero
    · rw [if_pos hz] at hobj ⊢
      rw [hobj]
    · rw [if_neg hz] at hobj ⊢
      obtain ⟨hm, p, hp, hb⟩ := hobj
      rw [if_neg (fun hx => hx.2 (hm hx.1))]
      show (locate c u (c.rd a.bar 0) 16 16 true).map _ = _
      rw [hp, hb]
      rfl
  -- the members of a multicast, as the instruction looks them up
  have hbad : ¬((mcast && ((readPair c.grp a.dst >>> 32).toNat == 0 || decide (4096 ≤ (readPair c.grp a.dst >>> 32).toNat) ||
        (xferOf fn a mcast c bs).replicas.any (fun k => (memberIn (viewOf c s) k).isNone))) = true ∨
      (mcast = true ∧ ¬a.wbuf = true ∧ 2097152 ≤ (xferOf fn a mcast c bs).dst.toNat)) := by
    cases hm : mcast with
    | false => simp
    | true =>
      obtain ⟨h0, h1, h2, h3⟩ := hmem hm
      rw [hm] at h2 h3
      have h2' : (xferOf fn a true c bs).replicas.any (fun k => (memberIn (viewOf c s) k).isNone) = false := by
        rw [List.any_eq_false]
        intro k hk
        have := h2 k hk
        cases hx : memberIn (viewOf c s) k <;> simp_all
      rintro (hx | ⟨-, hw, hd⟩)
      · simp only [Bool.true_and, h2', Bool.or_false, Bool.or_eq_true, beq_iff_eq, decide_eq_true_eq] at hx
        omega
      · have := h3 (by simpa using hw)
        omega
  unfold startXfer
  dsimp only
  rw [if_neg (by simp [hfree]), if_neg (by simp [hfifo]), hps]
  dsimp only
  rw [hbs, hu, if_neg (by simpa using hrec), hloc]
  dsimp only
  refine (if_neg hbad).trans ?_
  show (match addressTrap (viewOf c s) (xferOf fn a mcast c bs) with
    | some t => _
    | none => _) = _
  rw [haddr]
  refine (if_neg ?_).trans rfl
  rw [Bool.or_eq_true, not_or]
  exact ⟨by rw [Bool.not_eq_true]; exact haway.1, by rw [Bool.not_eq_true]; exact haway.2⟩

/-- A transfer taken has its issuing group standing. -/
theorem stands_taken {fn : Nat} {a : XArgs} {mcast : Bool} {c : Ctx} {s u : State} {ps : List Place} {bs : List Byte}
    {bar : Option Nat} (h : XferOk fn a mcast c s ps bs u bar) (hs : c.stands s) (tag : Nat) (view : List MemberView)
    (recPs : List (Place × DWord)) (x : Xfer) : c.stands (acceptXfer c tag bar view recPs x u) := by
  refine (acceptXfer_accepts c tag bar view recPs x u).stands (hs.of_groups ?_)
  rw [← h.after, (sameAgents_touchPlaces _ _ _ _).groups]
  exact readRecord_groups ..

section Xfer

variable {i : Instr} {fn : Nat} {a : XArgs} {mcast : Bool}

/-- XFER or XMCAST with nothing in its way is taken. -/
theorem xfer_taken (he : ∀ s, exec i s = issueAs true i s (startXfer fn a mcast)) (ps : List Place) (bs : List Byte) (u : State)
    (bar : Option Nat) : Yields true i (fun c s => XferOk fn a mcast c s ps bs u bar)
      (fun c s => xferTaken fn a mcast c s ps bs u bar) := by
  intro c s hc h
  rw [he]
  exact issueAs_retires hc (startXfer_taken h) (stands_taken h (stands_noted hc.1) _ _ _ _)

/-- XFER or XMCAST whose tag is PENDING stays at its word, in Reckoning mode marked as stalled. -/
theorem xfer_stalled (he : ∀ s, exec i s = issueAs true i s (startXfer fn a mcast)) :
    Diverts true i (fun c s => s.tagFree c.grp.core a.tag.val = false)
      (fun c s => if c.reckon then s.modSplit c.gid c.slot (fun sp => { sp with wait := .stalled }) else s) := by
  intro c s hc h
  have hk : ∀ s : State, s.tagFree c.grp.core a.tag.val = false → startXfer fn a mcast c s =
      if c.reckon then s.modSplit c.gid c.slot (fun sp => { sp with wait := .stalled }) else s := by
    intro s h
    unfold startXfer
    dsimp only
    rw [if_pos (by simp [h])]
  obtain ⟨hg, hsp, -⟩ := ctx_group hc.1
  rw [he, issueAs_still hc ?_, hk s h]
  rw [hk (s.record c.team.cluster (hAccesses c.grp.team c.grp.ggid i)) h]
  split
  · refine moved_false (fun g hg' => ?_)
    simp only [State.modSplit, State.modGroup_groups, State.record, State.modCluster_groups, Map.find?_modify_self, hg,
      Option.map_some, Option.some.injEq] at hg'
    subst hg'
    refine ⟨rfl, fun sp h => ?_⟩
    simp only [Map.find?_modify_self, hsp, Option.map_some, Option.some.injEq] at h
    exact .inr (.inr (by rw [← h]))
  · exact moved_same hc.1 rfl

/-- XFER or XMCAST whose group has stores in its FIFO waits for them. -/
theorem xfer_waits (he : ∀ s, exec i s = issueAs true i s (startXfer fn a mcast)) :
    Diverts true i (fun c s => s.tagFree c.grp.core a.tag.val = true ∧ c.grp.fifo ≠ []) (fun _ s => s) := by
  refine diverts_stay he (fun c s h => ?_) (fun _ _ _ h => h)
  unfold startXfer
  dsimp only
  rw [if_neg (by simp [h.1]), if_pos (by simp [h.2])]

end Xfer

/-- Settles O28: the nine forms are one, and acceptance is `acceptXfer_accepts`. -/
theorem transfersAreAccepted : Obligations.TransfersAreAccepted := by
  unfold Obligations.TransfersAreAccepted
  refine ⟨fun a g => xfer_taken fun _ => rfl, fun a g => xfer_taken fun _ => rfl, fun a g => xfer_taken fun _ => rfl,
    fun a g => xfer_taken fun _ => rfl, fun a g => xfer_taken fun _ => rfl, fun a g => xfer_taken fun _ => rfl,
    fun a g => xfer_taken fun _ => rfl, fun a g => xfer_taken fun _ => rfl, fun a g => xfer_taken fun _ => rfl,
    fun a g => xfer_stalled fun _ => rfl, fun a g => xfer_stalled fun _ => rfl, fun a g => xfer_stalled fun _ => rfl,
    fun a g => xfer_stalled fun _ => rfl, fun a g => xfer_stalled fun _ => rfl, fun a g => xfer_stalled fun _ => rfl,
    fun a g => xfer_stalled fun _ => rfl, fun a g => xfer_stalled fun _ => rfl, fun a g => xfer_stalled fun _ => rfl,
    fun a g => xfer_waits fun _ => rfl, fun a g => xfer_waits fun _ => rfl, fun a g => xfer_waits fun _ => rfl,
    fun a g => xfer_waits fun _ => rfl, fun a g => xfer_waits fun _ => rfl, fun a g => xfer_waits fun _ => rfl,
    fun a g => xfer_waits fun _ => rfl, fun a g => xfer_waits fun _ => rfl, fun a g => xfer_waits fun _ => rfl,
    fun _ _ _ _ _ _ _ _ _ => rfl, fun c tag bar view rp x s => ?_⟩
  obtain ⟨huid, hcmd, htag, hlane, hmask, -⟩ := acceptXfer_accepts c tag bar view rp x s
  exact ⟨huid, hcmd, htag, hlane, hmask⟩

end Sys2Proof.Machine

namespace Sys2Proof.Machine

/-! ### Completion of a command (R27, R28, R292, R293) -/

theorem sameTags_logByte (s : State) (p : Place) : SameTags s (s.logByte p) :=
  sameTags_of_cores (by unfold State.logByte; split <;> rfl)

theorem sameTags_markStale (s : State) (sp : Space) (lo hi : Nat) : SameTags s (s.markStale sp lo hi) :=
  sameTags_of_cores (by unfold State.markStale; split <;> rfl)

theorem sameTags_putByte (s : State) (p : Place) (b : Byte) : SameTags s (s.putByte p b) := by
  have hl := sameTags_logByte s p
  obtain ⟨sp, a⟩ := p
  cases sp with
  | global =>
    refine hl.andCores ?_
    show (State.physStore _ _ _).cores = _
    unfold State.physStore State.markWritten
    split <;> split <;> rfl
  | spad c => exact (hl.modCore c (fun k => { k with spad := k.spad.store a b }) (fun _ => rfl)).trans (sameTags_markStale ..)
  | wbuf c => exact (hl.modCore c (fun k => { k with wbuf := k.wbuf.store a b }) (fun _ => rfl)).trans (sameTags_markStale ..)

theorem sameTags_seeUnit (s : State) (u : Place) : SameTags s (s.seeUnit u) := by
  unfold State.seeUnit
  split
  · exact SameTags.refl s
  · exact sameTags_map _ rfl (fun _ => ⟨rfl, rfl⟩)

theorem sameTags_seeAll (s : State) (cores : List Nat) : SameTags s (s.seeAll cores) := by
  unfold State.seeAll
  split
  · exact SameTags.refl s
  · refine sameTags_map _ rfl (fun e => ?_)
    split <;> exact ⟨rfl, rfl⟩

theorem sameTags_putObj (s : State) (core off : Nat) (o : BarObj) : SameTags s (s.putObj core off o) :=
  (sameTags_seeUnit s _).trans (SameTags.foldl (fun s (e : Place × Byte) => sameTags_putByte s e.1 e.2) _ _)

theorem sameTags_releaseWaits (s : State) (core off : Nat) (w : Wait) : SameTags s (s.releaseWaits core off w) :=
  sameTags_of_cores rfl

theorem sameTags_phaseDone (s : State) (cl core off : Nat) (o : BarObj) (reckon : Bool) (k : Key) :
    SameTags s (s.phaseDone cl core off o reckon k) := by
  let u := s.modCore core (fun c => { c with phaseKey := c.phaseKey.set off k })
  have hu : SameTags s u := (SameTags.refl s).modCore core _ (fun _ => rfl)
  have hw : SameTags s (u.releaseWaits core off (.released k)) := hu.trans (sameTags_releaseWaits ..)
  have h := hw.trans (sameTags_seeAll _ ((u.releaseWaits core off (.released k)).clusterCores cl))
  unfold State.phaseDone
  dsimp only
  split
  · exact h.andCores rfl
  · exact h

/-- Bytes counted on an object leave the tags. -/
theorem sameTags_countBytes (s : State) (cl core off b : Nat) (reckon : Bool) (k : Key) :
    SameTags s (s.countBytes cl core off b reckon k) := by
  unfold State.countBytes
  dsimp only
  split
  · exact (sameTags_putObj s core off _).trans (sameTags_phaseDone ..)
  · split
    · exact (sameTags_putObj s core off _).trans (sameTags_releaseWaits ..)
    · exact sameTags_putObj ..

theorem sameTags_bumpGen (s : State) (team region : Nat) : SameTags s (s.bumpGen team region) := by
  unfold State.bumpGen
  split
  · exact SameTags.refl s
  · refine SameTags.modCore ?_ _ _ (fun _ => rfl)
    exact sameTags_of_cores rfl

theorem dropTeam_cmds (s : State) (t : Nat) : (s.dropTeam t).cmds = s.cmds := by
  unfold State.dropTeam; split <;> rfl

theorem sameTags_dropTeam (s : State) (t : Nat) : SameTags s (s.dropTeam t) :=
  sameTags_of_cores (by unfold State.dropTeam; split <;> rfl)

/-- A command as it completes, before its tag turns READY: its bytes counted, its accesses checked, its regions' generations
raised, its source reads settled. -/
def State.settled (s : State) (id : Nat) (cmd : Cmd) (written : List (Place × DWord)) : State :=
  let s := cmd.uncounted.foldl (fun s u => s.countBytes cmd.cluster u.1 u.2.1 u.2.2 cmd.reckon cmd.key) s
  let s := s.engineAccess id cmd .write written
  let s := (((s.cmds.find? id).map Cmd.regions).getD []).foldl (fun s g => s.bumpGen g.1 g.2) s
  s.modCluster cmd.cluster (fun c => c.settleReads id cmd.ggid)

theorem sameTags_settled (s : State) (id : Nat) (cmd : Cmd) (written : List (Place × DWord)) :
    SameTags s (s.settled id cmd written) := by
  have h1 := SameTags.foldl (fun s (u : Nat × Nat × Nat) =>
    sameTags_countBytes s cmd.cluster u.1 u.2.1 u.2.2 cmd.reckon cmd.key) cmd.uncounted s
  have h2 := h1.andCores (checked_engineAccess _ id cmd .write written).cores
  have h3 := fun l => h2.trans (SameTags.foldl (fun s (g : Nat × Nat) => sameTags_bumpGen s g.1 g.2) l _)
  exact (h3 _).andCores rfl

/-- The tag of a completing command, when it is the command last accepted on it. -/
def State.readyTag (s : State) (id : Nat) (cmd : Cmd) (status : Word) : State :=
  match cmd.tag with
  | some t =>
    if (s.tag cmd.core t).cmd = id then s.putTag cmd.core t { s.tag cmd.core t with st := .ready, status := status } else s
  | none => s

/-- A command leaves the commands in flight and its core's ACC order; what it wrote is visible there (R29). -/
def State.gone (s : State) (id : Nat) (cmd : Cmd) : State :=
  let s := s.modCore cmd.core (fun k => { k with accQ := k.accQ.filter (fun q => q ≠ id), views := [] })
  { s with cmds := s.cmds.erase id, undo := if (s.cmds.erase id).isEmpty then [] else s.undo }

/-- Completion in three steps: the command's effects settle, its tag turns READY, and it is gone. -/
theorem complete_eq (s : State) (id : Nat) (cmd : Cmd) (status : Word) (written : List (Place × DWord)) :
    s.complete id cmd status written = (((s.settled id cmd written).readyTag id cmd status).gone id cmd).dropTeam cmd.team := rfl

theorem sameTags_gone (s : State) (id : Nat) (cmd : Cmd) : SameTags s (s.gone id cmd) := by
  have h : SameTags s (s.modCore cmd.core (fun k => { k with accQ := k.accQ.filter (fun q => q ≠ id), views := [] })) :=
    (SameTags.refl s).modCore cmd.core _ (fun _ => rfl)
  exact h.andCores rfl

/-- A command that has completed is gone. -/
theorem complete_gone (s : State) (id : Nat) (cmd : Cmd) (status : Word) (written : List (Place × DWord)) :
    (s.complete id cmd status written).cmds.find? id = none := by
  rw [complete_eq, dropTeam_cmds]
  exact Map.find?_erase_self _ id

/-- A command that has completed has left its tag READY with its status word. -/
theorem complete_tag (s : State) (id : Nat) (cmd : Cmd) (status : Word) (written : List (Place × DWord)) (t : Nat)
    (ht : cmd.tag = some t) (hid : (s.tag cmd.core t).cmd = id) :
    (s.complete id cmd status written).tag cmd.core t = { s.tag cmd.core t with st := .ready, status := status } := by
  have hs := (sameTags_settled s id cmd written).tag cmd.core t
  rw [complete_eq, (sameTags_dropTeam _ cmd.team).tag, (sameTags_gone _ id cmd).tag]
  unfold State.readyTag
  rw [ht]
  dsimp only
  rw [hs, if_pos hid, tag_putTag]

/-- A status word holds CODE and COUNT (R293). -/
theorem statusWord_fields {n code : Nat} (hn : n < 2 ^ 24) (hc : code < 256) :
    (statusWord n code).toNat % 256 = code ∧ (statusWord n code).toNat / 256 = n := by
  have : (statusWord n code).toNat = n * 256 + code := by
    rw [statusWord, BitVec.toNat_ofNat, Nat.mod_eq_of_lt hn, Nat.mod_eq_of_lt (by omega)]
  omega

/-! ### A transfer in flight (R27, R302 to R304) -/

section InFlight

variable {id : Nat} {cmd : Cmd} {x : Xfer} {s : State}

theorem used_replicas (x : Xfer) (items : List Item) (u : Place) (row : Nat) : (x.used items u row).replicas = x.replicas := by
  unfold Xfer.used
  dsimp only
  split <;> rfl

/-- ENGINE_LINE_RELEASE of a transfer's unit that is due and can be read. -/
theorem releaseXfer_due {u : Place} {ws : List (Place × Byte × Byte)} (hover : s.gridOver cmd = false)
    (hturn : x.turn id cmd s = true) (hlost : (s.prepare id cmd x).lost = false)
    (hdue : s.unitDue id cmd (s.xferItems id cmd (s.prepare id cmd x)) u = true)
    (hmem : u ∈ itemUnits (s.xferItems id cmd (s.prepare id cmd x)))
    (hws : unitWrites (s.xferItems id cmd (s.prepare id cmd x)) u = some ws) :
    releaseXfer id cmd x u s =
      ({ s with cmds := s.cmds.modify id (fun k => { k with work := .xfer ((s.prepare id cmd x).used
          (s.xferItems id cmd (s.prepare id cmd x)) u (unitRow (s.xferItems id cmd (s.prepare id cmd x)) u)) }) }).releaseUnit
        id cmd (!(s.prepare id cmd x).replicas.isEmpty) u (s.mergeBytes ws) := by
  unfold releaseXfer
  rw [if_neg (by simp [hover, hturn])]
  dsimp only
  rw [if_neg (by simp [hlost, hdue, hmem]), hws]
  dsimp only
  rw [used_replicas]
  rfl

/-- A transfer of a grid that has ended completes as ENDED. -/
theorem completeXfer_over (hover : s.gridOver cmd = true) : completeXfer id cmd x s = s.complete id cmd 0x13 [] := by
  unfold completeXfer
  rw [if_pos hover]
  rfl

/-- A transfer that reaches outside the accessible set completes with LEASE and ends its grid. -/
theorem completeXfer_lease (hover : s.gridOver cmd = false) (hturn : x.turn id cmd s = true)
    (hbad : (s.prepare id cmd x).lost = true ∨ leaseFault (s.xferItems id cmd (s.prepare id cmd x)) = true) :
    completeXfer id cmd x s = (s.complete id cmd 0x12 []).engineLease cmd := by
  unfold completeXfer
  rw [if_neg (by simp [hover]), if_neg (by simp [hturn])]
  dsimp only
  rw [if_pos hbad]
  rfl

/-- Any other transfer whose completion may take effect: DATAERR where a source fails, else, once every unit is released, OK or
INDEX. -/
theorem completeXfer_ends (hover : s.gridOver cmd = false) (hturn : x.turn id cmd s = true)
    (hlost : (s.prepare id cmd x).lost = false) (hlease : leaseFault (s.xferItems id cmd (s.prepare id cmd x)) = false)
    (hkey : s.completable cmd = true) (st : Option Nat)
    (hst : st = if (s.prepare id cmd x).fn = 5 ∨ (s.prepare id cmd x).fn = 6 then
      stopRow (s.prepare id cmd x).shape ((s.prepare id cmd x).idx.getD []) else none) :
    completeXfer id cmd x s = if s.sourceFails (s.prepare id cmd x) then s.complete id cmd 0x11
        ((writtenPlaces (s.xferItems id cmd (s.prepare id cmd x))).filter (fun w => !cmd.owns (unitOf w.1)))
      else if (itemUnits (s.xferItems id cmd (s.prepare id cmd x))).any cmd.owns then s
      else s.complete id cmd ((st.map (fun r => statusWord r 0x10)).getD 0)
        (writtenPlaces (s.xferItems id cmd (s.prepare id cmd x))) := by
  unfold completeXfer
  rw [if_neg (by simp [hover]), if_neg (by simp [hturn])]
  dsimp only
  rw [if_neg (by simp [hlost, hlease]), if_neg (by simp [hkey]), ← hst]
  cases st <;> rfl

/-- COMMAND_COMPLETE of a transfer. -/
theorem execCommandComplete_xfer (hc : s.cmds.find? id = some cmd) (hw : cmd.work = .xfer x) :
    exec (.commandComplete id) s = .next ((completeXfer id cmd x s).drain cmd.core) := by
  show execCommandComplete id s = _
  simp only [execCommandComplete, hc, hw]

end InFlight

/-! ### RFENCE and SPFENCE (R311, R312) -/

theorem bumpGen_groups (s : State) (team region : Nat) : (s.bumpGen team region).groups = s.groups := by
  unfold State.bumpGen; split <;> rfl

/-- What SPFENCE does to a range of the team's SPAD. -/
def fenced (c : Ctx) (core off n : Nat) (s : State) : State :=
  c.marks (((genRegions (off - c.team.spadBase) n).foldl (fun s r => s.bumpGen c.grp.team r) s).markStale (.spad core) off (off + n))

theorem fenced_groups (c : Ctx) (core off n : Nat) (s : State) : (fenced c core off n s).groups = s.groups := by
  rw [fenced, Ctx.marks_groups, State.markStale_groups]
  exact foldl_groups (fun s r => bumpGen_groups s c.grp.team r) _ s

/-- SPFENCE of a range that is not empty, once the stores have drained. -/
theorem spfence_yields (loc len : Reg) (g : Guard) (core off : Nat) : Yields false (.spfence loc len g)
    (fun c s => c.grp.fifo = [] ∧ (c.rd len 0).toNat ≠ 0 ∧ locate c s (c.rd loc 0) (c.rd len 0).toNat 1 true = .ok (core, off))
    (fun c s => retire c (fenced c core off (c.rd len 0).toNat s)) := by
  intro c s hc h
  refine issueAs_retires hc ?_ ((stands_noted hc.1).of_groups (fenced_groups c core off (c.rd len 0).toNat _))
  obtain ⟨hf, hn, hl⟩ := h
  have hl' : locate c (s.noted c (.spfence loc len g)) (c.uni loc) (c.uni len).toNat 1 true = .ok (core, off) := hl
  have hn' : ¬ (c.uni len).toNat = 0 := hn
  simp only [hl', hf, List.isEmpty_nil, if_true, if_neg hn']
  rfl

/-- Settles O30. -/
theorem commandsGoOnAndComplete : Obligations.CommandsGoOnAndComplete := by
  unfold Obligations.CommandsGoOnAndComplete
  refine ⟨fun id sp unit cmd x x' ws s hc hw ho ht hx hl hd hm hws => ?_, fun id cmd x s hc hw ho => ?_,
    fun id cmd x x' st s hc hw ho ht hx hl hlf hk hst => ?_, fun id cmd x x' s hc hw ho ht hx hbad => ?_,
    fun s id cmd st w => ⟨complete_gone s id cmd st w, fun t ht hid => complete_tag s id cmd st w t ht hid⟩,
    fun n code hn hc => statusWord_fields hn hc, fun id cmd x unit hint s hc hw h1 h2 hu => ?_, fun recp g c s hc hf => ?_,
    fun recp g => ?_, spfence_yields, fun loc len g p => ?_⟩
  · subst hx
    show execEngineLineRelease id sp unit s = _
    simp only [execEngineLineRelease, hc, hw]
    rw [releaseXfer_due ho ht hl hd hm hws]
  · rw [execCommandComplete_xfer hc hw, completeXfer_over ho]
  · subst hx
    rw [execCommandComplete_xfer hc hw, completeXfer_ends ho ht hl hlf hk st hst]
  · subst hx
    rw [execCommandComplete_xfer hc hw, completeXfer_lease ho ht hbad]
    rfl
  · show execTraverseRefusalRetry id .global unit hint s = _
    simp only [execTraverseRefusalRetry, hc, hw]
    rw [if_pos ⟨trivial, h1, h2, hu⟩]
  · refine issueAs_retires hc ?_ ((stands_noted hc.1).of_groups rfl)
    dsimp only
    rw [if_pos (by simp [hf])]
    rfl
  · refine diverts_stay (fun _ => rfl) (fun c s h => ?_) (fun _ _ _ h => h)
    dsimp only
    rw [if_neg (by simpa using h)]
  · refine diverts_stay (fun _ => rfl) (fun c s h => ?_) (fun _ _ _ h => h)
    have hl : locate c s (c.uni loc) (c.uni len).toNat 1 true = .ok p := h.2
    simp only [hl]
    rw [if_neg (by simpa using h.1)]

end Sys2Proof.Machine

namespace Sys2Proof.Machine

/-! ### EXIT (R115, R130) -/

/-- An instruction that names no h register is noted nowhere. -/
theorem noted_noRegs {c : Ctx} {i : Instr} (s : State) (h : hAccesses c.grp.team c.grp.ggid i = []) : s.noted c i = s := by
  unfold State.noted
  split
  · rw [h, record_nil]
  · rfl

/-- An instruction that issues clear and names no h register answers its own effect, whatever that is. -/
theorem issueAs_noRegs {sync : Bool} {i : Instr} {c : Ctx} {s : State} (k : Ctx → State → State) (h : Clear sync i c s)
    (hs : hAccesses c.grp.team c.grp.ggid i = []) : issueAs sync i s k = .next (k c s) := by
  obtain ⟨hc, h1, h2, h3, h4, -, h5⟩ := h
  rw [issueAs_of_ctx k hc]
  cases hr : c.reckon with
  | false => rw [prelude_free k ⟨h1, h2, h3⟩ h4 hr]
  | true =>
    rw [prelude_regs k ⟨h1, h2, h3⟩ h4 hr (h5 hr).1, hs]
    simp [withRegs, record_nil]

/-- EXIT that issues clear blocks while the group's commands are in flight, and else has its effect. -/
theorem execExit_clear {g : Guard} {c : Ctx} {s : State} (h : Clear false (.exit g) c s) :
    exec (.exit g) s = .next (if c.reckon ∧ c.lastExit ∧ s.busy c.gid then block c (.exit c.word) s else exitEffect c s) :=
  issueAs_noRegs _ h rfl

/-- What ends a split of a group: it retires, the lanes lost are noted, and a group with no split left ends. -/
def exitRetires (c : Ctx) (s : State) : State :=
  (((s.modGroup c.gid (fun g => (g.count c.reckon 1 none).endSplit c.slot)).issued c.grp.core c.grp.seq c.gid c.slot).lostLanes
    c.gid c.team.cluster c.reckon c.grp).retireGroup c.gid c.team.cluster c.reckon c.grp.key

/-- EXIT that nothing holds back retires. -/
theorem exitEffect_retires {c : Ctx} {s : State} (h : c.lastExit = true → c.grp.owed = [] ∧ (c.grp.members = [] ∨
    (c.grp.fifo = [] ∧ (c.reckon = true → s.smallest c.team.cluster c.grp.key = true)))) :
    exitEffect c s = exitRetires c s := by
  have howed : (if c.lastExit then c.grp.owed else []) = [] := by
    split
    · exact (h ‹_›).1
    · rfl
  unfold exitEffect
  rw [howed]
  dsimp only
  rw [if_neg, if_neg]
  · rfl
  · rintro ⟨hl, hm, hr, hk⟩
    rcases (h hl).2 with h0 | ⟨-, h0⟩
    · simp [h0] at hm
    · exact hk (h0 hr)
  · rintro ⟨hl, hm, hf⟩
    rcases (h hl).2 with h0 | ⟨h0, -⟩
    · simp [h0] at hm
    · simp [h0] at hf

/-- A last EXIT of a group that owes a trap takes it. -/
theorem exitEffect_owed {c : Ctx} {s : State} {o : Owed} {os : List Owed} (hl : c.lastExit = true) (ho : c.grp.owed = o :: os) :
    exitEffect c s = takeTrap c
      { cause := 0x06, sub := o.sub, lanes := c.act, addr := o.addr, other := o.other, status := o.status }
      (s.modGroup c.gid (fun g => { g with owed := os })) := by
  unfold exitEffect
  rw [if_pos hl, ho]

/-- A split whose lanes have ended goes on with its stack's top entry, or is gone; the others are as they were (R115). -/
theorem endSplit_splits {g : Group} {slot : Nat} {sp : Split} (h : g.splits.find? slot = some sp) :
    (∀ e es, sp.stack = e :: es →
      (g.endSplit slot).splits.find? slot = some { sp with pc := e.1, mask := e.2, stack := es, wait := .none }) ∧
    (sp.stack = [] → (g.endSplit slot).splits.find? slot = none) ∧
    ∀ k, k ≠ slot → (g.endSplit slot).splits.find? k = g.splits.find? k := by
  unfold Group.endSplit
  rw [h]
  dsimp only
  cases sp.stack with
  | nil =>
    refine ⟨fun _ _ he => (List.cons_ne_nil _ _ he.symm).elim, fun _ => Map.find?_erase_self _ slot, fun k hk => ?_⟩
    exact Map.find?_erase_other _ _ _ hk
  | cons e es =>
    refine ⟨fun e' es' he => ?_, fun he => (List.cons_ne_nil _ _ he).elim, fun k hk => Map.find?_set_other _ _ _ _ hk⟩
    obtain ⟨rfl, rfl⟩ := List.cons.inj he
    exact Map.find?_set_self ..

/-! ### Events of the sequencer (R36, R109, R113, R145) -/

/-- The context of a split that is there names it. -/
theorem ctxAt_names {s : State} {gid slot : Nat} {w : DWord} {gd : Guard} {c : Ctx} (h : s.ctxAt gid slot w gd = some c) :
    c.gid = gid ∧ c.slot = slot := by
  unfold State.ctxAt at h
  split at h
  · exact absurd h (by simp)
  · split at h
    · split at h
      · obtain rfl := Option.some.inj h
        exact ⟨rfl, rfl⟩
      · exact absurd h (by simp)
    · exact absurd h (by simp)

/-- EXIT_UNBLOCK once the group's commands have completed. -/
theorem execExitUnblock_free {grp slot : Nat} {w : DWord} {c : Ctx} {s : State} (hc : s.ctxAt grp slot 0 Guard.always = some c)
    (hw : c.sp.wait = .exit w) (hb : s.busy grp = false) :
    exec (.exitUnblock grp slot) s = .next (exitEffect { c with word := w } s) := by
  show execExitUnblock grp slot s = _
  simp only [execExitUnblock, hc, hw]
  rw [if_neg (by simp [hb])]

/-- Two splits that R113 lets merge. -/
theorem merge_joins {g : Group} {i j : Nat} {a b : Split} (holds : Split → Bool) (hij : i < j)
    (ha : g.splits.find? i = some a) (hb : g.splits.find? j = some b) (hin : g.inBarriers = true) (hpc : a.pc = b.pc)
    (hia : a.idle = true) (hib : b.idle = true) (hst : a.stack = [] ∨ b.stack = []) (hha : holds a = false)
    (hhb : holds b = false) :
    let both : Split := { a with mask := a.mask ||| b.mask, stack := a.stack ++ b.stack }
    g.merge holds i j = { g with splits := (g.splits.set i both).erase j } := by
  unfold Group.merge
  rw [Nat.min_eq_left hij.le, Nat.max_eq_right hij.le, ha, hb]
  exact if_pos ⟨hij.ne, hin, hpc, hia, hib, by simp [hha], by simp [hhb], hst⟩

/-- SPLIT_MERGE joins two splits into the lower slot and changes nothing else (R113). -/
theorem execSplitMerge_joins {grp i j : Nat} {a b : Split} {g : Group} {s : State} (hg : s.groups.find? grp = some g)
    (hij : i < j) (ha : g.splits.find? i = some a) (hb : g.splits.find? j = some b) (hin : g.inBarriers = true)
    (hpc : a.pc = b.pc) (hia : a.idle = true) (hib : b.idle = true) (hst : a.stack = [] ∨ b.stack = [])
    (hha : s.holds grp g a = false) (hhb : s.holds grp g b = false) :
    ∃ t g', exec (.splitMerge grp i j) s = .next t ∧ t.groups.find? grp = some g' ∧
      g'.splits.find? i = some { a with mask := a.mask ||| b.mask, stack := a.stack ++ b.stack } ∧
      g'.splits.find? j = none ∧ { g' with splits := g.splits } = g ∧
      { t with groups := s.groups } = s ∧ ∀ k, k ≠ grp → t.groups.find? k = s.groups.find? k := by
  refine ⟨_, _, rfl, (by rw [State.modGroup_groups, Map.find?_modify_self, hg]; rfl), ?_⟩
  dsimp only
  rw [merge_joins (s.holds grp g) hij ha hb hin hpc hia hib hst hha hhb]
  refine ⟨?_, Map.find?_erase_self _ j, rfl, rfl, fun k hk => Map.find?_modify_other _ _ _ _ hk⟩
  exact (Map.find?_erase_other _ _ _ hij.ne).trans (Map.find?_set_self ..)

/-- YIELD_TIMEOUT ends a YIELD's wait (R109). -/
theorem execYieldTimeout_ends {grp slot : Nat} {g : Group} {sp : Split} {s : State} (hg : s.groups.find? grp = some g)
    (hs : g.splits.find? slot = some sp) (hw : sp.wait = .yield) :
    ∃ t g', exec (.yieldTimeout grp slot) s = .next t ∧ t.groups.find? grp = some g' ∧
      g'.splits.find? slot = some { sp with wait := .none } ∧ { t with groups := s.groups } = s := by
  refine ⟨_, _, rfl, (by rw [State.modSplit, State.modGroup_groups, Map.find?_modify_self, hg]; rfl), ?_, rfl⟩
  rw [Map.find?_modify_self, hs, Option.map_some, if_pos hw]

/-- Settles O21. -/
theorem exitAndSplits : Obligations.ExitAndSplits := by
  unfold Obligations.ExitAndSplits
  refine ⟨fun g c s hc h => ?_, fun g c s hc h => ?_, fun g o os c s hc hb hl ho => ?_, fun g slot sp h => endSplit_splits h,
    fun grp slot w c s hc hw hb h => ?_,
    fun grp i j a b g s hg hij ha hb hin hpc hia hib hst hha hhb =>
      execSplitMerge_joins hg hij ha hb hin hpc hia hib hst hha hhb,
    fun core seq cycles pa tag s hf => ?_, fun grp slot c s hc hw hk => ?_,
    fun grp slot g sp s hg hs hw => execYieldTimeout_ends hg hs hw, fun grp slot c s hc hw => ?_⟩
  · have hn : s.noted c (.exit g) = s := noted_noRegs s rfl
    rw [hn] at h ⊢
    rw [execExit_clear hc, if_neg (fun hx => by simp [(h hx.2.1).1 hx.1] at hx), exitEffect_retires (fun hl => (h hl).2)]
    rfl
  · have hn : s.noted c (.exit g) = s := noted_noRegs s rfl
    rw [hn] at h ⊢
    rw [execExit_clear hc, if_pos h]
  · rw [execExit_clear hc, if_neg (fun hx => by simp [hb hx.1] at hx), exitEffect_owed hl ho]
  · rw [execExitUnblock_free hc hw hb, exitEffect_retires (c := { c with word := w }) h]
    rfl
  · show execIcacheMissFill core seq cycles s = _
    simp only [execIcacheMissFill, hf]
    rfl
  · show execSyncOpEffect grp slot s = _
    simp only [execSyncOpEffect, hc]
    rw [if_pos ⟨hw, hk⟩]
  · show execSleepExpire grp slot s = _
    simp only [execSleepExpire, hc]
    rw [if_pos hw]

end Sys2Proof.Machine

namespace Sys2Proof.Machine

/-! ### A pending write that lands in a register being returned (R122, R127) -/

/-- A group whose one pending write has its value, and whose last release went to its team's reserve, not to its core. -/
def returningGroup : Group :=
  { Group.empty with st := .resident, pend := [{ reg := 0, ready := true }], returning := 1 }

def returningMachine : State := { State.reset with groups := [(0, returningGroup)] }

/-- The units that group 0 is still returning. -/
def returningUnits : Result → Nat
  | .next t => ((t.groups.find? 0).map (fun g => g.returning)).getD 0
  | _ => 0

/-- Refutes O15: a landing write also closes a release to the team's reserve (SHRINK in Reckoning mode), while the
REGISTER_WRITE_LAND clause excludes a release to the core alone (releasing = 0, nothing said of returning). -/
theorem not_memoryEvents : ¬ Obligations.MemoryEvents := by
  unfold Obligations.MemoryEvents
  intro ⟨_, hland, _, _⟩
  have h := hland 0 returningGroup { reg := 0, ready := true } returningMachine rfl (by decide) (by decide) rfl
  exact absurd (congrArg returningUnits h) (by decide +kernel)

/-! ### A table that lists the issuing group twice

The statements below quantify over every `State`, and do not ask that a table list a number once (`canon`). Where the table
of groups lists the issuing group's number twice, a trap without a handler ends the grid and drops the first entry with
its team, and the second entry, of another ICNT, then stands for a group that has moved on: `withRegs` takes the trap
for an effect, and keeps the note of the h register that a diverted instruction must not leave. -/

/-- The group's other entry, of a team that is not there. -/
def strayGroup : Group := { placedGroup 9 with icnt := 1 }

/-- A Reckoning grid without a handler, its one group about to issue and listed twice; the group's tag 0 has faulted. -/
def doubled : State :=
  { (State.reset.place 0).putTag 0 0 { st := .ready, status := 0x10, cmd := 0, team := 3, key := (0, 0) } with
      agenda := []
      cur := some { grp := 4, slot := 0, word := 0 }
      grids := [(1, { placedGrid with record := { placedRecord with reckon := true, trapEntry := 0 } })]
      groups := [(4, placedGroup 3), (4, strayGroup)] }

/-- What an instruction with no hold and no predicate sees there. -/
def doubledCtx : Ctx :=
  { gid := 4, slot := 0, word := 0, grp := placedGroup 3, sp := placedSplit
    team := { Team.empty with grid := 1, cluster := 2, saveArea := 0x60000, started := true }
    cl := { grid := 1, index := 0, stamp := 1, epoch := 0, accesses := [], exits := [] }
    grid := { placedGrid with record := { placedRecord with reckon := true, trapEntry := 0 } }
    act := 0xFFFFFFFF }

theorem doubled_ctx {i : Instr} (h : i.guard = Guard.always) : doubled.ctx? i = some doubledCtx := by
  unfold State.ctx?
  rw [h]
  decide +kernel

/-- How many accesses the group's cluster has noted. -/
def notesLeft : Result → Nat
  | .next t => ((t.clusters.find? 2).map (fun cl => cl.accesses.length)).getD 0
  | _ => 0

theorem doubled_turn : doubled.smallest 2 (doubledCtx.effectKey doubled) = true := by decide +kernel

/-- An instruction of the doubled group that names no register out of the allotment and is not privileged issues clear. -/
theorem doubled_clear {i : Instr} (sync : Bool) (h : i.guard = Guard.always)
    (hb : doubled.scoreboardBusy i doubledCtx.grp = false) (hp : privilegedUse i doubledCtx = false)
    (hr : i.rangeBad doubledCtx.grp.vallot = false) : Clear sync i doubledCtx doubled := by
  refine ⟨doubled_ctx h, hb, hp, hr, by decide, by decide, fun _ => ⟨fun _ => doubled_turn, fun _ => ?_⟩⟩
  simp [firstRace, Cluster.race, doubledCtx]

/-- SYSC of an undefined service, its operand an h register. -/
def sysch : Instr := .sysc 1 (.h 0) .zero Guard.always

/-- Refutes O25: a SYSC that traps keeps the note of its operand where its group is listed twice. -/
theorem not_specialRegisters : ¬ Obligations.SpecialRegisters := by
  unfold Obligations.SpecialRegisters
  intro ⟨_, _, _, _, _, _, _, _, hsysc⟩
  have hc : Clear false sysch doubledCtx doubled := doubled_clear false rfl (by decide) (by decide) (by decide)
  have h := hsysc 1 (.h 0) .zero Guard.always (by decide) doubledCtx doubled hc trivial
  exact absurd (congrArg notesLeft h) (by decide +kernel)

/-- XSTAT.TRAP of the faulted tag, its destination an h register. -/
def xstath : Instr := .xstat true (.h 0) 0 Guard.always

/-- The trap that the fault status of the group's tag 0 gives. -/
def tagTrap : Trap := { cause := 0x12, sub := 0, lanes := 0xFFFFFFFF, status := 0x10 }

/-- Refutes O29: an XSTAT.TRAP that traps keeps the note of its destination where its group is listed twice. -/
theorem not_tagInstructions : ¬ Obligations.TagInstructions := by
  unfold Obligations.TagInstructions
  intro ⟨_, _, _, _, _, _, _, _, _, _, _, _, _, _, _, hxstat⟩
  have hc : Clear true xstath doubledCtx doubled := doubled_clear true rfl (by decide) (by decide) (by decide)
  have h := hxstat (.h 0) 0 Guard.always tagTrap doubledCtx doubled hc (by decide +kernel)
  exact absurd (congrArg notesLeft h) (by decide +kernel)

/-- MHAD of a pitch of 0, its destination an h register. -/
def mhadh : Instr := .mhad .p16 .s1 (.h 0) .zero .zero Guard.always

/-- Refutes O31: an MHAD that traps keeps the note of its destination where its group is listed twice. -/
theorem not_loopsAreAccepted : ¬ Obligations.LoopsAreAccepted := by
  unfold Obligations.LoopsAreAccepted
  intro ⟨_, _, _, _, _, _, _, _, _, hmhad, _⟩
  have hc : Clear true mhadh doubledCtx doubled := doubled_clear true rfl (by decide) (by decide) (by decide)
  have h := hmhad _ _ (.h 0) .zero .zero Guard.always doubledCtx doubled hc ⟨⟨rfl, by decide +kernel⟩, .inl (by decide)⟩
  exact absurd (congrArg notesLeft h) (by decide +kernel)

end Sys2Proof.Machine

namespace Sys2Proof

/-! ### Words and their fields (R55, R59, R60) -/

theorem toNat_append_add {v w : Nat} (x : BitVec v) (y : BitVec w) : (x ++ y).toNat = x.toNat * 2 ^ w + y.toNat := by
  rw [BitVec.toNat_append, ← Nat.shiftLeft_add_eq_or_of_lt y.isLt, Nat.shiftLeft_eq]

/-- A full word as a number. -/
theorem Fields.pack_toNat (f : Fields) : f.pack.toNat = f.op.toNat * 2 ^ 56 + f.d.toNat * 2 ^ 48 + f.a.toNat * 2 ^ 40 +
    f.b.toNat * 2 ^ 32 + f.c.toNat * 2 ^ 24 + f.e.toNat * 2 ^ 16 + f.fn.toNat * 2 ^ 10 + f.md.toNat * 2 ^ 6 +
    f.hold.toNat * 2 ^ 4 + f.pm.toNat * 2 + f.pn.toNat := by
  refine (toNat_append_add (w := 1)
    (0#1 ++ f.op ++ f.d ++ f.a ++ f.b ++ f.c ++ f.e ++ f.fn ++ f.md ++ f.hold ++ f.pm) f.pn).trans ?_
  simp only [toNat_append_add, BitVec.toNat_ofNat]
  omega

/-- The fields of a word that was put together from fields. -/
@[simp] theorem Fields.unpack_pack (f : Fields) : Fields.unpack f.pack = f := by
  obtain ⟨op, d, a, b, c, e, fn, md, hold, pm, pn⟩ := f
  have h := Fields.pack_toNat ⟨op, d, a, b, c, e, fn, md, hold, pm, pn⟩
  simp only [Fields.unpack, Fields.mk.injEq, ← BitVec.toNat_inj, BitVec.extractLsb'_toNat, h, Nat.shiftRight_eq_div_pow]
  omega

/-- A full word is no pair word. -/
@[simp] theorem Fields.pack_bit63 (f : Fields) : f.pack.getLsbD 63 = false := by
  have h := Fields.pack_toNat f
  rw [BitVec.getLsbD, Nat.testBit_eq_decide_div_mod_eq, decide_eq_false_iff_not, h]
  omega

/-- A word's bytes, whatever follows them, are that word's. -/
theorem wordOfBytes_bytesOfWord (w : DWord) (rest : List Byte) : wordOfBytes (bytesOfWord w ++ rest) = .ok w := by
  refine congrArg Except.ok (BitVec.eq_of_toNat_eq ?_)
  refine (toNat_append_add (w := 8) (w.extractLsb' 56 8 ++ w.extractLsb' 48 8 ++ w.extractLsb' 40 8 ++ w.extractLsb' 32 8 ++
    w.extractLsb' 24 8 ++ w.extractLsb' 16 8 ++ w.extractLsb' 8 8) (w.extractLsb' 0 8)).trans ?_
  simp only [toNat_append_add, BitVec.extractLsb'_toNat, Nat.shiftRight_eq_div_pow]
  have := w.isLt
  omega

/-- A word that decodes, decodes from its bytes. -/
theorem decodeBytes_of_decode {w : DWord} {i : Instr} (h : decode w = .ok i) (rest : List Byte) :
    decodeBytes (bytesOfWord w ++ rest) = .ok (i, rest) := by
  simp only [decodeBytes, wordOfBytes_bytesOfWord, h]
  rfl

/-! ### Operand fields (R60, R64, R66, R128, R272, R296) -/

@[simp] theorem Reg.ofCode_code (r : Reg) : Reg.ofCode r.code = r := by
  cases r with
  | v n => simp [Reg.ofCode, Reg.code, Nat.mod_eq_of_lt (show n.val < 256 by omega)]
  | s n => simp [Reg.ofCode, Reg.code, Nat.mod_eq_of_lt (show 176 + n.val < 256 by omega)]
  | h n => revert n; decide
  | x n => revert n; decide
  | zero => simp [Reg.ofCode, Reg.code]

@[simp] theorem maskOf_maskCode (m : Fin 8) : maskOf (maskCode m) = .ok m := by revert m; decide

@[simp] theorem nibOf_maskCode (m : Fin 8) : nibOf (maskCode m) = .ok m := maskOf_maskCode m

@[simp] theorem pairOf_pairCode (p : Fin 24) : pairOf (pairCode p) = .ok p := by revert p; decide

@[simp] theorem pairOrZeroOf_pairOrZeroCode (p : Option (Fin 24)) : pairOrZeroOf (pairOrZeroCode p) = .ok p := by
  cases p with
  | none => rfl
  | some p => revert p; decide

@[simp] theorem octOf_octCode (o : Fin 6) : octOf (octCode o) = .ok o := by revert o; decide

@[simp] theorem tagOf_tagCode (t : Fin 64) : tagOf (tagCode t) = t := Fin.ext (by simp [tagOf, tagCode])

@[simp] theorem word6Of_tagCode (t : Fin 64) : word6Of (tagCode t) = .ok t := by revert t; decide

@[simp] theorem Hold.ofCode_code (h : Hold) : Hold.ofCode h.code = h := by cases h <;> rfl

@[simp] theorem Fields.guard_mk (op d a b c e fn md) (g : Guard) :
    Fields.guard (.mk op d a b c e fn md g.hold.code g.pmCode g.pnCode) = g := by
  obtain ⟨h, pm, pn⟩ := g
  simp only [Fields.guard, Hold.ofCode_code, Guard.pmCode, Guard.pnCode, Guard.mk.injEq, true_and]
  exact ⟨Fin.ext (by simp), by cases pn <;> rfl⟩

@[simp] theorem Fields.off16_mk (op d a b fn md h pm pn) (x : BitVec 16) :
    Fields.off16 (.mk op d a b (x.extractLsb' 8 8) (x.extractLsb' 0 8) fn md h pm pn) = x :=
  (BitVec.extractLsb'_append_extractLsb'_eq_extractLsb' rfl).trans BitVec.extractLsb'_eq_self

@[simp] theorem Fields.imm24_mk (op d a fn md h pm pn) (x : BitVec 24) :
    Fields.imm24 (.mk op d a (x.extractLsb' 16 8) (x.extractLsb' 8 8) (x.extractLsb' 0 8) fn md h pm pn) = x :=
  (congrArg (· ++ x.extractLsb' 0 8) (BitVec.extractLsb'_append_extractLsb'_eq_extractLsb' (x := x) rfl)).trans
    ((BitVec.extractLsb'_append_extractLsb'_eq_extractLsb' rfl).trans BitVec.extractLsb'_eq_self)

@[simp] theorem Fields.imm32_mk (op d fn md h pm pn) (x : BitVec 32) :
    Fields.imm32 (.mk op d (x.extractLsb' 24 8) (x.extractLsb' 16 8) (x.extractLsb' 8 8) (x.extractLsb' 0 8) fn md h pm pn) =
      x := by
  refine (congrArg (fun y => y ++ x.extractLsb' 8 8 ++ x.extractLsb' 0 8)
    (BitVec.extractLsb'_append_extractLsb'_eq_extractLsb' (x := x) rfl)).trans ?_
  refine (congrArg (· ++ x.extractLsb' 0 8) (BitVec.extractLsb'_append_extractLsb'_eq_extractLsb' (x := x) rfl)).trans ?_
  exact (BitVec.extractLsb'_append_extractLsb'_eq_extractLsb' rfl).trans BitVec.extractLsb'_eq_self

/-! ### MOD codes and sub-operations -/

@[simp] theorem modSat3_codeSat3 (x : SatMode) : modSat3 (codeSat3 x) = .ok x := by
  cases x <;> rfl

@[simp] theorem modUns_codeUns (x : Bool) : modUns (codeUns x) = .ok x := by
  cases x <;> rfl

@[simp] theorem modFlag_codeFlag (x : Bool) : modFlag (codeFlag x) = .ok x := by
  cases x <;> rfl

@[simp] theorem modFlag8_codeFlag8 (x : Bool) : modFlag8 (codeFlag8 x) = .ok x := by
  cases x <;> rfl

@[simp] theorem modRnd_codeRnd (x : Round) : modRnd (codeRnd x) = .ok x := by
  cases x <;> rfl

@[simp] theorem modMupd_codeMupd (x : MaskUpd) : modMupd (codeMupd x) = .ok x := by
  cases x <;> rfl

@[simp] theorem modScanTy_codeScanTy (x : ScanTy) : modScanTy (codeScanTy x) = .ok x := by
  cases x <;> rfl

@[simp] theorem modOrder_codeOrder (x : Order) : modOrder (codeOrder x) = .ok x := by
  cases x with
  | plain => rfl
  | ordered sc => cases sc <;> rfl

@[simp] theorem modFence_codeFence (x : Scope) : modFence (codeFence x) = .ok x := by
  cases x <;> rfl

@[simp] theorem modScope_codeScope (x : Scope) : modScope (codeScope x) = .ok x := by
  cases x <;> rfl

@[simp] theorem modRole_codeRole (x : FmtRole) : modRole (codeRole x) = .ok x := by
  cases x <;> rfl

@[simp] theorem modTmode_codeTmode (x : TileMode) : modTmode (codeTmode x) = .ok x := by
  cases x <;> rfl

@[simp] theorem modNet_codeNet (x : NetMode) : modNet (codeNet x) = .ok x := by
  cases x <;> rfl

@[simp] theorem modNred_codeNred (x : NredOp) : modNred (codeNred x) = .ok x := by
  cases x <;> rfl

@[simp] theorem modDq4_codeDq4 (x : ScaleFmt) : modDq4 (codeDq4 x) = .ok x := by
  cases x <;> rfl

@[simp] theorem modUrnd_codeUrnd (x : Bool) (y : Round) : modUrnd (codeUrnd x y) = .ok (x, y) := by
  cases x <;> cases y <;> rfl

@[simp] theorem modCvtn8_codeCvtn8 (x : Fin 4) (y : Bool) (z : Bool) : modCvtn8 (codeCvtn8 x y z) = .ok (x, y, z) := by
  revert x y z; decide

@[simp] theorem modCvtf8_codeCvtf8 (x : Fin 4) (y : Bool) : modCvtf8 (codeCvtf8 x y) = .ok (x, y) := by
  revert x y; decide

@[simp] theorem modQnt4_codeQnt4 (x : ScaleFmt) (y : Bool) : modQnt4 (codeQnt4 x y) = .ok (x, y) := by
  cases x <;> cases y <;> rfl

@[simp] theorem modScale_codeScale (x : ScaleFmt) (y : TScaleFmt) : modScale (codeScale x y) = .ok (x, y) := by
  cases x <;> cases y <;> rfl

@[simp] theorem modRngx_codeRngx (x : RngCount) (y : Bool) : modRngx (codeRngx x y) = .ok (x, y) := by
  cases x <;> cases y <;> rfl

@[simp] theorem modTscope_codeTscope (x : Bool) (y : Scope) : modTscope (codeTscope x y) = .ok (x, y) := by
  cases x <;> cases y <;> rfl

@[simp] theorem modMhad_codeMhad (x : HadP) (y : HadScale) : modMhad (codeMhad x y) = .ok (x, y) := by
  cases x <;> cases y <;> rfl

@[simp] theorem modNetrep_codeNetrep (x : Bool) (y : NetMode) : modNetrep (codeNetrep x y) = .ok (x, y) := by
  cases x <;> cases y <;> rfl

@[simp] theorem modBinit_codeBinit (x : Bool) (y : Bool) : modBinit (codeBinit x y) = .ok (x, y) := by
  cases x <;> cases y <;> rfl

@[simp] theorem ICond.ofCode_code (x : ICond) : ICond.ofCode x.code = .ok x := by
  cases x <;> rfl

@[simp] theorem FCond.ofCode_code (x : FCond) : FCond.ofCode x.code = .ok x := by
  cases x <;> rfl

@[simp] theorem LxchOp.ofCode_code (x : LxchOp) : LxchOp.ofCode x.code = .ok x := by
  cases x <;> rfl

@[simp] theorem LpredOp.ofCode_code (x : LpredOp) : LpredOp.ofCode x.code = .ok x := by
  cases x <;> rfl

@[simp] theorem ScanOp.ofCode_code (x : ScanOp) : ScanOp.ofCode x.code = .ok x := by
  cases x <;> rfl

@[simp] theorem RduxOp.ofCode_code (x : RduxOp) : RduxOp.ofCode x.code = .ok x := by
  cases x <;> rfl

@[simp] theorem LdSize.ofCode_code (x : LdSize) : LdSize.ofCode x.code = .ok x := by
  cases x <;> rfl

@[simp] theorem StSize.ofCode_code (x : StSize) : StSize.ofCode x.code = .ok x := by
  cases x <;> rfl

@[simp] theorem AtomOp.ofCode_code (x : AtomOp) : AtomOp.ofCode x.code = .ok x := by
  cases x <;> rfl

@[simp] theorem RedOp.ofCode_code (x : RedOp) : RedOp.ofCode x.code = .ok x := by
  cases x <;> rfl


theorem XScope.ofCode_code (sc : XScope) (x y : Bool) :
    XScope.ofCode ((sc.code ++ BitVec.ofBool x ++ BitVec.ofBool y).toNat / 4) = .ok sc := by
  cases sc <;> cases x <;> cases y <;> rfl

/-- The operands of an XFER or XMCAST word; FILL's source is no operand. -/
@[simp] theorem xargsOf_fields (x : XArgs) (g : Guard) (op : BitVec 7) (fn : BitVec 6) (fill : Bool)
    (h : fill = true → x.src = 0) :
    xargsOf fill (x.fields g op fn) = .ok x := by
  obtain ⟨sacc, wbuf, sc, bar, recp, src, dst, tag⟩ := x
  have hsacc : (sc.code ++ BitVec.ofBool wbuf ++ BitVec.ofBool sacc)[0] = sacc := by
    cases sc <;> cases wbuf <;> cases sacc <;> rfl
  have hwbuf : (sc.code ++ BitVec.ofBool wbuf ++ BitVec.ofBool sacc)[1] = wbuf := by
    cases sc <;> cases wbuf <;> cases sacc <;> rfl
  cases fill with
  | false => simp [xargsOf, XArgs.fields, XScope.ofCode_code, hsacc, hwbuf, bind, Except.bind, pure, Except.pure]
  | true =>
    obtain rfl : src = 0 := h rfl
    simp [xargsOf, XArgs.fields, XScope.ofCode_code, hsacc, hwbuf, bind, Except.bind, pure, Except.pure]

@[simp] theorem XArgs.guard_fields (x : XArgs) (g : Guard) (op : BitVec 7) (fn : BitVec 6) : (x.fields g op fn).guard = g :=
  Fields.guard_mk ..


@[simp] theorem XArgs.op_fields (x : XArgs) (g : Guard) (op : BitVec 7) (fn : BitVec 6) : (x.fields g op fn).op = op := rfl
@[simp] theorem XArgs.fn_fields (x : XArgs) (g : Guard) (op : BitVec 7) (fn : BitVec 6) : (x.fields g op fn).fn = fn := rfl

/-! ### Full words outside the hint region (R76) -/

/-- The words of a major opcode are decoded by a function of their fields. -/
abbrev Dispatches (op : BitVec 7) (dec : Fields → Except DecodeError Instr) : Prop :=
  ∀ w d a b c e fn md hold pm pn,
    decodeFull w (.mk op d a b c e fn md hold pm pn) = dec (.mk op d a b c e fn md hold pm pn)

@[simp] theorem decodeFull_majors :
    Dispatches 0x00#7 decode00 ∧ Dispatches 0x01#7 decode01 ∧ Dispatches 0x02#7 decode02 ∧ Dispatches 0x03#7 decode03 ∧
    Dispatches 0x04#7 decode04 ∧ Dispatches 0x05#7 decode05 ∧ Dispatches 0x06#7 decode06 ∧ Dispatches 0x07#7 decode07 ∧
    Dispatches 0x08#7 decode08 ∧ Dispatches 0x09#7 decode09 ∧ Dispatches 0x0A#7 decode0A ∧ Dispatches 0x0B#7 decode0B ∧
    Dispatches 0x0C#7 decode0C ∧ Dispatches 0x0D#7 decode0D ∧ Dispatches 0x0E#7 decode0E ∧ Dispatches 0x0F#7 decode0F ∧
    Dispatches 0x10#7 decode10 ∧ Dispatches 0x11#7 decode11 ∧ Dispatches 0x12#7 decode12 ∧ Dispatches 0x14#7 decode14 ∧
    Dispatches 0x15#7 decode15 ∧ Dispatches 0x20#7 decode20 ∧ Dispatches 0x21#7 decode21 ∧ Dispatches 0x22#7 decode22 ∧
    Dispatches 0x23#7 decode23 ∧ Dispatches 0x24#7 decode24 ∧ Dispatches 0x30#7 decode30 ∧ Dispatches 0x31#7 decode31 ∧
    Dispatches 0x32#7 decode32 ∧ Dispatches 0x33#7 decode33 ∧ Dispatches 0x34#7 decode34 ∧ Dispatches 0x35#7 decode35 ∧
    Dispatches 0x36#7 decode36 ∧ Dispatches 0x37#7 decode37 ∧ Dispatches 0x50#7 decode50 ∧ Dispatches 0x51#7 decode51 ∧
    Dispatches 0x52#7 decode52 ∧ Dispatches 0x53#7 decode53 ∧ Dispatches 0x54#7 decode54 ∧ Dispatches 0x55#7 decode55 ∧
    Dispatches 0x56#7 decode56 ∧ Dispatches 0x58#7 decode58 ∧ Dispatches 0x59#7 decode59 ∧ Dispatches 0x5A#7 decode5A ∧
    Dispatches 0x5B#7 decode5B ∧ Dispatches 0x5C#7 decode5C ∧ Dispatches 0x60#7 decode60 ∧ Dispatches 0x61#7 decode61 ∧
    Dispatches 0x62#7 decode62 ∧ Dispatches 0x63#7 decode63 ∧ Dispatches 0x64#7 decode64 ∧ Dispatches 0x65#7 decode65 ∧
    Dispatches 0x66#7 decode66 ∧ Dispatches 0x67#7 decode67 ∧ Dispatches 0x68#7 decode68 ∧ Dispatches 0x69#7 decode69 ∧
    Dispatches 0x6A#7 decode6A ∧ Dispatches 0x6C#7 decode6C ∧ Dispatches 0x6D#7 decode6D ∧ Dispatches 0x6E#7 decode6E ∧
    Dispatches 0x6F#7 decode6F ∧ Dispatches 0x70#7 decode70 ∧ Dispatches 0x72#7 decode72 ∧ Dispatches 0x73#7 decode73 ∧
    Dispatches 0x74#7 decode74 ∧ Dispatches 0x75#7 decode75 ∧ Dispatches 0x76#7 decode76 := by
  and_intros <;> exact fun _ _ _ _ _ _ _ _ _ _ _ => rfl

/-- XFER and XMCAST words are dispatched by their major opcode, like every other. -/
@[simp] theorem XArgs.decodeFull_fields (w : DWord) (x : XArgs) (g : Guard) (fn : BitVec 6) :
    decodeFull w (x.fields g 0x60#7 fn) = decode60 (x.fields g 0x60#7 fn) ∧
    decodeFull w (x.fields g 0x63#7 fn) = decode63 (x.fields g 0x63#7 fn) := ⟨rfl, rfl⟩

/-- The fields that a legal instruction encodes to decode to it: the major opcode leads to its decoder, FN and MOD to the
instruction's arm, and each operand is read back from the field it was put in, by the round trips above. -/
theorem decodeFull_fields {i : Instr} {f : Fields} (w : DWord) (hf : i.fields = some f) (hw : i.wf = true) :
    decodeFull w f = .ok i := by
  cases i
  case xferFill x g =>
    cases hf
    have hsrc : x.src = 0 := by
      simp only [Instr.wf, Instr.legal, Bool.and_eq_true, beq_iff_eq] at hw
      exact hw.2
    simp [decode60, hsrc, bind, Except.bind, pure, Except.pure]
  all_goals cases hf
  all_goals simp [decode00, decode01, decode02, decode03, decode04, decode05, decode06, decode07, decode08,
      decode09, decode0A, decode0B, decode0C, decode0D, decode0E, decode0F, decode10, decode11, decode12, decode14,
      decode15, decode20, decode21, decode22, decode23, decode24, decode30, decode31, decode32, decode33, decode34,
      decode35, decode36, decode37, decode50, decode51, decode52, decode53, decode54, decode55, decode56, decode58,
      decode59, decode5A, decode5B, decode5C, decode60, decode61, decode62, decode63, decode64, decode65, decode66,
      decode67, decode68, decode69, decode6A, decode6C, decode6D, decode6E, decode6F, decode70, decode72, decode73,
      decode74, decode75, decode76, modIs, bZero, bind, Except.bind, pure, Except.pure]

/-! ### Pair words (R72, R75) -/

@[simp] theorem PairOp.ofCode_code (x : PairOp) : PairOp.ofCode x.code = .ok x := by
  cases x <;> rfl

/-- A slot as a number: the source is a register field above seven reserved bits, or 15 bits of immediate. -/
theorem Slot.bits_toNat (p : Slot) : p.bits.toNat = p.op.code.toNat * 2 ^ 24 + p.d.code.toNat * 2 ^ 15 +
    (match p.src with
    | .reg a => a.code.toNat * 2 ^ 7
    | .imm i => 2 ^ 23 + i.toNat) := by
  obtain ⟨op, d, src⟩ := p
  cases src with
  | reg a =>
    refine (toNat_append_add (w := 7) (op.code ++ 0#1 ++ d.code ++ a.code) 0#7).trans ?_
    simp only [toNat_append_add, BitVec.toNat_ofNat]
    omega
  | imm i =>
    refine (toNat_append_add (w := 15) (op.code ++ 1#1 ++ d.code) i).trans ?_
    simp only [toNat_append_add, BitVec.toNat_ofNat]
    omega

/-- A destination that a slot may have lies in the fields 0x00 to 0xDF. -/
theorem Slot.code_le_of_ok {p : Slot} (h : p.ok = true) : p.d.code.toNat ≤ 0xDF := by
  obtain ⟨op, d, src⟩ := p
  cases d with
  | v n => simp [Reg.code]; omega
  | s n => simp [Reg.code]; omega
  | h n => simp [Slot.ok] at h
  | x n => simp [Slot.ok] at h
  | zero => simp [Slot.ok] at h

/-- A slot's bits are that slot's. -/
theorem Slot.ofBits_bits {p : Slot} (h : p.ok = true) : Slot.ofBits p.bits = .ok p := by
  have hd := Slot.code_le_of_ok h
  have hn := Slot.bits_toNat p
  obtain ⟨op, d, src⟩ := p
  have hop : (Slot.bits ⟨op, d, src⟩).extractLsb' 24 7 = op.code := by
    cases src <;>
      simp only [← BitVec.toNat_inj, BitVec.extractLsb'_toNat, hn, Nat.shiftRight_eq_div_pow] <;> omega
  have hdc : (Slot.bits ⟨op, d, src⟩).extractLsb' 15 8 = d.code := by
    cases src <;>
      simp only [← BitVec.toNat_inj, BitVec.extractLsb'_toNat, hn, Nat.shiftRight_eq_div_pow] <;> omega
  cases src with
  | reg a =>
    have hb : (Slot.bits ⟨op, d, .reg a⟩).getLsbD 23 = false := by
      rw [BitVec.getLsbD, Nat.testBit_eq_decide_div_mod_eq, decide_eq_false_iff_not, hn]
      simp only
      omega
    have ha : (Slot.bits ⟨op, d, .reg a⟩).extractLsb' 7 8 = a.code := by
      simp only [← BitVec.toNat_inj, BitVec.extractLsb'_toNat, hn, Nat.shiftRight_eq_div_pow]
      omega
    simp only [Slot.ofBits, hop, hdc, hb, ha, hd, PairOp.ofCode_code, Reg.ofCode_code, if_true, bind, Except.bind]
    rfl
  | imm i =>
    have hb : (Slot.bits ⟨op, d, .imm i⟩).getLsbD 23 = true := by
      rw [BitVec.getLsbD, Nat.testBit_eq_decide_div_mod_eq, decide_eq_true_iff, hn]
      simp only
      omega
    have hi : (Slot.bits ⟨op, d, .imm i⟩).extractLsb' 0 15 = i := by
      simp only [← BitVec.toNat_inj, BitVec.extractLsb'_toNat, hn, Nat.shiftRight_eq_div_pow]
      omega
    simp only [Slot.ofBits, hop, hdc, hb, hi, hd, PairOp.ofCode_code, Reg.ofCode_code, if_true, bind, Except.bind]
    rfl

/-- A pair word as a number. -/
theorem pairEncode_toNat (p q : Slot) :
    (pairEncode p q).toNat = 2 ^ 63 + p.bits.toNat * 2 ^ 32 + q.bits.toNat := by
  refine (toNat_append_add (w := 31) (1#1 ++ p.bits ++ 0#1) q.bits).trans ?_
  simp only [toNat_append_add, BitVec.toNat_ofNat]
  omega

theorem pairDecode_pairEncode {p q : Slot} (hp : p.ok = true) (hq : q.ok = true) :
    pairDecode (pairEncode p q) = .ok (.pairWord p q) := by
  have hn := pairEncode_toNat p q
  have hfst : (pairEncode p q).extractLsb' 32 31 = p.bits := by
    simp only [← BitVec.toNat_inj, BitVec.extractLsb'_toNat, hn, Nat.shiftRight_eq_div_pow]
    omega
  have hsnd : (pairEncode p q).extractLsb' 0 31 = q.bits := by
    simp only [← BitVec.toNat_inj, BitVec.extractLsb'_toNat, hn, Nat.shiftRight_eq_div_pow]
    omega
  simp [pairDecode, hfst, hsnd, Slot.ofBits_bits hp, Slot.ofBits_bits hq, bind, Except.bind, pure, Except.pure]

theorem parse_pairEncode {p q : Slot} (hp : p.ok = true) (hq : q.ok = true) :
    parse (pairEncode p q) = .ok (.pairWord p q) := by
  have hb : (pairEncode p q).getLsbD 63 = true := by
    rw [BitVec.getLsbD, Nat.testBit_eq_decide_div_mod_eq, decide_eq_true_iff, pairEncode_toNat]
    omega
  simp [parse, hb, pairDecode_pairEncode hp hq]

/-! ### The hint region (R78) -/

theorem Fields.op_unpack_toNat (w : DWord) : (Fields.unpack w).op.toNat = w.toNat / 2 ^ 56 % 128 := by
  simp [Fields.unpack, BitVec.extractLsb'_toNat, Nat.shiftRight_eq_div_pow]

theorem decodeFull_hint78 {w : DWord} {f : Fields} (h : f.op = 0x78#7) : decodeFull w f = .ok (decodeHint w f) := by
  simp [decodeFull, h]

/-- A full word of major opcode 0x78 to 0x7F is parsed as a hint. -/
theorem parse_hintRegion {w : DWord} (hP : w.getLsbD 63 = false) (hop : 0x78 ≤ (w.extractLsb' 56 7).toNat) :
    parse w = .ok (decodeHint w (Fields.unpack w)) := by
  have hlt : (Fields.unpack w).op.toNat < 128 := (Fields.unpack w).op.isLt
  change 0x78 ≤ (Fields.unpack w).op.toNat at hop
  simp only [parse, hP, Bool.false_eq_true, if_false]
  unfold decodeFull
  generalize (Fields.unpack w).op.toNat = n at *
  interval_cases n <;> rfl

/-- Bits 62:59 and the major opcode say the same of the hint region. -/
theorem hintRegion_iff (w : DWord) : w.extractLsb' 59 4 = 0xF#4 ↔ 0x78 ≤ (w.extractLsb' 56 7).toNat := by
  simp only [← BitVec.toNat_inj, BitVec.extractLsb'_toNat, Nat.shiftRight_eq_div_pow, BitVec.toNat_ofNat]
  omega

/-- A hint is a full word of the hint region with neither the FN of NOP nor that of ICPF in 0x78. -/
theorem hintOk_iff (w : DWord) : hintOk w = true ↔ w.getLsbD 63 = false ∧ 0x78 ≤ (w.extractLsb' 56 7).toNat ∧
    ¬ ((w.extractLsb' 56 7).toNat = 0x78 ∧ (w.extractLsb' 10 6).toNat ≤ 1) := by
  have h3 : 0x78 ≤ (w.extractLsb' 56 7).toNat → (w.extractLsb' 56 3 = 0#3 ↔ (w.extractLsb' 56 7).toNat = 0x78) := by
    simp only [← BitVec.toNat_inj, BitVec.extractLsb'_toNat, Nat.shiftRight_eq_div_pow, BitVec.toNat_ofNat]
    omega
  rw [hintOk, Bool.and_eq_true, Bool.and_eq_true, Bool.not_eq_true', Bool.not_eq_true', beq_iff_eq, and_assoc,
    Bool.and_eq_false_iff, hintRegion_iff]
  refine and_congr_right fun _ => and_congr_right fun hop => ?_
  rw [← h3 hop]
  simp only [beq_eq_false_iff_ne, decide_eq_false_iff_not, not_and_or, ne_eq]

/-- What a word of the hint region executes as. -/
theorem decodeHint_unpack (w : DWord) : decodeHint w (Fields.unpack w) =
    if (w.extractLsb' 56 7).toNat = 0x78 ∧ (w.extractLsb' 10 6).toNat = 0 then .nop
    else if (w.extractLsb' 56 7).toNat = 0x78 ∧ (w.extractLsb' 10 6).toNat = 1 then
      .icpf (w.extractLsb' 48 8) (w.extractLsb' 16 32)
    else .hint w := by
  have himm : (Fields.unpack w).imm32 = w.extractLsb' 16 32 := by
    simp only [Fields.imm32, Fields.unpack, ← BitVec.toNat_inj, toNat_append_add, BitVec.extractLsb'_toNat,
      Nat.shiftRight_eq_div_pow]
    omega
  simp only [decodeHint, himm, ← BitVec.toNat_inj]
  rfl

/-- Every full word of the hint region decodes. -/
theorem decode_hintRegion {w : DWord} (hP : w.getLsbD 63 = false) (hop : 0x78 ≤ (w.extractLsb' 56 7).toNat) :
    decode w = .ok (decodeHint w (Fields.unpack w)) := by
  have hwf : (decodeHint w (Fields.unpack w)).wf = true := by
    rw [decodeHint_unpack]
    split
    · rfl
    split
    · rfl
    next hnop hicpf => exact (hintOk_iff w).2 ⟨hP, hop, by omega⟩
  simp [decode, parse_hintRegion hP hop, hwf]

/-! ### The decoder undoes the encoder -/

theorem decode_of_parse {w : DWord} {i : Instr} (h : parse w = .ok i) (hw : i.wf = true) : decode w = .ok i := by
  simp [decode, h, hw]

/-- A full word of fields that decode to a legal instruction decodes to it. -/
theorem decode_pack {f : Fields} {i : Instr} (h : decodeFull f.pack f = .ok i) (hw : i.wf = true) :
    decode f.pack = .ok i :=
  decode_of_parse (by rw [parse, Fields.pack_bit63, Fields.unpack_pack]; exact h) hw

/-- Every instruction but a pair word and those of the hint region is encoded by its fields. -/
theorem encode_cases {i : Instr} {w : DWord} (h : encode i = some w) :
    (∃ p q, i = .pairWord p q) ∨ i = .nop ∨ (∃ n off, i = .icpf n off) ∨ i = .hint w ∨
    ∃ f, i.fields = some f ∧ w = f.pack := by
  unfold encode at h
  split at h
  · exact .inl ⟨_, _, rfl⟩
  · exact .inr (.inl rfl)
  · exact .inr (.inr (.inl ⟨_, _, rfl⟩))
  · cases h
    exact .inr (.inr (.inr (.inl rfl)))
  · obtain ⟨f, hf, rfl⟩ := Option.map_eq_some_iff.1 h
    exact .inr (.inr (.inr (.inr ⟨f, hf, rfl⟩)))

theorem decode_encode {i : Instr} {w : DWord} (hw : i.wf = true) (h : encode i = some w) : decode w = .ok i := by
  obtain ⟨p, q, rfl⟩ | rfl | ⟨n, off, rfl⟩ | rfl | ⟨f, hf, rfl⟩ := encode_cases h
  · obtain rfl : pairEncode p q = w := Option.some.inj h
    have hok : p.ok = true ∧ q.ok = true := by
      simp only [Instr.wf, Instr.legal, pairOk, Bool.and_eq_true] at hw
      exact hw.1.1.1
    exact decode_of_parse (parse_pairEncode hok.1 hok.2) hw
  · cases h
    rfl
  · cases h
    exact decode_pack ((decodeFull_hint78 rfl).trans (by simp [decodeHint])) rfl
  · obtain ⟨hP, hop, hno⟩ := (hintOk_iff w).1 hw
    rw [decode_hintRegion hP hop, decodeHint_unpack, if_neg (by omega), if_neg (by omega)]
  · exact decode_pack (decodeFull_fields _ hf hw) hw

/-- Settles O59: fields are read back from the word they make up, the decoder of each major opcode undoes the encoder,
and the word is legal because the instruction is. -/
theorem decodeOfEncode : Obligations.DecodeOfEncode := by
  unfold Obligations.DecodeOfEncode
  intro i w hw h
  exact ⟨decode_encode hw h, decodeBytes_of_decode (decode_encode hw h)⟩

end Sys2Proof

namespace Sys2Proof.Machine

/-- Settles O1: every form is issued as `issueResult` of the value the obligation names. -/
theorem integerResults : Obligations.IntegerResults := by
  unfold Obligations.IntegerResults
  and_intros <;> intros <;> exact gives_of fun _ => rfl

/-- Settles O2, like O1. -/
theorem integerGroupResults : Obligations.IntegerGroupResults := by
  unfold Obligations.IntegerGroupResults
  and_intros <;> intros <;> exact gives_of fun _ => rfl

/-- Settles O7, like O1. -/
theorem floatResults : Obligations.FloatResults := by
  unfold Obligations.FloatResults
  and_intros <;> intros <;> exact gives_of fun _ => rfl

/-- Settles O8, like O1. -/
theorem packedAndConversions : Obligations.PackedAndConversions := by
  unfold Obligations.PackedAndConversions
  and_intros <;> intros <;> exact gives_of fun _ => rfl

/-- Settles O58: each word is evaluated. -/
theorem decodedWords : Obligations.DecodedWords := by
  unfold Obligations.DecodedWords
  decide +kernel

/-- SPAWN in a grid that is no maintenance grid, its destination an h register. -/
def spawnh : Instr := .spawn (.h 0) .zero .zero Guard.always

/-- Refutes O27: a SPAWN that traps keeps the note of its destination where its group is listed twice. -/
theorem not_forkAndSpawn : ¬ Obligations.ForkAndSpawn := by
  unfold Obligations.ForkAndSpawn
  intro ⟨_, _, _, _, _, hspawn⟩
  have hc : Clear true spawnh doubledCtx doubled := doubled_clear true rfl (by decide) (by decide) (by decide)
  have h := hspawn (.h 0) .zero .zero Guard.always doubledCtx doubled hc (.inl rfl)
  exact absurd (congrArg notesLeft h) (by decide +kernel)

end Sys2Proof.Machine

namespace Sys2Proof

/-- A computation answers when its first part does, and the rest of what that gave. -/
theorem bind_eq_ok_iff {ε α β : Type} {x : Except ε α} {k : α → Except ε β} {b : β} :
    x >>= k = .ok b ↔ ∃ a, x = .ok a ∧ k a = .ok b := by
  cases x with
  | error e => exact ⟨nofun, fun ⟨_, h, _⟩ => nomatch h⟩
  | ok a => exact ⟨fun h => ⟨a, rfl, h⟩, fun ⟨_, h, hk⟩ => by cases h; exact hk⟩

/-- Of all major opcodes only 0x00 decodes to MOV, with the registers of its D and A fields. -/
theorem decodeFull_mov {w : DWord} {f : Fields} {d a : Reg} {g : Guard} (h : decodeFull w f = .ok (.mov d a g)) :
    d = Reg.ofCode f.d ∧ a = Reg.ofCode f.a := by
  unfold decodeFull at h
  split at h
  · unfold decode00 at h
    split at h
    · obtain ⟨_, -, h⟩ := bind_eq_ok_iff.1 h
      cases h
      exact ⟨rfl, rfl⟩
    · obtain ⟨_, -, h⟩ := bind_eq_ok_iff.1 h
      cases h
    · cases h
  all_goals
    simp only [decode01, decode02, decode03, decode04, decode05, decode06, decode07, decode08, decodeHint,
      decode09, decode0A, decode0B, decode0C, decode0D, decode0E, decode0F, decode10, decode11, decode12, decode14,
      decode15, decode20, decode21, decode22, decode23, decode24, decode30, decode31, decode32, decode33, decode34,
      decode35, decode36, decode37, decode50, decode51, decode52, decode53, decode54, decode55, decode56, decode58,
      decode59, decode5A, decode5B, decode5C, decode60, decode61, decode62, decode63, decode64, decode65, decode66,
      decode67, decode68, decode69, decode6A, decode6C, decode6D, decode6E, decode6F, decode70, decode72, decode73,
      decode74, decode75, decode76, reduceCtorEq] at h
    repeat' split at h
    all_goals simp [bind_eq_ok_iff, pure, Except.pure] at h

/-- A pair word decodes to no MOV. -/
theorem pairDecode_mov {w : DWord} {d a : Reg} {g : Guard} : pairDecode w ≠ .ok (.mov d a g) := by
  intro h
  obtain ⟨_, -, h⟩ := bind_eq_ok_iff.1 h
  obtain ⟨_, -, h⟩ := bind_eq_ok_iff.1 h
  cases h

theorem decode_eq_ok {w : DWord} {i : Instr} (h : decode w = .ok i) : parse w = .ok i := by
  unfold decode at h
  split at h
  · split at h
    · cases h
      assumption
    · cases h
  · cases h

/-- The registers of a word that decodes to MOV (R64). -/
theorem decode_mov {w : DWord} {d a : Reg} {g : Guard} (h : decode w = .ok (.mov d a g)) :
    d = Reg.ofCode (w.extractLsb' 48 8) ∧ a = Reg.ofCode (w.extractLsb' 40 8) := by
  have hp := decode_eq_ok h
  unfold parse at hp
  split at hp
  · exact absurd hp pairDecode_mov
  · exact decodeFull_mov hp

end Sys2Proof

namespace Sys2Proof.Machine

/-- What a lane of a group that is there reads (R64). -/
theorem lane_of_group {s : State} {gid : Nat} {g : Group} (h : s.groups.find? gid = some g) (r : Reg) (l : Nat) :
    s.lane gid r l = readReg g (((s.teams.find? g.team).map (fun t => t.h)).getD []) r l := by
  simp only [State.lane, h]

/-- Settles O54: the field values one by one, a word of MOV by its opcode, and each class by how a lane reads it. -/
theorem registerFields : Obligations.RegisterFields := by
  unfold Obligations.RegisterFields
  refine ⟨fun n => Reg.ofCode_code (.v n), fun n => Reg.ofCode_code (.s n), fun n => Reg.ofCode_code (.h n),
    fun n => Reg.ofCode_code (.x n), Reg.ofCode_code .zero, fun _ _ _ _ h => decode_mov h, ?_⟩
  intro s gid g hg
  refine ⟨fun n l => lane_of_group hg (.v n) l, fun n l => lane_of_group hg (.s n) l, fun n l j k hk ht => ?_,
    fun n l => lane_of_group hg (.x n) l, fun l => lane_of_group hg .zero l⟩
  rw [lane_of_group hk, lane_of_group hg, ht]
  rfl

/-! ### The hint region is executed (R78) -/

/-- An instruction that names no register and that no word alone denies retires, whether a lane participates or not. -/
theorem prelude_retire {i : Instr} {c : Ctx} {s : State} (h : c.admits s i) (hd : deniedWrite i = false)
    (hs : hAccesses c.grp.team c.grp.ggid i = []) : prelude i false c s retire = retire c s := by
  by_cases ha : c.act = 0
  · rw [prelude_idle retire h ha, hd]
    rfl
  · rw [prelude_admitted retire h ha, hs]
    simp [withRegs, record_nil]

/-- An instruction without operands or privilege that only retires completes whatever its predicate. -/
theorem hint_done {i : Instr} {c : Ctx} {s : State} (he : exec i s = issue i s retire) (hreads : i.reads = [])
    (hwrites : i.writes = []) (hp : privilegedUse i c = false) (hd : deniedWrite i = false) (hc : s.ctx? i = some c) :
    ∃ t, exec i s = .next t ∧ Done c 1 (c.sp.pc + 8) keepRegs keepMasks keepRest s t := by
  have hadm : c.admits s i := by
    refine ⟨?_, hp, ?_⟩
    · simp [State.scoreboardBusy, Instr.regSet, hreads, hwrites]
    · simp [Instr.rangeBad, hreads, hwrites]
  have hno : hAccesses c.grp.team c.grp.ggid i = [] := by simp [hAccesses, hreads, hwrites]
  refine ⟨retire c s, ?_, done_retire hc⟩
  rw [he, issue, issueAs_of_ctx retire hc, prelude_retire hadm hd hno]

/-- Settles O53: the hint region decodes word by word, and each of its instructions retires and nothing else. -/
theorem hintRegion : Obligations.HintRegion := by
  unfold Obligations.HintRegion
  intro w i hP hop hi
  rw [← decodeHint_unpack] at hi
  refine ⟨by rw [decode_hintRegion hP hop, hi], fun c s hc => ?_⟩
  rw [decodeHint_unpack] at hi
  split at hi
  · subst hi
    exact hint_done rfl rfl rfl rfl rfl hc
  split at hi
  · subst hi
    exact hint_done rfl rfl rfl rfl rfl hc
  · subst hi
    exact hint_done rfl rfl rfl rfl rfl hc

end Sys2Proof.Machine

namespace Sys2Proof.Machine

/-! ### Several registers and mask registers -/

/-- The participating lanes an instruction sees are those of its predicate among its split's (R69, R70). -/
theorem ctx_act {i : Instr} {c : Ctx} {s : State} (h : s.ctx? i = some c) :
    c.act = activeMask c.grp c.sp.mask i.guard := by
  unfold State.ctx? at h
  split at h
  · cases h
  unfold State.ctxAt at h
  split at h
  · cases h
  split at h
  · split at h
    · cases h
      rfl
    · cases h
  · cases h

/-- Without a predicate every lane of the split participates. -/
theorem activeMask_always (g : Group) (mask : Word) : activeMask g mask Guard.always = mask := by
  change mask &&& BitVec.allOnes 32 = mask
  exact BitVec.and_allOnes

/-- Settles O4: two register writes of values read before either, then one retirement of two instructions. -/
theorem pairWords : Obligations.PairWords := by
  unfold Obligations.PairWords
  intro p q c s hc
  have hact : c.act = c.sp.mask := (ctx_act hc.1).trans (activeMask_always c.grp c.sp.mask)
  obtain ⟨hg, hsp, ht, -, -⟩ := ctx_group hc.1
  refine ⟨hact, ?_⟩
  rw [← hact]
  exact issue_done hc (by decide) (done_of_touched 2 _ (by simpa using hg) (by simpa using ht) hsp rfl
    (touched_writeReg q.d (slotVal c q) (touched_writeReg p.d (slotVal c p)
      (touched_refl (by simpa using hg) (by simpa using ht)))))

theorem popc32_eq (w : Word) : popc32 w = BitVec.ofNat 32 ((List.range 32).countP (fun l => w.getLsbD l)) := by
  rw [popc32, popNat, List.countP_eq_length_filter]

theorem ffs32_eq (w : Word) : ffs32 w = BitVec.ofNat 32 (((List.range 32).find? (fun l => w.getLsbD l)).getD 32) := by
  rw [ffs32, List.headD_eq_head?_getD, lanesIn, ← List.head?_filter]
  rfl

/-- Settles O5: one write of a mask register, or of a register that takes a mask's bits. -/
theorem maskOperations : Obligations.MaskOperations := by
  unfold Obligations.MaskOperations
  refine ⟨fun cond u d a b g => ?_, fun cond u d a b g => ?_, fun d a b g => ⟨?_, ?_, ?_⟩, fun d a g => ?_, fun d a g => ?_,
    fun d a g => ⟨?_, ?_, ?_⟩⟩
  · cases u <;> exact givesMask_of fun _ => rfl
  · cases u <;> exact givesMask_of fun _ => rfl
  · exact givesMask_of fun _ => rfl
  · exact givesMask_of fun _ => rfl
  · exact givesMask_of fun _ => rfl
  · exact givesMask_of fun _ => rfl
  · exact givesMask_of fun _ => rfl
  · exact gives_of fun _ => rfl
  · exact gives_of fun s => by simp only [← popc32_eq]; rfl
  · exact gives_of fun s => by simp only [← ffs32_eq]; rfl

end Sys2Proof.Machine

namespace Sys2Proof.Machine

/-! ### Loads (R205, R206, R217, R218) -/

theorem sameAgents_orderAcquire (c : Ctx) (ord : Order) (s : State) : SameAgents s (c.acquire ord s) := by
  cases ord with
  | plain => exact SameAgents.refl s
  | ordered sc => exact sameAgents_acquire s _ _ sc

/-- A load whose access is in order: the loaded words are written, their writes pending, and it completes. -/
theorem load_done {i : Instr} {sz : LdSize} {d : Reg} {c : Ctx} {s u : State} {k : Ctx → State → State} (val : Nat → Nat)
    (hc : Clear false i c s) (hu : SameAgents (s.noted c i) u)
    (hk : k c (s.noted c i) = retire c (loadInto c sz d val u)) :
    ∃ t, issue i s k = .next t ∧ Done c 1 (c.sp.pc + 8) (wroteMany c.act d sz.regs (fun j l => ldWord sz (val l) j))
      keepMasks (pendAlso (regCodes (d, sz.regs))) u t := by
  obtain ⟨hg, hsp, ht, -, -⟩ := ctx_group hc.1
  have hg' : (s.noted c i).groups.find? c.gid = some c.grp := by simpa using hg
  have ht' : (s.noted c i).teams.find? c.grp.team = some c.team := by simpa using ht
  have hd := done_of_touched 1 (c.sp.pc + 8) (by rw [hu.groups]; exact hg') (by rw [hu.teams]; exact ht') hsp rfl
    (touched_pend (regCodes (d, sz.regs)) (touched_writeMany d sz.regs (fun j l => ldWord sz (val l) j)
      (touched_agents hu hg' ht')))
  exact ⟨_, issue_clear k hc (by rw [hk]; exact hd.moved (by decide)), by rw [hk]; exact hd⟩

/-- A core that lags behind nowhere sees memory itself. -/
theorem seenNat_of_noViews {s : State} {core : Nat} (h : (s.core core).views = []) (es : List StoreEntry) (ps : List Place) :
    s.seenNat core es ps = s.loadNat es ps := by
  have hb : ∀ p, s.seenByte core p = s.byteAt p := fun p => by simp [State.seenByte, h]
  simp only [State.seenNat, State.loadNat, hb]
  rfl

/-- Settles O9: a load whose access is in order writes what it reads there. -/
theorem loadsComplete : Obligations.LoadsComplete := by
  unfold Obligations.LoadsComplete
  refine ⟨fun sz ord d base idx off g c s hc hok => ?_, fun sz ord d base idx off g c s hc hok => ?_,
    fun s core es ps h => seenNat_of_noViews h es ps, fun b i => ⟨rfl, rfl, fun sz hbs hhs => ?_⟩⟩
  · exact load_done _ hc ((sameAgents_accessed ..).trans (sameAgents_orderAcquire c ord _)) (access_ok _ hok)
  · exact load_done _ hc ((sameAgents_accessed ..).trans (sameAgents_orderAcquire c ord _)) (access_ok _ hok)
  · cases sz with
    | bs => exact absurd rfl hbs
    | hs => exact absurd rfl hhs
    | b => rfl
    | h => rfl
    | w => rfl
    | d => rfl
    | q => rfl

end Sys2Proof.Machine

namespace Sys2Proof.Machine

/-! ### Branches, calls and returns (R63, R129) -/

/-- A change of the split's PC and nothing else has completed. -/
theorem done_goTo {c : Ctx} {s : State} (pc : DWord) (hg : s.groups.find? c.gid = some c.grp)
    (ht : s.teams.find? c.grp.team = some c.team) (hsp : c.grp.splits.find? c.slot = some c.sp) :
    Done c 1 pc keepRegs keepMasks keepRest s (goTo c pc s) :=
  done_of_touched 1 pc hg ht hsp rfl (touched_refl hg ht)

/-- An instruction that issues clear and only goes to a PC. -/
theorem goTo_done {i : Instr} {c : Ctx} {s : State} {k : Ctx → State → State} {pc : DWord} (hc : Clear false i c s)
    (hk : k c (s.noted c i) = goTo c pc (s.noted c i)) :
    ∃ t, issue i s k = .next t ∧ Done c 1 pc keepRegs keepMasks keepRest (s.noted c i) t := by
  obtain ⟨hg, hsp, ht, -, -⟩ := ctx_group hc.1
  exact issue_done hc (by decide) (by rw [hk]; exact done_goTo pc (by simpa using hg) (by simpa using ht) hsp)

/-- RET and BRX of an aligned target go there. -/
theorem indirect_done {i : Instr} {p : Fin 24} {c : Ctx} {s : State} (hc : Clear false i c s)
    (ha : (readPair c.grp p).toNat % 8 = 0) : ∃ t, issue i s (fun c s => indirect c p s) = .next t ∧
      Done c 1 (readPair c.grp p) keepRegs keepMasks keepRest (s.noted c i) t :=
  goTo_done hc (by simp only [indirect, ha, if_true])

/-- RET and BRX of a misaligned target trap (R56). -/
theorem indirect_trap {i : Instr} {p : Fin 24} {c : Ctx} {s : State} (hc : Clear false i c s)
    (hs : hAccesses c.grp.team c.grp.ggid i = []) (ha : (readPair c.grp p).toNat % 8 ≠ 0) :
    issue i s (fun c s => indirect c p s) =
      .next (takeTrap c { cause := 0x04, lanes := c.act, addr := readPair c.grp p } s) := by
  rw [issue, issueAs_noRegs _ hc hs]
  simp only [indirect, ha, if_false]

/-- What a register reads after CALL writes its pair: the return address, low word in the even register. -/
theorem wrote_pair (act : Word) (p : Fin 24) (v : DWord) (r : Reg) (l : Nat) (old : Word) :
    wrote act (.s (pairHi p)) (fun _ => v.extractLsb' 32 32) r l
      (wrote act (.s (pairLo p)) (fun _ => v.extractLsb' 0 32) r l old) =
    if r = .s (pairLo p) then v.extractLsb' 0 32
    else if r = .s (pairHi p) then v.extractLsb' 32 32 else old := by
  have hne : Reg.s (pairLo p) ≠ .s (pairHi p) := fun h => by
    have := congrArg Fin.val (Reg.s.inj h)
    simp [pairLo, pairHi] at this
  unfold wrote
  by_cases hlo : r = .s (pairLo p)
  · simp [hlo, hne]
  · simp [hlo]

/-- CALL's write of its pair, and of zero, which reads 0 before and after. -/
theorem touched_writePair {c : Ctx} {s : State} (p : Fin 24) (v : DWord) (hg : s.groups.find? c.gid = some c.grp)
    (ht : s.teams.find? c.grp.team = some c.team) :
    Touched c (fun r l old => if r = .s (pairLo p) then v.extractLsb' 0 32
      else if r = .s (pairHi p) then v.extractLsb' 32 32 else wrote c.act .zero (fun _ => 0) r l old)
      keepMasks keepRest s (writePair c p v s) := by
  have h := touched_writeReg (.s (pairHi p)) (fun _ => v.extractLsb' 32 32) (touched_writeReg (.s (pairLo p))
    (fun _ => v.extractLsb' 0 32) (touched_writeReg .zero (fun _ => 0) (touched_refl hg ht)))
  simp only [wrote_pair] at h
  exact h

/-- Settles O20: every branch goes to one PC; BRD that divides its split does so as its rule says. -/
theorem controlFlow : Obligations.ControlFlow := by
  unfold Obligations.ControlFlow
  refine ⟨fun off g c s hc => ?_, fun k off g c s hc => ?_, fun p off g c s hc => ?_,
    fun p g c s hc => ⟨fun ha => ?_, fun ha => ?_⟩, fun p g c s hc => ⟨fun ha => ?_, fun ha => ?_⟩,
    fun m off g c s hc => ?_, fun c s hc => ?_, fun n off c s hc => ?_, fun w c s hc => ?_⟩
  · exact goTo_done hc rfl
  · by_cases hk : c.rd k 0 = 0
    · rw [if_pos hk]
      exact goTo_done hc (if_pos hk)
    · rw [if_neg hk]
      exact goTo_done hc (if_neg hk)
  · obtain ⟨hg, hsp, ht, -, -⟩ := ctx_group hc.1
    exact issue_done hc (by decide) (done_of_touched 1 _ (by simpa using hg) (by simpa using ht) hsp rfl
      (touched_writePair p (c.sp.pc + 8) (by simpa using hg) (by simpa using ht)))
  · exact indirect_done hc ha
  · exact indirect_trap hc rfl ha
  · exact indirect_done hc ha
  · exact indirect_trap hc rfl ha
  · dsimp only
    refine ⟨fun htk => goTo_done hc (if_pos htk), fun htk hnt => goTo_done hc ((if_neg htk).trans (if_pos hnt)), ?_⟩
    rw [noted_noRegs s rfl]
    refine ⟨fun k htk hnt hk => ?_, fun htk hnt hk hst => ?_, fun htk hnt hk hst => ?_⟩
    all_goals
      refine (issueAs_noRegs _ hc rfl).trans (congrArg _ ?_)
      rw [if_neg htk, if_neg hnt, hk]
    · rfl
    · exact if_neg hst
    · exact if_pos hst
  · exact goTo_done hc rfl
  · exact goTo_done hc rfl
  · exact goTo_done hc rfl

end Sys2Proof.Machine

namespace Sys2Proof.Machine

/-! ### A turn of the agenda (R105, R113, R114) -/

/-- The turn of a ready split: the merges and the serial stack's work, then its word. -/
theorem step_issue {s u v : State} {gid slot : Nat} {rest : List Turn} {g0 g : Group} {sp0 sp : Split}
    (ha : s.agenda = .issue gid slot :: rest) (hu : u = { s with agenda := rest })
    (hg0 : u.groups.find? gid = some g0) (hsp0 : g0.splits.find? slot = some sp0) (hr : u.ready g0 sp0 = true)
    (hv : v = (u.mergeAll gid).modSplit gid slot Split.beforeIssue)
    (hg : v.groups.find? gid = some g) (hsp : g.splits.find? slot = some sp) :
    step s = issueWord gid slot g sp (v.asidOf g) v := by
  have hready : (g0.splits.find? slot).any (fun sp => u.ready g0 sp) = true := by simp [hsp0, hr]
  unfold step
  rw [ha]
  change issueTurn gid slot { s with agenda := rest } = _
  rw [← hu]
  unfold issueTurn
  simp only [hg0, hready, if_true]
  simp only [← hv, hg, hsp]

/-- A word that decodes executes as its instruction. -/
theorem runWord_ok {w : DWord} {i : Instr} (h : decode w = .ok i) (s : State) : runWord w s = exec i s := by
  simp only [runWord, h]

/-- A word that decodes to nothing raises the illegal-instruction event. -/
theorem runWord_error {w : DWord} (h : ∀ j, decode w ≠ .ok j) (s : State) :
    runWord w s = exec (.illegalInstruction w) s := by
  cases hd : decode w with
  | ok i => exact absurd hd (h i)
  | error e =>
    simp only [runWord, hd]
    rfl

/-- A PC of the global aperture whose walk permits the fetch is looked up in the line buffer, then in the die's cache. -/
theorem fetch_mapped {v : State} {core seq asid pa : Nat} {pc : DWord} (hpc : pc.toNat < 2 ^ 56)
    (hm : v.mapped asid .fetch pc.toNat = some pa) : v.fetch core seq asid pc =
      match ((v.core core).lineBuf seq).find? (icKey pa (v.asidTag asid)) with
      | some w => .word w none
      | none =>
        match (v.die (core / 48)).icache.find? (icKey pa (v.asidTag asid)) with
        | some w => .word w (some (pa, v.asidTag asid))
        | none => .miss pa (v.asidTag asid) := by
  have hb : bits pc.toNat 56 8 = 0 := by
    unfold bits
    omega
  simp only [State.fetch, hb, hm] <;> rfl

/-- A frozen sequencer waits for the line it missed. -/
theorem frozen_freeze (s : State) (core seq asid pa tag : Nat) (pc : DWord) :
    ((s.freeze core seq asid pa tag pc).core core).frozen.find? seq = some (pa, tag) := by
  rw [State.freeze, core_modCore, if_pos rfl]
  exact Map.find?_set_self ..

/-- Settles O56: one turn of the agenda, by what the fetch of its split meets. -/
theorem stepRunsTheDecodedInstruction : Obligations.StepRunsTheDecodedInstruction := by
  unfold Obligations.StepRunsTheDecodedInstruction
  refine ⟨?_, ?_, ?_, ?_⟩
  · intro s u v gid slot rest g0 sp0 g sp w line i ha hu hg0 hsp0 hr hv hg hsp hf
    have hstep : step s = endTurn (runWord w
        { v.buffer g.core g.seq line with cur := some { grp := gid, slot := slot, word := w } }) := by
      rw [step_issue ha hu hg0 hsp0 hr hv hg hsp, issueWord, hf]
    exact ⟨fun hd => by rw [hstep, runWord_ok hd], fun hd => by rw [hstep, runWord_error hd]⟩
  · intro v core seq asid pc pa w hpc hm
    rw [fetch_mapped hpc hm]
    exact ⟨fun h => by rw [h], fun h hi => by rw [h, hi]⟩
  · intro s u v gid slot rest g0 sp0 g sp pa tag ha hu hg0 hsp0 hr hv hg hsp hf
    exact ⟨_, by rw [step_issue ha hu hg0 hsp0 hr hv hg hsp, issueWord, hf], frozen_freeze ..⟩
  · intro s e rest ha he
    unfold step
    rw [ha]
    simp only [runTurn, isEvent, he]
    rfl

end Sys2Proof.Machine

namespace Sys2Proof.Machine

/-! ### Traps taken on purpose, and the return from a handler (R157, R160) -/

/-- An entry is changed according to what it holds. -/
theorem Map.modify_of_find? {α : Type} {m : Map α} {k : Nat} {a : α} (f : α → α) (h : m.find? k = some a) :
    m.modify k f = m.modify k (fun _ => f a) := by
  induction m with
  | nil => rfl
  | cons e m ih =>
    obtain ⟨j, b⟩ := e
    by_cases hk : k = j
    · simp_all [Map.find?, Map.modify]
    · simp_all [Map.find?, Map.modify]

/-- A group is changed according to what it is. -/
theorem modGroup_of_find? {s : State} {k : Nat} {g : Group} (f : Group → Group) (h : s.groups.find? k = some g) :
    s.modGroup k f = s.modGroup k (fun _ => f g) := by
  unfold State.modGroup
  rw [Map.modify_of_find? f h]

/-- ERET that ends a group's last lanes need not wait for its barriers' stores, its commands or its key. -/
theorem eret_proceeds {c : Ctx} {s : State} (hw : c.grp.members = [] ∨ c.grp.fifo = [])
    (hr : c.reckon = true → s.busy c.gid = false ∧ s.smallest c.team.cluster c.grp.key = true) :
    ¬ ((¬ c.grp.members.isEmpty ∧ ¬ c.grp.fifo.isEmpty) ∨
      (c.reckon ∧ (s.busy c.gid ∨ ¬ s.smallest c.team.cluster c.grp.key))) := by
  rintro (⟨hm, hf⟩ | ⟨hrk, h⟩)
  · rcases hw with hw | hw
    · exact hm (List.isEmpty_iff.2 hw)
    · exact hf (List.isEmpty_iff.2 hw)
  · obtain ⟨hb, hk⟩ := hr hrk
    rcases h with h | h
    · exact absurd (h.symm.trans hb) (by decide)
    · exact h hk

/-- Places of the trap frame in the group's save slot (R158, R159). -/
def Ctx.framePlaces (c : Ctx) (o n : Nat) : List Place :=
  (List.range n).map (fun k => (.global, c.grp.saveSlot + o + k))

/-- The PC that the frame says to resume at. -/
def Ctx.resumePc (c : Ctx) (s : State) : DWord := BitVec.ofNat 64 (s.loadNat c.grp.fifo (c.framePlaces 0x10 8))

/-- The lanes that the frame says to resume, but for those that other splits hold. -/
def Ctx.resumeMask (c : Ctx) (s : State) : Word :=
  BitVec.ofNat 32 (s.loadNat c.grp.fifo (c.framePlaces 0x20 4)) &&& c.grp.trapMask &&& ~~~c.grp.heldLanes c.slot

/-- The group once it has left its handler. -/
def Ctx.returned (c : Ctx) (s : State) : Group := c.grp.leave c.slot (c.resumePc s) (c.resumeMask s)

/-- The machine once the group has left its handler. -/
def Ctx.afterReturn (c : Ctx) (s : State) : State :=
  ((((s.touchPlaces (some c.grp.core) (c.tag s) (c.framePlaces 0 128)).modGroup c.gid (fun _ =>
    (c.returned s).count c.reckon 1 none)).issued c.grp.core c.grp.seq c.gid c.slot).lostLanes c.gid c.team.cluster c.reckon
    c.grp).retireGroup c.gid c.team.cluster c.reckon c.grp.key

/-- What ERET does, by the engine in the frame, the PC there, what the last lanes have to wait for, and the trap they owe. -/
theorem execEret_eq {g : Guard} {c : Ctx} {s : State} (hc : Clear false (.eret g) c s) : exec (.eret g) s = .next (
    if (c.framePlaces 0 128).any s.owned then s.callUnits (c.framePlaces 0 128)
    else if (c.resumePc s).toNat % 8 ≠ 0 then takeTrap c { cause := 0x04, lanes := c.act, addr := c.resumePc s } s
    else if (c.returned s).splits.isEmpty ∧ ((¬ c.grp.members.isEmpty ∧ ¬ c.grp.fifo.isEmpty) ∨
      (c.reckon ∧ (s.busy c.gid ∨ ¬ s.smallest c.team.cluster c.grp.key))) then s
    else
      match (if (c.returned s).splits.isEmpty then c.grp.owed else []) with
      | o :: _ => takeOwed c o s
      | [] => c.afterReturn s) := by
  have hg : (s.touchPlaces (some c.grp.core) (c.tag s) (c.framePlaces 0 128)).groups.find? c.gid = some c.grp := by
    rw [(sameAgents_touchPlaces _ _ _ _).groups]
    exact (ctx_group hc.1).1
  have hm := modGroup_of_find? (fun g => (g.leave c.slot (c.resumePc s) (c.resumeMask s)).count c.reckon 1 none) hg
  unfold Ctx.afterReturn
  rw [Ctx.returned, ← hm]
  exact issueAs_noRegs _ hc rfl

/-- The outcomes of ERET under the conditions of the statement. -/
theorem eret_outcomes {g : Guard} {c : Ctx} {s : State} (hc : Clear false (.eret g) c s) :
    ((c.framePlaces 0 128).any s.owned = true → exec (.eret g) s = .next (s.callUnits (c.framePlaces 0 128))) ∧
    ((c.framePlaces 0 128).any s.owned = false → (c.resumePc s).toNat % 8 ≠ 0 →
      exec (.eret g) s = .next (takeTrap c { cause := 0x04, lanes := c.act, addr := c.resumePc s } s)) ∧
    ((c.framePlaces 0 128).any s.owned = false → (c.resumePc s).toNat % 8 = 0 →
      ((c.returned s).splits = [] → c.grp.owed = [] ∧ (c.grp.members = [] ∨ c.grp.fifo = []) ∧
        (c.reckon = true → s.busy c.gid = false ∧ s.smallest c.team.cluster c.grp.key = true)) →
      exec (.eret g) s = .next (c.afterReturn s)) ∧
    (∀ o os, (c.framePlaces 0 128).any s.owned = false → (c.resumePc s).toNat % 8 = 0 → (c.returned s).splits = [] →
      c.grp.owed = o :: os → (c.grp.members = [] ∨ c.grp.fifo = []) →
      (c.reckon = true → s.busy c.gid = false ∧ s.smallest c.team.cluster c.grp.key = true) →
      exec (.eret g) s = .next (takeOwed c o s)) := by
  rw [execEret_eq hc]
  refine ⟨fun ho => ?_, fun ho hp => ?_, fun ho hp hlast => ?_, fun o os ho hp hs hw hf hr => ?_⟩
  · rw [if_pos ho]
  · rw [if_neg (ne_true_of_eq_false ho), if_pos hp]
  · rw [if_neg (ne_true_of_eq_false ho), if_neg (not_not.2 hp)]
    by_cases hs : (c.returned s).splits = []
    · obtain ⟨howed, hfifo, hkey⟩ := hlast hs
      rw [if_neg fun h => eret_proceeds hfifo hkey h.2, howed, ite_self]
    · have he : ¬ (c.returned s).splits.isEmpty = true := fun h => hs (List.isEmpty_iff.1 h)
      rw [if_neg fun h => he h.1, if_neg he]
  · rw [if_neg (ne_true_of_eq_false ho), if_neg (not_not.2 hp), if_neg fun h => eret_proceeds hf hr h.2,
      if_pos (List.isEmpty_iff.2 hs), hw]

/-- Settles O19: TRAP and BKPT are their trap, and ERET goes through its conditions one by one. -/
theorem trapsAndReturn : Obligations.TrapsAndReturn := by
  unfold Obligations.TrapsAndReturn
  refine ⟨fun code g c s hc _ => ?_, fun code g c s hc _ => ?_, fun w s loc c hcur hctx => ?_, fun g c s hc => ?_,
    fun grp g t s hg ha ht => ?_⟩
  · rw [noted_noRegs s rfl]
    exact issueAs_noRegs _ hc rfl
  · rw [noted_noRegs s rfl]
    exact issueAs_noRegs _ hc rfl
  · change execIllegalInstruction w s = _
    simp only [execIllegalInstruction, hcur, hctx]
    rfl
  · exact eret_outcomes hc
  · change execSramSoftError grp s = _
    simp only [execSramSoftError, hg, ha, ht, if_true]

end Sys2Proof.Machine

namespace Sys2Proof.Machine

/-! ### Submission rings (R434, R435) -/

/-- The entry of the ring whose turn it is goes to the command that it names. -/
theorem serveRing_of_gives {s u : State} {q cmd : Nat} {e : Entry} (h : RingGives s q cmd e u) {mine : Nat → Bool}
    (hm : mine cmd = true) (go : Entry → State → State) : s.serveRing q mine go = go e u := by
  obtain ⟨hready, hturn, hentry, hcmd⟩ := h
  obtain ⟨rfl, rfl⟩ := Prod.mk.inj hentry
  unfold State.serveRing
  rw [if_pos ⟨hready, hturn⟩]
  exact if_pos (by rw [hcmd]; exact hm)

/-- What the command does with the entry is what Helm's turn answers. -/
theorem next_of_gives {s u t : State} {q cmd : Nat} {e : Entry} (h : RingGives s q cmd e u) {mine : Nat → Bool}
    (hm : mine cmd = true) {go : Entry → State → State} (hgo : go e u = t) :
    (.next (s.serveRing q mine go) : Result) = .next t :=
  congrArg _ ((serveRing_of_gives h hm go).trans hgo)

/-- On another ring's turn nothing is served. -/
theorem serveRing_of_turn {s : State} {q : Nat} (h : s.ringTurn ≠ some q) (mine : Nat → Bool) (go : Entry → State → State) :
    s.serveRing q mine go = s := by
  unfold State.serveRing
  exact if_neg fun hs => h hs.2

theorem misaligned_eq_false {a : DWord} {n : Nat} (h : a.toNat % n = 0) : misaligned a n = false := by
  simp [misaligned, h]

theorem misaligned_eq_true {a : DWord} {n : Nat} (h : a.toNat % n ≠ 0) : misaligned a n = true := by
  simp [misaligned, h]

section
variable {q : Nat} {e : Entry} {u v : State}

/-! LAUNCH (R98, R429) -/

theorem launchEntry_misaligned (ha : e.addr.toNat % 256 ≠ 0) : launchEntry q e u = u.refuse q 0x01 e.cookie := by
  simp only [launchEntry, misaligned_eq_true ha, if_true]

theorem launchEntry_disabled (ha : e.addr.toNat % 256 = 0) (hen : u.asidEn (u.queue q).asid = false) :
    launchEntry q e u = u.refuse q 0x02 e.cookie := by
  simp [launchEntry, misaligned_eq_false ha, hen]

theorem launchEntry_unreadable (ha : e.addr.toNat % 256 = 0) (hen : u.asidEn (u.queue q).asid = true)
    (hr : u.readVa (u.queue q).asid e.addr.toNat 256 = (v, none)) : launchEntry q e u = v.refuse q 0x01 e.cookie := by
  simp [launchEntry, misaligned_eq_false ha, hen, hr]

/-- A record that is read is refused by R98 or enters its queue. -/
theorem launchEntry_read {x : State} {bs : List Byte} {b : Bool} (ha : e.addr.toNat % 256 = 0)
    (hen : u.asidEn (u.queue q).asid = true) (hr : u.readVa (u.queue q).asid e.addr.toNat 256 = (v, some bs))
    (hx : v.refusedRecord (u.queue q).asid (parseLaunch bs) = (x, b)) :
    launchEntry q e u = if b = false ∧ (parseLaunch bs).queue = q then
      x.enqueue q (Grid.enter (parseLaunch bs) e.addr q (u.queue q).asid (!(u.queue q).prefill) e.cookie)
      else (x.addCounter (u.queue q).asid (parseLaunch bs).doneAddr (parseLaunch bs).doneAdd).refuse q 0x01 e.cookie := by
  simp only [launchEntry, misaligned_eq_false ha, hen, hr, hx]
  by_cases hb : b = false ∧ (parseLaunch bs).queue = q
  · simp [hb]
  · have hno : b = true ∨ (parseLaunch bs).queue ≠ q := by
      cases b <;> simp_all
    simp [hb, hno]

/-! ADMIT (R440, R441) -/

theorem admitEntry_misaligned (ha : e.addr.toNat % 256 ≠ 0) : admitEntry q e u = u.refuse q 0x12 e.cookie := by
  simp only [admitEntry, misaligned_eq_true ha, if_true]

/-- An image that is legal, of a model of the ring's ASID, is admitted where there is a record and room for its table. -/
theorem admitEntry_legal {bs : List Byte} {m : Model} (ha : e.addr.toNat % 256 = 0)
    (hr : u.readVa (u.queue q).asid e.addr.toNat 256 = (v, some bs)) (hm : v.model? (parseRequest bs q).model = some m)
    (hasid : m.asid = (u.queue q).asid) (hok : (parseRequest bs q).ok = true) {die : Nat}
    (hdie : die = (if (v.records 1).length < (v.records 0).length then 1 else 0)) :
    admitEntry q e u = match v.freeRecord die, v.tablePlace die m with
      | some h, some bt => ((((({ v.bump with
          requests := v.requests.set h { parseRequest bs q with
            btBase := bt, btBytes := m.tableBytes, admseq := v.helm.admseq.toNat }
          } : State).modHelm (fun x => { x with admseq := x.admseq + 1 })).touch 0 bt m.tableBytes).physStore bt
            (List.replicate m.tableBytes 0xFF)).postOpen q 3 none (some h) none none e.cookie)
      | _, _ => v.refuse q 0x11 e.cookie := by
  subst hdie
  simp only [admitEntry, misaligned_eq_false ha, hr, hm, Option.filter, hasid, hok] <;> rfl

/-- Any other image is refused. -/
theorem admitEntry_illegal {bs : Option (List Byte)} (ha : e.addr.toNat % 256 = 0)
    (hr : u.readVa (u.queue q).asid e.addr.toNat 256 = (v, bs))
    (hno : ∀ b m, bs = some b → v.model? (parseRequest b q).model = some m → m.asid = (u.queue q).asid →
      (parseRequest b q).ok = false) : admitEntry q e u = v.refuse q 0x12 e.cookie := by
  cases bs with
  | none => simp [admitEntry, misaligned_eq_false ha, hr]
  | some b =>
    simp only [admitEntry, misaligned_eq_false ha, hr]
    cases hf : (v.model? (parseRequest b q).model).filter (fun m => m.asid = (u.queue q).asid) with
    | none => simp
    | some m =>
      obtain ⟨hm, hasid⟩ := Option.filter_eq_some_iff.1 hf
      simp [hno b m rfl hm (of_decide_eq_true hasid)]

/-! CANCEL (R443) -/

theorem cancelEntry_found {r : Request} (hr : u.requests.find? e.arg0 = some r) : cancelEntry q e u =
    if (u.model? r.model).any (fun m => m.asid ≠ (u.queue q).asid) = true then u.refuse q 0x13 e.cookie
    else if r.cancel = true then u else u.failReq e.arg0 0x10 := by
  simp only [cancelEntry, hr]

theorem cancelEntry_none (hr : u.requests.find? e.arg0 = none) : cancelEntry q e u = u.refuse q 0x13 e.cookie := by
  simp only [cancelEntry, hr]

/-! MODEL and MODELDEL (R438, R439) -/

theorem modelEntry_refused (h : e.addr.toNat % 256 ≠ 0 ∨ 255 < e.arg0 ∨ (u.model? e.arg0).isSome) :
    modelEntry q e u = u.refuse q 0x12 e.cookie := by
  have hm : misaligned e.addr 256 = true ∨ 255 < e.arg0 ∨ (u.model? e.arg0).isSome := h.imp_left misaligned_eq_true
  simp only [modelEntry, hm, if_true]

/-- An aligned record with a number that is free is read. -/
theorem modelEntry_unreadable (ha : e.addr.toNat % 256 = 0) (hn : e.arg0 ≤ 255) (hm : u.model? e.arg0 = none)
    (hr : u.readVa (u.queue q).asid e.addr.toNat 1024 = (v, none)) : modelEntry q e u = v.refuse q 0x12 e.cookie := by
  simp [modelEntry, misaligned_eq_false ha, hn, hm, hr]

/-- A record that is read, and its templates too, is registered where it passes R439's checks. -/
theorem modelEntry_read {v1 v2 v3 : State} {bs : List Byte} {m : Model} {x y z : Option LaunchRecord}
    (ha : e.addr.toNat % 256 = 0) (hn : e.arg0 ≤ 255) (hnone : u.model? e.arg0 = none)
    (hr : u.readVa (u.queue q).asid e.addr.toNat 1024 = (v, some bs)) (hm : m = parseModel bs (u.queue q).asid)
    (hx : v.template m.asid m.pflrAt = (v1, some x)) (hy : v1.template m.asid m.declrAt = (v2, some y))
    (hz : v2.template m.asid m.mixedlrAt = (v3, some z)) : modelEntry q e u =
      if leAt bs 0 1 = 1 ∧ m.pflrAt.toNat % 256 = 0 ∧ m.declrAt.toNat % 256 = 0 ∧ m.mixedlrAt.toNat % 256 = 0 ∧ m.ok = true ∧
        v3.poolsOk m = true ∧ templateBad m x = false ∧ templateBad m y = false ∧ templateBad m z = false then
        ({ v3 with models := v3.models.set e.arg0 { m with pflr := x, declr := y, mixedlr := z } }).postOpen q 7 none
          (some e.arg0) none none e.cookie
      else v3.refuse q 0x12 e.cookie := by
  have hfree : ¬ (misaligned e.addr 256 = true ∨ 255 < e.arg0 ∨ (u.model? e.arg0).isSome = true) := by
    simp [misaligned_eq_false ha, hn, hnone]
  have hasid : m.asid = (u.queue q).asid := by rw [hm]; rfl
  rw [hasid] at hx hy hz
  simp only [modelEntry, hfree, if_false, hr, ← hm, hx, hy, hz]
  have hbad : (leAt bs 0 1 ≠ 1 ∨ [m.pflrAt, m.declrAt, m.mixedlrAt].any (fun p => misaligned p 256) = true ∨ ¬ m.ok = true ∨
      ¬ v3.poolsOk m = true ∨ templateBad m x = true ∨ templateBad m y = true ∨ templateBad m z = true) ↔
      ¬ (leAt bs 0 1 = 1 ∧ m.pflrAt.toNat % 256 = 0 ∧ m.declrAt.toNat % 256 = 0 ∧ m.mixedlrAt.toNat % 256 = 0 ∧ m.ok = true ∧
        v3.poolsOk m = true ∧ templateBad m x = false ∧ templateBad m y = false ∧ templateBad m z = false) := by
    simp only [List.any_cons, List.any_nil, misaligned, Bool.or_eq_true, bne_iff_ne, ← Bool.not_eq_true]
    tauto
  simp only [hbad, ite_not]

theorem modeldelEntry_found {m : Model} (hm : u.model? e.arg0 = some m) (hasid : m.asid = (u.queue q).asid) :
    modeldelEntry q e u = if u.requests.any (fun r => r.2.st.live && r.2.model == e.arg0) = true then
      u.refuse q 0x14 e.cookie
    else ({ u with models := u.models.erase e.arg0 }).postOpen q 7 none (some e.arg0) none none e.cookie := by
  simp only [modeldelEntry, hm, Option.any_some, hasid, decide_true, not_true_eq_false, if_false]

theorem modeldelEntry_other (h : ∀ m, u.model? e.arg0 = some m → m.asid ≠ (u.queue q).asid) :
    modeldelEntry q e u = u.refuse q 0x12 e.cookie := by
  cases hm : u.model? e.arg0 with
  | none => simp [modeldelEntry, hm]
  | some m => simp [modeldelEntry, hm, h m hm]

end

/-- Settles O40: the ring whose turn it is hands its entry to the command, whose cases are the lemmas above. -/
theorem ringCommands : Obligations.RingCommands := by
  unfold Obligations.RingCommands
  refine ⟨?_, ?_, ?_, ?_, ?_, ?_, ?_, ?_, ?_, ?_, ?_, ?_, ?_, ?_, ?_, ?_⟩
  · intro q e s u v x bs b h ha hen hr hx
    exact next_of_gives h rfl (launchEntry_read ha hen hr hx)
  · intro q e s u h ha
    exact next_of_gives h rfl (launchEntry_misaligned ha)
  · intro q e s u h ha hen
    exact next_of_gives h rfl (launchEntry_disabled ha hen)
  · intro q e s u v h ha hen hr
    exact next_of_gives h rfl (launchEntry_unreadable ha hen hr)
  · intro q e s u v bs r m die h ha hr hreq hm hasid hok hdie
    subst hreq
    exact next_of_gives h rfl (admitEntry_legal ha hr hm hasid hok hdie)
  · intro q e s u h ha
    exact next_of_gives h rfl (admitEntry_misaligned ha)
  · intro q e s u v bs h ha hr hno
    exact next_of_gives h rfl (admitEntry_illegal ha hr hno)
  · intro q e s u r h hr
    exact next_of_gives h rfl (cancelEntry_found hr)
  · intro q e s u h hr
    exact next_of_gives h rfl (cancelEntry_none hr)
  · intro q e s u v v1 v2 v3 bs m x y z h ha hn hnone hr hm hx hy hz
    exact next_of_gives h rfl (modelEntry_read ha hn hnone hr hm hx hy hz)
  · intro q e s u h hbad
    exact next_of_gives h rfl (modelEntry_refused hbad)
  · intro q e s u v h ha hn hnone hr
    exact next_of_gives h rfl (modelEntry_unreadable ha hn hnone hr)
  · intro q e s u m h hm hasid
    exact next_of_gives h rfl (modeldelEntry_found hm hasid)
  · intro q e s u h hno
    exact next_of_gives h rfl (modeldelEntry_other hno)
  · intro q e s u h hcmd
    exact next_of_gives h (by simpa using hcmd) rfl
  · intro q s h
    refine ⟨?_, ?_, ?_, ?_, ?_, ?_⟩
    all_goals exact congrArg _ (serveRing_of_turn h _ _)

end Sys2Proof.Machine

namespace Sys2Proof.Machine

/-! ### Dispatch (R94, R451) -/

/-- The head of a queue that the priorities choose is dispatched, unless a step grid of its role goes first. -/
theorem execGridDispatch_head {q gid prio : Nat} {g : Grid} {s : State} (hq : q < 64)
    (hb : bestHead s.heads = some (q, gid, prio)) (hg : s.grids.find? gid = some g)
    (hs : [b2n g.decodeRole, b2n g.decodeRole + 2].any (fun p => (s.stepGrid p).any s.candidate) = false) :
    execGridDispatch q s = .next (s.dispatch gid) := by
  have hrole : ((s.grids.find? gid).map (fun (g : Grid) => b2n g.decodeRole)).getD 0 = b2n g.decodeRole := by rw [hg]; rfl
  simp only [execGridDispatch, Nat.not_le.2 hq, if_false, hb, hrole, hs]
  rfl

/-- The step grid of a partition is dispatched. -/
theorem execGridDispatch_step {p gid : Nat} {s : State} (hp : s.stepGrid p = some gid) (hc : s.candidate gid = true) :
    execGridDispatch (64 + p) s = .next (s.dispatch gid) := by
  simp only [execGridDispatch, Nat.le_add_right, if_true, Nat.add_sub_cancel_left, hp, hc]

theorem dispatch_eq {gid : Nat} {g : Grid} {s : State} (hg : s.grids.find? gid = some g) :
    s.dispatch gid = ((g.record.used.foldl (fun (s : State) d => (s.natVa g.asid d.1.toNat 8).1) s).modGrid gid
      (fun x => { x with stage := .dispatched })).keepFetched := by
  simp only [State.dispatch, hg]

/-- A grid without dependences is dispatched, and no other grid changes. -/
theorem dispatch_grids {gid : Nat} {g : Grid} {s : State} (hg : s.grids.find? gid = some g) (hu : g.record.used = []) :
    (s.dispatch gid).grids = s.grids.modify gid (fun x => { x with stage := .dispatched }) := by
  rw [dispatch_eq hg, hu]
  rfl

/-! ### Leases (R454, R525) -/

section
variable {gid : Nat} {g : Grid} {s u v : State} (hg : s.grids.find? gid = some g) (hst : g.stage = .dispatched)
include hg hst

theorem execLeaseStage_disabled (hen : s.asidEn g.asid = false) : execLeaseStage gid s = .next (s.refuseGrid gid 0x02) := by
  simp [execLeaseStage, hg, hst, hen]

theorem execLeaseStage_unreadable (hen : s.asidEn g.asid = true) (hl : s.leaseList g = (u, none)) :
    execLeaseStage gid s = .next (u.refuseGrid gid 0x02) := by
  simp [execLeaseStage, hg, hst, hen, hl]

theorem execLeaseStage_outside {rs : List (Nat × Nat)} (hen : s.asidEn g.asid = true) (hl : s.leaseList g = (u, some rs))
    (hus : leaseUnits rs = none) : execLeaseStage gid s = .next (u.refuseGrid gid 0x02) := by
  simp [execLeaseStage, hg, hst, hen, hl, hus]

/-- A lease list that is read is staged page by page, and refused with the first page that is. -/
theorem execLeaseStage_staged {rs : List (Nat × Nat)} {us : List Nat} {b : Bool} (hen : s.asidEn g.asid = true)
    (hl : s.leaseList g = (u, some rs)) (hus : leaseUnits rs = some us) (hx : u.stageAll gid g.asid us = (v, b)) :
    execLeaseStage gid s = .next (if b then (v.markParts g).modGrid gid (fun y => { y with stage := .leased, leases := rs })
      else v.refuseGrid gid 0x02) := by
  simp [execLeaseStage, hg, hst, hen, hl, hus, hx]

end

/-! ### The save arena (R428) -/

/-- Stage 3, by the arena's size and what is free of it. -/
theorem execSaveAreaAllocate_eq {gid : Nat} {g : Grid} {s : State} (hg : s.grids.find? gid = some g) (hst : g.stage = .leased) :
    execSaveAreaAllocate gid s = .next (if s.helm.savSize.toNat < g.arenaNeed then s.refuseGrid gid 0x02
      else match firstFit s.helm.savBase.toNat s.helm.savSize.toNat 256 g.arenaNeed (s.grids.filterMap (fun e => e.2.arena)) with
        | none => s
        | some base => s.modGrid gid (fun x => { x with
            stage := .saved, arena := some (base, g.arenaNeed), saves := [(base, g.teamCount * areaSize g.slots)] })) := by
  simp [execSaveAreaAllocate, hg, hst] <;> rfl

/-! ### Holds (R425) -/

theorem PageState.away_eq (st : PageState) : st.away = decide (st ≠ .resident) := by
  cases st <;> rfl

/-- Stage 4, by mode and by whether the grid has its holds. -/
theorem execHoldAcquire_eq {gid : Nat} {g : Grid} {s : State} (hg : s.grids.find? gid = some g) (hst : g.stage = .saved) :
    execHoldAcquire gid s = .next (
      if g.record.reckon = false then s.modGrid gid (fun x => { x with stage := .held })
      else if g.holding = true then
        if g.holds.any (fun n => (s.pages.find? n).any (fun (p : Page) => decide (p.st ≠ .resident))) = true then s.fetchAll g.holds
        else s.modGrid gid (fun x => { x with stage := .held })
      else if (s.holdPages g).2.any (fun n =>
          ((s.holdPages g).1.pages.find? n).any (fun (p : Page) => decide (255 ≤ p.holds))) = true then (s.holdPages g).1
      else (((s.holdPages g).2.foldl (fun (s : State) (n : Nat) => s.modPage n (fun q => { q with holds := q.holds + 1 }))
        (s.holdPages g).1).modGrid gid (fun y => { y with holds := (s.holdPages g).2, holding := true })).fetchAll
          (s.holdPages g).2) := by
  simp only [execHoldAcquire, hg, hst, ← PageState.away_eq, ← Bool.not_eq_true]
  rfl

/-! ### Completion (R95, R428) -/

/-- No grid has this number. -/
def State.lacksGrid (s : State) (gid : Nat) : Prop := s.grids.find? gid = none

/-- A change of every entry lists no new number. -/
theorem find?_map_none {α β : Type} {m : Map α} {k : Nat} (h : m.find? k = none) (f : Nat × α → β) :
    Map.find? (m.map (fun e => (e.1, f e))) k = none := by
  rw [Map.find?_map m (fun j a => f (j, a)) k, h]
  rfl

/-- A write notes written pages in the grids that pin them, and adds no grid. -/
theorem lacksGrid_putByte {s : State} {gid : Nat} (h : s.lacksGrid gid) (p : Place) (b : Byte) :
    (s.putByte p b).lacksGrid gid := by
  have hlog : (s.logByte p).lacksGrid gid := by
    unfold State.logByte
    split <;> exact h
  have hstale : ∀ (u : State) sp lo hi, u.lacksGrid gid → (u.markStale sp lo hi).lacksGrid gid := by
    intro u sp lo hi hu
    unfold State.markStale
    split <;> exact hu
  obtain ⟨sp, a⟩ := p
  cases sp with
  | spad c => exact hstale _ _ _ _ hlog
  | wbuf c => exact hstale _ _ _ _ hlog
  | global =>
    refine (congrArg (fun m : Map Grid => m.find? gid) (sameAgents_physStore _ a [b]).grids).trans ?_
    unfold State.markWritten
    split
    · exact find?_map_none hlog _
    · exact hlog

theorem lacksGrid_writePhys {s : State} {gid : Nat} (h : s.lacksGrid gid) (pa : Nat) (bs : List Byte) :
    (s.writePhys pa bs).lacksGrid gid := by
  have hput : ∀ (ps : List (Place × Byte)) (u : State), u.lacksGrid gid → (u.putBytes ps).lacksGrid gid := by
    intro ps
    induction ps with
    | nil => exact fun u hu => hu
    | cons e ps ih => exact fun u hu => ih _ (lacksGrid_putByte hu e.1 e.2)
  refine hput _ _ ?_
  exact (congrArg (fun m : Map Grid => m.find? gid) (sameAgents_touchPlaces s none 0 _).grids).trans h

/-- Events written to a queue's ring add no grid. -/
theorem lacksGrid_flushFor {s : State} {gid : Nat} (h : s.lacksGrid gid) (q fuel : Nat) : (s.flushFor q fuel).lacksGrid gid := by
  induction fuel generalizing s with
  | zero => exact h
  | succ fuel ih =>
    unfold State.flushFor
    dsimp only
    split
    · exact h
    · split
      · refine ih ?_
        split <;> exact lacksGrid_writePhys h _ _
      · exact h

theorem lacksGrid_post {s : State} {gid : Nat} (h : s.lacksGrid gid) (q : Nat) (bytes : List Byte) (frees : Option Nat) :
    (s.post q bytes frees).lacksGrid gid := by
  unfold State.post
  split
  · exact lacksGrid_flushFor (s := s.modQueue q _) h _ _
  · cases frees <;> exact h

/-- A grid that completes, and is no step grid, is gone. -/
theorem completeGrid_gone {gid : Nat} {g : Grid} (s : State) (hs : g.step = none) :
    (s.completeGrid gid g).grids.find? gid = none := by
  have hend : ∀ (u : State) status, u.lacksGrid gid → (match g.parent with
      | some t => (u.post g.queue g.event none).childDone t status
      | none => u.post g.queue g.event none).lacksGrid gid := by
    intro u status hu
    cases g.parent with
    | none => exact lacksGrid_post hu _ _ _
    | some t => exact lacksGrid_post hu g.queue g.event none
  unfold State.completeGrid
  rw [hs]
  exact hend _ _ (Map.find?_erase_self _ _)

theorem execGridCompletion_eq {gid : Nat} {g : Grid} {s : State} (hg : s.grids.find? gid = some g) :
    execGridCompletion gid s = .next (if s.gridEnded gid g then s.completeGrid gid g else s) := by
  simp only [execGridCompletion, hg]

/-! ### The watchdog (R437) -/

/-- The watchdog of a grid that is not ending goes on with the groups it has named, or names them. -/
theorem execWatchdogTrap_eq {gid : Nat} {g : Grid} {s : State} (hg : s.grids.find? gid = some g) (he : g.ending = none)
    (hw : (s.queue g.queue).wdog ≠ 0) : execWatchdogTrap gid s = .next (match g.dog with
      | some gs => s.dogTraps gid gs
      | none =>
        if s.gridBegun gid g then (s.modGrid gid (fun x => { x with
          dog := some (Map.keys ((s.gridGroups gid).filter (fun e => e.2.alive))) })).dogTraps gid
            (Map.keys ((s.gridGroups gid).filter (fun e => e.2.alive)))
        else s) := by
  simp [execWatchdogTrap, hg, he, hw] <;> rfl

theorem execWatchdogEnd_running {gid : Nat} {g : Grid} {dog : List Nat} {s : State} (hg : s.grids.find? gid = some g)
    (he : g.ending = none) (hd : g.dog = some dog) : execWatchdogEnd gid s =
      .next (s.endGrid gid { status := 0x05, ggid := 0xFFFFFFFF, cause := 0, epc := 0 }) := by
  simp [execWatchdogEnd, hg, he, hd]

/-- A grid of which some group has issued has begun. -/
theorem gridBegun_of_issued {gid : Nat} {g : Grid} {s : State}
    (h : (s.gridGroups gid).any (fun e => e.2.lastSlot.isSome) = true) : s.gridBegun gid g = true := by
  rw [State.gridBegun, h, Bool.true_or]

/-! ### Placement (R452, R453, R456) -/

/-- While MEMCFG changes no cluster is placed (R533). -/
theorem execClusterPlace_changing {gid : Nat} {s : State} (h : s.ms.change.isSome = true) : execClusterPlace gid s = .next s := by
  unfold execClusterPlace
  split
  · rfl
  · rw [if_pos h]

/-- A swapped cluster has the place first; otherwise the next cluster is placed. -/
theorem execClusterPlace_eq {gid : Nat} {g : Grid} {s : State} (hg : s.grids.find? gid = some g) (hc : s.ms.change = none) :
    execClusterPlace gid s = .next (match s.awayClusters gid with
      | cl :: _ => if g.ending.isSome ∨ s.headWaits g then s else s.returnCluster gid g cl
      | [] => if g.placing ∧ ¬ s.returnFirst gid g then s.placeNext gid g else s) := by
  simp [execClusterPlace, hg, hc] <;> rfl

theorem execTeamStart_room {core tid base : Nat} {ts : List Nat} {s : State} (hq : (s.core core).dispatchQ = tid :: ts)
    (hp : (s.part (s.partOf core)).halt = .run) (hh : (s.core core).halted = false)
    (hr : s.roomAt core (s.teamNeed tid) = some base) :
    execTeamStart core s = .next ((s.modCore core (fun k => { k with dispatchQ := ts })).enterCore tid core base) := by
  simp [execTeamStart, hq, hp, hh, hr]

theorem execWorkSteal_steals {core c tid : Nat} {s : State} (hp : (s.placeable (s.partOf core)).contains core = true)
    (hn : s.groupsOn core = []) (hq : (s.core core).dispatchQ = []) (hl : s.longQueue core = some c)
    (ht : (s.core c).dispatchQ.getLast? = some tid) :
    execWorkSteal core s = .next ((s.modCore c (fun k => { k with dispatchQ := k.dispatchQ.dropLast })).modCore core
      (fun k => { k with dispatchQ := k.dispatchQ ++ [tid] })) := by
  simp only [execWorkSteal, hp, hn, hq, hl, ht]
  rfl

/-- The lowest-PRIO grid below a head that cannot be placed gives up the cluster it placed last, once its teams may leave. -/
theorem execTeamSwapOut_idle {gid cl : Nat} {g : Grid} {s : State} (hg : s.grids.find? gid = some g)
    (hw : s.grids.any (fun e => s.stuck e.2 && e.2.decodeRole == g.decodeRole &&
      (s.yielders g.decodeRole e.2.record.prio).any (fun y => y.1 = gid) &&
      (s.yielders g.decodeRole e.2.record.prio).all (fun y => decide (g.record.prio ≤ y.2.record.prio))) = true)
    (hl : s.lastPlaced gid = some cl)
    (hi : ((s.clusterTeams cl).filter (fun t => t.2.started && !t.2.swapped)).all (fun t => s.teamIdle t.1) = true) :
    execTeamSwapOut gid s = .next (((s.clusterTeams cl).filter (fun t => t.2.started && !t.2.swapped)).foldl
      (fun (s : State) (t : Nat × Team) => s.swapOut t.1 false false) s) := by
  simp only [execTeamSwapOut, hg, hw, hl, hi, not_true_eq_false, if_true, if_false]

/-- Settles O42: each event by the branch of its function that the premises choose. -/
theorem gridLife : Obligations.GridLife := by
  unfold Obligations.GridLife
  refine ⟨?_, ?_, ?_, ?_, ?_, ?_, ?_, ?_, ?_, ?_, ?_, ?_, ?_, ?_, ?_, ?_, ?_, ?_, ?_, ?_, ?_⟩
  · intro q q' gid prio g s hq hb hqq hg hs
    subst hqq
    exact execGridDispatch_head hq hb hg hs
  · intro p gid s hp hc
    exact execGridDispatch_step hp hc
  · intro gid g s hg
    refine ⟨dispatch_eq hg, fun hu => ?_⟩
    rw [dispatch_grids hg hu]
    exact ⟨by rw [Map.find?_modify_self, hg]; rfl, fun k hk => Map.find?_modify_other _ _ _ _ hk⟩
  · intro gid g s u v rs us hg hst hen hl hus hx
    exact execLeaseStage_staged hg hst hen hl hus hx
  · intro gid g s hg hst hen
    exact execLeaseStage_disabled hg hst hen
  · intro gid g s u hg hst hen hl
    exact execLeaseStage_unreadable hg hst hen hl
  · intro gid g s u rs hg hst hen hl hus
    exact execLeaseStage_outside hg hst hen hl hus
  · intro gid g s u v rs us hg hst hen hl hus hx
    exact execLeaseStage_staged hg hst hen hl hus hx
  · intro gid g s base hg hst
    refine ⟨fun hn => ?_, fun hn hf => ?_, fun hn hf => ?_⟩
    all_goals refine (execSaveAreaAllocate_eq hg hst).trans (congrArg _ ?_)
    · rw [if_pos hn]
    · rw [if_neg (Nat.not_lt.2 hn), hf]
    · rw [if_neg (Nat.not_lt.2 hn), hf]
  · intro gid g s hg hst
    refine ⟨fun hr => ?_, fun hr hh ha => ?_, fun hr hh ha => ?_, fun u ns hr hh hp => ?_⟩
    all_goals refine (execHoldAcquire_eq hg hst).trans (congrArg _ ?_)
    · rw [if_pos hr]
    · rw [if_neg (by simp [hr]), if_pos hh, if_neg (by rw [ha]; decide)]
    · rw [if_neg (by simp [hr]), if_pos hh, if_pos ha]
    · rw [if_neg (by simp [hr]), if_neg (by simp [hh]), hp]
  · intro gid g s hg hc
    refine ⟨fun ha hp hr => ?_, fun cl cls ha he hw => ?_⟩
    all_goals refine (execClusterPlace_eq hg hc).trans (congrArg _ ?_)
    · simp [ha, hp, hr]
    · simp [ha, he, hw]
  · intro gid s h
    exact execClusterPlace_changing h
  · intro core tid ts base s hq hp hh hr
    exact execTeamStart_room hq hp hh hr
  · intro core c tid s hp hn hq hl ht
    exact execWorkSteal_steals hp hn hq hl ht
  · intro gid g cl ts s hg hw hl hts hi
    subst hts
    exact execTeamSwapOut_idle hg hw hl hi
  · intro gid g s hg he
    exact ⟨(execGridCompletion_eq hg).trans (congrArg _ (if_pos he)), completeGrid_gone s⟩
  · intro gid g s hg he
    exact (execGridCompletion_eq hg).trans (congrArg _ (if_neg (by rw [he]; decide)))
  · intro gid g s hg he hw hd hb
    refine (execWatchdogTrap_eq hg he hw).trans (congrArg _ ?_)
    rw [hd]
    exact if_pos hb
  · intro gid g dog s hg he hw hd
    refine (execWatchdogTrap_eq hg he hw).trans (congrArg _ ?_)
    rw [hd]
  · intro gid g s _ h
    exact gridBegun_of_issued h
  · intro gid g dog s hg he hd
    exact execWatchdogEnd_running hg he hd

end Sys2Proof.Machine

namespace Sys2Proof.Machine

/-! ### Bytes written and read back (R1) -/

theorem Mem.bytes_eq (m : Mem) (a n : Nat) : m.bytes a n = (List.range n).map (fun k => m.byte (a + k)) := by
  induction n generalizing a with
  | zero => rfl
  | succ n ih =>
    rw [Mem.bytes, ih, List.range_succ_eq_map, List.map_cons, List.map_map]
    exact congrArg _ (List.map_congr_left fun k _ => congrArg m.byte (by simp; omega))

/-- A place that no put byte names holds what it held. -/
theorem byteAt_putBytes_other (s : State) {ps : List (Place × Byte)} {q : Place} (h : q ∉ ps.map Prod.fst) :
    (s.putBytes ps).byteAt q = s.byteAt q := by
  have hf : ps.reverse.find? (fun e => e.1 = q) = none := by
    simp only [List.find?_eq_none, List.mem_reverse, decide_eq_true_eq]
    exact fun e he hq => h (List.mem_map.2 ⟨e, he, hq⟩)
  simp [byteAt_putBytes, hf]

/-- A place that one put byte names, and no other, holds it. -/
theorem byteAt_putBytes_mem (s : State) {ps : List (Place × Byte)} {q : Place} {b : Byte} (hn : (ps.map Prod.fst).Nodup)
    (hm : (q, b) ∈ ps) (hq : placeOk s q = true) : (s.putBytes ps).byteAt q = b := by
  rw [byteAt_putBytes, if_pos hq]
  cases hf : ps.reverse.find? (fun e => e.1 = q) with
  | none =>
    simp only [List.find?_eq_none, List.mem_reverse, decide_eq_true_eq] at hf
    exact absurd rfl (hf _ hm)
  | some e =>
    have he : e.1 = q := by simpa using List.find?_some hf
    have := List.inj_on_of_nodup_map hn (List.mem_reverse.1 (List.mem_of_find?_eq_some hf)) hm he
    simp [this]

/-! ### Barrier objects in their 16 bytes (R135) -/

theorem sameBytes_seeUnit (s : State) (u : Place) : SameBytes s (s.seeUnit u) := by
  unfold State.seeUnit
  split
  · exact SameBytes.refl s
  · exact ⟨rfl, rfl, fun _ => rfl,
      fun k => find?_getD_map s.cores (fun _ c => { c with views := c.views.filter (fun v => v.unit ≠ u) }) k Core.reset
        (fun c => c.spad) (fun _ _ => rfl),
      fun k => find?_getD_map s.cores (fun _ c => { c with views := c.views.filter (fun v => v.unit ≠ u) }) k Core.reset
        (fun c => c.wbuf) (fun _ _ => rfl)⟩

theorem b2n_bit (n i : Nat) : b2n (bit n i) = n / 2 ^ i % 2 := by
  rw [b2n, bit, Nat.testBit_eq_decide_div_mod_eq]
  rcases Nat.mod_two_eq_zero_or_one (n / 2 ^ i) with h | h <;> simp [h]

/-- The 128 bits of an object read from a number are the number. -/
theorem BarObj.toNat_ofNat {n : Nat} (h : n < 2 ^ 128) : (BarObj.ofNat n).toNat = n := by
  simp only [BarObj.ofNat, BarObj.toNat, BitVec.ofInt_toInt, BitVec.toNat_ofNat, b2n_bit, bits]
  omega

theorem BarObj.toNat_lt (o : BarObj) : o.toNat < 256 ^ 16 := by
  have hb : ∀ b, b2n b ≤ 1 := by decide
  have := hb o.phase
  have := hb o.unit
  have := hb o.scope
  have := hb o.broken
  have := (BitVec.ofInt 32 o.pendBytes).isLt
  unfold BarObj.toNat
  omega

/-- The places and bytes of an object. -/
def BarObj.cells (o : BarObj) (core off : Nat) : List (Place × Byte) :=
  ((List.range 16).zip (leBytes 16 o.toNat)).map (fun e => ((.spad core, off + e.1), e.2))

theorem BarObj.cells_places (o : BarObj) (core off : Nat) :
    (o.cells core off).map Prod.fst = (List.range 16).map (fun k => (.spad core, off + k)) := by
  have hz : ((List.range 16).zip (leBytes 16 o.toNat)).map Prod.fst = List.range 16 :=
    List.map_fst_zip (by simp)
  conv => rhs; rw [← hz]
  simp [BarObj.cells]

/-- Byte `k` of an object is among its cells. -/
theorem BarObj.mem_cells (o : BarObj) (core off : Nat) {k : Nat} (h : k < 16) :
    ((.spad core, off + k), (leBytes 16 o.toNat)[k]'(by simpa using h)) ∈ o.cells core off := by
  refine List.mem_map.2 ⟨(k, (leBytes 16 o.toNat)[k]'(by simpa using h)), ?_, rfl⟩
  exact List.mem_iff_getElem.2 ⟨k, by simpa using h, by simp⟩

theorem putObj_eq (s : State) (core off : Nat) (o : BarObj) :
    s.putObj core off o = (s.seeUnit (unitOf (.spad core, off))).putBytes (o.cells core off) := rfl

/-- A byte of a SPAD at its place. -/
theorem byteAt_spad (s : State) (core a : Nat) : s.byteAt (.spad core, a) = (s.core core).spad.byte a := rfl

/-- An object's SPAD holds its bytes. -/
theorem bytes_putObj (s : State) (core off : Nat) (o : BarObj) :
    ((s.putObj core off o).core core).spad.bytes off 16 = leBytes 16 o.toNat := by
  have hnd : ((o.cells core off).map Prod.fst).Nodup := by
    rw [o.cells_places]
    exact List.nodup_range.map (fun a b hab => by simpa using hab)
  rw [Mem.bytes_eq]
  refine List.ext_getElem (by simp) fun k hk hk' => ?_
  rw [List.getElem_map, List.getElem_range]
  rw [← byteAt_spad, putObj_eq]
  exact byteAt_putBytes_mem _ hnd (o.mem_cells core off (by simpa using hk)) rfl

/-- Settles O23: an object's fields cut its 128 bits apart, and its bytes go to 16 places, each named once. -/
theorem barrierObjectLayout : Obligations.BarrierObjectLayout := by
  unfold Obligations.BarrierObjectLayout
  refine ⟨fun n h => BarObj.toNat_ofNat h, fun s core off o => ⟨?_, fun p hp => ?_⟩⟩
  · rw [Mem.nat, bytes_putObj, leNat_leBytes, Nat.mod_eq_of_lt o.toNat_lt]
  · rw [putObj_eq, byteAt_putBytes_other _ ?_, (sameBytes_seeUnit s _).byteAt]
    rw [o.cells_places, List.mem_map]
    rintro ⟨k, hk, rfl⟩
    simp at hp hk
    omega

end Sys2Proof.Machine

namespace Sys2Proof.Machine

/-! ### Lane operations (R240 to R245) -/

theorem laneIn_lt {m : Word} {l : Nat} (h : laneIn m l = true) : l < 32 := by
  by_contra hl
  rw [laneIn, BitVec.getLsbD_of_ge _ _ (by omega)] at h
  exact absurd h (by decide)

@[simp] theorem mem_lanesIn {m : Word} {l : Nat} : l ∈ lanesIn m ↔ laneIn m l = true := by
  simp only [lanesIn, List.mem_filter, List.mem_range]
  exact ⟨fun h => h.2, fun h => ⟨laneIn_lt h, h⟩⟩

theorem lanesOf_congr {f f' : Nat → Word} (h : ∀ l, l < 32 → f l = f' l) : lanesOf f = lanesOf f' :=
  List.map_congr_left fun l hl => h l (List.mem_range.1 hl)

/-- Only lanes 0 to 31 of a result are written. -/
theorem writeReg_congr (c : Ctx) (d : Reg) {f f' : Nat → Word} (h : ∀ l, l < 32 → f l = f' l) (s : State) :
    writeReg c d f s = writeReg c d f' s := by
  cases d with
  | v n =>
    have hv : ∀ g : Group, writeV g n.val c.act f = writeV g n.val c.act f' := by
      intro g
      simp only [writeV, lanesOf_congr (f := fun l => if laneIn c.act l then f l else laneOf (g.v.getD n.val []) l)
        (fun l hl => by rw [h l hl])]
    simp [writeReg, writeRegAt, hv]
  | s n => simp [writeReg, writeRegAt, h 0 (by decide)]
  | h n => simp [writeReg, writeRegAt, h 0 (by decide)]
  | x n => simp [writeReg, writeRegAt, h 0 (by decide), h 1 (by decide)]
  | zero => rfl

/-- A lane operation is known by what it gives lanes 0 to 31. -/
theorem givesLate_of_lanes {i : Instr} {d : Reg} {f f' : Ctx → Nat → Word} (h : ∀ s, exec i s = issueLanes i d s f')
    (hf : ∀ c l, l < 32 → f' c l = f c l) : GivesLate i d f :=
  givesLate_of fun s => by
    rw [h]
    simp only [issueLanes, writeReg_congr _ d (hf _)]

/-! LXCH (R241) -/

/-- LXCH by a source lane's number that LXCH's own choice of lane agrees with among the lanes. -/
theorem lxchVal_of_lane {op : LxchOp} {idx : Nat → Word} {l : Nat} {j : Int} (act : Word) (src fill : Nat → Word)
    (h : ∀ k, k < 32 → (lxchLane op l (idx l) = some k ↔ j = k)) :
    lxchVal op act src idx fill l = if 0 ≤ j ∧ j ≤ 31 ∧ laneIn act j.toNat then src j.toNat else fill l := by
  unfold lxchVal
  by_cases hj : 0 ≤ j ∧ j ≤ 31
  · obtain ⟨k, rfl⟩ := Int.eq_ofNat_of_zero_le hj.1
    rw [(h k (by omega)).2 rfl]
    simp only [hj, true_and, Int.toNat_natCast]
  · rw [if_neg fun hx => hj ⟨hx.1, hx.2.1⟩]
    cases ho : lxchLane op l (idx l) with
    | none => rfl
    | some k =>
      refine if_neg fun hk => ?_
      have := (h k (laneIn_lt hk)).1 ho
      have := laneIn_lt hk
      omega

/-- LXCH by the number of its source lane, which may lie outside the lanes. -/
theorem lxchVal_eq (op : LxchOp) (act : Word) (src idx fill : Nat → Word) (l : Nat) :
    lxchVal op act src idx fill l =
      (let n : Nat := (idx l).toNat
      let j : Int := match op with
        | .at => n
        | .back => l - n
        | .ahead => l + n
        | .flip => ((l ^^^ (n % 32) : Nat) : Int)
      if 0 ≤ j ∧ j ≤ 31 ∧ laneIn act j.toNat then src j.toNat else fill l) := by
  refine lxchVal_of_lane act src fill fun k hk => ?_
  match op with
  | .at =>
    simp only [lxchLane]
    split <;> simp
    omega
  | .back =>
    simp only [lxchLane]
    split <;> simp <;> omega
  | .ahead =>
    simp only [lxchLane]
    split <;> simp <;> omega
  | .flip => simp only [lxchLane, Option.some.injEq, Nat.cast_inj]

/-! LPRED (R242) -/

/-- All participating lanes hold what the lowest of them holds when any two hold the same. -/
theorem lanesAgree_iff (act : Word) (a : Nat → Word) :
    ((lanesIn act).all (fun l => a l == a ((lanesIn act).headD 0))) =
      (List.range 32).all (fun l => (List.range 32).all (fun k => !laneIn act l || !laneIn act k || a l == a k)) := by
  have hpairs : ((List.range 32).all (fun l => (List.range 32).all (fun k => !laneIn act l || !laneIn act k || a l == a k)))
      = true ↔ ∀ l ∈ lanesIn act, ∀ k ∈ lanesIn act, a l = a k := by
    simp only [List.all_eq_true, List.mem_range, Bool.or_eq_true, Bool.not_eq_true', beq_iff_eq, mem_lanesIn]
    constructor
    · intro h l hl k hk
      simpa [hl, hk] using h l (laneIn_lt hl) k (laneIn_lt hk)
    · intro h l _ k _
      cases hl : laneIn act l <;> cases hk : laneIn act k <;> simp
      exact h l hl k hk
  rw [Bool.eq_iff_iff, hpairs]
  simp only [List.all_eq_true, beq_iff_eq]
  cases hls : lanesIn act with
  | nil => simp
  | cons j js =>
    exact ⟨fun h l hl k hk => (h l hl).trans (h k hk).symm, fun h l hl => h l hl j List.mem_cons_self⟩

/-! SCAN and RDUX (R244, R245) -/

/-- One level of the scan over lanes by number. -/
def scanStep (f : Word → Word → Word) (t : Nat → Word) (n k : Nat) : Word := if n ≤ k then f (t (k - n)) (t k) else t k

theorem scanLevel_lanesOf (f : Word → Word → Word) (t : Nat → Word) (n : Nat) :
    scanLevel f (lanesOf t) n = lanesOf (scanStep f t n) := by
  unfold scanLevel
  refine List.ext_getElem (by simp [lanesOf]; omega) fun k hk hk' => ?_
  have hk32 : k < 32 := by simpa [lanesOf] using hk'
  by_cases hn : n ≤ k
  · rw [List.getElem_append_right (by simp [lanesOf]; omega)]
    have : min n 32 = n := by omega
    simp [lanesOf, scanStep, hn, this]
  · rw [List.getElem_append_left (by simp [lanesOf]; omega)]
    simp [lanesOf, scanStep, hn]

theorem scanTree_lanesOf (f : Word → Word → Word) (t : Nat → Word) :
    scanTree f (lanesOf t) = lanesOf ([1, 2, 4, 8, 16].foldl (scanStep f) t) := by
  simp only [scanTree, List.foldl_cons, List.foldl_nil, scanLevel_lanesOf]

/-- A lane of SCAN's tree over the participating lanes. -/
theorem laneOf_scanTree (op : ScanOp) (ty : ScanTy) (act : Word) (a : Nat → Word) {l : Nat} (hl : l < 32) :
    laneOf (scanTree (scanOp op ty) (identLanes act (scanIdent op ty) a)) l =
      [1, 2, 4, 8, 16].foldl (scanStep (scanOp op ty)) (fun k => if laneIn act k then a k else scanIdent op ty) l := by
  rw [identLanes, scanTree_lanesOf, laneOf_lanesOf _ _ hl]

/-- Neighbours of a row of values joined pairwise, by number. -/
def pairStep (f : Word → Word → Word) (t : Nat → Word) (k : Nat) : Word := f (t (2 * k)) (t (2 * k + 1))

theorem pairLevel_range (f : Word → Word → Word) (n : Nat) (t : Nat → Word) :
    pairLevel f ((List.range (2 * n)).map t) = (List.range n).map (pairStep f t) := by
  induction n generalizing t with
  | zero => rfl
  | succ n ih =>
    have hl : (List.range (2 * (n + 1))).map t = t 0 :: t 1 :: (List.range (2 * n)).map (fun k => t (k + 2)) := by
      rw [show 2 * (n + 1) = 2 * n + 1 + 1 by omega]
      simp [List.range_succ_eq_map, Function.comp_def]
    rw [hl, pairLevel, ih, List.range_succ_eq_map, List.map_cons, List.map_map]
    rfl

theorem pairTree_lanesOf (f : Word → Word → Word) (t : Nat → Word) :
    pairTree f (lanesOf t) = pairStep f (pairStep f (pairStep f (pairStep f (pairStep f t)))) 0 := by
  have h16 : pairLevel f (lanesOf t) = _ := pairLevel_range f 16 t
  rw [pairTree, h16, pairLevel_range f 8, pairLevel_range f 4, pairLevel_range f 2, pairLevel_range f 1]
  rfl

/-- Settles O6: each operation is its result written late, by what it gives lanes 0 to 31. -/
theorem laneOperations : Obligations.LaneOperations := by
  unfold Obligations.LaneOperations
  refine ⟨fun d a g => gives_of fun _ => rfl, fun op d a b fill g => ?_, fun inv d a g => ⟨?_, ?_, ?_, ?_, ?_⟩,
    fun d a g => givesLate_of fun _ => rfl, fun op ty d a g => ?_, fun op u d a g => ?_⟩
  · exact givesLate_of_lanes (fun _ => rfl) fun c l _ => lxchVal_eq op c.act (c.rd a) (c.rd b) (c.rd fill) l
  · refine givesLate_of_lanes (fun _ => rfl) fun c l _ => ?_
    simp only [lpredVal, lanesIn, List.any_filter]
  · refine givesLate_of_lanes (fun _ => rfl) fun c l _ => ?_
    simp only [lpredVal, lanesIn, List.all_filter]
  · exact givesLate_of fun _ => rfl
  · refine givesLate_of_lanes (fun _ => rfl) fun c l _ => ?_
    simp only [lpredVal, lanesAgree_iff]
  · refine givesLate_of_lanes (fun _ => rfl) fun c l _ => ?_
    simp only [lpredVal, lanesIn, List.filter_filter, List.countP_eq_length_filter, Bool.and_comm]
  · refine givesLate_of_lanes (fun _ => rfl) fun c l hl => ?_
    cases op with
    | addx =>
      cases l with
      | zero => rfl
      | succ k => exact laneOf_scanTree .addx ty c.act (c.rd a) (Nat.lt_of_succ_lt hl)
    | add => exact laneOf_scanTree .add ty c.act (c.rd a) hl
    | max => exact laneOf_scanTree .max ty c.act (c.rd a) hl
    | min => exact laneOf_scanTree .min ty c.act (c.rd a) hl
    | or => exact laneOf_scanTree .or ty c.act (c.rd a) hl
  · refine givesLate_of_lanes (fun _ => rfl) fun c l _ => ?_
    rw [identLanes, pairTree_lanesOf]
    rfl

end Sys2Proof.Machine

namespace Sys2Proof.Machine

/-! ### Fields of a record of bytes (R1) -/

/-- A number read where some of the stored bytes lie. -/
theorem Mem.nat_storeBytes (m : Mem) (a o n : Nat) {bs : List Byte} (h : o + n ≤ bs.length) :
    (m.storeBytes a bs).nat (a + o) n = leNat ((bs.drop o).take n) := by
  rw [Mem.nat, Mem.bytes_eq]
  refine congrArg leNat (List.ext_getElem (by simp; omega) fun k hk hk' => ?_)
  have hk : k < n := by simpa using hk
  rw [List.getElem_map, List.getElem_range, Nat.add_assoc, Mem.byte_storeBytes_in _ _ _ _ (by omega)]
  simp

/-- Fields of some sizes and values, one after another. -/
def leFields (fs : List (Nat × Nat)) : List Byte := fs.flatMap (fun f => leBytes f.1 f.2)

/-- Where a field begins. -/
def fieldAt (fs : List (Nat × Nat)) (i : Nat) : Nat := ((fs.map Prod.fst).take i).sum

theorem leFields_append (fs gs : List (Nat × Nat)) : leFields (fs ++ gs) = leFields fs ++ leFields gs := List.flatMap_append

@[simp] theorem leFields_length (fs : List (Nat × Nat)) : (leFields fs).length = (fs.map Prod.fst).sum := by
  simp [leFields, List.length_flatMap]

/-- A field holds its value. -/
theorem leNat_leFields {fs : List (Nat × Nat)} {i n v : Nat} (rest : List Byte) (h : fs[i]? = some (n, v)) :
    leNat (((leFields fs ++ rest).drop (fieldAt fs i)).take n) = v % 256 ^ n := by
  obtain ⟨hi, hv⟩ := List.getElem?_eq_some_iff.1 h
  have hfs : leFields fs = leFields (fs.take i) ++ (leBytes n v ++ leFields (fs.drop (i + 1))) := by
    conv => lhs; rw [← List.take_append_drop i fs, List.drop_eq_getElem_cons hi, leFields_append, hv]
    rfl
  have hat : fieldAt fs i = (leFields (fs.take i)).length := by simp [fieldAt]
  rw [hfs, hat, List.append_assoc, List.drop_left, List.append_assoc, List.take_left' (by simp), leNat_leBytes]

theorem leBytes_zero (n : Nat) : leBytes n 0 = List.replicate n 0 := by
  induction n with
  | zero => rfl
  | succ n ih => simp [leBytes, ih, List.replicate_succ]

/-! ### The trap frame (R159) -/

/-- The fields of a trap frame. -/
def frameFields (t : Trap) (epc : DWord) (mask : Word) (word ltime icnt : DWord) : List (Nat × Nat) :=
  [(1, t.cause), (1, t.sub), (6, 0), (8, epc.toNat), (8, (t.resume epc).toNat), (8, t.addr.toNat), (4, mask.toNat),
    (4, t.lanes.toNat), (4, t.other.toNat), (4, 0), (8, word.toNat), (8, ltime.toNat), (8, icnt.toNat), (8, t.status)]

/-- The sizes of a trap frame's fields. -/
def frameSizes : List Nat := [1, 1, 6, 8, 8, 8, 4, 4, 4, 4, 8, 8, 8, 8]

theorem frameBytes_eq (t : Trap) (epc : DWord) (mask : Word) (word ltime icnt : DWord) :
    frameBytes t epc mask word ltime icnt = leFields (frameFields t epc mask word ltime icnt) ++ List.replicate 48 0 := by
  simp [frameBytes, frameFields, leFields, leBytes_zero]

theorem frameBytes_length (t : Trap) (epc : DWord) (mask : Word) (word ltime icnt : DWord) :
    (frameBytes t epc mask word ltime icnt).length = 128 := by
  simp [frameBytes_eq, frameFields]

/-- A field of a stored frame, by its number, reads back. -/
theorem nat_frame (m : Mem) (a : Nat) (t : Trap) (epc : DWord) (mask : Word) (word ltime icnt : DWord) (i : Nat) {o n v : Nat}
    (hf : (frameFields t epc mask word ltime icnt)[i]? = some (n, v))
    (ho : (frameSizes.take i).sum = o ∧ o + n ≤ 128) :
    (m.storeBytes a (frameBytes t epc mask word ltime icnt)).nat (a + o) n = v % 256 ^ n := by
  rw [Mem.nat_storeBytes _ _ _ _ (by rw [frameBytes_length]; exact ho.2), frameBytes_eq, ← ho.1]
  exact leNat_leFields _ hf

/-- The last 48 bytes of a stored frame are zeros. -/
theorem nat_frame_tail (m : Mem) (a : Nat) (t : Trap) (epc : DWord) (mask : Word) (word ltime icnt : DWord) {k : Nat}
    (hk : k < 48) : (m.storeBytes a (frameBytes t epc mask word ltime icnt)).nat (a + 0x50 + k) 1 = 0 := by
  have hl : (leFields (frameFields t epc mask word ltime icnt)).length = 0x50 := by simp [frameFields]
  rw [Nat.add_assoc, Mem.nat_storeBytes _ _ _ _ (by rw [frameBytes_length]; omega), frameBytes_eq, ← hl,
    List.drop_length_add_append, List.drop_replicate, List.take_replicate, show min 1 (48 - k) = 1 by omega]
  rfl

theorem physStore_mem {s : State} {a : Nat} (h : paOk s.ms a = true) (bs : List Byte) :
    (s.physStore a bs).mem = s.mem.storeBytes a bs := by
  simp [State.physStore, h]

/-! ### Taking a trap (R156, R157) -/

/-- A trap that a handler takes. -/
theorem takeTrap_handled {c : Ctx} {t : Trap} (s : State) (hi : c.grp.intrap = false)
    (he : c.grid.record.trapEntry ≠ 0) (ht : t.cause ≠ 5) :
    takeTrap c t s = (((s.arenaStore c.grid.asid c.grp.saveSlot
        (frameBytes t c.sp.pc c.sp.mask c.word c.grp.ltime c.grp.icnt)).issued c.grp.core c.grp.seq c.gid c.slot).modGroup
      c.gid (fun g => g.enter c.slot c.sp.mask c.grid.record.trapEntry)) := by
  have hl : s.lostAt c.grid.asid t = s := if_neg fun h => ht h.1
  simp only [takeTrap, takeTrapAt, hl, hi, Bool.false_eq_true, false_or, if_false]
  exact if_neg (not_or.2 ⟨he, ht⟩)

/-- A trap outside a handler that ends the grid: there is no handler, or it is a lease violation. -/
theorem takeTrap_unhandled {c : Ctx} {t : Trap} (s : State) (hi : c.grp.intrap = false)
    (h : c.grid.record.trapEntry = 0 ∨ t.cause = 5) :
    takeTrap c t s = (((s.lostAt c.grid.asid t).arenaStore c.grid.asid c.grp.saveSlot
        (frameBytes t c.sp.pc c.sp.mask c.word c.grp.ltime c.grp.icnt)).issued c.grp.core c.grp.seq c.gid c.slot).endGrid
      c.team.grid (trapEnd t.cause t.sub false c.grp.ggid c.sp.pc) := by
  simp only [takeTrap, takeTrapAt, hi, Bool.false_eq_true, false_or, if_false]
  exact if_pos h

/-- A trap inside a handler ends the grid, and writes no frame. -/
theorem takeTrap_nested {c : Ctx} (t : Trap) (s : State) (hi : c.grp.intrap = true) :
    takeTrap c t s = ((s.lostAt c.grid.asid t).issued c.grp.core c.grp.seq c.gid c.slot).endGrid c.team.grid
      (trapEnd t.cause t.sub true c.grp.ggid c.sp.pc) := by
  simp [takeTrap, takeTrapAt, hi]

/-- Settles O18: the three ways a trap goes, and the stored frame read field by field. -/
theorem trapEntry : Obligations.TrapEntry := by
  unfold Obligations.TrapEntry
  refine ⟨fun c t s hi he ht => takeTrap_handled s hi he ht, fun c t s hi h => takeTrap_unhandled s hi h,
    fun c t s hi => takeTrap_nested t s hi, fun t epc mask w lt ic => ⟨frameBytes_length .., fun s a ha => ?_⟩⟩
  have field := @nat_frame s.mem a t epc mask w lt ic
  have word := fun x : DWord => Nat.mod_eq_of_lt x.isLt
  have half := fun x : Word => Nat.mod_eq_of_lt x.isLt
  rw [physStore_mem ha]
  refine ⟨field 0 (o := 0) rfl (by decide), field 1 rfl (by decide), (field 3 rfl (by decide)).trans (word _),
    (field 4 rfl (by decide)).trans (word _), (field 5 rfl (by decide)).trans (word _), (field 6 rfl (by decide)).trans (half _),
    (field 7 rfl (by decide)).trans (half _), (field 8 rfl (by decide)).trans (half _), (field 10 rfl (by decide)).trans (word _),
    (field 11 rfl (by decide)).trans (word _), (field 12 rfl (by decide)).trans (word _),
    (field 13 rfl (by decide)).trans (by norm_num), (field 2 rfl (by decide)).trans (Nat.zero_mod _),
    (field 9 rfl (by decide)).trans (Nat.zero_mod _), fun k hk => nat_frame_tail s.mem a t epc mask w lt ic hk⟩

end Sys2Proof.Machine

namespace Sys2Proof.Machine

/-! ### The layout of a context image (R165) -/

theorem vImage_length (code : Nat) (f : Nat → Word) : (vImage code f).length = vImageSize code := by
  match code with
  | 0 => simp [vImage, vImageSize]
  | 1 => simp [vImage, vImageSize]
  | 2 => simp [vImage, vImageSize]
  | n + 3 => simp [vImage, vImageSize, List.length_flatMap]

theorem encCode_le (f : Nat → Word) : encCode f ≤ 3 := by
  unfold encCode
  dsimp only
  split_ifs <;> decide

theorem vImageSize_le (code : Nat) : vImageSize code ≤ 128 := by
  match code with
  | 0 => decide
  | 1 => decide
  | 2 => decide
  | n + 3 => exact le_rfl

/-- The encoding codes of a group's v registers. -/
def codesOf (g : Group) : List Nat := (List.range g.vallot).map (fun n => encCode (laneOf (g.v.getD n [])))

/-- The v registers' part of an image. -/
def bodyOf (g : Group) : List Byte :=
  ((List.range g.vallot).zip (codesOf g)).flatMap (fun e => vImage e.2 (laneOf (g.v.getD e.1 [])))

@[simp] theorem codesOf_length (g : Group) : (codesOf g).length = g.vallot := by simp [codesOf]

theorem codesOf_le {g : Group} {k : Nat} (h : k ∈ codesOf g) : k ≤ 3 := by
  obtain ⟨n, -, rfl⟩ := List.mem_map.1 h
  exact encCode_le _

theorem bodyOf_length (g : Group) : (bodyOf g).length = ((codesOf g).map vImageSize).sum := by
  have hz : ((List.range g.vallot).zip (codesOf g)).map Prod.snd = codesOf g := List.map_snd_zip (by simp)
  conv => rhs; rw [← hz, List.map_map]
  simp only [bodyOf, List.length_flatMap, vImage_length]
  rfl

theorem bodyOf_length_le (g : Group) : (bodyOf g).length ≤ 128 * g.vallot := by
  rw [bodyOf_length]
  have h := List.sum_le_card_nsmul ((codesOf g).map vImageSize) 128 (by
    intro x hx
    obtain ⟨k, -, rfl⟩ := List.mem_map.1 hx
    exact vImageSize_le k)
  simp at h
  omega

/-- The fields of an image before its codes: version, size, VUNITS, then the s, x and mask registers. -/
def imageFields (g : Group) : List (Nat × Nat) :=
  [(4, 1), (4, 0x250 + (bodyOf g).length), (1, g.vallot / 8), (55, 0)] ++
  (List.range 48).map (fun n => (4, (g.s.getD n 0).toNat)) ++
  (List.range 15).flatMap (fun n => [(4, (g.x.getD n (0, 0)).1.toNat), (4, (g.x.getD n (0, 0)).2.toNat)]) ++
  [(8, 0)] ++ (List.range 8).map (fun n => (4, (if n = 0 then 0xFFFFFFFF else g.m.getD n 0 : Word).toNat))

/-- The sizes of those fields. -/
def imageSizes : List Nat := [4, 4, 1, 55] ++ List.replicate 78 4 ++ [8] ++ List.replicate 8 4

theorem imageFields_sizes (g : Group) : (imageFields g).map Prod.fst = imageSizes := rfl

theorem imageOf_eq (g : Group) : imageOf g =
    leFields (imageFields g) ++ ((codesOf g).map (BitVec.ofNat 8) ++ (List.replicate (176 - g.vallot) 0xFF ++ bodyOf g)) := by
  have hc : codesOf g = (List.range g.vallot).map (fun n => encCode (fun l => laneOf (g.v.getD n []) l)) := rfl
  have hb : bodyOf g = ((List.range g.vallot).zip (codesOf g)).flatMap
    (fun e => vImage e.2 (fun l => laneOf (g.v.getD e.1 []) l)) := rfl
  simp only [imageOf, ← hc, ← hb]
  simp [imageFields, leFields, leBytes_zero, List.flatMap_map, List.flatMap_assoc]

/-- A field of an image, by its number, reads back. -/
theorem leNat_image (g : Group) (i : Nat) {o n v : Nat} (hf : (imageFields g)[i]? = some (n, v))
    (ho : (imageSizes.take i).sum = o) : leNat (((imageOf g).drop o).take n) = v % 256 ^ n := by
  rw [imageOf_eq, ← ho]
  exact leNat_leFields _ hf

theorem imageFields_s (g : Group) {n : Nat} (h : n < 48) : (imageFields g)[4 + n]? = some (4, (g.s.getD n 0).toNat) := by
  rw [imageFields, List.getElem?_append_left (by simp; omega), List.getElem?_append_left (by simp; omega),
    List.getElem?_append_left (by simp; omega), List.getElem?_append_right (by simp)]
  simp [h]

theorem imageFields_m (g : Group) {n : Nat} (h : n < 8) :
    (imageFields g)[83 + n]? = some (4, (if n = 0 then 0xFFFFFFFF else g.m.getD n 0 : Word).toNat) := by
  rw [imageFields, List.getElem?_append_right (by simp)]
  simp [h]

theorem imageSizes_s : ∀ n, n < 48 → (imageSizes.take (4 + n)).sum = 0x40 + 4 * n := by decide

theorem imageSizes_m : ∀ n, n < 8 → (imageSizes.take (83 + n)).sum = 0x180 + 4 * n := by decide

theorem leNat_take_one (bs : List Byte) (o : Nat) : leNat ((bs.drop o).take 1) = (bs.getD o 0).toNat := by
  by_cases h : o < bs.length
  · simp only [List.drop_eq_getElem_cons h, List.take_succ_cons, List.take_zero, leNat, List.getD, List.getElem?_eq_getElem h]
    simp
  · have hle := Nat.le_of_not_lt h
    simp only [List.drop_eq_nil_of_le hle, List.take_nil, leNat, List.getD, List.getElem?_eq_none hle]
    rfl

theorem imageOf_length {g : Group} (h : g.vallot ≤ 176) : (imageOf g).length = 0x250 + (bodyOf g).length := by
  have hs : imageSizes.sum = 0x1A0 := by decide
  rw [imageOf_eq]
  simp [imageFields_sizes, hs]
  omega

/-- An image's codes are those of its group's v registers, of which VUNITS counts whole units. -/
theorem imageCodes_imageOf {g : Group} (hu : g.vallot % 8 = 0) (h : g.vallot ≤ 176) : imageCodes (imageOf g) = codesOf g := by
  have hn : 8 * ((imageOf g).getD 8 0).toNat = g.vallot := by
    rw [← leNat_take_one, leNat_image g 2 (o := 8) rfl (by decide)]
    omega
  have hl : (leFields (imageFields g)).length = 0x1A0 := by
    rw [leFields_length, imageFields_sizes]
    decide
  have hid : (codesOf g).map (BitVec.toNat ∘ BitVec.ofNat 8) = codesOf g := by
    refine (List.map_congr_left fun k hk => ?_).trans (List.map_id _)
    have := codesOf_le hk
    simp only [Function.comp, BitVec.toNat_ofNat, id]
    omega
  rw [imageCodes, hn, imageOf_eq, List.drop_left' hl, List.take_left' (by simp), List.map_map, hid]

/-- An image has the size that its header states (R166). -/
theorem imageSize_imageOf {g : Group} (hu : g.vallot % 8 = 0) (h : g.vallot ≤ 176) :
    imageSize (imageOf g) = some (imageOf g).length := by
  have hle := bodyOf_length_le g
  have hversion : leNat ((imageOf g).take 4) = 1 := leNat_image g 0 (o := 0) rfl (by decide)
  have hsize : leNat (((imageOf g).drop 4).take 4) = 0x250 + (bodyOf g).length := by
    rw [leNat_image g 1 rfl (by decide)]
    omega
  have hcodes : (codesOf g).all (· ≤ 3) = true := List.all_eq_true.2 fun k hk => by simpa using codesOf_le hk
  rw [imageSize, imageCodes_imageOf hu h]
  simp only [← bodyOf_length, imageOf_length h]
  exact if_pos ⟨hversion, hsize, hcodes⟩

theorem word_leNat (w : Word) : BitVec.ofNat 32 (w.toNat % 256 ^ 4) = w := by
  have h : w.toNat % 256 ^ 4 = w.toNat := Nat.mod_eq_of_lt w.isLt
  rw [h, BitVec.ofNat_toNat, BitVec.setWidth_eq]

/-! ### CSAVE and CLOAD (R164, R166) -/

theorem fifoRoom_iff (g : Group) : fifoRoom g = true ↔ g.fifo.length < 16 := by simp [fifoRoom]

theorem Ctx.stands.pushStore {c : Ctx} {s : State} (h : c.stands s) (bytes : List (Place × Byte)) :
    c.stands (pushStore c.gid bytes s) := h.modGroup c.gid _ (fun _ => rfl)

/-- Settles O26: the branches of CSAVE and CLOAD, and the image read field by field. -/
theorem contextImages : Obligations.ContextImages := by
  unfold Obligations.ContextImages
  refine ⟨fun d p g ps c s hc h => ?_, fun d p g => ?_, fun p g hps ps n c s hc h => ?_, fun p g hps c s hc h => ?_,
    fun p g hps c s hc h => ?_, fun p g hps ps n c s hc h => ?_, fun g => ⟨?_, fun n hn => ?_, ?_, fun n h0 hn => ?_, ?_⟩⟩
  · obtain ⟨hroom, hps, hok⟩ := h
    refine issueAs_retires hc ?_ ?_
    · simp only [(fifoRoom_iff c.grp).2 hroom, if_true, hps]
      exact spanAccess_ok _ hok
    · have hu : c.stands (spanAccessed c (s.noted c (.csave d p g)) ps .write) :=
        (stands_noted hc.1).of_groups (sameAgents_spanAccessed ..).groups
      exact (hu.pushStore _).writeReg d _
  · refine diverts_stay (fun _ => rfl) (fun c s hfull => if_neg ?_) (fun _ _ _ h => h)
    rw [fifoRoom_iff]
    exact Nat.not_lt.2 hfull
  · rw [noted_noRegs s rfl] at h ⊢
    obtain ⟨hp, ho, hn, hq, hv, hok⟩ := h
    refine (issueAs_noRegs _ hc rfl).trans (congrArg _ ?_)
    simp only [hp, ho, hn, hq, Bool.false_eq_true, if_false, if_neg (Nat.not_lt.2 hv)]
    exact spanAccess_ok _ hok
  · obtain ⟨hp, ho⟩ := h
    refine (issueAs_noRegs _ hc rfl).trans (congrArg _ ?_)
    simp only [hp, ho, if_true]
  · obtain ⟨hp, ho, hn⟩ := h
    refine (issueAs_noRegs _ hc rfl).trans (congrArg _ ?_)
    simp only [hp, ho, hn, Bool.false_eq_true, if_false]
  · obtain ⟨hp, ho, hn, hq, hv⟩ := h
    refine (issueAs_noRegs _ hc rfl).trans (congrArg _ ?_)
    simp only [hp, ho, hn, hq, Bool.false_eq_true, if_false, if_pos hv]
    rfl
  · exact leNat_image g 0 (o := 0) rfl (by decide)
  · rw [leNat_image g _ (imageFields_s g hn) (imageSizes_s n hn), word_leNat]
  · exact leNat_image g 83 rfl (by decide)
  · rw [leNat_image g _ (imageFields_m g hn) (imageSizes_m n hn), word_leNat, if_neg h0.ne']
  · exact fun hu h => imageSize_imageOf hu h

end Sys2Proof.Machine

namespace Sys2Proof.Machine

/-! ### Barrier and team operations of a group listed twice (R120, R141)

The statements about barrier objects and team operations range over tables that list a number twice, too. There a trap
taken for an effect keeps the note of the instruction's h registers (see `doubled`), where a diverted instruction notes
nothing. -/

/-- BINIT of an object at offset 0 that expects as many arrivals as an h register says. -/
def binith : Instr := .binit false false .zero (.h 0) .zero Guard.always

/-- The doubled group's locator of zero names the object at offset 0 of its SPAD. -/
theorem doubled_object : ObjectAt doubledCtx doubled .zero 0 0 where
  located := rfl
  here := by decide +kernel
  free := by decide +kernel

/-- Refutes O22: a BINIT whose count of 0 traps keeps the note of the h register it read where its group is listed twice. -/
theorem not_barrierObjects : ¬ Obligations.BarrierObjects := by
  unfold Obligations.BarrierObjects
  intro ⟨_, hbinit, _⟩
  have hc : Clear true binith doubledCtx doubled := doubled_clear true rfl (by decide) (by decide) (by decide)
  have h := hbinit false false .zero (.h 0) .zero Guard.always 0 0 doubledCtx doubled hc ⟨doubled_object, .inl rfl⟩
  exact absurd (congrArg notesLeft h) (by decide +kernel)

/-- GROW by one unit, its grant to an h register. -/
def growh : Instr := .grow (.h 0) 1 Guard.always

/-- Refutes O24: a GROW beyond 176 registers keeps the note of its destination where its group is listed twice. -/
theorem not_teamOperations : ¬ Obligations.TeamOperations := by
  unfold Obligations.TeamOperations
  intro ⟨_, _, _, _, _, _, _, hgrow, _⟩
  have hc : Clear true growh doubledCtx doubled := doubled_clear true rfl (by decide) (by decide) (by decide)
  have h := hgrow (.h 0) 1 Guard.always doubledCtx doubled hc (by decide)
  exact absurd (congrArg notesLeft h) (by decide +kernel)

end Sys2Proof.Machine

namespace Sys2Proof.Machine
open Sys2Proof

/-! Memory keeps its canonical form (O60). Bytes reach `State.mem` through three operations alone: a line is retagged, bytes are
stored, and a change of the interleaving zeroes the fast tier. Each keeps the form (Laws/Map.lean); every other operation leaves
memory as it is or is made of operations that keep it. One lemma per operation, in the order of the model's files: `_mem`
where memory is unchanged, `_wf` where its form is kept, `_canonical` where the operation answers a result. -/

variable {s : State} {c : Ctx}

/-! ### Shapes that the operations are made of -/

theorem ite_wf {p : Prop} [Decidable p] {s t : State} (hs : s.mem.wf = true) (ht : t.mem.wf = true) :
    (if p then s else t).mem.wf = true := by split <;> assumption

theorem foldl_mem {α : Type} {f : State → α → State} (h : ∀ s a, (f s a).mem = s.mem) (l : List α) (s : State) :
    (l.foldl f s).mem = s.mem := by
  induction l generalizing s with
  | nil => rfl
  | cons a l ih => exact (ih (f s a)).trans (h s a)

theorem foldl_wf {α : Type} {f : State → α → State} (hf : ∀ s a, s.mem.wf = true → (f s a).mem.wf = true) (l : List α)
    (hm : s.mem.wf = true) : (l.foldl f s).mem.wf = true := by
  induction l generalizing s with
  | nil => exact hm
  | cons a l ih => exact ih (hf s a hm)

theorem State.withFresh_mem {n : Nat} : ({ s with fresh := n } : State).mem = s.mem := rfl

/-- A result whose state, if there is one, has memory in canonical form. -/
def Canonical (r : Result) : Prop := ∀ t, r = .next t → t.mem.wf = true

@[simp] theorem canonical_next (t : State) : Canonical (.next t) ↔ t.mem.wf = true :=
  ⟨fun h => h t rfl, fun h _ hu => by cases hu; exact h⟩

@[simp] theorem canonical_fault (f : Fault) : Canonical (.fault f) := fun _ h => nomatch h

@[simp] theorem canonical_refused (r : Refusal) : Canonical (.refused r) := fun _ h => nomatch h

/-! ### Machine/Memory.lean -/

@[simp] theorem State.retag_wf {tag line : Nat} (hm : s.mem.wf = true) : (s.retag tag line).mem.wf = true := by
  unfold State.retag
  simp only
  split
  · exact hm
  · exact Mem.wf_storeBytes _ _ hm

@[simp] theorem State.touchLine_wf {tag line : Nat} (hm : s.mem.wf = true) : (s.touchLine tag line).mem.wf = true := by
  unfold State.touchLine
  repeat' split
  all_goals simp [hm]

@[simp] theorem State.touch_wf {tag pa n : Nat} (hm : s.mem.wf = true) : (s.touch tag pa n).mem.wf = true := by
  unfold State.touch
  grind [foldl_wf, foldl_mem, State.touchLine_wf]

@[simp] theorem State.endShadows_mem {op : RedOp} {reckon : Bool} {pa n : Nat} :
    (s.endShadows op reckon pa n).mem = s.mem := by
  unfold State.endShadows
  split <;> rfl

@[simp] theorem State.physStore_wf {pa : Nat} {bs : List Byte} (hm : s.mem.wf = true) :
    (s.physStore pa bs).mem.wf = true := by
  unfold State.physStore
  split
  · exact Mem.wf_storeBytes _ _ hm
  · exact hm

@[simp] theorem State.markLeaf_wf {asid : Nat} {dirty : Bool} {va : Nat} (hm : s.mem.wf = true) :
    (s.markLeaf asid dirty va).mem.wf = true := by
  unfold State.markLeaf
  grind [State.retag_wf, State.physStore_wf]

@[simp] theorem State.lostWalk_mem {asid va : Nat} : (s.lostWalk asid va).mem = s.mem := by
  simp [State.lostWalk, apply_ite State.mem]

@[simp] theorem State.markMapped_wf {asid : Nat} {need : Need} {va : Nat} (hm : s.mem.wf = true) :
    (s.markMapped asid need va).mem.wf = true := by
  unfold State.markMapped
  split <;> simp [hm]

@[simp] theorem State.keep_mem {asid unit : Nat} : (s.keep asid unit).mem = s.mem := by
  unfold State.keep
  split <;> rfl

@[simp] theorem State.useKept_mem {asid unit : Nat} {on : Bool} : (s.useKept asid unit on).mem = s.mem := rfl
@[simp] theorem State.dropKept_mem {i : Inval} : (s.dropKept i).mem = s.mem := rfl
@[simp] theorem State.unkeep_mem {asid unit : Nat} : (s.unkeep asid unit).mem = s.mem := rfl

/-! ### Machine/Ops.lean -/

@[simp] theorem writeRegAt_mem {gid team : Nat} {act : Word} {d : Reg} {f : Nat → Word} :
    (writeRegAt gid team act d f s).mem = s.mem := by
  unfold writeRegAt
  split <;> rfl

@[simp] theorem writeReg_mem {d : Reg} {f : Nat → Word} : (writeReg c d f s).mem = s.mem := by simp [writeReg]
@[simp] theorem writeUni_mem {d : Reg} {w : Word} : (writeUni c d w s).mem = s.mem := by simp [writeUni]

@[simp] theorem writeMask_mem {d : Fin 8} {w : Word} : (writeMask c d w s).mem = s.mem := by
  unfold writeMask
  split <;> rfl

@[simp] theorem writePair_mem {p : Fin 24} {v : DWord} : (writePair c p v s).mem = s.mem := rfl
@[simp] theorem State.issued_mem {core seq gid slot : Nat} : (s.issued core seq gid slot).mem = s.mem := rfl

@[simp] theorem State.retireAt_mem {gid slot : Nat} {reckon : Bool} {n : Nat} {obs : Option Key} {pc : DWord} :
    (s.retireAt gid slot reckon n obs pc).mem = s.mem :=
  rfl

@[simp] theorem retireTo_mem {n : Nat} {obs : Option Key} {pc : DWord} : (retireTo c n obs pc s).mem = s.mem := rfl
@[simp] theorem retire_mem : (retire c s).mem = s.mem := rfl
@[simp] theorem block_mem {w : Wait} : (block c w s).mem = s.mem := rfl

@[simp] theorem State.keyMarks_mem {cl : Nat} {k : Key} : (s.keyMarks cl k).mem = s.mem := by
  unfold State.keyMarks
  split <;> rfl

@[simp] theorem Ctx.marks_mem : (Ctx.marks c s).mem = s.mem := by
  unfold Ctx.marks
  split <;> simp

@[simp] theorem State.dropTeam_mem {t : Nat} : (s.dropTeam t).mem = s.mem := by
  unfold State.dropTeam
  split <;> rfl

@[simp] theorem State.endTeam_mem {t : Nat} : (s.endTeam t).mem = s.mem := by
  unfold State.endTeam
  repeat' split
  all_goals simp

@[simp] theorem State.freeReleased_mem {gid : Nat} {g : Group} : (s.freeReleased gid g).mem = s.mem := by
  unfold State.freeReleased
  split <;> rfl

@[simp] theorem State.settle_mem {gid : Nat} : (s.settle gid).mem = s.mem := by
  unfold State.settle
  repeat' split
  all_goals simp

@[simp] theorem State.stopGroup_mem {gid : Nat} : (s.stopGroup gid).mem = s.mem := by
  unfold State.stopGroup
  grind [State.modGroup_mem, State.endTeam_mem, State.settle_mem]

@[simp] theorem State.endGrid_mem {gr : Nat} {e : GridEnd} : (s.endGrid gr e).mem = s.mem := by
  simp [State.endGrid, foldl_mem]

@[simp] theorem State.arenaStore_wf {asid pa : Nat} {bs : List Byte} (hm : s.mem.wf = true) :
    (s.arenaStore asid pa bs).mem.wf = true := by
  simp [State.arenaStore, hm]

@[simp] theorem State.lostAt_mem {asid : Nat} {t : Trap} : (s.lostAt asid t).mem = s.mem := by
  unfold State.lostAt
  split <;> simp

@[simp] theorem takeTrapAt_wf {gid slot : Nat} {g : Group} {sp : Split} {team : Team} {grid : Grid} {word : DWord}
    {t : Trap} (hm : s.mem.wf = true) :
    (takeTrapAt gid slot g sp team grid word t s).mem.wf = true := by
  unfold takeTrapAt
  repeat' split
  all_goals simp [hm]

@[simp] theorem takeTrap_wf {t : Trap} (hm : s.mem.wf = true) : (takeTrap c t s).mem.wf = true := by simp [takeTrap, hm]
@[simp] theorem trap_wf {cause : Nat} (hm : s.mem.wf = true) : (trap c cause s).mem.wf = true := by simp [trap, hm]
@[simp] theorem takeOwed_wf {o : Owed} (hm : s.mem.wf = true) : (takeOwed c o s).mem.wf = true := by simp [takeOwed, hm]

@[simp] theorem State.noteExit_mem {cl : Nat} {k : Key} {lanes : Nat} {last : Bool} :
    (s.noteExit cl k lanes last).mem = s.mem :=
  rfl

@[simp] theorem State.record_mem {cl : Nat} {as : List Access} : (s.record cl as).mem = s.mem := rfl
@[simp] theorem State.advanceEpoch_mem {cl : Nat} : (s.advanceEpoch cl).mem = s.mem := rfl

@[simp] theorem withRegs_wf {hs : List Access} {k : Ctx → State → State}
    (hk : ∀ c (t : State), t.mem.wf = true → (k c t).mem.wf = true) (hm : s.mem.wf = true) :
    (withRegs hs c s k).mem.wf = true := by
  unfold withRegs
  grind [takeTrap_wf, State.record_mem]

@[simp] theorem prelude_wf {i : Instr} {sync : Bool} {k : Ctx → State → State}
    (hk : ∀ c (t : State), t.mem.wf = true → (k c t).mem.wf = true) (hm : s.mem.wf = true) :
    (prelude i sync c s k).mem.wf = true := by
  unfold prelude
  grind [block_mem, withRegs_wf, trap_wf, retire_mem]

theorem issueAs_canonical {sync : Bool} {i : Instr} {k : Ctx → State → State}
    (hk : ∀ c (t : State), t.mem.wf = true → (k c t).mem.wf = true) (h : s.mem.wf = true) :
    Canonical (issueAs sync i s k) := by
  unfold issueAs
  split
  · exact canonical_fault _
  · exact (canonical_next _).mpr (prelude_wf hk h)

@[simp] theorem issue_canonical {i : Instr} {k : Ctx → State → State}
    (hk : ∀ c (t : State), t.mem.wf = true → (k c t).mem.wf = true) (hm : s.mem.wf = true) :
    Canonical (issue i s k) := by
  refine issueAs_canonical (fun c t hm => ?_) hm
  grind []

@[simp] theorem issueSync_canonical {i : Instr} {k : Ctx → State → State}
    (hk : ∀ c (t : State), t.mem.wf = true → (k c t).mem.wf = true) (hm : s.mem.wf = true) :
    Canonical (issueSync i s k) := by
  refine issueAs_canonical (fun c t hm => ?_) hm
  grind []

@[simp] theorem issueResult_canonical {i : Instr} {d : Reg} {f : Ctx → Nat → Word} (hm : s.mem.wf = true) :
    Canonical (issueResult i d s f) :=
  issueAs_canonical (fun c t hm => by simp [hm]) hm

@[simp] theorem addPend_mem {gid : Nat} {regs : List Nat} : (addPend gid regs s).mem = s.mem := rfl

@[simp] theorem issueLanes_canonical {i : Instr} {d : Reg} {f : Ctx → Nat → Word} (hm : s.mem.wf = true) :
    Canonical (issueLanes i d s f) :=
  issueAs_canonical (fun c t hm => by simp [hm]) hm

/-! ### Machine/Access.lean -/

@[simp] theorem State.markRead_wf {g : Grid} {v : VPlace} (hm : s.mem.wf = true) : (s.markRead g v).mem.wf = true := by
  unfold State.markRead
  repeat' split
  all_goals simp [hm]

@[simp] theorem State.callUnits_mem {ps : List Place} : (s.callUnits ps).mem = s.mem := by
  simp [State.callUnits, apply_ite State.mem]

@[simp] theorem State.markStale_mem {sp : Space} {lo hi : Nat} : (s.markStale sp lo hi).mem = s.mem := by
  unfold State.markStale
  split <;> rfl

@[simp] theorem State.markWritten_mem {pa : Nat} : (s.markWritten pa).mem = s.mem := by
  unfold State.markWritten
  split <;> rfl

@[simp] theorem State.logByte_mem {p : Place} : (s.logByte p).mem = s.mem := by
  unfold State.logByte
  split <;> rfl

@[simp] theorem State.putByte_wf {p : Place} {b : Byte} (hm : s.mem.wf = true) : (s.putByte p b).mem.wf = true := by
  unfold State.putByte
  split <;> simp [hm]

@[simp] theorem State.putBytes_wf {ps : List (Place × Byte)} (hm : s.mem.wf = true) : (s.putBytes ps).mem.wf = true := by
  unfold State.putBytes
  grind [foldl_wf, foldl_mem, State.putByte_wf]

@[simp] theorem State.recall_mem {keep : Option Nat} {line : Nat} : (s.recall keep line).mem = s.mem := by
  unfold State.recall
  split <;> rfl

@[simp] theorem State.useLine_mem {keep : Option Nat} {line : Nat} : (s.useLine keep line).mem = s.mem := by
  unfold State.useLine
  repeat' split
  all_goals rfl

@[simp] theorem State.touchPlace_wf {keep : Option Nat} {tag : Nat} {p : Place} (hm : s.mem.wf = true) :
    (s.touchPlace keep tag p).mem.wf = true := by
  unfold State.touchPlace
  split <;> simp [hm]

@[simp] theorem State.touchPlaces_wf {keep : Option Nat} {tag : Nat} {ps : List Place} (hm : s.mem.wf = true) :
    (s.touchPlaces keep tag ps).mem.wf = true := by
  unfold State.touchPlaces
  grind [foldl_wf, foldl_mem, State.touchPlace_wf]

@[simp] theorem State.lag_mem {core : Nat} {u : Place} : (s.lag core u).mem = s.mem := by
  simp [State.lag, apply_ite State.mem]

@[simp] theorem State.see_mem {core : Nat} {u : Place} : (s.see core u).mem = s.mem := by
  unfold State.see
  split <;> rfl

@[simp] theorem State.performed_mem {core : Nat} {ps : List Place} : (s.performed core ps).mem = s.mem := by
  unfold State.performed
  split <;> rfl

@[simp] theorem State.seeUnit_mem {u : Place} : (s.seeUnit u).mem = s.mem := by
  unfold State.seeUnit
  split <;> rfl

@[simp] theorem State.seeAll_mem {cores : List Nat} : (s.seeAll cores).mem = s.mem := by
  unfold State.seeAll
  split <;> rfl

@[simp] theorem State.acquire_mem {core cl : Nat} {x0 : Scope} : (s.acquire core cl x0).mem = s.mem := by
  unfold State.acquire
  repeat' split
  all_goals simp

@[simp] theorem Ctx.acquire_mem {ord : Order} : (Ctx.acquire c ord s).mem = s.mem := by
  unfold Ctx.acquire
  split <;> simp

@[simp] theorem accessed_wf {act : Word} {addr : Nat → DWord} {size : Nat} {need : Need} {k : AccessKind}
    (hm : s.mem.wf = true) :
    (accessed c s act addr size need k).mem.wf = true := by
  unfold accessed
  grind [foldl_wf, foldl_mem, State.markRead_wf, State.touchPlaces_wf, State.record_mem, State.performed_mem]

@[simp] theorem access_wf {act : Word} {addr : Nat → DWord} {size : Nat} {need : Need} {k : AccessKind}
    {noStack noSpad waits : Bool} {go : State → State} (hgo : ∀ t : State, t.mem.wf = true → (go t).mem.wf = true) (hm : s.mem.wf = true) :
    (access c s act addr size need k noStack noSpad waits go).mem.wf = true := by
  unfold access
  grind [takeTrap_wf, accessed_wf, State.callUnits_mem]

@[simp] theorem pushStore_mem {gid : Nat} {bytes : List (Place × Byte)} : (pushStore gid bytes s).mem = s.mem := rfl
@[simp] theorem State.countMgmt_mem {k : Nat} : (s.countMgmt k).mem = s.mem := rfl

@[simp] theorem spanAccessed_wf {ps : List Place} {k : AccessKind} (hm : s.mem.wf = true) :
    (spanAccessed c s ps k).mem.wf = true := by
  unfold spanAccessed
  repeat' split
  all_goals simp [hm]

@[simp] theorem spanMarks_wf {addr : DWord} {n : Nat} (hm : s.mem.wf = true) : (spanMarks c s addr n).mem.wf = true := by
  unfold spanMarks
  split <;> simp [hm]

@[simp] theorem spanAccess_wf {addr : DWord} {ps : List Place} {k : AccessKind} {waits : Bool} {go : State → State}
    (hgo : ∀ t : State, t.mem.wf = true → (go t).mem.wf = true) (hm : s.mem.wf = true) :
    (spanAccess c s addr ps k waits go).mem.wf = true := by
  unfold spanAccess
  repeat' split
  all_goals simp [hm, hgo]

/-! ### Machine/Integer.lean -/

@[simp] theorem execPairWord_canonical {p q : Slot} (hm : s.mem.wf = true) : Canonical (execPairWord p q s) :=
  issueAs_canonical (fun c t hm => by simp [hm]) hm

/-! ### Machine/Barrier.lean -/

@[simp] theorem State.putObj_wf {core off : Nat} {o : BarObj} (hm : s.mem.wf = true) :
    (s.putObj core off o).mem.wf = true := by
  simp [State.putObj, hm]

@[simp] theorem State.releaseWaits_mem {core off : Nat} {w : Wait} : (s.releaseWaits core off w).mem = s.mem := rfl

@[simp] theorem State.phaseDone_mem {cl core off : Nat} {o : BarObj} {reckon : Bool} {k : Key} :
    (s.phaseDone cl core off o reckon k).mem = s.mem := by
  simp [State.phaseDone, apply_ite State.mem]

@[simp] theorem State.countBytes_wf {cl core off b : Nat} {reckon : Bool} {k : Key} (hm : s.mem.wf = true) :
    (s.countBytes cl core off b reckon k).mem.wf = true := by
  unfold State.countBytes
  grind [State.releaseWaits_mem, State.putObj_wf, State.phaseDone_mem]

@[simp] theorem barrierAt_wf {loc : Reg} {k : Nat → Nat → State} (hk : ∀ a b, (k a b).mem.wf = true)
    (h : s.mem.wf = true) : (barrierAt c s loc k).mem.wf = true := by
  unfold barrierAt
  split
  · exact takeTrap_wf h
  · split
    · exact h
    · exact hk _ _

@[simp] theorem arriveAs_wf {core off n b lower : Nat} {k : Bool → State → State}
    (hk : ∀ b (t : State), t.mem.wf = true → (k b t).mem.wf = true) (h : s.mem.wf = true) :
    (arriveAs c s core off n b lower k).mem.wf = true := by
  unfold arriveAs
  simp only
  split
  · exact trap_wf h
  · split
    · exact h
    · exact hk _ _ (by split <;> simp [h])

@[simp] theorem execBinit_canonical {lane cluster : Bool} {loc arr bytes : Reg} {g : Guard} (hm : s.mem.wf = true) :
    Canonical (execBinit lane cluster loc arr bytes g s) := by
  refine issueAs_canonical (fun c t hm => ?_) hm
  grind [State.modCore_mem, State.putObj_wf, trap_wf, retire_mem, barrierAt_wf]

@[simp] theorem execBjoin_canonical {loc : Reg} {g : Guard} (hm : s.mem.wf = true) : Canonical (execBjoin loc g s) := by
  refine issueAs_canonical (fun c t hm => ?_) hm
  grind [State.modGroup_mem, trap_wf, retire_mem, barrierAt_wf]

@[simp] theorem execBarv_canonical {d loc : Reg} {g : Guard} (hm : s.mem.wf = true) : Canonical (execBarv d loc g s) :=
  issueAs_canonical (fun c t hm => by simp [hm]) hm

@[simp] theorem execBarx_canonical {d loc bytes : Reg} {g : Guard} (hm : s.mem.wf = true) :
    Canonical (execBarx d loc bytes g s) := by
  refine issueAs_canonical (fun c t hm => ?_) hm
  grind [writeUni_mem, arriveAs_wf, trap_wf, retire_mem, barrierAt_wf]

@[simp] theorem retireObs_mem {obs : Option Key} : (retireObs c obs s).mem = s.mem := rfl

@[simp] theorem waitPhase_wf {loc ph : Reg} {deadline : Option Nat} {yes no : State → State}
    (hyes : ∀ t : State, t.mem.wf = true → (yes t).mem.wf = true)
    (hno : ∀ t : State, t.mem.wf = true → (no t).mem.wf = true)
    (hm : s.mem.wf = true) : (waitPhase c s loc ph deadline yes no).mem.wf = true := by
  unfold waitPhase
  split
  · simpa using hyes s hm
  · simpa using hno s hm
  · exact trap_wf hm
  · refine barrierAt_wf (fun a b => ?_) hm
    simp only
    split
    · exact trap_wf hm
    · split
      · simpa using hyes s hm
      · simpa using hm

@[simp] theorem execBwait_canonical {loc ph : Reg} {g : Guard} (hm : s.mem.wf = true) : Canonical (execBwait loc ph g s) :=
  issueAs_canonical (fun c t hm => by simp [hm]) hm

@[simp] theorem execBwaitt_canonical {d loc ph t : Reg} {g : Guard} (hm : s.mem.wf = true) :
    Canonical (execBwaitt d loc ph t g s) :=
  issueAs_canonical (fun c t hm => by simp [hm]) hm

@[simp] theorem execBtest_canonical {d loc ph : Reg} {g : Guard} (hm : s.mem.wf = true) :
    Canonical (execBtest d loc ph g s) := by
  refine issueAs_canonical (fun c t hm => ?_) hm
  grind [writeUni_mem, retireObs_mem, trap_wf, retire_mem, barrierAt_wf]

@[simp] theorem execBleave_canonical {loc : Reg} {g : Guard} (hm : s.mem.wf = true) : Canonical (execBleave loc g s) := by
  refine issueAs_canonical (fun c t hm => ?_) hm
  grind [State.modGroup_mem, State.putObj_wf, trap_wf, retire_mem, State.phaseDone_mem, barrierAt_wf]

@[simp] theorem implicitLeave_wf {cl : Nat} {reckon : Bool} {k : Key} {m : Member} (hm : s.mem.wf = true) :
    (implicitLeave cl reckon k m s).mem.wf = true := by
  unfold implicitLeave
  grind [State.releaseWaits_mem, State.putObj_wf, State.phaseDone_mem]

@[simp] theorem execBwaittTimeout_canonical {grp slot : Nat} (h : s.mem.wf = true) :
    Canonical (execBwaittTimeout grp slot s) := by
  rw [execBwaittTimeout, canonical_next]; grind [State.modSplit_mem]

/-! ### Machine/Engine.lean -/

@[simp] theorem State.takeUnits_mem {id : Nat} {owned : List (Space × Nat × Nat)} : (s.takeUnits id owned).mem = s.mem :=
  rfl

@[simp] theorem State.takeWbuf_mem {core off asid team : Nat} : (s.takeWbuf core off asid team).mem = s.mem := by
  simp [State.takeWbuf, apply_ite State.mem]

@[simp] theorem State.engineWrite_wf {id : Nat} {cmd : Cmd} {ws : List (Place × Byte)} (hm : s.mem.wf = true) :
    (s.engineWrite id cmd ws).mem.wf = true := by
  unfold State.engineWrite
  grind [foldl_wf, foldl_mem, State.takeWbuf_mem, State.touchPlaces_wf, State.performed_mem, State.keyMarks_mem,
    State.putBytes_wf]

@[simp] theorem State.countFor_wf {id : Nat} {cmd : Cmd} {obj : Option (Nat × Nat)} {n : Nat} (hm : s.mem.wf = true) :
    (s.countFor id cmd obj n).mem.wf = true := by
  unfold State.countFor
  repeat' split
  all_goals simp [hm]

@[simp] theorem State.releaseUnit_wf {id : Nat} {cmd : Cmd} {multicast : Bool} {u : Place} {ws : List (Place × Byte)}
    (hm : s.mem.wf = true) :
    (s.releaseUnit id cmd multicast u ws).mem.wf = true := by
  simp [State.releaseUnit, hm]

@[simp] theorem State.putTag_mem {core t : Nat} {v : Tag} : (s.putTag core t v).mem = s.mem := rfl

@[simp] theorem State.accept_mem {tag bar : Option Nat} {view : List MemberView} {owned : List (Space × Nat × Nat)}
    {work : Work} :
    (s.accept c tag bar view owned work).mem = s.mem := by
  unfold State.accept
  grind [foldl_mem, State.recall_mem, State.putTag_mem]

@[simp] theorem State.owe_mem {id : Nat} {cmd : Cmd} {sub : Nat} {addr : DWord} {other : Word} {status : Nat} :
    (s.owe id cmd sub addr other status).mem = s.mem :=
  rfl

@[simp] theorem State.engineAccess_mem {id : Nat} {cmd : Cmd} {k : AccessKind} {ps : List (Place × DWord)} :
    (s.engineAccess id cmd k ps).mem = s.mem := by
  unfold State.engineAccess
  grind [State.record_mem, State.owe_mem]

@[simp] theorem State.sourceAccess_mem {id : Nat} {ps : List (Place × DWord)} : (s.sourceAccess id ps).mem = s.mem := by
  unfold State.sourceAccess
  split <;> simp

@[simp] theorem State.bumpGen_mem {team region : Nat} : (s.bumpGen team region).mem = s.mem := by
  unfold State.bumpGen
  split <;> rfl

@[simp] theorem State.complete_wf {id : Nat} {cmd : Cmd} {status : Word} {written : List (Place × DWord)}
    (hm : s.mem.wf = true) :
    (s.complete id cmd status written).mem.wf = true := by
  unfold State.complete
  grind [foldl_wf, foldl_mem, State.engineAccess_mem, State.modCluster_mem, State.countBytes_wf, State.modCore_mem,
    State.dropTeam_mem, State.putTag_mem, State.bumpGen_mem]

@[simp] theorem State.engineLease_mem {cmd : Cmd} : (s.engineLease cmd).mem = s.mem := by simp [State.engineLease]

/-! ### Machine/Tags.lean -/

@[simp] theorem observe_wf {d : Reg} {seen : List Nat} {fault : Option Word} {w : Word} (hm : s.mem.wf = true) :
    (observe c d seen fault w s).mem.wf = true := by
  unfold observe
  repeat' split
  all_goals simp [hm]

@[simp] theorem waitTags_mem {live : List Nat} : (waitTags c live s).mem = s.mem := by
  unfold waitTags
  split <;> rfl

@[simp] theorem execTwaita_canonical {trp : Bool} {sc : Scope} {d : Reg} {m : Option (Fin 24)} {g : Guard}
    (hm : s.mem.wf = true) :
    Canonical (execTwaita trp sc d m g s) := by
  refine issueAs_canonical (fun c t hm => ?_) hm
  grind [observe_wf, writeUni_mem, retire_mem, waitTags_mem]

@[simp] theorem execTwaitl_canonical {trp : Bool} {sc : Scope} {d : Reg} {m : Option (Fin 24)} {g : Guard}
    (hm : s.mem.wf = true) :
    Canonical (execTwaitl trp sc d m g s) := by
  refine issueAs_canonical (fun c t hm => ?_) hm
  grind [observe_wf, waitTags_mem]

@[simp] theorem execTffr_canonical {sc : Scope} {d : Reg} {m : Option (Fin 24)} {g : Guard} (hm : s.mem.wf = true) :
    Canonical (execTffr sc d m g s) := by
  refine issueAs_canonical (fun c t hm => ?_) hm
  grind [observe_wf, writeUni_mem, retire_mem, waitTags_mem]

@[simp] theorem execTclr_canonical {m : Option (Fin 24)} {g : Guard} (hm : s.mem.wf = true) :
    Canonical (execTclr m g s) := by
  refine issueAs_canonical (fun c t hm => ?_) hm
  grind [foldl_wf, foldl_mem, State.putTag_mem, retire_mem]

@[simp] theorem execXstat_canonical {trp : Bool} {d : Reg} {tag : Fin 64} {g : Guard} (hm : s.mem.wf = true) :
    Canonical (execXstat trp d tag g s) :=
  issueAs_canonical (fun c t hm => by simp [hm]) hm

@[simp] theorem execRfence_canonical {recp : Option (Fin 24)} {g : Guard} (hm : s.mem.wf = true) :
    Canonical (execRfence recp g s) := by
  refine issueAs_canonical (fun c t hm => ?_) hm
  grind [State.modCore_mem, retire_mem]

@[simp] theorem execSpfence_canonical {loc : Reg} {len : Reg} {g : Guard} (hm : s.mem.wf = true) :
    Canonical (execSpfence loc len g s) := by
  refine issueAs_canonical (fun c t hm => ?_) hm
  grind [foldl_wf, foldl_mem, takeTrap_wf, Ctx.marks_mem, State.bumpGen_mem, retire_mem, State.markStale_mem]

/-! ### Machine/Almanac.lean -/

@[simp] theorem State.submit_mem {owned : List (Space × Nat × Nat)} {work : Work} :
    (s.submit c owned work).mem = s.mem := by
  simp [State.submit]

@[simp] theorem acceptLoop_mem {d : Reg} {owned : List (Space × Nat × Nat)} {l : Loop} :
    (acceptLoop c d owned l s).mem = s.mem := by
  simp [acceptLoop]

@[simp] theorem State.setLoop_mem {id : Nat} {l : Loop} : (s.setLoop id l).mem = s.mem := rfl
@[simp] theorem holdRegs_mem {gid : Nat} {regs : List Nat} : (holdRegs gid regs s).mem = s.mem := rfl
@[simp] theorem giveReg_mem {cmd : Cmd} {d : Reg} {f : Nat → Word} : (giveReg cmd d f s).mem = s.mem := by simp [giveReg]
@[simp] theorem landReg_mem {cmd : Cmd} {d : Reg} {f : Nat → Word} : (landReg cmd d f s).mem = s.mem := by simp [landReg]

@[simp] theorem execMfmt_canonical {role : FmtRole} {d : Reg} {loc : Reg} {g : Guard} (hm : s.mem.wf = true) :
    Canonical (execMfmt role d loc g s) := by
  refine issueAs_canonical (fun c t hm => ?_) hm
  grind [writeUni_mem, takeTrap_wf, trap_wf, retire_mem, spanAccess_wf]

@[simp] theorem startMloop_wf {nan : Bool} {d : Reg} {o : Fin 6} (hm : s.mem.wf = true) :
    (startMloop nan d o c s).mem.wf = true := by
  unfold startMloop
  grind [State.sourceAccess_mem, acceptLoop_mem, trap_wf, retire_mem]

@[simp] theorem execMloop_canonical {nan : Bool} {d : Reg} {o : Fin 6} {g : Guard} (hm : s.mem.wf = true) :
    Canonical (execMloop nan d o g s) :=
  issueAs_canonical (fun c t hm => by simp [hm]) hm

@[simp] theorem execMhad_canonical {p : HadP} {sc : HadScale} {d : Reg} {loc : Reg} {geom : Reg} {g : Guard}
    (hm : s.mem.wf = true) :
    Canonical (execMhad p sc d loc geom g s) := by
  refine issueAs_canonical (fun c t hm => ?_) hm
  grind [takeTrap_wf, State.sourceAccess_mem, acceptLoop_mem, trap_wf, retire_mem]

@[simp] theorem State.finishAcc_wf {id : Nat} {cmd : Cmd} {written : List (Place × DWord)} (hm : s.mem.wf = true) :
    (s.finishAcc id cmd written).mem.wf = true := by
  simp [State.finishAcc, hm]

@[simp] theorem State.doAcc_wf {id : Nat} {cmd : Cmd} {x0 : Work} (hm : s.mem.wf = true) :
    (s.doAcc id cmd x0).mem.wf = true := by
  unfold State.doAcc
  split <;> simp [hm]

@[simp] theorem State.coverLooks_mem {k : Nat} : (s.coverLooks c k).mem = s.mem := rfl

@[simp] theorem execMwait_canonical {trp : Bool} {d a : Reg} {g : Guard} (h : s.mem.wf = true) :
    Canonical (execMwait trp d a g s) := by
  refine issueAs_canonical (fun c t ht => ?_) h
  simp only
  split
  · exact ht
  · split
    · exact takeOwed_wf ht
    · split
      · exact takeTrap_wf ht
      · simpa using ht

@[simp] theorem execMstat_canonical {d a : Reg} {g : Guard} (h : s.mem.wf = true) : Canonical (execMstat d a g s) := by
  refine issueAs_canonical (fun c t ht => ?_) h
  have hw : ∀ w, (retire c (writeUni c d w t)).mem.wf = true := fun w => by rwa [retire_mem, writeUni_mem]
  generalize (c.uni a).toNat % 65536 = id
  simp only
  cases c.grp.owed.find? (fun o => decide (o.loop = some id)) with
  | some o => exact takeOwed_wf ht
  | none =>
    generalize (if c.grp.loopAge id ≤ 7 then _ else _) = e
    cases e <;> exact hw _

@[simp] theorem State.cacheLines_mem {cmd : Cmd} {lines : List Nat} : (s.cacheLines cmd lines).mem = s.mem := by
  unfold State.cacheLines
  split <;> rfl

@[simp] theorem State.mloopStep_mem {id : Nat} {cmd : Cmd} {l : Loop} : (s.mloopStep id cmd l).mem = s.mem := by
  simp [State.mloopStep, apply_ite State.mem]

@[simp] theorem State.mhadStep_wf {id : Nat} {cmd : Cmd} {l : Loop} (hm : s.mem.wf = true) :
    (s.mhadStep id cmd l).mem.wf = true := by
  unfold State.mhadStep
  grind [foldl_wf, foldl_mem, State.setLoop_mem, State.engineWrite_wf, State.modCmd_mem]

@[simp] theorem execLoopStep_canonical {core idx : Nat} (hm : s.mem.wf = true) : Canonical (execLoopStep core idx s) := by
  rw [execLoopStep, canonical_next]
  grind [State.mhadStep_wf, State.mloopStep_mem]

@[simp] theorem State.completeLoop_wf {id : Nat} {cmd : Cmd} {l : Loop} {written : List (Place × DWord)}
    (hm : s.mem.wf = true) :
    (s.completeLoop id cmd l written).mem.wf = true := by
  simp [State.completeLoop, hm]

/-! ### Machine/ChartPages.lean -/

@[simp] theorem State.modChart_mem {die : Nat} {f : Chart → Chart} : (s.modChart die f).mem = s.mem := rfl
@[simp] theorem State.modPool_mem {die p : Nat} {f : Pool → Pool} : (s.modPool die p f).mem = s.mem := rfl
@[simp] theorem State.takeSeq_mem {die : Nat} : (s.takeSeq die).1.mem = s.mem := rfl

@[simp] theorem State.chartStore_wf {asid pa : Nat} {bs : List Byte} (hm : s.mem.wf = true) :
    (s.chartStore asid pa bs).mem.wf = true := by
  simp [State.chartStore, hm]

@[simp] theorem State.slotStore_wf {n asid off : Nat} {bs : List Byte} (hm : s.mem.wf = true) :
    (s.slotStore n asid off bs).mem.wf = true := by
  simp [State.slotStore, hm]

@[simp] theorem State.modPage_wf {n : Nat} {f : Page → Page} (hm : s.mem.wf = true) : (s.modPage n f).mem.wf = true := by
  unfold State.modPage
  split <;> simp [hm]

@[simp] theorem State.modPlanes_wf {n : Nat} {f : Page → Page} (hm : s.mem.wf = true) :
    (s.modPlanes n f).mem.wf = true := by
  unfold State.modPlanes
  grind [State.modPage_wf, State.slotStore_wf]

@[simp] theorem State.serve_wf {die pool fuel : Nat} (hm : s.mem.wf = true) : (s.serve die pool fuel).mem.wf = true := by
  induction fuel generalizing s with
  | zero => exact hm
  | succ fuel ih =>
    unfold State.serve
    simp only
    split
    · exact ih (by simp [hm])
    · exact hm

@[simp] theorem State.serveWaiters_wf {die pool : Nat} (hm : s.mem.wf = true) :
    (s.serveWaiters die pool).mem.wf = true := by
  simp [State.serveWaiters, hm]

@[simp] theorem State.giveFrame_wf {die pool f : Nat} (hm : s.mem.wf = true) : (s.giveFrame die pool f).mem.wf = true := by
  simp [State.giveFrame, hm]

@[simp] theorem State.dropFrame_wf {n : Nat} {p : Page} (hm : s.mem.wf = true) : (s.dropFrame n p).mem.wf = true := by
  unfold State.dropFrame
  grind [State.bump_mem, State.countMgmt_mem, State.modPool_mem, State.giveFrame_wf]

@[simp] theorem State.settlePage_wf {n : Nat} (h : s.mem.wf = true) : (s.settlePage n).mem.wf = true := by
  unfold State.settlePage
  split
  · exact h
  · simp only
    split
    · exact State.dropFrame_wf (State.slotStore_wf (by split <;> exact h))
    · exact h

@[simp] theorem State.evict_wf {die pool fuel : Nat} (hm : s.mem.wf = true) : (s.evict die pool fuel).mem.wf = true := by
  induction fuel generalizing s with
  | zero => exact hm
  | succ fuel ih =>
    unfold State.evict
    split
    · simp [hm]
    · split
      · simp [hm]
      · exact ih (by simp [hm])

@[simp] theorem State.runEvict_wf {die pool : Nat} (hm : s.mem.wf = true) : (s.runEvict die pool).mem.wf = true := by
  simp [State.runEvict, hm]

@[simp] theorem State.unhold_wf {n : Nat} (hm : s.mem.wf = true) : (s.unhold n).mem.wf = true := by
  unfold State.unhold
  grind [State.runEvict_wf, State.settlePage_wf]

@[simp] theorem State.pin_wf {n : Nat} (hm : s.mem.wf = true) : (s.pin n).mem.wf = true := by simp [State.pin, hm]
@[simp] theorem State.unpin_wf {n : Nat} (hm : s.mem.wf = true) : (s.unpin n).mem.wf = true := by simp [State.unpin, hm]

@[simp] theorem State.copyPayload_wf {asid src dst n : Nat} (hm : s.mem.wf = true) :
    (s.copyPayload asid src dst n).mem.wf = true := by
  simp [State.copyPayload, hm]

@[simp] theorem State.finishEviction_wf {n : Nat} (hm : s.mem.wf = true) : (s.finishEviction n).mem.wf = true := by
  unfold State.finishEviction
  grind [State.copyPayload_wf, State.modPage_wf, State.giveFrame_wf, State.settlePage_wf]

@[simp] theorem State.startFetch_wf {n : Nat} {seq : Word} (hm : s.mem.wf = true) : (s.startFetch n seq).mem.wf = true := by
  unfold State.startFetch
  grind [State.modPage_wf, State.runEvict_wf, State.modPool_mem]

@[simp] theorem State.finishFetch_wf {n : Nat} (hm : s.mem.wf = true) : (s.finishFetch n).mem.wf = true := by
  unfold State.finishFetch
  grind [State.copyPayload_wf, State.modPage_wf, State.unpin_wf]

@[simp] theorem State.putEntry_wf {h e : Nat} {n : Option Nat} (hm : s.mem.wf = true) :
    (s.putEntry h e n).mem.wf = true := by
  unfold State.putEntry
  split <;> simp [hm]

@[simp] theorem State.decRef_wf {n : Nat} (hm : s.mem.wf = true) : (s.decRef n).mem.wf = true := by simp [State.decRef, hm]

theorem State.install_wf {a e : Nat} {n : Option Nat} (h : s.mem.wf = true) :
    ∀ t, s.install a e n = some t → t.mem.wf = true := by
  unfold State.install
  grind [State.modPage_wf, State.putEntry_wf, State.decRef_wf]

@[simp] theorem State.install_getD_wf {a e : Nat} {n : Option Nat} (h : s.mem.wf = true) :
    ((s.install a e n).getD s).mem.wf = true := by
  cases hi : s.install a e n with
  | none => exact h
  | some t => exact State.install_wf h t hi

@[simp] theorem State.clearTable_wf {a : Nat} (h : s.mem.wf = true) : (s.clearTable a).mem.wf = true := by
  unfold State.clearTable
  split
  · exact h
  · exact foldl_wf (fun t e ht => State.install_getD_wf ht) _ h

theorem State.allocPage_wf {die pool h asid model parent tok rowb kv : Nat} {seq : Word} {pins : Nat}
    (hm : s.mem.wf = true) :
    ∀ t, (s.allocPage die pool h asid model parent tok rowb kv seq pins) = some t → t.1.mem.wf = true := by
  unfold State.allocPage
  split <;> simp [hm]

@[simp] theorem State.payloadError_wf {n : Nat} {e : PageError} (hm : s.mem.wf = true) :
    (s.payloadError n e).1.mem.wf = true := by
  unfold State.payloadError
  grind [foldl_wf, foldl_mem, State.countMgmt_mem, State.modPage_wf, State.modPlanes_wf, State.chartStore_wf]

@[simp] theorem State.readPages_wf {ns : List Nat} (h : s.mem.wf = true) : (State.readPages ns s).1.mem.wf = true := by
  induction ns generalizing s with
  | nil => exact h
  | cons n ns ih =>
    unfold State.readPages
    simp only
    split
    · simp [h]
    · exact ih (by simp [h])

/-! ### Machine/HelmBase.lean -/

@[simp] theorem State.markSpan_wf {asid va n : Nat} {dirty : Bool} (hm : s.mem.wf = true) :
    (s.markSpan asid va n dirty).mem.wf = true := by
  unfold State.markSpan
  grind [foldl_wf, foldl_mem, State.markLeaf_wf]

@[simp] theorem State.readVa_wf {asid va n : Nat} (hm : s.mem.wf = true) : (s.readVa asid va n).1.mem.wf = true := by
  unfold State.readVa
  split <;> simp [hm]

@[simp] theorem State.natVa_wf {asid va n : Nat} (hm : s.mem.wf = true) : (s.natVa asid va n).1.mem.wf = true := by
  simp [State.natVa, hm]

@[simp] theorem State.writeVa_wf {asid va : Nat} {bs : List Byte} (hm : s.mem.wf = true) :
    (s.writeVa asid va bs).mem.wf = true := by
  unfold State.writeVa
  grind [State.touchPlaces_wf, State.lostWalk_mem, State.markSpan_wf, State.putBytes_wf]

@[simp] theorem State.addCounter_wf {asid : Nat} {addr add : DWord} (hm : s.mem.wf = true) :
    (s.addCounter asid addr add).mem.wf = true := by
  unfold State.addCounter
  repeat' split
  all_goals simp [hm]

@[simp] theorem State.readPhys_wf {pa n : Nat} (hm : s.mem.wf = true) : (s.readPhys pa n).1.mem.wf = true := by
  simp [State.readPhys, hm]

@[simp] theorem State.writePhys_wf {pa : Nat} {bs : List Byte} (hm : s.mem.wf = true) :
    (s.writePhys pa bs).mem.wf = true := by
  simp [State.writePhys, hm]

@[simp] theorem State.modQueue_mem {q : Nat} {f : Queue → Queue} : (s.modQueue q f).mem = s.mem := rfl

@[simp] theorem State.flushFor_wf {q fuel : Nat} (h : s.mem.wf = true) : (s.flushFor q fuel).mem.wf = true := by
  induction fuel generalizing s with
  | zero => exact h
  | succ fuel ih =>
    unfold State.flushFor
    simp only
    split
    · exact h
    · split
      · exact ih (by split <;> simp [h])
      · exact h

@[simp] theorem State.flush_wf {q : Nat} (hm : s.mem.wf = true) : (s.flush q).mem.wf = true := by simp [State.flush, hm]

@[simp] theorem State.post_wf {q : Nat} {bytes : List Byte} {frees : Option Nat} (hm : s.mem.wf = true) :
    (s.post q bytes frees).mem.wf = true := by
  unfold State.post
  repeat' split
  all_goals simp [hm]

@[simp] theorem State.postOpen_wf {q code : Nat} {status id : Option Nat} {vala valb : Option DWord} {cookie : DWord}
    (hm : s.mem.wf = true) :
    (s.postOpen q code status id vala valb cookie).mem.wf = true := by
  simp [State.postOpen, hm]

@[simp] theorem State.modPart_mem {p : Nat} {f : Part → Part} : (s.modPart p f).mem = s.mem := rfl

@[simp] theorem State.endReq_wf {a : Nat} {st : ReqState} (h : s.mem.wf = true) : (s.endReq a st).mem.wf = true := by
  unfold State.endReq
  simp only
  split <;> simp [h]

@[simp] theorem State.failReq_wf {a : Nat} {code : Word} (h : s.mem.wf = true) : (s.failReq a code).mem.wf = true := by
  unfold State.failReq
  split
  · exact h
  · split
    · simp only
      split <;> simp [h]
    · exact h

@[simp] theorem State.quarantine_wf {n : Nat} (h : s.mem.wf = true) : (s.quarantine n).mem.wf = true := by
  unfold State.quarantine
  split
  · exact h
  · split
    · exact h
    · exact State.settlePage_wf (foldl_wf (fun t a ht => State.failReq_wf ht) _ (by split <;> simp [h]))

/-! ### Machine/Tables.lean -/

@[simp] theorem State.modTable_mem {team num : Nat} {f : Table → Table} : (s.modTable team num f).mem = s.mem := rfl

@[simp] theorem State.markSpilled_mem {team : Nat} {vs : List Nat} {reckon : Bool} {key : Key} :
    (s.markSpilled team vs reckon key).mem = s.mem := by
  unfold State.markSpilled
  grind [foldl_mem, State.modTable_mem]

@[simp] theorem State.writeSpills_wf {id : Nat} {cmd : Cmd} {vs : List Nat} (hm : s.mem.wf = true) :
    (s.writeSpills id cmd vs).mem.wf = true := by
  unfold State.writeSpills
  grind [foldl_wf, foldl_mem, State.modTable_mem, State.engineWrite_wf]

@[simp] theorem State.rebuildReads_mem {id : Nat} {cmd : Cmd} {vs : List Nat} : (s.rebuildReads id cmd vs).mem = s.mem := by
  unfold State.rebuildReads
  split <;> simp

@[simp] theorem State.ownSpills_mem {id : Nat} {vs : List Nat} : (s.ownSpills id vs).mem = s.mem := by
  unfold State.ownSpills
  split <;> simp

theorem State.doTable_wf {id : Nat} {cmd : Cmd} {x0 : Work} (hm : s.mem.wf = true) :
    ∀ t, (s.doTable id cmd x0) = some t → t.mem.wf = true := by
  unfold State.doTable
  repeat' split
  all_goals simp [hm]

@[simp] theorem State.drainAcc_wf {n core : Nat} (h : s.mem.wf = true) : (State.drainAcc n core s).mem.wf = true := by
  induction n generalizing s with
  | zero => exact h
  | succ n ih =>
    unfold State.drainAcc
    split
    · exact h
    · split
      · exact h
      · split
        · exact ih (State.doAcc_wf h)
        · exact ih (State.doAcc_wf h)
        · exact ih (State.doAcc_wf h)
        · split
          · exact ih (State.doTable_wf h _ ‹_›)
          · exact h

@[simp] theorem State.drain_wf {core : Nat} (hm : s.mem.wf = true) : (s.drain core).mem.wf = true := by
  simp [State.drain, hm]

@[simp] theorem execAccz_canonical {tm : TileMode} {a : Reg} {g : Guard} (hm : s.mem.wf = true) :
    Canonical (execAccz tm a g s) := by
  refine issueAs_canonical (fun c t hm => ?_) hm
  grind [State.submit_mem, trap_wf, retire_mem, State.drain_wf]

@[simp] theorem execAccrd_canonical {raw : Bool} {d : Reg} {a : Reg} {g : Guard} (hm : s.mem.wf = true) :
    Canonical (execAccrd raw d a g s) := by
  refine issueAs_canonical (fun c t hm => ?_) hm
  grind [State.submit_mem, trap_wf, retire_mem, State.drain_wf, holdRegs_mem]

@[simp] theorem execAccwr_canonical {a : Reg} {b : Reg} {g : Guard} (hm : s.mem.wf = true) :
    Canonical (execAccwr a b g s) := by
  refine issueAs_canonical (fun c t hm => ?_) hm
  grind [State.submit_mem, trap_wf, retire_mem, State.drain_wf]

@[simp] theorem startTbld_wf {d : Reg} {o : Fin 6} (hm : s.mem.wf = true) : (startTbld d o c s).mem.wf = true := by
  unfold startTbld
  grind [State.sourceAccess_mem, State.modTeam_mem, State.markSpilled_mem, State.ownSpills_mem, acceptLoop_mem, trap_wf,
    retire_mem]

@[simp] theorem execTbld_canonical {d : Reg} {o : Fin 6} {g : Guard} (hm : s.mem.wf = true) :
    Canonical (execTbld d o g s) :=
  issueAs_canonical (fun c t hm => by simp [hm]) hm

@[simp] theorem execTableBuild_canonical {core idx : Nat} (hm : s.mem.wf = true) :
    Canonical (execTableBuild core idx s) := by
  rw [execTableBuild, canonical_next]
  grind [State.modTable_mem, State.setLoop_mem, State.writeSpills_wf]

@[simp] theorem startTlook_wf {d : Reg} {o : Fin 6} (hm : s.mem.wf = true) : (startTlook d o c s).mem.wf = true := by
  unfold startTlook
  grind [State.sourceAccess_mem, State.modTable_mem, acceptLoop_mem, trap_wf, retire_mem]

@[simp] theorem execTlook_canonical {d : Reg} {o : Fin 6} {g : Guard} (hm : s.mem.wf = true) :
    Canonical (execTlook d o g s) :=
  issueAs_canonical (fun c t hm => by simp [hm]) hm

@[simp] theorem State.rebuilt_mem {id : Nat} {cmd : Cmd} {num : Nat} {t : Table} : (s.rebuilt id cmd num t).mem = s.mem :=
  rfl

@[simp] theorem State.decideRoom_mem {id : Nat} {cmd : Cmd} {l : Loop} {num : Nat} {vs : List Nat} :
    (s.decideRoom id cmd l num vs).mem = s.mem := by
  simp [State.decideRoom]

@[simp] theorem State.doRoom_wf {id : Nat} {cmd : Cmd} {l : Loop} {num : Nat} {fill : Bool} {vs : List Nat}
    (hm : s.mem.wf = true) :
    (s.doRoom id cmd l num fill vs).mem.wf = true := by
  unfold State.doRoom
  grind [State.modTable_mem, State.setLoop_mem, State.rebuilt_mem, State.modCmd_mem, State.writeSpills_wf]

@[simp] theorem State.lookStep_mem {id : Nat} {cmd : Cmd} {l : Loop} {t : Table} : (s.lookStep id cmd l t).mem = s.mem := by
  simp [State.lookStep, apply_ite State.mem]

@[simp] theorem State.tlookFrom_mem {id : Nat} {cmd : Cmd} {l : Loop} {num : Nat} :
    (s.tlookFrom id cmd l num).mem = s.mem := by
  unfold State.tlookFrom
  repeat' split
  all_goals simp

@[simp] theorem execTlookStep_canonical {core idx : Nat} (hm : s.mem.wf = true) : Canonical (execTlookStep core idx s) := by
  rw [execTlookStep, canonical_next]
  grind [State.modCore_mem, State.doRoom_wf, State.tlookFrom_mem]

@[simp] theorem execLoopComplete_canonical {core idx : Nat} (hm : s.mem.wf = true) :
    Canonical (execLoopComplete core idx s) := by
  rw [execLoopComplete, canonical_next]
  grind [State.completeLoop_wf, State.drain_wf]

@[simp] theorem execTval_canonical {d : Reg} {num : Reg} {g : Guard} (hm : s.mem.wf = true) :
    Canonical (execTval d num g s) := by
  refine issueAs_canonical (fun c t hm => ?_) hm
  grind [State.submit_mem, trap_wf, retire_mem, State.drain_wf, holdRegs_mem]

@[simp] theorem execTspill_canonical {d : Reg} {num : Reg} {loc : Reg} {g : Guard} (hm : s.mem.wf = true) :
    Canonical (execTspill d num loc g s) := by
  refine issueAs_canonical (fun c t hm => ?_) hm
  grind [takeTrap_wf, State.sourceAccess_mem, State.modTable_mem, State.submit_mem, trap_wf, retire_mem, State.drain_wf,
    holdRegs_mem]

@[simp] theorem execTfill_canonical {d : Reg} {num : Reg} {g : Guard} (hm : s.mem.wf = true) :
    Canonical (execTfill d num g s) := by
  refine issueAs_canonical (fun c t hm => ?_) hm
  grind [State.sourceAccess_mem, State.modTable_mem, State.markSpilled_mem, State.submit_mem, State.ownSpills_mem, trap_wf,
    retire_mem, State.drain_wf, holdRegs_mem]

@[simp] theorem execTdrop_canonical {num : Reg} {g : Guard} (hm : s.mem.wf = true) : Canonical (execTdrop num g s) := by
  refine issueAs_canonical (fun c t hm => ?_) hm
  grind [State.modTeam_mem, trap_wf, retire_mem]

/-! ### Machine/Chart.lean -/

@[simp] theorem chartAccept_mem {tag : Nat} {bar : Option Nat} {owned : List (Space × Nat × Nat)} {k : ChartCmd} :
    (chartAccept c tag bar owned k s).mem = s.mem := by
  unfold chartAccept
  grind [State.owe_mem, holdRegs_mem, State.accept_mem]

@[simp] theorem chartSettle_mem {tag code : Nat} {results : List (Reg × Word)} {pins : List Nat} :
    (chartSettle c tag code results pins s).mem = s.mem := by
  simp [chartSettle]

@[simp] theorem chartGate_wf {tag : Nat} {hs ps : List Nat} {go : State → State}
    (hgo : ∀ t : State, t.mem.wf = true → (go t).mem.wf = true) (hm : s.mem.wf = true) :
    (chartGate c tag hs ps s go).mem.wf = true := by
  unfold chartGate
  split <;> simp [hm, hgo]

@[simp] theorem State.seqFor_mem {die : Nat} {own : Word} {n : Nat} : (s.seqFor die own n).1.mem = s.mem := by
  unfold State.seqFor
  split <;> rfl

@[simp] theorem State.seqThere_mem {die : Nat} {pages : List Nat} : (s.seqThere die pages).mem = s.mem := by
  unfold State.seqThere
  split <;> rfl

@[simp] theorem State.joinHold_wf {grid n : Nat} (hm : s.mem.wf = true) : (s.joinHold grid n).mem.wf = true := by
  unfold State.joinHold
  split
  · split <;> simp [hm]
  · exact hm

@[simp] theorem State.awaitFrames_wf {die pool id n : Nat} (hm : s.mem.wf = true) :
    (s.awaitFrames die pool id n).mem.wf = true := by
  simp [State.awaitFrames, hm]

theorem State.allocAt_wf {die grid a e : Nat} {m : Model} {mnum : Nat} {seq : Word} {pins : Nat} (h : s.mem.wf = true) :
    ∀ r, s.allocAt die grid a e m mnum seq pins = some r → r.1.mem.wf = true := by
  intro r hr
  unfold State.allocAt at hr
  split at hr
  · cases hr
  · have ht := State.allocPage_wf h _ ‹_›
    obtain ⟨u, hu, rfl⟩ := Option.map_eq_some_iff.mp hr
    exact State.joinHold_wf (State.install_wf ht u hu)

@[simp] theorem State.gatherPin_wf {seqs : Map Word} {n : Nat} (hm : s.mem.wf = true) :
    (s.gatherPin seqs n).1.mem.wf = true := by
  unfold State.gatherPin
  split <;> simp [hm]

@[simp] theorem State.gatherWalk_wf {asid : Nat} {holds : List Nat} {seqs : Map Word} {os : List GOrd} {i : Nat}
    (h : s.mem.wf = true) : (s.gatherWalk asid holds seqs os i).1.mem.wf = true := by
  induction os generalizing s seqs i with
  | nil => exact h
  | cons o os ih =>
    unfold State.gatherWalk
    split
    · exact ih (State.gatherPin_wf h)
    · exact h

@[simp] theorem acceptGather_wf {tag : Nat} {bar : Option Nat} {g : Gather} {src : List (Place × DWord)}
    (hm : s.mem.wf = true) :
    (acceptGather c tag bar g src s).mem.wf = true := by
  unfold acceptGather
  grind [State.sourceAccess_mem, chartAccept_mem, State.gatherWalk_wf, State.owe_mem, retire_mem]

@[simp] theorem startKvgath_wf {fetch : Bool} {bar : Reg} {o : Fin 6} {tag : Nat} (hm : s.mem.wf = true) :
    (startKvgath fetch bar o tag c s).mem.wf = true := by
  unfold startKvgath
  grind [foldl_wf, foldl_mem, acceptGather_wf, takeTrap_wf, chartSettle_mem, State.sourceAccess_mem, State.takeSeq_mem,
    trap_wf, chartGate_wf]

@[simp] theorem execKvgath_canonical {fetch : Bool} {bar : Reg} {o : Fin 6} {tag : Fin 64} {g : Guard}
    (hm : s.mem.wf = true) :
    Canonical (execKvgath fetch bar o tag g s) :=
  issueAs_canonical (fun c t hm => by simp [hm]) hm

@[simp] theorem State.copyRows_wf {src dst : Nat} (hm : s.mem.wf = true) : (s.copyRows src dst).mem.wf = true := by
  unfold State.copyRows
  repeat' split
  all_goals simp [hm]

@[simp] theorem State.copyOnWrite_wf {die grid : Nat} {a : Append} {m : Model} {mnum n : Nat} {seq : Word}
    (h : s.mem.wf = true) : (s.copyOnWrite die grid a m mnum n seq).mem.wf = true := by
  unfold State.copyOnWrite
  split
  · exact h
  · split
    · exact h
    · have ht := State.allocPage_wf h _ ‹_›
      exact State.joinHold_wf (State.install_getD_wf (State.copyRows_wf (State.modPlanes_wf ht)))

@[simp] theorem State.appendRead_wf {a : Append} {m : Model} (hm : s.mem.wf = true) :
    (s.appendRead a m).1.mem.wf = true := by
  unfold State.appendRead
  repeat' split
  all_goals simp [hm]

@[simp] theorem State.appendPlan_wf {die grid : Nat} {a : Append} {m : Model} {mnum : Nat} {seq : Word}
    (h : s.mem.wf = true) : (s.appendPlan die grid a m mnum seq).1.mem.wf = true := by
  unfold State.appendPlan
  refine State.runEvict_wf (foldl_wf (fun t e ht => State.pin_wf ht) _ (foldl_wf (fun t k ht => ?_) _ ?_))
  · simp only
    split
    · exact ht
    · split
      · exact State.allocAt_wf ht _ ‹_›
      · exact ht
  · grind [State.copyOnWrite_wf]

@[simp] theorem startKvapp_wf {o : Fin 6} {tag : Nat} (h : s.mem.wf = true) : (startKvapp o tag c s).mem.wf = true := by
  have hset : ∀ {code : Nat} {rs : List (Reg × Word)} {ps : List Nat} {t : State}, t.mem.wf = true →
      (chartSettle c tag code rs ps t).mem.wf = true := fun ht => by simpa using ht
  have hgo : ∀ {k : ChartCmd} {src : List (Place × DWord)} {t : State}, t.mem.wf = true →
      (retire c (if c.reckon then (chartAccept c tag none [] k t).sourceAccess (chartAccept c tag none [] k t).uid src
        else chartAccept c tag none [] k t)).mem.wf = true := fun ht => by
    rw [retire_mem]; exact ite_wf (by simpa using ht) (by simpa using ht)
  unfold startKvapp
  refine ite_wf (trap_wf h) (ite_wf (trap_wf h) (ite_wf (trap_wf h) (ite_wf h (chartGate_wf (fun t ht => ?_) h))))
  extract_lets q s1 a
  have h1 : s1.mem.wf = true := ht
  split
  · exact hset h1
  · split
    · exact hset h1
    · extract_lets first f s2 a' code src go x p s3
      have h2 : s2.mem.wf = true := by
        simp only [s2, f]
        generalize first = l
        cases l <;> simpa using h1
      refine ite_wf ht (ite_wf (hset h2) ?_)
      split
      · split
        · exact hset (State.quarantine_wf (State.appendRead_wf h2))
        · exact hgo (State.appendPlan_wf (State.appendRead_wf h2))
      · exact hgo (State.startFetch_wf h2)
      · exact ite_wf (State.awaitFrames_wf (hgo h2)) (hset h2)

@[simp] theorem execKvapp_canonical {o : Fin 6} {tag : Fin 64} {g : Guard} (hm : s.mem.wf = true) :
    Canonical (execKvapp o tag g s) :=
  issueAs_canonical (fun c t hm => by simp [hm]) hm

@[simp] theorem startPgalloc_wf {d req idx : Reg} {tag : Nat} (h : s.mem.wf = true) :
    (startPgalloc d req idx tag c s).mem.wf = true := by
  have hset : ∀ {code : Nat} {rs : List (Reg × Word)} {ps : List Nat} {t : State}, t.mem.wf = true →
      (chartSettle c tag code rs ps t).mem.wf = true := fun ht => by simpa using ht
  unfold startPgalloc
  refine chartGate_wf (fun t ht => ?_) h
  extract_lets q s1
  have h1 : s1.mem.wf = true := by simpa [s1, q] using ht
  split
  · exact hset h1
  · split
    · exact hset h1
    · refine ite_wf (hset h1) (ite_wf (ite_wf ?_ (hset h1)) ?_)
      · exact State.awaitFrames_wf (s := retire c _) (by simpa using h1)
      split
      · exact hset h1
      · exact hset (State.runEvict_wf (State.allocAt_wf h1 _ ‹_›))

@[simp] theorem execPgalloc_canonical {d req idx : Reg} {tag : Fin 64} {g : Guard} (hm : s.mem.wf = true) :
    Canonical (execPgalloc d req idx tag g s) :=
  issueAs_canonical (fun c t hm => by simp [hm]) hm

@[simp] theorem startPgref_wf {d page : Reg} {tag : Nat} {quar : Bool}
    {f : Nat → Page → State → Except Nat (State × Word)} {c : Ctx}
    (hf : ∀ n p (t : State) r, t.mem.wf = true → f n p t = .ok r → r.1.mem.wf = true) (h : s.mem.wf = true) :
    (startPgref d page tag quar f c s).mem.wf = true := by
  unfold startPgref
  refine chartGate_wf (fun t ht => ?_) h
  have hq : (((t.takeSeq c.die).1.seqFor c.die (t.takeSeq c.die).2 (c.uni page).toNat).1).mem.wf = true := by simp [ht]
  grind [chartSettle_mem]

@[simp] theorem execPgrefQ_canonical {d page : Reg} {tag : Fin 64} {g : Guard} (hm : s.mem.wf = true) :
    Canonical (execPgrefQ d page tag g s) :=
  issueAs_canonical (fun c t hm => by simp [hm]) hm

@[simp] theorem execPgrefQf_canonical {d page : Reg} {tag : Fin 64} {g : Guard} (hm : s.mem.wf = true) :
    Canonical (execPgrefQf d page tag g s) :=
  issueAs_canonical (fun c t hm => by simp [hm]) hm

@[simp] theorem execPgrefInc_canonical {d page : Reg} {tag : Fin 64} {g : Guard} (hm : s.mem.wf = true) :
    Canonical (execPgrefInc d page tag g s) := by
  refine issueAs_canonical (fun c t hm => ?_) hm
  grind [State.modPage_wf, startPgref_wf]

@[simp] theorem execPgrefDec_canonical {d page : Reg} {tag : Fin 64} {g : Guard} (hm : s.mem.wf = true) :
    Canonical (execPgrefDec d page tag g s) := by
  refine issueAs_canonical (fun c t hm => ?_) hm
  grind [State.modPage_wf, State.decRef_wf, startPgref_wf]

@[simp] theorem startPgfetch_wf {page : Reg} {tag : Nat} (hm : s.mem.wf = true) :
    (startPgfetch page tag c s).mem.wf = true := by
  unfold startPgfetch
  grind [chartSettle_mem, chartAccept_mem, State.takeSeq_mem, State.startFetch_wf, State.seqFor_mem, chartGate_wf,
    retire_mem]

@[simp] theorem execPgfetch_canonical {page : Reg} {tag : Fin 64} {g : Guard} (hm : s.mem.wf = true) :
    Canonical (execPgfetch page tag g s) :=
  issueAs_canonical (fun c t hm => by simp [hm]) hm

@[simp] theorem execBtset_canonical {d req idx page : Reg} {tag : Fin 64} {g : Guard} (hm : s.mem.wf = true) :
    Canonical (execBtset d req idx page tag g s) := by
  refine issueAs_canonical (fun c t hm => ?_) hm
  grind [chartSettle_mem, State.seqThere_mem, State.takeSeq_mem, State.install_wf, chartGate_wf]

@[simp] theorem execBtget_canonical {d req idx : Reg} {tag : Fin 64} {g : Guard} (hm : s.mem.wf = true) :
    Canonical (execBtget d req idx tag g s) :=
  issueAs_canonical (fun c t hm => by simp [hm]) hm

@[simp] theorem execPfxh_canonical {d : Fin 24} {ids : Reg} {par : Fin 24} {mdl : Reg} {tag : Fin 64} {g : Guard}
    (hm : s.mem.wf = true) :
    Canonical (execPfxh d ids par mdl tag g s) := by
  refine issueAs_canonical (fun c t hm => ?_) hm
  grind [chartSettle_mem, State.sourceAccess_mem, State.takeSeq_mem, trap_wf, chartGate_wf]

@[simp] theorem execPfxlook_canonical {d key req idx : Reg} {tag : Fin 64} {g : Guard} (h : s.mem.wf = true) :
    Canonical (execPfxlook d key req idx tag g s) := by
  refine issueAs_canonical (fun c t ht => ?_) h
  have hset : ∀ {code : Nat} {rs : List (Reg × Word)} {ps : List Nat} {u : State}, u.mem.wf = true →
      (chartSettle c tag.val code rs ps u).mem.wf = true := fun hu => by simpa using hu
  have hsrc : ∀ {ps : List (Place × DWord)} {u : State}, u.mem.wf = true →
      (if c.reckon then u.sourceAccess u.uid ps else u).mem.wf = true := fun hu => ite_wf (by simpa using hu) hu
  extract_lets off _ _
  split
  · exact trap_wf ht
  · refine ite_wf ht (chartGate_wf (fun u hu => ?_) ht)
    extract_lets s1
    have h1 : s1.mem.wf = true := by simpa [s1] using hu
    split
    · split
      · exact hsrc (hset h1)
      · refine ite_wf (hsrc (hset h1)) (ite_wf (hsrc (hset h1)) ?_)
        split
        · exact hsrc (hset h1)
        · exact hsrc (hset (State.install_wf h1 _ ‹_›))
    · exact hset h1
    · exact hset h1

@[simp] theorem execPfxins_canonical {d key page : Reg} {tag : Fin 64} {g : Guard} (h : s.mem.wf = true) :
    Canonical (execPfxins d key page tag g s) := by
  refine issueAs_canonical (fun c t ht => ?_) h
  have hset : ∀ {code : Nat} {rs : List (Reg × Word)} {ps : List Nat} {u : State}, u.mem.wf = true →
      (chartSettle c tag.val code rs ps u).mem.wf = true := fun hu => by simpa using hu
  have hsrc : ∀ {ps : List (Place × DWord)} {u : State}, u.mem.wf = true →
      (if c.reckon then u.sourceAccess u.uid ps else u).mem.wf = true := fun hu => ite_wf (by simpa using hu) hu
  extract_lets off n
  split
  · exact trap_wf ht
  · refine ite_wf ht (chartGate_wf (fun u hu => ?_) ht)
    extract_lets q s1
    have h1 : s1.mem.wf = true := by simpa [s1, q] using hu
    split
    · exact hset h1
    · refine ite_wf (hsrc (hset h1)) ?_
      split
      · exact hsrc (hset h1)
      · split
        · exact hsrc (hset h1)
        · exact ite_wf (hsrc (hset h1)) (hsrc (hset (by simpa using State.modPlanes_wf h1)))
    · exact hset h1

@[simp] theorem execPfxinsDel_canonical {d page : Reg} {tag : Fin 64} {g : Guard} (hm : s.mem.wf = true) :
    Canonical (execPfxinsDel d page tag g s) := by
  refine issueAs_canonical (fun c t hm => ?_) hm
  grind [State.bump_mem, chartSettle_mem, State.modChart_mem, State.modPage_wf, State.takeSeq_mem, State.decRef_wf,
    State.seqFor_mem, chartGate_wf]

/-- Pages each with their engine's number: the numbers alone are taken. -/
@[simp] theorem State.seqsFor_mem {die : Nat} {seq : Word} {pages : List Nat} :
    (s.seqsFor die seq pages).1.mem = s.mem := by
  unfold State.seqsFor
  refine List.foldlRecOn (motive := fun x : State × Map Word => x.1.mem = s.mem) pages _ rfl (fun x hx n _ => ?_)
  split
  · exact hx
  · simpa using hx

@[simp] theorem State.fetchPages_wf {seqs : Map Word} {pages : List Nat} (h : s.mem.wf = true) :
    (s.fetchPages seqs pages).1.mem.wf = true := by
  unfold State.fetchPages
  refine List.foldlRecOn (motive := fun x : State × List Nat => x.1.mem.wf = true) pages _ h (fun x hx n _ => ?_)
  split
  · exact State.startFetch_wf hx
  · exact hx

@[simp] theorem startKvsend_wf {req dest rreq : Reg} {tag : Nat} (hm : s.mem.wf = true) :
    (startKvsend req dest rreq tag c s).mem.wf = true := by
  unfold startKvsend
  grind [foldl_wf, foldl_mem, chartSettle_mem, State.fetchPages_wf, chartAccept_mem, State.pin_wf, State.takeSeq_mem,
    State.seqsFor_mem, chartGate_wf, retire_mem]

@[simp] theorem execKvsend_canonical {req dest rreq : Reg} {tag : Fin 64} {g : Guard} (hm : s.mem.wf = true) :
    Canonical (execKvsend req dest rreq tag g s) :=
  issueAs_canonical (fun c t hm => by simp [hm]) hm

/-! ### Machine/ChartEvents.lean -/

@[simp] theorem State.putChart_mem {id : Nat} {k : ChartCmd} : (s.putChart id k).mem = s.mem := rfl

@[simp] theorem finishChart_wf {id : Nat} {cmd : Cmd} {k : ChartCmd} {status : Word} {written : List (Place × DWord)}
    (hm : s.mem.wf = true) :
    (finishChart id cmd k status written s).mem.wf = true := by
  unfold finishChart
  grind [foldl_wf, foldl_mem, State.complete_wf, State.unpin_wf, landReg_mem]

@[simp] theorem State.freeSectors_wf {id : Nat} {cmd : Cmd} {core first last lo hi : Nat} (hm : s.mem.wf = true) :
    (s.freeSectors id cmd core first last lo hi).mem.wf = true := by
  unfold State.freeSectors
  grind [foldl_wf, foldl_mem, State.modCmd_mem, State.countFor_wf]

@[simp] theorem State.touchPage_wf {n : Nat} {p : Page} {slot count : Nat} (hm : s.mem.wf = true) :
    (s.touchPage n p slot count).mem.wf = true := by
  simp [State.touchPage, hm]

@[simp] theorem deliverOrd_wf {id : Nat} {cmd : Cmd} {g : Gather} {o : GOrd} {ws : List (Place × Byte)}
    (hm : s.mem.wf = true) :
    (deliverOrd id cmd g o ws s).mem.wf = true := by
  unfold deliverOrd
  grind [foldl_wf, foldl_mem, State.engineWrite_wf, State.freeSectors_wf]

@[simp] theorem spoilOrd_wf {id : Nat} {cmd : Cmd} {k : ChartCmd} {g : Gather} {n : Nat} {ws : List (Place × Byte)}
    (hm : s.mem.wf = true) :
    (spoilOrd id cmd k g n ws s).mem.wf = true := by
  simp [spoilOrd, hm]

@[simp] theorem copyOrd_wf {id : Nat} {cmd : Cmd} {k : ChartCmd} {g : Gather} {o : GOrd} {n : Nat} {err : PageError}
    (hm : s.mem.wf = true) :
    (copyOrd id cmd k g o n err s).mem.wf = true := by
  unfold copyOrd
  grind [deliverOrd_wf, State.payloadError_wf, State.putChart_mem, State.unpin_wf, spoilOrd_wf, State.touchPage_wf]

@[simp] theorem gatherStep_wf {id : Nat} {cmd : Cmd} {k : ChartCmd} {g : Gather} {err : PageError} (hm : s.mem.wf = true) :
    (gatherStep id cmd k g err s).mem.wf = true := by
  unfold gatherStep
  repeat' split
  all_goals simp [hm]

@[simp] theorem execKvgathPageStep_canonical {cmd : Nat} {err : PageError} (hm : s.mem.wf = true) :
    Canonical (execKvgathPageStep cmd err s) := by
  rw [execKvgathPageStep, canonical_next]
  grind [gatherStep_wf]

@[simp] theorem countRest_wf {id : Nat} {cmd : Cmd} {g : Gather} (hm : s.mem.wf = true) :
    (countRest id cmd g s).mem.wf = true := by
  unfold countRest
  grind [foldl_wf, foldl_mem, State.countFor_wf]

@[simp] theorem fetchRest_wf {g : Gather} {asid o : Nat} (h : s.mem.wf = true) : (fetchRest g asid o s).mem.wf = true := by
  unfold fetchRest
  refine List.foldlRecOn (motive := fun x : State × Map Word => x.1.mem.wf = true) _ _ h (fun x hx n _ => ?_)
  split <;> simp [hx]

@[simp] theorem completeGather_wf {id : Nat} {cmd : Cmd} {k : ChartCmd} {g : Gather} (hm : s.mem.wf = true) :
    (completeGather id cmd k g s).mem.wf = true := by
  unfold completeGather
  grind [fetchRest_wf, finishChart_wf, countRest_wf]

@[simp] theorem State.dropWaits_wf {die pool id : Nat} (hm : s.mem.wf = true) :
    (s.dropWaits die pool id).mem.wf = true := by
  simp [State.dropWaits, hm]

@[simp] theorem resumeAppend_wf {id : Nat} {cmd : Cmd} {k : ChartCmd} {a : Append} (hm : s.mem.wf = true) :
    (resumeAppend id cmd k a s).mem.wf = true := by
  unfold resumeAppend
  grind [State.appendRead_wf, State.appendPlan_wf, State.putChart_mem, State.startFetch_wf, State.dropWaits_wf,
    finishChart_wf, State.quarantine_wf, State.awaitFrames_wf]

@[simp] theorem appendPage_wf {id : Nat} {cmd : Cmd} {a : Append} {e : Nat × Nat × Nat × Nat} (hm : s.mem.wf = true) :
    (appendPage id cmd a e s).mem.wf = true := by
  unfold appendPage
  grind [foldl_wf, foldl_mem, State.modPlanes_wf, State.chartStore_wf]

@[simp] theorem stepAppend_wf {id : Nat} {cmd : Cmd} {k : ChartCmd} {a : Append} (hm : s.mem.wf = true) :
    (stepAppend id cmd k a s).mem.wf = true := by
  unfold stepAppend
  repeat' split
  all_goals simp [hm]

@[simp] theorem stepAlloc_wf {id : Nat} {cmd : Cmd} {k : ChartCmd} {a e : Nat} {seq : Word} (h : s.mem.wf = true) :
    (stepAlloc id cmd k a e seq s).mem.wf = true := by
  unfold stepAlloc
  simp only
  split
  · exact finishChart_wf h
  · split
    · exact h
    · split
      · exact h
      · have ht := State.allocAt_wf h _ ‹_›
        exact finishChart_wf (State.runEvict_wf (State.dropWaits_wf ht))

@[simp] theorem stepFetch_wf {id : Nat} {cmd : Cmd} {k : ChartCmd} {n : Nat} {starter : Bool} {seq : Word}
    (hm : s.mem.wf = true) :
    (stepFetch id cmd k n starter seq s).mem.wf = true := by
  unfold stepFetch
  repeat' split
  all_goals simp [hm]

@[simp] theorem completeChart_wf {id : Nat} {cmd : Cmd} {k : ChartCmd} (hm : s.mem.wf = true) :
    (completeChart id cmd k s).mem.wf = true := by
  unfold completeChart
  grind [foldl_wf, foldl_mem, completeGather_wf, stepFetch_wf, stepAppend_wf, stepAlloc_wf, State.dropWaits_wf,
    finishChart_wf]

@[simp] theorem execEvictionComplete_canonical {die page : Nat} (hm : s.mem.wf = true) :
    Canonical (execEvictionComplete die page s) := by
  rw [execEvictionComplete, canonical_next]
  grind [State.finishEviction_wf, State.runEvict_wf, State.quarantine_wf, State.readPages_wf]

@[simp] theorem execFetchComplete_canonical {die page : Nat} {err : PageError} (hm : s.mem.wf = true) :
    Canonical (execFetchComplete die page err s) := by
  rw [execFetchComplete, canonical_next]
  grind [State.payloadError_wf, State.finishFetch_wf, State.quarantine_wf]

@[simp] theorem execChartScrub_canonical {die page : Nat} {err : PageError} (hm : s.mem.wf = true) :
    Canonical (execChartScrub die page err s) := by
  rw [execChartScrub, canonical_next]
  grind [State.payloadError_wf, State.quarantine_wf]

@[simp] theorem State.guarded_wf {port sem : Nat} {f : State → State}
    (hf : ∀ t : State, t.mem.wf = true → (f t).mem.wf = true) (hm : s.mem.wf = true) :
    (s.guarded port sem f).mem.wf = true := by
  unfold State.guarded
  repeat' split
  all_goals simp [hm, hf]

@[simp] theorem State.readPool_wf {die p : Nat} (hm : s.mem.wf = true) : (s.readPool die p).mem.wf = true := by
  unfold State.readPool
  grind [State.serveWaiters_wf, State.modChart_mem, State.modPool_mem]

@[simp] theorem State.reloadChart_wf {die : Nat} (hm : s.mem.wf = true) : (s.reloadChart die).mem.wf = true := by
  unfold State.reloadChart
  grind [foldl_wf, foldl_mem, State.modChart_mem, State.readPhys_wf, State.readPool_wf]

@[simp] theorem execChcfgReload_canonical {port die : Nat} (hm : s.mem.wf = true) :
    Canonical (execChcfgReload port die s) := by
  rw [execChcfgReload, canonical_next]
  grind [State.guarded_wf, State.reloadChart_wf]

/-! ### Machine/MeridianBase.lean -/

@[simp] theorem State.tick_mem : s.tick.mem = s.mem := rfl

@[simp] theorem State.send_mem {port : Nat} {f : Frame} : (s.send port f).mem = s.mem := by
  unfold State.send
  split <;> rfl

@[simp] theorem State.sendTo_mem {dest : Nat} {f : Frame} : (s.sendTo dest f).mem = s.mem := by
  unfold State.sendTo
  split <;> simp

@[simp] theorem State.errorEntry_wf {code dest : Nat} {hdr : List Byte} (hm : s.mem.wf = true) :
    (s.errorEntry code dest hdr).mem.wf = true := by
  unfold State.errorEntry
  grind [State.writePhys_wf, State.modMer_mem]

@[simp] theorem State.modDqueue_mem {q : Nat} {f : DQueue → DQueue} : (s.modDqueue q f).mem = s.mem := rfl

@[simp] theorem State.storeMsg_wf {q : Nat} {m : Msg} (hm : s.mem.wf = true) : (s.storeMsg q m).mem.wf = true := by
  simp [State.storeMsg, hm]

@[simp] theorem State.exposed_wf {asid addr n : Nat} {write : Bool} (hm : s.mem.wf = true) :
    (s.exposed asid addr n write).1.mem.wf = true := by
  simp [State.exposed, hm]

@[simp] theorem State.servePut_wf {asid addr : Nat} {data : List Byte} (hm : s.mem.wf = true) :
    (s.servePut asid addr data).1.mem.wf = true := by
  unfold State.servePut
  grind [State.exposed_wf, State.lostWalk_mem, State.writeVa_wf]

@[simp] theorem State.serveGet_wf {asid addr n : Nat} (hm : s.mem.wf = true) :
    (s.serveGet asid addr n).1.mem.wf = true := by
  unfold State.serveGet
  grind [State.exposed_wf, State.readVa_wf]

@[simp] theorem State.modNet_mem {id : Nat} {f : Net → Net} : (s.modNet id f).mem = s.mem := rfl

@[simp] theorem State.keyNet_mem {id stamp : Nat} : (s.keyNet id stamp).mem = s.mem := by
  unfold State.keyNet
  grind [State.putTag_mem]

/-! ### Machine/Meridian.lean -/

@[simp] theorem netGate_wf {tag : Nat} {s go : State} (hgo : go.mem.wf = true) (h : s.mem.wf = true) :
    (netGate c tag s go).mem.wf = true := by
  unfold netGate; split <;> assumption

@[simp] theorem netLocal_wf {addr : DWord} {n : Nat} {s go : State} (hgo : go.mem.wf = true) (h : s.mem.wf = true) :
    (netLocal c addr n s go).mem.wf = true := by
  unfold netLocal
  grind [takeTrap_wf]

@[simp] theorem acceptNet_mem {tag code : Nat} {n : Net} {src dst : List (Place × DWord)} {pkts : List Packet} :
    (acceptNet c tag code n src dst pkts s).mem = s.mem := by
  unfold acceptNet
  repeat' split
  all_goals simp

@[simp] theorem acceptSend_mem {tag : Nat} {n : Net} {range : Bool} : (acceptSend c tag n range s).mem = s.mem := by
  simp [acceptSend]

@[simp] theorem startNsend_wf {nm : NetMode} {len dq : Reg} {src : Fin 24} {tag : Nat} (hm : s.mem.wf = true) :
    (startNsend nm len dq src tag c s).mem.wf = true := by
  simp [startNsend, hm]

@[simp] theorem execNsend_canonical {nm : NetMode} {len dq : Reg} {src : Fin 24} {tag : Fin 64} {g : Guard}
    (hm : s.mem.wf = true) :
    Canonical (execNsend nm len dq src tag g s) :=
  issueAs_canonical (fun c t hm => by simp [hm]) hm

@[simp] theorem State.replicaSet_wf {n : Nat} (hm : s.mem.wf = true) : (s.replicaSet n).1.mem.wf = true := by
  simp [State.replicaSet, hm]

@[simp] theorem startNput_wf {rep : Bool} {nm : NetMode} {len dest : Reg} {src raddr : Fin 24} {tag : Nat}
    (hm : s.mem.wf = true) :
    (startNput rep nm len dest src raddr tag c s).mem.wf = true := by
  unfold startNput
  grind [State.replicaSet_wf, acceptSend_mem, netGate_wf, netLocal_wf]

@[simp] theorem execNput_canonical {rep : Bool} {nm : NetMode} {len dest : Reg} {src raddr : Fin 24} {tag : Fin 64}
    {g : Guard} (hm : s.mem.wf = true) :
    Canonical (execNput rep nm len dest src raddr tag g s) :=
  issueAs_canonical (fun c t hm => by simp [hm]) hm

@[simp] theorem startNget_wf {rod : Bool} {len dest : Reg} {raddr dst : Fin 24} {tag : Nat} (hm : s.mem.wf = true) :
    (startNget rod len dest raddr dst tag c s).mem.wf = true := by
  simp [startNget, hm]

@[simp] theorem execNget_canonical {rod : Bool} {len dest : Reg} {raddr dst : Fin 24} {tag : Fin 64} {g : Guard}
    (hm : s.mem.wf = true) :
    Canonical (execNget rod len dest raddr dst tag g s) :=
  issueAs_canonical (fun c t hm => by simp [hm]) hm

@[simp] theorem nredBlock_wf {op : NredOp} {blk : List Byte} {tag : Nat} (hm : s.mem.wf = true) :
    (nredBlock op blk tag c s).mem.wf = true := by
  simp [nredBlock, hm]

@[simp] theorem startNred_wf {op : NredOp} {blk : Reg} {tag : Nat} (hm : s.mem.wf = true) :
    (startNred op blk tag c s).mem.wf = true := by
  unfold startNred
  grind [takeTrap_wf, nredBlock_wf, spanAccess_wf, netGate_wf]

@[simp] theorem execNred_canonical {op : NredOp} {blk : Reg} {tag : Fin 64} {g : Guard} (hm : s.mem.wf = true) :
    Canonical (execNred op blk tag g s) :=
  issueAs_canonical (fun c t hm => by simp [hm]) hm

@[simp] theorem execNpoll_canonical {d q : Reg} {g : Guard} (hm : s.mem.wf = true) : Canonical (execNpoll d q g s) := by
  refine issueAs_canonical (fun c t hm => ?_) hm
  grind [writeUni_mem, State.modDqueue_mem, retire_mem]

@[simp] theorem startNrecv_wf {q : Reg} {dst : Fin 24} {mx : Reg} {tag : Nat} (hm : s.mem.wf = true) :
    (startNrecv q dst mx tag c s).mem.wf = true := by
  unfold startNrecv
  grind [acceptNet_mem, State.modDqueue_mem, retire_mem, netGate_wf, netLocal_wf]

@[simp] theorem execNrecv_canonical {q : Reg} {dst : Fin 24} {mx : Reg} {tag : Fin 64} {g : Guard} (hm : s.mem.wf = true) :
    Canonical (execNrecv q dst mx tag g s) :=
  issueAs_canonical (fun c t hm => by simp [hm]) hm

@[simp] theorem execNtime_canonical {hor : Bool} {d : Fin 24} {g : Guard} (hm : s.mem.wf = true) :
    Canonical (execNtime hor d g s) := by
  refine issueAs_canonical (fun c t hm => ?_) hm
  grind [writePair_mem, State.tick_mem, retire_mem]

/-! ### Machine/MeridianEvents.lean -/

@[simp] theorem State.tell_mem {src reply dest code : Nat} {data : List Byte} :
    (s.tell src reply dest code data).mem = s.mem := by
  unfold State.tell
  split <;> simp

@[simp] theorem State.tellOf_mem {p : Packet} {code : Nat} : (s.tellOf p code).mem = s.mem := by
  unfold State.tellOf
  split <;> simp

@[simp] theorem State.lateMark_wf {out : Nat} {p : Packet} (hm : s.mem.wf = true) : (s.lateMark out p).mem.wf = true := by
  unfold State.lateMark
  split <;> simp [hm]

@[simp] theorem State.enter_wf {inp : Nat} {p : Packet} (hm : s.mem.wf = true) : (s.enter inp p).mem.wf = true := by
  unfold State.enter
  repeat' split
  all_goals simp [hm]

@[simp] theorem State.number_mem {p : Packet} : (s.number p).1.mem = s.mem := by
  unfold State.number
  split <;> rfl

@[simp] theorem State.switchSend_wf {kind space stamp dest queue asid reply : Nat} {data : List Byte}
    (hm : s.mem.wf = true) :
    (s.switchSend kind space stamp dest queue asid reply data).mem.wf = true := by
  simp [State.switchSend, hm]

@[simp] theorem State.inject_wf {p : Packet} (hm : s.mem.wf = true) : (s.inject p).mem.wf = true := by
  unfold State.inject
  split <;> simp [hm]

@[simp] theorem execOrderedPacketArrival_canonical {inp : Nat} {pkt : Packet} (hm : s.mem.wf = true) :
    Canonical (execOrderedPacketArrival inp pkt s) := by
  rw [execOrderedPacketArrival, canonical_next]
  grind [State.inject_wf, State.enter_wf]

@[simp] theorem execBeacon_canonical {inp : Nat} {keys : List (Nat × PKey)} (hm : s.mem.wf = true) :
    Canonical (execBeacon inp keys s) := by
  rw [execBeacon, canonical_next]
  grind [foldl_wf, foldl_mem, State.modMer_mem]

@[simp] theorem execBeaconSend_canonical {out : Nat} (hm : s.mem.wf = true) : Canonical (execBeaconSend out s) := by
  rw [execBeaconSend, canonical_next]
  grind [State.tick_mem, State.send_mem]

@[simp] theorem execOrderedEmit_canonical {out space : Nat} (hm : s.mem.wf = true) :
    Canonical (execOrderedEmit out space s) := by
  rw [execOrderedEmit, canonical_next]
  grind [State.modMer_mem, State.send_mem]

@[simp] theorem State.noteStall_wf {p : Packet} (hm : s.mem.wf = true) : (s.noteStall p).mem.wf = true := by
  unfold State.noteStall
  grind [foldl_wf, foldl_mem, State.bump_mem, State.modDqueue_mem, State.errorEntry_wf]

@[simp] theorem execStallDeclare_canonical {inp space : Nat} (hm : s.mem.wf = true) :
    Canonical (execStallDeclare inp space s) := by
  rw [execStallDeclare, canonical_next]
  grind [foldl_wf, foldl_mem, State.modMer_mem, State.switchSend_wf]

@[simp] theorem State.takeIn_mem {p : Packet} : (s.takeIn p).mem = s.mem := rfl

@[simp] theorem execStallNotice_canonical {space : Nat} (hm : s.mem.wf = true) : Canonical (execStallNotice space s) := by
  rw [execStallNotice, canonical_next]
  split <;> simp [hm]

theorem State.arrive_wf {q space : Nat} {m : Msg} (h : s.mem.wf = true) :
    ∀ t, s.arrive q space m = .stored t → t.mem.wf = true := by
  unfold State.arrive
  grind [State.storeMsg_wf]

@[simp] theorem State.deliver_wf {s t : State} {p : Packet} {m : Msg} {took : State → State}
    (ht : ∀ u : State, u.mem.wf = true → (took u).mem.wf = true) (h : s.mem.wf = true) (hs : t.mem.wf = true) :
    (s.deliver t p m took).mem.wf = true := by
  unfold State.deliver
  have ha := State.arrive_wf (q := p.queue) (space := p.space) (m := m) hs
  split
  · exact h
  · simpa using ht _ (ha _ ‹_›)
  · simp [ht _ hs]

@[simp] theorem execMessageDelivery_canonical {pkt : Packet} (hm : s.mem.wf = true) :
    Canonical (execMessageDelivery pkt s) := by
  rw [execMessageDelivery, canonical_next]
  grind [State.servePut_wf, State.takeIn_mem, State.modMer_mem, State.tick_mem, State.tell_mem, State.deliver_wf]

@[simp] theorem State.performAsk_wf {src reply : Nat} {req : PutGet} (hm : s.mem.wf = true) :
    (s.performAsk src reply req).mem.wf = true := by
  unfold State.performAsk
  grind [State.servePut_wf, State.serveGet_wf, State.tell_mem]

@[simp] theorem execPutGetServe_canonical {inp src : Nat} {req : PutGet} {reply : Nat} (hm : s.mem.wf = true) :
    Canonical (execPutGetServe inp src req reply s) := by
  rw [execPutGetServe, canonical_next]
  grind [State.performAsk_wf, State.modMer_mem]

@[simp] theorem State.abandonTo_wf {asid space stamp : Nat} {c : Contribution} {mismatch : Bool} (hm : s.mem.wf = true) :
    (s.abandonTo asid space stamp c mismatch).mem.wf = true := by
  simp [State.abandonTo, hm]

@[simp] theorem execReductionContribution_canonical {pkt : Packet} (hm : s.mem.wf = true) :
    Canonical (execReductionContribution pkt s) := by
  rw [execReductionContribution, canonical_next]
  grind [State.takeIn_mem, State.modMer_mem, State.abandonTo_wf]

@[simp] theorem State.resultTo_wf {r : RedRound} {data : List Byte} {c : Contribution} (hm : s.mem.wf = true) :
    (s.resultTo r data c).mem.wf = true := by
  simp [State.resultTo, hm]

@[simp] theorem execReductionCombine_canonical {asid coll round : Nat} (hm : s.mem.wf = true) :
    Canonical (execReductionCombine asid coll round s) := by
  rw [execReductionCombine, canonical_next]
  grind [foldl_wf, foldl_mem, State.modMer_mem, State.resultTo_wf]

@[simp] theorem execReductionAbandon_canonical {asid coll round : Nat} {mismatch : Bool} (hm : s.mem.wf = true) :
    Canonical (execReductionAbandon asid coll round mismatch s) := by
  rw [execReductionAbandon, canonical_next]
  grind [foldl_wf, foldl_mem, State.modMer_mem, State.abandonTo_wf]

@[simp] theorem execReductionResult_canonical {cmd stamp : Nat} {data : List Byte} (hm : s.mem.wf = true) :
    Canonical (execReductionResult cmd stamp data s) := by
  rw [execReductionResult, canonical_next]
  grind [State.takeIn_mem, State.keyNet_mem, State.modNet_mem]

@[simp] theorem execAbandonNotice_canonical {cmd : Nat} {mismatch : Bool} (hm : s.mem.wf = true) :
    Canonical (execAbandonNotice cmd mismatch s) := by
  rw [execAbandonNotice, canonical_next]
  grind [State.takeIn_mem, State.keyNet_mem, State.modNet_mem]

@[simp] theorem State.lock_mem : s.lock.mem = s.mem := rfl

@[simp] theorem execLinkTraining_canonical {port : Nat} {huaxel : Bool} (hm : s.mem.wf = true) :
    Canonical (execLinkTraining port huaxel s) := by
  rw [execLinkTraining, canonical_next]
  split <;> simp [hm]

@[simp] theorem execLinkFailure_canonical {port : Nat} (hm : s.mem.wf = true) : Canonical (execLinkFailure port s) := by
  rw [execLinkFailure, canonical_next]
  split <;> simp [hm]

@[simp] theorem execSextantFrame_canonical {port : Nat} {time : DWord} {master : Nat × Nat} (hm : s.mem.wf = true) :
    Canonical (execSextantFrame port time master s) := by
  rw [execSextantFrame, canonical_next]
  split <;> simp [hm]

@[simp] theorem execSextantFrameSend_canonical {port : Nat} (hm : s.mem.wf = true) :
    Canonical (execSextantFrameSend port s) := by
  rw [execSextantFrameSend, canonical_next]
  split <;> simp [hm]

@[simp] theorem execMroute_canonical {port : Nat} {val : DWord} (hm : s.mem.wf = true) :
    Canonical (execMroute port val s) := by
  rw [execMroute, canonical_next]
  grind [State.writePhys_wf, State.readPhys_wf, State.modMer_mem, State.guarded_wf]

@[simp] theorem execMqcfg_canonical {port q : Nat} {val : DWord} (hm : s.mem.wf = true) :
    Canonical (execMqcfg port q val s) := by
  rw [execMqcfg, canonical_next]
  grind [State.modDqueue_mem, State.modMer_mem, State.guarded_wf]

@[simp] theorem execRetransmission_canonical {cmd : Nat} {exhausted : Bool} (hm : s.mem.wf = true) :
    Canonical (execRetransmission cmd exhausted s) := by
  rw [execRetransmission, canonical_next]
  grind [foldl_wf, foldl_mem, State.keyNet_mem, State.modNet_mem, State.send_mem]

/-! ### Machine/Traverse.lean -/

@[simp] theorem State.readRecord_mem {reckon : Bool} {core asid : Nat} {addr : DWord} {ps : List Place} :
    (s.readRecord reckon core asid addr ps).2.mem = s.mem := by
  simp [State.readRecord, apply_ite State.mem]

@[simp] theorem acceptXfer_mem {tag : Nat} {bar : Option Nat} {view : List MemberView} {recPs : List (Place × DWord)}
    {x : Xfer} :
    (acceptXfer c tag bar view recPs x s).mem = s.mem := by
  unfold acceptXfer
  grind [foldl_mem, State.sourceAccess_mem, State.modCore_mem, State.recall_mem, State.accept_mem]

@[simp] theorem startXfer_wf {fn : Nat} {a : XArgs} {mcast : Bool} (h : s.mem.wf = true) :
    (startXfer fn a mcast c s).mem.wf = true := by
  unfold startXfer
  refine ite_wf (ite_wf (by simpa using h) h) (ite_wf h ?_)
  split
  · exact takeTrap_wf h
  · rename_i ps _
    have hr : ∀ r core asid ad, ((s.readRecord r core asid ad ps).2.touchPlaces (some c.grp.core) (c.tag s) ps).mem.wf = true :=
      fun _ _ _ _ => State.touchPlaces_wf (by simpa using h)
    refine ite_wf (trap_wf (hr ..)) ?_
    extract_lets loc located
    cases located with
    | error t => exact takeTrap_wf (hr ..)
    | ok bar =>
      refine ite_wf (trap_wf (hr ..)) ?_
      split
      · exact takeTrap_wf (hr ..)
      · refine ite_wf (hr ..) ?_
        rw [retireTo_mem, acceptXfer_mem]
        exact hr ..

@[simp] theorem execXferCopy_canonical {x : XArgs} {g : Guard} (hm : s.mem.wf = true) : Canonical (execXferCopy x g s) :=
  issueAs_canonical (fun c t hm => by simp [hm]) hm

@[simp] theorem execXferTranspose_canonical {x : XArgs} {g : Guard} (hm : s.mem.wf = true) :
    Canonical (execXferTranspose x g s) :=
  issueAs_canonical (fun c t hm => by simp [hm]) hm

@[simp] theorem execXferRepack_canonical {x : XArgs} {g : Guard} (hm : s.mem.wf = true) :
    Canonical (execXferRepack x g s) :=
  issueAs_canonical (fun c t hm => by simp [hm]) hm

@[simp] theorem execXferQuant_canonical {x : XArgs} {g : Guard} (hm : s.mem.wf = true) : Canonical (execXferQuant x g s) :=
  issueAs_canonical (fun c t hm => by simp [hm]) hm

@[simp] theorem execXferDequant_canonical {x : XArgs} {g : Guard} (hm : s.mem.wf = true) :
    Canonical (execXferDequant x g s) :=
  issueAs_canonical (fun c t hm => by simp [hm]) hm

@[simp] theorem execXferGather_canonical {x : XArgs} {g : Guard} (hm : s.mem.wf = true) :
    Canonical (execXferGather x g s) :=
  issueAs_canonical (fun c t hm => by simp [hm]) hm

@[simp] theorem execXferScatter_canonical {x : XArgs} {g : Guard} (hm : s.mem.wf = true) :
    Canonical (execXferScatter x g s) :=
  issueAs_canonical (fun c t hm => by simp [hm]) hm

@[simp] theorem execXferFill_canonical {x : XArgs} {g : Guard} (hm : s.mem.wf = true) : Canonical (execXferFill x g s) :=
  issueAs_canonical (fun c t hm => by simp [hm]) hm

@[simp] theorem execXmcast_canonical {x : XArgs} {g : Guard} (hm : s.mem.wf = true) : Canonical (execXmcast x g s) :=
  issueAs_canonical (fun c t hm => by simp [hm]) hm

@[simp] theorem releaseXfer_wf {id : Nat} {cmd : Cmd} {x : Xfer} {u : Place} (hm : s.mem.wf = true) :
    (releaseXfer id cmd x u s).mem.wf = true := by
  unfold releaseXfer
  grind [State.releaseUnit_wf]

@[simp] theorem completeXfer_wf {id : Nat} {cmd : Cmd} {x : Xfer} (hm : s.mem.wf = true) :
    (completeXfer id cmd x s).mem.wf = true := by
  unfold completeXfer
  grind [State.complete_wf, State.engineLease_mem]

@[simp] theorem execTraverseRefusalRetry_canonical {cmd : Nat} {sp : Space} {unit hint : Nat} (hm : s.mem.wf = true) :
    Canonical (execTraverseRefusalRetry cmd sp unit hint s) := by
  rw [execTraverseRefusalRetry, canonical_next]
  grind [State.countMgmt_mem]

/-! ### Machine/Commands.lean -/

@[simp] theorem releaseNet_wf {id : Nat} {cmd : Cmd} {n : Net} {u : Place} (hm : s.mem.wf = true) :
    (releaseNet id cmd n u s).mem.wf = true := by
  unfold releaseNet
  repeat' split
  all_goals simp [hm]

@[simp] theorem State.dropNet_mem {id : Nat} {n : Net} : (s.dropNet id n).mem = s.mem := by
  unfold State.dropNet
  split <;> rfl

@[simp] theorem finishNet_wf {id : Nat} {cmd : Cmd} {n : Net} {st : Word} (hm : s.mem.wf = true) :
    (finishNet id cmd n st s).mem.wf = true := by
  unfold finishNet
  repeat' split
  all_goals simp [hm]

@[simp] theorem takeMessage_mem {id : Nat} {cmd : Cmd} {n : Net} : (takeMessage id cmd n s).mem = s.mem := by
  unfold takeMessage
  grind [State.modDqueue_mem, State.keyNet_mem, State.modNet_mem]

@[simp] theorem State.transmitTo_mem {id : Nat} {cmd : Cmd} {n : Net} {data : List Byte} {d : Nat} :
    (s.transmitTo id cmd n data d).mem = s.mem := by
  unfold State.transmitTo
  grind [State.sendTo_mem, State.modMer_mem]

@[simp] theorem transmit_mem {id : Nat} {cmd : Cmd} {n : Net} : (transmit id cmd n s).mem = s.mem := by
  unfold transmit
  grind [foldl_mem, State.transmitTo_mem, State.modNet_mem]

@[simp] theorem answerOne_mem {id : Nat} {n : Net} : (answerOne id n s).mem = s.mem := by
  unfold answerOne
  grind [State.bump_mem, State.modNet_mem]

@[simp] theorem completeNet_wf {id : Nat} {cmd : Cmd} {n : Net} (hm : s.mem.wf = true) :
    (completeNet id cmd n s).mem.wf = true := by
  unfold completeNet
  repeat' split
  all_goals simp [hm]

@[simp] theorem peerEnd_wf {id : Nat} {cmd : Cmd} {k : ChartCmd} {h : Nat} (hm : s.mem.wf = true) :
    (peerEnd id cmd k h s).mem.wf = true := by
  simp [peerEnd, hm]

@[simp] theorem sendPages_wf {id : Nat} {cmd : Cmd} {k : ChartCmd} {x : Send} {ps : List Nat} (hm : s.mem.wf = true) :
    (sendPages id cmd k x ps s).mem.wf = true := by
  unfold sendPages
  grind [foldl_wf, foldl_mem, State.sendTo_mem, State.putChart_mem, finishChart_wf, State.quarantine_wf, State.touchPage_wf,
    State.readPages_wf]

@[simp] theorem sendRecord_wf {id : Nat} {cmd : Cmd} {k : ChartCmd} {x : Send} (hm : s.mem.wf = true) :
    (sendRecord id cmd k x s).mem.wf = true := by
  unfold sendRecord
  grind [peerEnd_wf, State.putChart_mem, State.modMer_mem]

@[simp] theorem stepSend_wf {id : Nat} {cmd : Cmd} {k : ChartCmd} {x : Send} (hm : s.mem.wf = true) :
    (stepSend id cmd k x s).mem.wf = true := by
  unfold stepSend
  grind [State.bump_mem, State.fetchPages_wf, peerEnd_wf, State.putChart_mem, sendPages_wf, sendRecord_wf, finishChart_wf]

@[simp] theorem execKvsendAck_canonical {cmd : Nat} {ok : Bool} (h : s.mem.wf = true) :
    Canonical (execKvsendAck cmd ok s) := by
  unfold execKvsendAck
  rw [canonical_next]
  split
  · exact h
  · split
    · split
      · refine ite_wf h (ite_wf (peerEnd_wf h) (ite_wf h ?_))
        simp only
        split
        · refine ite_wf (State.clearTable_wf (finishChart_wf h)) (ite_wf (State.clearTable_wf ?_) (State.endReq_wf ?_))
          · simpa using finishChart_wf h
          · simpa using finishChart_wf h
        · exact finishChart_wf h
      · exact h
    · exact h

@[simp] theorem State.takePage_wf {a : Nat} {r : Request} {m : Model} {seq : Word} {p : HandPage} (h : s.mem.wf = true) :
    (s.takePage a r m seq p).mem.wf = true := by
  unfold State.takePage
  simp only
  split
  · exact h
  · have ht := State.allocPage_wf h _ ‹_›
    exact State.install_getD_wf (State.modPlanes_wf (State.chartStore_wf ht))

@[simp] theorem State.installRecord_wf {ho : HandOver} {r : Request} {m : Model} (hm : s.mem.wf = true) :
    (s.installRecord ho r m).mem.wf = true := by
  unfold State.installRecord
  grind [foldl_wf, foldl_mem, State.takePage_wf, State.takeSeq_mem, State.runEvict_wf, State.modReq_mem]

@[simp] theorem execBlockTableRecord_canonical {ho : HandOver} (hm : s.mem.wf = true) :
    Canonical (execBlockTableRecord ho s) := by
  rw [execBlockTableRecord, canonical_next]
  grind [State.takeIn_mem, State.installRecord_wf, State.tell_mem, State.failReq_wf]

@[simp] theorem execEngineLineRelease_canonical {cmd : Nat} {sp : Space} {unit : Nat} (hm : s.mem.wf = true) :
    Canonical (execEngineLineRelease cmd sp unit s) := by
  rw [execEngineLineRelease, canonical_next]
  grind [releaseXfer_wf, releaseNet_wf]

@[simp] theorem execCommandComplete_canonical {cmd : Nat} (hm : s.mem.wf = true) :
    Canonical (execCommandComplete cmd s) := by
  rw [execCommandComplete, canonical_next]
  grind [completeXfer_wf, stepSend_wf, completeNet_wf, State.modMer_mem, State.drain_wf, completeChart_wf]

/-! ### Machine/Collective.lean -/

@[simp] theorem State.releaseAll_mem {gs : List (Nat × Group)} {reckon : Bool} {k : Key} :
    (s.releaseAll gs reckon k).mem = s.mem := by
  unfold State.releaseAll
  grind [foldl_mem, State.retireAt_mem]

@[simp] theorem State.tryTbar_mem {team : Nat} : (s.tryTbar team).mem = s.mem := by
  unfold State.tryTbar
  grind [State.advanceEpoch_mem, State.releaseAll_mem]

@[simp] theorem State.tryCbar_mem {team : Nat} : (s.tryCbar team).mem = s.mem := by
  unfold State.tryCbar
  grind [State.advanceEpoch_mem, State.seeAll_mem, State.releaseAll_mem]

@[simp] theorem State.recheck_mem {team : Nat} : (s.recheck team).mem = s.mem := by simp [State.recheck]

@[simp] theorem State.retireGroup_wf {gid : Nat} {cl : Nat} {reckon : Bool} {k : Key} (hm : s.mem.wf = true) :
    (s.retireGroup gid cl reckon k).mem.wf = true := by
  unfold State.retireGroup
  grind [foldl_wf, foldl_mem, State.modGroup_mem, State.recheck_mem, State.settle_mem, implicitLeave_wf]

@[simp] theorem State.lostLanes_mem {gid cl : Nat} {reckon : Bool} {before : Group} :
    (s.lostLanes gid cl reckon before).mem = s.mem := by
  unfold State.lostLanes
  repeat' split
  all_goals rfl

/-! ### Machine/Control.lean -/

@[simp] theorem goTo_mem {pc : DWord} : (goTo c pc s).mem = s.mem := rfl

@[simp] theorem execBra_canonical {off : BitVec 32} {g : Guard} (hm : s.mem.wf = true) : Canonical (execBra off g s) :=
  issueAs_canonical (fun c t hm => by simp [hm]) hm

@[simp] theorem execBru_canonical {k : Reg} {off : BitVec 32} {g : Guard} (hm : s.mem.wf = true) :
    Canonical (execBru k off g s) := by
  refine issueAs_canonical (fun c t hm => ?_) hm
  grind [goTo_mem, retire_mem]

@[simp] theorem execBrd_canonical {m : Fin 8} {off : BitVec 32} {g : Guard} (hm : s.mem.wf = true) :
    Canonical (execBrd m off g s) := by
  refine issueAs_canonical (fun c t hm => ?_) hm
  grind [goTo_mem, State.modGroup_mem, State.modSplit_mem, trap_wf, retire_mem]

@[simp] theorem execCall_canonical {p : Fin 24} {off : BitVec 32} {g : Guard} (hm : s.mem.wf = true) :
    Canonical (execCall p off g s) :=
  issueAs_canonical (fun c t hm => by simp [hm]) hm

@[simp] theorem indirect_wf {p : Fin 24} (hm : s.mem.wf = true) : (indirect c p s).mem.wf = true := by
  unfold indirect
  grind [goTo_mem, takeTrap_wf]

@[simp] theorem execRet_canonical {p : Fin 24} {g : Guard} (hm : s.mem.wf = true) : Canonical (execRet p g s) :=
  issueAs_canonical (fun c t hm => by simp [hm]) hm

@[simp] theorem execBrx_canonical {p : Fin 24} {g : Guard} (hm : s.mem.wf = true) : Canonical (execBrx p g s) :=
  issueAs_canonical (fun c t hm => by simp [hm]) hm

@[simp] theorem exitEffect_wf (hm : s.mem.wf = true) : (exitEffect c s).mem.wf = true := by
  unfold exitEffect
  repeat' split
  all_goals simp [hm]

@[simp] theorem execExit_canonical {g : Guard} (hm : s.mem.wf = true) : Canonical (execExit g s) := by
  refine issueAs_canonical (fun c t hm => ?_) hm
  grind [block_mem, exitEffect_wf]

@[simp] theorem execExitUnblock_canonical {grp slot : Nat} (hm : s.mem.wf = true) :
    Canonical (execExitUnblock grp slot s) := by
  rw [execExitUnblock, canonical_next]
  grind [exitEffect_wf]

@[simp] theorem execNop_canonical (hm : s.mem.wf = true) : Canonical (execNop s) :=
  issueAs_canonical (fun c t hm => by simp [hm]) hm

@[simp] theorem execIcpf_canonical {n : BitVec 8} {off : BitVec 32} (hm : s.mem.wf = true) : Canonical (execIcpf n off s) :=
  issueAs_canonical (fun c t hm => by simp [hm]) hm

@[simp] theorem execHint_canonical {w : DWord} (hm : s.mem.wf = true) : Canonical (execHint w s) :=
  issueAs_canonical (fun c t hm => by simp [hm]) hm

/-! ### Machine/FloatOps.lean -/

@[simp] theorem execFset_canonical {cond : FCond} {u : MaskUpd} {d : Fin 8} {a b : Reg} {g : Guard} (hm : s.mem.wf = true) :
    Canonical (execFset cond u d a b g s) :=
  issueAs_canonical (fun c t hm => by simp [hm]) hm

/-! ### Machine/Sequencer.lean -/

@[simp] theorem State.modDie_mem {d : Nat} {f : Die → Die} : (s.modDie d f).mem = s.mem := rfl

@[simp] theorem State.fillLine_wf {die pa tag : Nat} (hm : s.mem.wf = true) : (s.fillLine die pa tag).mem.wf = true := by
  simp [State.fillLine, hm]

@[simp] theorem State.buffer_mem {core seq : Nat} {x0 : Option (Nat × Nat)} : (s.buffer core seq x0).mem = s.mem := by
  unfold State.buffer
  split <;> rfl

@[simp] theorem State.keepFetched_mem : s.keepFetched.mem = s.mem := rfl

@[simp] theorem State.freeze_wf {core seq asid pa tag : Nat} {pc : DWord} (hm : s.mem.wf = true) :
    (s.freeze core seq asid pa tag pc).mem.wf = true := by
  simp [State.freeze, hm]

@[simp] theorem execIcacheMissFill_canonical {core seq cycles : Nat} (hm : s.mem.wf = true) :
    Canonical (execIcacheMissFill core seq cycles s) := by
  rw [execIcacheMissFill, canonical_next]
  split <;> simp [hm]

@[simp] theorem execSyncOpEffect_canonical {grp slot : Nat} (hm : s.mem.wf = true) :
    Canonical (execSyncOpEffect grp slot s) := by
  rw [execSyncOpEffect, canonical_next]
  grind [State.modSplit_mem]

@[simp] theorem execYieldTimeout_canonical {grp slot : Nat} (hm : s.mem.wf = true) :
    Canonical (execYieldTimeout grp slot s) := by
  rw [execYieldTimeout, canonical_next]
  simp [hm]

@[simp] theorem execSleepExpire_canonical {grp slot : Nat} (hm : s.mem.wf = true) :
    Canonical (execSleepExpire grp slot s) := by
  rw [execSleepExpire, canonical_next]
  grind [State.retireAt_mem]

@[simp] theorem execIllegalInstruction_canonical {w : DWord} (h : s.mem.wf = true) :
    Canonical (execIllegalInstruction w s) := by
  unfold execIllegalInstruction
  split
  · exact canonical_fault _
  · split
    · exact canonical_fault _
    · exact (canonical_next _).mpr (trap_wf h)

/-! ### Machine/Place.lean -/

@[simp] theorem State.addGroup_mem {tid num : Nat} {pc ltime : DWord} : (s.addGroup tid num pc ltime).mem = s.mem := by
  unfold State.addGroup
  repeat' split
  all_goals rfl

@[simp] theorem State.wake_mem {p : Nat} : (s.wake p).mem = s.mem := rfl

@[simp] theorem State.startTeam_mem {tid core base : Nat} : (s.startTeam tid core base).mem = s.mem := by
  unfold State.startTeam
  grind [foldl_mem, State.modTeam_mem, State.seeAll_mem, State.wake_mem, State.modCore_mem, State.addGroup_mem]

@[simp] theorem State.saveGroup_wf {asid : Nat} {g : Group} {reckon maint : Bool} (hm : s.mem.wf = true) :
    (s.saveGroup asid g reckon maint).mem.wf = true := by
  simp [State.saveGroup, hm]

@[simp] theorem State.saveMeta_wf {asid : Nat} {t : Team} (h : s.mem.wf = true) : (s.saveMeta asid t).mem.wf = true := by
  unfold State.saveMeta
  split
  · rw [State.withFresh_mem]
    exact State.arenaStore_wf h
  · exact h

@[simp] theorem State.saveLoops_wf {asid slots tid : Nat} {t : Team} (hm : s.mem.wf = true) :
    (s.saveLoops asid slots tid t).mem.wf = true := by
  simp [State.saveLoops, hm]

@[simp] theorem State.saveTeam_wf {asid tid : Nat} {t : Team} (h : s.mem.wf = true) :
    (s.saveTeam asid tid t).mem.wf = true := by
  have hfold : ∀ {l : List Nat} {f : Nat → Nat} {g : Nat → List Byte} {u : State}, u.mem.wf = true →
      (l.foldl (fun s i => s.arenaStore asid (f i) (g i)) u).mem.wf = true :=
    fun hu => foldl_wf (fun _ _ hv => State.arenaStore_wf hv) _ hu
  unfold State.saveTeam
  exact State.arenaStore_wf (hfold (State.arenaStore_wf (hfold (State.arenaStore_wf
    (State.saveMeta_wf (State.arenaStore_wf (State.arenaStore_wf h)))))))

@[simp] theorem State.moveTeam_mem {tid c' b' : Nat} : (s.moveTeam tid c' b').mem = s.mem := by
  unfold State.moveTeam
  split <;> rfl

@[simp] theorem State.moveBuffers_mem {tid asid c c' : Nat} : (s.moveBuffers tid asid c c').mem = s.mem := by
  simp [State.moveBuffers, foldl_mem]

@[simp] theorem State.swapOut_wf {tid : Nat} {forked slow : Bool} (hm : s.mem.wf = true) :
    (s.swapOut tid forked slow).mem.wf = true := by
  unfold State.swapOut
  grind [foldl_wf, foldl_mem, State.modTeam_mem, State.saveTeam_wf, State.saveLoops_wf, State.modCore_mem,
    State.moveTeam_mem, State.saveGroup_wf, State.moveBuffers_mem]

@[simp] theorem State.reenter_mem {tid core : Nat} : (s.reenter tid core).mem = s.mem := rfl

@[simp] theorem State.arenaLoad_wf {asid pa n : Nat} (hm : s.mem.wf = true) : (s.arenaLoad asid pa n).1.mem.wf = true := by
  simp [State.arenaLoad, hm]

@[simp] theorem State.loadGroup_wf {asid gid : Nat} (hm : s.mem.wf = true) : (s.loadGroup asid gid).mem.wf = true := by
  unfold State.loadGroup
  split <;> simp [hm]

@[simp] theorem State.loadTeam_wf {asid tid : Nat} {rs ts : List Nat} (hm : s.mem.wf = true) :
    (s.loadTeam asid tid rs ts).mem.wf = true := by
  unfold State.loadTeam
  grind [foldl_wf, foldl_mem, State.modTeam_mem, State.arenaLoad_wf, State.modCore_mem]

@[simp] theorem State.resumeTeam_wf {tid core base : Nat} (hm : s.mem.wf = true) :
    (s.resumeTeam tid core base).mem.wf = true := by
  unfold State.resumeTeam
  grind [foldl_wf, foldl_mem, State.modGroup_mem, State.modTeam_mem, State.seeAll_mem, State.wake_mem, State.modCore_mem,
    State.moveTeam_mem, State.loadGroup_wf, State.reenter_mem, State.loadTeam_wf, State.moveBuffers_mem]

@[simp] theorem State.enterCore_wf {tid core base : Nat} (hm : s.mem.wf = true) :
    (s.enterCore tid core base).mem.wf = true := by
  unfold State.enterCore
  repeat' split
  all_goals simp [hm]

/-! ### Machine/Helm.lean -/

@[simp] theorem State.holdList_wf {asid : Nat} {r : LaunchRecord} (hm : s.mem.wf = true) :
    (s.holdList asid r).1.mem.wf = true := by
  unfold State.holdList
  split <;> simp [hm]

@[simp] theorem State.refusedRecord_wf {asid : Nat} {r : LaunchRecord} (hm : s.mem.wf = true) :
    (s.refusedRecord asid r).1.mem.wf = true := by
  unfold State.refusedRecord
  repeat' split
  all_goals simp [hm]

@[simp] theorem State.enqueue_mem {q : Nat} {g : Grid} : (s.enqueue q g).mem = s.mem := rfl

@[simp] theorem State.serveRing_wf {q : Nat} {mine : Nat → Bool} {go : Entry → State → State}
    (hgo : ∀ e (t : State), t.mem.wf = true → (go e t).mem.wf = true) (h : s.mem.wf = true) :
    (s.serveRing q mine go).mem.wf = true := by
  unfold State.serveRing
  simp only
  split
  · split
    · exact hgo _ _ (by simp [h])
    · exact h
  · exact h

@[simp] theorem State.refuse_wf {q status : Nat} {cookie : DWord} (hm : s.mem.wf = true) :
    (s.refuse q status cookie).mem.wf = true := by
  simp [State.refuse, hm]

@[simp] theorem launchEntry_wf {q : Nat} {e : Entry} (hm : s.mem.wf = true) : (launchEntry q e s).mem.wf = true := by
  unfold launchEntry
  grind [State.readVa_wf, State.addCounter_wf, State.enqueue_mem, State.refuse_wf, State.refusedRecord_wf]

@[simp] theorem execLaunch_canonical {q : Nat} (hm : s.mem.wf = true) : Canonical (execLaunch q s) := by
  rw [execLaunch, canonical_next]
  grind [State.serveRing_wf, launchEntry_wf]

@[simp] theorem execBadcmd_canonical {q : Nat} (hm : s.mem.wf = true) : Canonical (execBadcmd q s) := by
  rw [execBadcmd, canonical_next]
  grind [State.serveRing_wf, State.refuse_wf]

@[simp] theorem State.template_wf {asid : Nat} {a : DWord} (hm : s.mem.wf = true) :
    (s.template asid a).1.mem.wf = true := by
  unfold State.template
  split <;> simp [hm]

@[simp] theorem modelEntry_wf {q : Nat} {e : Entry} (hm : s.mem.wf = true) : (modelEntry q e s).mem.wf = true := by
  unfold modelEntry
  grind [State.template_wf, State.readVa_wf, State.refuse_wf, State.postOpen_wf]

@[simp] theorem execModel_canonical {q : Nat} (hm : s.mem.wf = true) : Canonical (execModel q s) := by
  rw [execModel, canonical_next]
  grind [State.serveRing_wf, modelEntry_wf]

@[simp] theorem modeldelEntry_wf {q : Nat} {e : Entry} (hm : s.mem.wf = true) : (modeldelEntry q e s).mem.wf = true := by
  unfold modeldelEntry
  repeat' split
  all_goals simp [hm]

@[simp] theorem execModeldel_canonical {q : Nat} (hm : s.mem.wf = true) : Canonical (execModeldel q s) := by
  rw [execModeldel, canonical_next]
  grind [State.serveRing_wf, modeldelEntry_wf]

@[simp] theorem admitEntry_wf {q : Nat} {e : Entry} (hm : s.mem.wf = true) : (admitEntry q e s).mem.wf = true := by
  unfold admitEntry
  grind [State.touch_wf, State.physStore_wf, State.readVa_wf, State.bump_mem, State.refuse_wf, State.postOpen_wf,
    State.modHelm_mem]

@[simp] theorem execAdmitReq_canonical {q : Nat} (hm : s.mem.wf = true) : Canonical (execAdmitReq q s) := by
  rw [execAdmitReq, canonical_next]
  grind [State.serveRing_wf, admitEntry_wf]

@[simp] theorem cancelEntry_wf {q : Nat} {e : Entry} (hm : s.mem.wf = true) : (cancelEntry q e s).mem.wf = true := by
  unfold cancelEntry
  repeat' split
  all_goals simp [hm]

@[simp] theorem execCancel_canonical {q : Nat} (hm : s.mem.wf = true) : Canonical (execCancel q s) := by
  rw [execCancel, canonical_next]
  grind [State.serveRing_wf, cancelEntry_wf]

@[simp] theorem execRtail_canonical {port q : Nat} {val : Word} (hm : s.mem.wf = true) :
    Canonical (execRtail port q val s) := by
  rw [execRtail, canonical_next]
  split <;> simp [hm]

@[simp] theorem execEhead_canonical {port q : Nat} {val : Word} (hm : s.mem.wf = true) :
    Canonical (execEhead port q val s) := by
  rw [execEhead, canonical_next]
  split <;> simp [hm]

@[simp] theorem execSemaphoreRead_canonical {port n : Nat} {tie : Bool} (hm : s.mem.wf = true) :
    Canonical (execSemaphoreRead port n tie s) := by
  rw [execSemaphoreRead, canonical_next]
  grind [State.modHelm_mem]

@[simp] theorem execSemaphoreWrite_canonical {port n : Nat} {val : DWord} (hm : s.mem.wf = true) :
    Canonical (execSemaphoreWrite port n val s) := by
  rw [execSemaphoreWrite, canonical_next]
  split <;> simp [hm]

@[simp] theorem execHostLinkDown_canonical {port : Nat} (hm : s.mem.wf = true) : Canonical (execHostLinkDown port s) := by
  rw [execHostLinkDown, canonical_next]
  simp [hm]

/-! ### Machine/Steps.lean -/

@[simp] theorem State.relieve_mem {p : Nat} : (s.relieve p).mem = s.mem := by
  unfold State.relieve
  grind [foldl_mem, State.modReq_mem]

@[simp] theorem State.stepEndOf_wf {p : Nat} {failed : Bool} {h : Nat} (hm : s.mem.wf = true) :
    (State.stepEndOf p failed s h).mem.wf = true := by
  unfold State.stepEndOf
  split <;> grind [State.post_wf, State.endReq_wf, State.modReq_mem]

@[simp] theorem State.stepEnd_wf {p : Nat} {hs : List Nat} {failed : Bool} (hm : s.mem.wf = true) :
    (s.stepEnd p hs failed).mem.wf = true := by
  unfold State.stepEnd
  grind [foldl_wf, foldl_mem, State.stepEndOf_wf, State.modReq_mem, State.modPart_mem]

@[simp] theorem State.launchBatch_wf {p : Nat} {m : Model} {b : Batch} (hm : s.mem.wf = true) :
    (s.launchBatch p m b).mem.wf = true := by
  unfold State.launchBatch
  grind [foldl_wf, foldl_mem, State.addCounter_wf, State.postOpen_wf, State.modReq_mem, State.refusedRecord_wf,
    State.stepEnd_wf, State.modPart_mem]

@[simp] theorem execBatchForm_canonical {p : Nat} (hm : s.mem.wf = true) : Canonical (execBatchForm p s) := by
  rw [execBatchForm, canonical_next]
  grind [State.launchBatch_wf, State.modPart_mem, State.relieve_mem]

@[simp] theorem State.fetchAll_wf {ns : List Nat} (hm : s.mem.wf = true) : (s.fetchAll ns).mem.wf = true := by
  unfold State.fetchAll
  grind [foldl_wf, foldl_mem, State.startFetch_wf]

@[simp] theorem execSwappedReturn_canonical {h : Nat} (hm : s.mem.wf = true) : Canonical (execSwappedReturn h s) := by
  rw [execSwappedReturn, canonical_next]
  grind [State.fetchAll_wf, State.modReq_mem]

@[simp] theorem State.moveRecord_wf {h : Nat} {r : Request} {h' : Nat} (hm : s.mem.wf = true) :
    (s.moveRecord h r h').mem.wf = true := by
  unfold State.moveRecord
  grind [foldl_wf, foldl_mem, State.bump_mem, State.modPage_wf]

@[simp] theorem execBlockHandOver_canonical {h : Nat} (hm : s.mem.wf = true) : Canonical (execBlockHandOver h s) := by
  rw [execBlockHandOver, canonical_next]
  grind [State.modReq_mem, State.moveRecord_wf]

/-! ### Machine/Grids.lean -/

@[simp] theorem State.releasePin_wf {asid : Nat} {p : Pin} (hm : s.mem.wf = true) :
    (State.releasePin asid s p).mem.wf = true := by
  unfold State.releasePin
  grind [State.copyPayload_wf, State.unkeep_mem]

@[simp] theorem State.releaseGrid_wf {gid : Nat} (hm : s.mem.wf = true) : (s.releaseGrid gid).mem.wf = true := by
  unfold State.releaseGrid
  grind [foldl_wf, foldl_mem, State.modPage_wf, State.modGrid_mem, State.unhold_wf, State.releasePin_wf]

@[simp] theorem State.childDone_mem {team status : Nat} : (s.childDone team status).mem = s.mem := rfl
@[simp] theorem State.leaveQueue_mem {gid q : Nat} : (s.leaveQueue gid q).mem = s.mem := rfl

@[simp] theorem State.refuseGrid_wf {gid status : Nat} (hm : s.mem.wf = true) :
    (s.refuseGrid gid status).mem.wf = true := by
  unfold State.refuseGrid
  grind [State.addCounter_wf, State.refuse_wf, State.leaveQueue_mem, State.childDone_mem, State.stepEnd_wf,
    State.releaseGrid_wf]

@[simp] theorem State.dispatch_wf {gid : Nat} (hm : s.mem.wf = true) : (s.dispatch gid).mem.wf = true := by
  unfold State.dispatch
  grind [foldl_wf, foldl_mem, State.modGrid_mem, State.natVa_wf, State.keepFetched_mem]

@[simp] theorem execGridDispatch_canonical {q : Nat} (hm : s.mem.wf = true) : Canonical (execGridDispatch q s) := by
  rw [execGridDispatch, canonical_next]
  grind [State.dispatch_wf, State.natVa_wf]

@[simp] theorem State.leaseList_wf {g : Grid} (hm : s.mem.wf = true) : (s.leaseList g).1.mem.wf = true := by
  unfold State.leaseList
  split <;> simp [hm]

theorem State.stageUnit_wf {gid asid unit : Nat} (hm : s.mem.wf = true) :
    ∀ t, (s.stageUnit gid asid unit) = some t → t.mem.wf = true := by
  unfold State.stageUnit
  grind [State.copyPayload_wf, State.modGrid_mem, State.markLeaf_wf]

@[simp] theorem State.stageAll_wf {gid asid : Nat} {us : List Nat} (h : s.mem.wf = true) :
    (s.stageAll gid asid us).1.mem.wf = true := by
  induction us generalizing s with
  | nil => exact h
  | cons u us ih =>
    unfold State.stageAll
    split
    · exact ih (State.stageUnit_wf h _ ‹_›)
    · exact h

@[simp] theorem State.markParts_wf {g : Grid} (hm : s.mem.wf = true) : (s.markParts g).mem.wf = true := by
  unfold State.markParts
  grind [foldl_wf, foldl_mem, State.markSpan_wf]

@[simp] theorem execLeaseStage_canonical {gid : Nat} (hm : s.mem.wf = true) : Canonical (execLeaseStage gid s) := by
  rw [execLeaseStage, canonical_next]
  grind [State.stageAll_wf, State.leaseList_wf, State.modGrid_mem, State.refuseGrid_wf, State.markParts_wf]

@[simp] theorem execSaveAreaAllocate_canonical {gid : Nat} (hm : s.mem.wf = true) :
    Canonical (execSaveAreaAllocate gid s) := by
  rw [execSaveAreaAllocate, canonical_next]
  grind [State.modGrid_mem, State.refuseGrid_wf]

@[simp] theorem State.holdPages_wf {g : Grid} (hm : s.mem.wf = true) : (s.holdPages g).1.mem.wf = true := by
  unfold State.holdPages
  split <;> simp [hm]

@[simp] theorem execHoldAcquire_canonical {gid : Nat} (hm : s.mem.wf = true) : Canonical (execHoldAcquire gid s) := by
  rw [execHoldAcquire, canonical_next]
  grind [foldl_wf, foldl_mem, State.fetchAll_wf, State.modPage_wf, State.modGrid_mem, State.holdPages_wf]

@[simp] theorem State.enterRect_wf {ids : Map Nat} {rooms : List (Nat × Nat × Nat)} (hm : s.mem.wf = true) :
    (s.enterRect ids rooms).mem.wf = true := by
  unfold State.enterRect
  grind [foldl_wf, foldl_mem, State.enterCore_wf]

theorem State.queueTeam_wf {g : Grid} {tid : Nat} (hm : s.mem.wf = true) :
    ∀ t, (s.queueTeam g tid) = some t → t.mem.wf = true := by
  simp [State.queueTeam, hm]

theorem State.placeTeams_wf {g : Grid} {ids : Map Nat} {needs : Map TeamNeed} (h : s.mem.wf = true) :
    ∀ t, s.placeTeams g ids needs = some t → t.mem.wf = true := by
  intro t ht
  unfold State.placeTeams at ht
  split at ht
  · split at ht
    · exact State.queueTeam_wf h t ht
    · cases ht; exact h
  · obtain ⟨r, -, rfl⟩ := Option.map_eq_some_iff.mp ht
    exact State.enterRect_wf h

@[simp] theorem State.placeNext_wf {gid : Nat} {g : Grid} (h : s.mem.wf = true) : (s.placeNext gid g).mem.wf = true := by
  unfold State.placeNext
  simp only
  split
  · exact h
  · rename_i t hp
    have ht : t.mem.wf = true := State.placeTeams_wf (by exact h) t hp
    exact ite_wf (by simpa using ht) (by simpa using ht)

@[simp] theorem State.returnCluster_wf {gid : Nat} {g : Grid} {cl : Nat} (hm : s.mem.wf = true) :
    (s.returnCluster gid g cl).mem.wf = true := by
  unfold State.returnCluster
  grind [State.modCluster_mem, State.placeTeams_wf]

@[simp] theorem execClusterPlace_canonical {gid : Nat} (hm : s.mem.wf = true) : Canonical (execClusterPlace gid s) := by
  rw [execClusterPlace, canonical_next]
  grind [State.returnCluster_wf, State.placeNext_wf]

@[simp] theorem execTeamStart_canonical {core : Nat} (hm : s.mem.wf = true) : Canonical (execTeamStart core s) := by
  rw [execTeamStart, canonical_next]
  grind [State.modCore_mem, State.enterCore_wf]

@[simp] theorem execWorkSteal_canonical {core : Nat} (hm : s.mem.wf = true) : Canonical (execWorkSteal core s) := by
  rw [execWorkSteal, canonical_next]
  grind [State.modCore_mem]

@[simp] theorem execTeamSwapOut_canonical {gid : Nat} (hm : s.mem.wf = true) : Canonical (execTeamSwapOut gid s) := by
  rw [execTeamSwapOut, canonical_next]
  grind [foldl_wf, foldl_mem, State.swapOut_wf]

@[simp] theorem State.clearGrid_mem {gid : Nat} : (s.clearGrid gid).mem = s.mem := by
  simp [State.clearGrid, foldl_mem]

@[simp] theorem State.completeGrid_wf {gid : Nat} {g : Grid} (hm : s.mem.wf = true) :
    (s.completeGrid gid g).mem.wf = true := by
  unfold State.completeGrid
  grind [State.post_wf, State.addCounter_wf, State.leaveQueue_mem, State.childDone_mem, State.stepEnd_wf,
    State.clearGrid_mem, State.releaseGrid_wf]

@[simp] theorem execGridCompletion_canonical {gid : Nat} (hm : s.mem.wf = true) : Canonical (execGridCompletion gid s) := by
  rw [execGridCompletion, canonical_next]
  grind [State.completeGrid_wf]

theorem State.dogTrap_wf {gid : Nat} (hm : s.mem.wf = true) : ∀ t, (s.dogTrap gid) = some t → t.mem.wf = true := by
  unfold State.dogTrap
  repeat' split
  all_goals simp [hm]

@[simp] theorem State.dogTraps_wf {gid : Nat} {gs : List Nat} (h : s.mem.wf = true) :
    (s.dogTraps gid gs).mem.wf = true := by
  induction gs generalizing s with
  | nil => exact h
  | cons g gs ih =>
    unfold State.dogTraps
    split
    · exact ih (by simpa using State.dogTrap_wf h _ ‹_›)
    · exact ih h

@[simp] theorem execWatchdogTrap_canonical {gid : Nat} (hm : s.mem.wf = true) : Canonical (execWatchdogTrap gid s) := by
  rw [execWatchdogTrap, canonical_next]
  grind [State.modGrid_mem, State.dogTraps_wf]

@[simp] theorem execWatchdogEnd_canonical {gid : Nat} (hm : s.mem.wf = true) : Canonical (execWatchdogEnd gid s) := by
  rw [execWatchdogEnd, canonical_next]
  grind [State.endGrid_mem]

/-! ### Machine/TeamOps.lean -/

@[simp] theorem State.mergeAll_mem {gid : Nat} : (s.mergeAll gid).mem = s.mem := rfl

@[simp] theorem execSplitMerge_canonical {grp i j : Nat} (hm : s.mem.wf = true) : Canonical (execSplitMerge grp i j s) := by
  rw [execSplitMerge, canonical_next]
  simp [hm]

@[simp] theorem execTbar_canonical {g : Guard} (hm : s.mem.wf = true) : Canonical (execTbar g s) := by
  refine issueAs_canonical (fun c t hm => ?_) hm
  grind [block_mem, State.tryTbar_mem]

@[simp] theorem execCbar_canonical {g : Guard} (hm : s.mem.wf = true) : Canonical (execCbar g s) := by
  refine issueAs_canonical (fun c t hm => ?_) hm
  grind [block_mem, State.tryCbar_mem]

@[simp] theorem execSleep_canonical {a : Reg} {g : Guard} (hm : s.mem.wf = true) : Canonical (execSleep a g s) := by
  refine issueAs_canonical (fun c t hm => ?_) hm
  grind [block_mem, retire_mem]

@[simp] theorem execYield_canonical {g : Guard} (hm : s.mem.wf = true) : Canonical (execYield g s) := by
  refine issueAs_canonical (fun c t hm => ?_) hm
  grind [State.modSplit_mem, retire_mem]

@[simp] theorem State.raise_mem {gid n : Nat} : (s.raise gid n).mem = s.mem := rfl
@[simp] theorem State.growBy_mem {gid core n : Nat} : (s.growBy gid core n).mem = s.mem := rfl

@[simp] theorem execGrow_canonical {d : Reg} {n : BitVec 8} {g : Guard} (hm : s.mem.wf = true) :
    Canonical (execGrow d n g s) := by
  refine issueAs_canonical (fun c t hm => ?_) hm
  grind [State.modGroup_mem, writeUni_mem, State.modTeam_mem, block_mem, State.modCore_mem, State.raise_mem, trap_wf,
    retire_mem, State.growBy_mem]

@[simp] theorem finishGrow_wf {r : GrowReq} {grant : Nat} (hm : s.mem.wf = true) :
    (finishGrow r grant s).mem.wf = true := by
  unfold finishGrow
  split <;> simp [hm]

@[simp] theorem execGrowGrant_canonical {core : Nat} (hm : s.mem.wf = true) : Canonical (execGrowGrant core s) := by
  rw [execGrowGrant, canonical_next]
  grind [State.bump_mem, finishGrow_wf, State.modCore_mem, State.touchLine_wf, trap_wf, State.growBy_mem]

@[simp] theorem execGrowDeadlockResolve_canonical {core : Nat} (hm : s.mem.wf = true) :
    Canonical (execGrowDeadlockResolve core s) := by
  rw [execGrowDeadlockResolve, canonical_next]
  grind [State.modGroup_mem, finishGrow_wf, State.modCore_mem]

@[simp] theorem execShrink_canonical {n : BitVec 8} {g : Guard} (hm : s.mem.wf = true) : Canonical (execShrink n g s) := by
  refine issueAs_canonical (fun c t hm => ?_) hm
  grind [State.modGroup_mem, State.modTeam_mem, State.settle_mem, trap_wf, retire_mem]

@[simp] theorem execJoinw_canonical {d : Reg} {g : Guard} (hm : s.mem.wf = true) : Canonical (execJoinw d g s) := by
  refine issueAs_canonical (fun c t hm => ?_) hm
  grind [State.modGroup_mem, writeUni_mem, trap_wf, retire_mem]

/-! ### Machine/Forks.lean -/

@[simp] theorem execFork_canonical {p : Fin 24} {g : Guard} (hm : s.mem.wf = true) : Canonical (execFork p g s) := by
  refine issueAs_canonical (fun c t hm => ?_) hm
  grind [block_mem, trap_wf]

@[simp] theorem State.forkTraps_wf {tid : Nat} (hm : s.mem.wf = true) : (s.forkTraps tid).mem.wf = true := by
  unfold State.forkTraps
  grind [foldl_wf, foldl_mem, takeTrap_wf, State.bump_mem, State.touchLine_wf]

@[simp] theorem State.forkRetire_mem {tid : Nat} {reckon : Bool} : (s.forkRetire tid reckon).mem = s.mem := by
  unfold State.forkRetire
  grind [foldl_mem, State.retireAt_mem]

@[simp] theorem State.submitChild_mem {tid asid depth : Nat} {a : DWord} {r : LaunchRecord} :
    (s.submitChild tid asid depth a r).mem = s.mem :=
  rfl

@[simp] theorem execForkSwapOut_canonical {tid : Nat} (hm : s.mem.wf = true) : Canonical (execForkSwapOut tid s) := by
  rw [execForkSwapOut, canonical_next]
  grind [State.readVa_wf, State.submitChild_mem, State.swapOut_wf, State.refusedRecord_wf, State.forkTraps_wf,
    State.forkRetire_mem]

@[simp] theorem execForkResume_canonical {tid : Nat} (hm : s.mem.wf = true) : Canonical (execForkResume tid s) := by
  rw [execForkResume, canonical_next]
  grind [State.modCore_mem]

@[simp] theorem spawnGroups_mem {n : Nat} {entry : DWord} {ltime : DWord} :
    (spawnGroups c n entry ltime s).mem = s.mem := by
  simp [spawnGroups, foldl_mem]

@[simp] theorem spawnEffect_mem {d : Reg} {n : Nat} {entry : DWord} : (spawnEffect c d n entry s).mem = s.mem := by
  simp [spawnEffect, apply_ite State.mem]

@[simp] theorem execSpawn_canonical {d idx cnt : Reg} {g : Guard} (hm : s.mem.wf = true) :
    Canonical (execSpawn d idx cnt g s) := by
  refine issueAs_canonical (fun c t hm => ?_) hm
  grind [takeTrap_wf, spawnEffect_mem, State.markRead_wf, State.touchPlaces_wf, trap_wf]

/-! ### Machine/Lane.lean -/

@[simp] theorem execIset_canonical {cond : ICond} {u : MaskUpd} {d : Fin 8} {a b : Reg} {g : Guard} (hm : s.mem.wf = true) :
    Canonical (execIset cond u d a b g s) :=
  issueAs_canonical (fun c t hm => by simp [hm]) hm

@[simp] theorem execMand_canonical {d a b : Fin 8} {g : Guard} (hm : s.mem.wf = true) : Canonical (execMand d a b g s) :=
  issueAs_canonical (fun c t hm => by simp [hm]) hm

@[simp] theorem execMor_canonical {d a b : Fin 8} {g : Guard} (hm : s.mem.wf = true) : Canonical (execMor d a b g s) :=
  issueAs_canonical (fun c t hm => by simp [hm]) hm

@[simp] theorem execMxor_canonical {d a b : Fin 8} {g : Guard} (hm : s.mem.wf = true) : Canonical (execMxor d a b g s) :=
  issueAs_canonical (fun c t hm => by simp [hm]) hm

@[simp] theorem execMnot_canonical {d a : Fin 8} {g : Guard} (hm : s.mem.wf = true) : Canonical (execMnot d a g s) :=
  issueAs_canonical (fun c t hm => by simp [hm]) hm

@[simp] theorem execMmov_canonical {d : Fin 8} {a : Reg} {g : Guard} (hm : s.mem.wf = true) :
    Canonical (execMmov d a g s) :=
  issueAs_canonical (fun c t hm => by simp [hm]) hm

/-! ### Machine/LoadStore.lean -/

@[simp] theorem loadInto_mem {sz : LdSize} {d : Reg} {val : Nat → Nat} : (loadInto c sz d val s).mem = s.mem := by
  simp [loadInto, foldl_mem]

@[simp] theorem execLd_canonical {sz : LdSize} {ord : Order} {d base idx : Reg} {off : BitVec 16} {g : Guard}
    (hm : s.mem.wf = true) :
    Canonical (execLd sz ord d base idx off g s) :=
  issueAs_canonical (fun c t hm => by simp [hm]) hm

@[simp] theorem execLdu_canonical {sz : LdSize} {ord : Order} {d base idx : Reg} {off : BitVec 16} {g : Guard}
    (hm : s.mem.wf = true) :
    Canonical (execLdu sz ord d base idx off g s) :=
  issueAs_canonical (fun c t hm => by simp [hm]) hm

@[simp] theorem execSt_canonical {sz : StSize} {ord : Order} {d base idx : Reg} {off : BitVec 16} {g : Guard}
    (hm : s.mem.wf = true) :
    Canonical (execSt sz ord d base idx off g s) := by
  refine issueAs_canonical (fun c t hm => ?_) hm
  grind [pushStore_mem, access_wf, retire_mem]

@[simp] theorem State.compass_mem {core : Nat} {p : Place} : (s.compass core p).mem = s.mem := by
  unfold State.compass
  grind [State.modCore_mem]

@[simp] theorem atomLane_wf {op : AtomOp} {core : Nat} {a b : Word} {ps : List Place} (hm : s.mem.wf = true) :
    (atomLane op core a b ps s).1.mem.wf = true := by
  unfold atomLane
  grind [State.putBytes_wf, State.compass_mem]

@[simp] theorem atomLanes_wf {op : AtomOp} {d : Reg} {places : Nat → List Place} (h : s.mem.wf = true) :
    (atomLanes c op d places s).1.mem.wf = true :=
  List.foldlRecOn (motive := fun x : State × Map Word => x.1.mem.wf = true) _ _ h (fun _ hx _ _ => atomLane_wf hx)

@[simp] theorem execAtom_canonical {op : AtomOp} {ord : Order} {d base idx : Reg} {off : BitVec 16} {g : Guard}
    (hm : s.mem.wf = true) :
    Canonical (execAtom op ord d base idx off g s) := by
  refine issueAs_canonical (fun c t hm => ?_) hm
  grind [writeReg_mem, atomLanes_wf, access_wf, Ctx.marks_mem, addPend_mem, Ctx.acquire_mem, retire_mem]

@[simp] theorem State.putShadow_wf {pa : Nat} {sh : Shadow} (hm : s.mem.wf = true) : (s.putShadow pa sh).mem.wf = true := by
  unfold State.putShadow
  split <;> simp [hm]

@[simp] theorem redShadowLane_wf {op : RedOp} {reckon : Bool} {pa : Nat} {a : Word} (hm : s.mem.wf = true) :
    (redShadowLane op reckon pa a s).mem.wf = true := by
  unfold redShadowLane
  grind [foldl_wf, foldl_mem, State.physStore_wf, State.countMgmt_mem, State.markWritten_mem, State.logByte_mem,
    State.putShadow_wf]

@[simp] theorem redLane_wf {op : RedOp} {reckon : Bool} {core : Nat} {a : Word} {ps : List Place} (hm : s.mem.wf = true) :
    (redLane op reckon core a ps s).mem.wf = true := by
  unfold redLane
  grind [redShadowLane_wf, State.endShadows_mem, State.putBytes_wf, State.compass_mem]

@[simp] theorem redLanes_wf {op : RedOp} {d : Reg} {places : Nat → List Place} (hm : s.mem.wf = true) :
    (redLanes c op d places s).mem.wf = true := by
  unfold redLanes
  grind [foldl_wf, foldl_mem, redLane_wf]

@[simp] theorem execRed_canonical {op : RedOp} {ord : Order} {d base idx : Reg} {off : BitVec 16} {g : Guard}
    (hm : s.mem.wf = true) :
    Canonical (execRed op ord d base idx off g s) := by
  refine issueAs_canonical (fun c t hm => ?_) hm
  grind [takeTrap_wf, State.countMgmt_mem, access_wf, Ctx.marks_mem, redLanes_wf, retire_mem]

@[simp] theorem execFence_canonical {sc : Scope} {g : Guard} (hm : s.mem.wf = true) : Canonical (execFence sc g s) := by
  refine issueAs_canonical (fun c t hm => ?_) hm
  grind [State.acquire_mem, retire_mem]

@[simp] theorem execPref_canonical {base idx : Reg} {off : BitVec 16} {g : Guard} (hm : s.mem.wf = true) :
    Canonical (execPref base idx off g s) := by
  refine issueAs_canonical (fun c t hm => ?_) hm
  grind [foldl_wf, foldl_mem, State.touchLine_wf, retire_mem]

@[simp] theorem execStoreDrain_canonical {grp : Nat} (hm : s.mem.wf = true) : Canonical (execStoreDrain grp s) := by
  rw [execStoreDrain, canonical_next]
  grind [State.modGroup_mem, State.callUnits_mem, State.settle_mem, State.touchPlaces_wf, State.performed_mem,
    State.keyMarks_mem, State.putBytes_wf]

@[simp] theorem execL2LineEvict_canonical {line : Nat} (hm : s.mem.wf = true) : Canonical (execL2LineEvict line s) := by
  rw [execL2LineEvict, canonical_next]
  split <;> simp [hm]

@[simp] theorem execHostMemoryAccess_canonical {port pa : Nat} {data : List Byte} {len : Nat} (hm : s.mem.wf = true) :
    Canonical (execHostMemoryAccess port pa data len s) := by
  rw [execHostMemoryAccess, canonical_next]
  grind [State.callUnits_mem, State.touchPlaces_wf, State.putBytes_wf]

@[simp] theorem execRegisterWriteLand_canonical {grp : Nat} (hm : s.mem.wf = true) :
    Canonical (execRegisterWriteLand grp s) := by
  rw [execRegisterWriteLand, canonical_next]
  grind [State.modGroup_mem, State.settle_mem]

/-! ### Machine/MemWindow.lean -/

@[simp] theorem State.reject_mem : s.reject.mem = s.mem := rfl

@[simp] theorem State.setRegion_wf {f : MemSys → MemSys} (hm : s.mem.wf = true) : (s.setRegion f).mem.wf = true := by
  unfold State.setRegion
  repeat' split
  all_goals simp [hm]

@[simp] theorem State.setStaging_mem {f : MemSys → MemSys} : (s.setStaging f).mem = s.mem := by
  unfold State.setStaging
  split <;> rfl

@[simp] theorem State.reseed_mem : s.reseed.mem = s.mem := by
  unfold State.reseed
  split <;> exact State.modMs_mem _ _

@[simp] theorem execRowActivate_canonical {pc bank row : Nat} (hm : s.mem.wf = true) :
    Canonical (execRowActivate pc bank row s) := by
  rw [execRowActivate, canonical_next]
  split <;> simp [hm]

@[simp] theorem execNrseed_canonical {port : Nat} {val : DWord} (hm : s.mem.wf = true) :
    Canonical (execNrseed port val s) := by
  rw [execNrseed, canonical_next]
  grind [State.reseed_mem, State.modMs_mem, State.guarded_wf]

@[simp] theorem State.setRefresh_mem {v : Nat} : (s.setRefresh v).mem = s.mem := by
  unfold State.setRefresh
  simp only
  split <;> simp only [State.reseed_mem, State.modMs_mem]

@[simp] theorem execMemcfg_canonical {port : Nat} {val : DWord} (hm : s.mem.wf = true) :
    Canonical (execMemcfg port val s) := by
  rw [execMemcfg, canonical_next]
  grind [State.reject_mem, State.modMs_mem, State.guarded_wf, State.setRefresh_mem]

@[simp] theorem State.zeroFast_wf {top : Nat} (hm : s.mem.wf = true) : (s.zeroFast top).mem.wf = true := Mem.wf_filter _ hm

@[simp] theorem execMemcfgChangeComplete_canonical (hm : s.mem.wf = true) : Canonical (execMemcfgChangeComplete s) := by
  rw [execMemcfgChangeComplete, canonical_next]
  grind [State.modMs_mem, State.zeroFast_wf]

@[simp] theorem execTlbinvc_canonical {port : Nat} {val : DWord} (hm : s.mem.wf = true) :
    Canonical (execTlbinvc port val s) := by
  rw [execTlbinvc, canonical_next]
  grind [State.modMs_mem, State.guarded_wf]

@[simp] theorem execInvalidationComplete_canonical (hm : s.mem.wf = true) : Canonical (execInvalidationComplete s) := by
  rw [execInvalidationComplete, canonical_next]
  split <;> simp [hm]

@[simp] theorem execKeydata_canonical {port off : Nat} {val : DWord} (hm : s.mem.wf = true) :
    Canonical (execKeydata port off val s) := by
  rw [execKeydata, canonical_next]
  grind [State.modMs_mem, State.guarded_wf]

/-! ### Machine/Partition.lean -/

@[simp] theorem execPartk_canonical {port : Nat} {val : DWord} (hm : s.mem.wf = true) :
    Canonical (execPartk port val s) := by
  rw [execPartk, canonical_next]
  grind [State.modHelm_mem, State.guarded_wf]

@[simp] theorem execKChangeApply_canonical {die : Nat} (hm : s.mem.wf = true) : Canonical (execKChangeApply die s) := by
  rw [execKChangeApply, canonical_next]
  grind [State.modHelm_mem]

@[simp] theorem execPhalt_canonical {port : Nat} {val : DWord} (hm : s.mem.wf = true) :
    Canonical (execPhalt port val s) := by
  rw [execPhalt, canonical_next]
  grind [foldl_wf, foldl_mem, State.modHelm_mem, State.guarded_wf, State.modPart_mem]

@[simp] theorem State.partEvent_wf {q : Nat} (hm : s.mem.wf = true) : (s.partEvent q).mem.wf = true := by
  unfold State.partEvent
  split <;> simp [hm]

@[simp] theorem State.haltCore_mem {core : Nat} : (s.haltCore core).mem = s.mem := by
  unfold State.haltCore
  grind [foldl_mem, State.modTeam_mem, State.modCore_mem]

@[simp] theorem execPartitionHalt_canonical {p : Nat} (hm : s.mem.wf = true) : Canonical (execPartitionHalt p s) := by
  rw [execPartitionHalt, canonical_next]
  grind [foldl_wf, foldl_mem, State.haltCore_mem, State.modCore_mem, State.modPart_mem]

@[simp] theorem execShadowSwap_canonical {p : Nat} (hm : s.mem.wf = true) : Canonical (execShadowSwap p s) := by
  rw [execShadowSwap, canonical_next]
  split <;> simp [hm]

@[simp] theorem State.unhalt_mem {p : Nat} : (s.unhalt p).mem = s.mem := by
  unfold State.unhalt
  grind [foldl_mem, State.modCore_mem]

@[simp] theorem execHaltSlowPath_canonical {p : Nat} (hm : s.mem.wf = true) : Canonical (execHaltSlowPath p s) := by
  rw [execHaltSlowPath, canonical_next]
  grind [foldl_wf, foldl_mem, State.unhalt_mem, State.swapOut_wf, State.modPart_mem]

@[simp] theorem execPartitionResume_canonical {p : Nat} (hm : s.mem.wf = true) : Canonical (execPartitionResume p s) := by
  rw [execPartitionResume, canonical_next]
  split <;> simp [hm]

/-! ### Machine/Package.lean -/

@[simp] theorem State.guardedMgmt_wf {port sem : Nat} {f : State → State}
    (hf : ∀ t : State, t.mem.wf = true → (f t).mem.wf = true) (hm : s.mem.wf = true) :
    (s.guardedMgmt port sem f).mem.wf = true := by
  unfold State.guardedMgmt
  repeat' split
  all_goals simp [hm, hf]

@[simp] theorem State.powerOn_wf (hm : s.mem.wf = true) : s.powerOn.mem.wf = true := by
  unfold State.powerOn
  grind [foldl_wf, foldl_mem, State.retag_wf]

@[simp] theorem execReset_canonical {board : Board} (h : s.mem.wf = true) : Canonical (execReset board s) := by
  have hp : s.powerOn.mem.wf = true := State.powerOn_wf h
  unfold execReset
  rw [canonical_next]
  split
  · exact h
  · simp only
    split
    · exact hp
    · split
      · exact hp
      · split
        · exact hp
        · rwa [State.modPkg_mem, State.reseed_mem, State.modMs_mem]

@[simp] theorem execAttctl_canonical {port : Nat} {val : DWord} (hm : s.mem.wf = true) :
    Canonical (execAttctl port val s) := by
  rw [execAttctl, canonical_next]
  grind [State.guardedMgmt_wf, State.modPkg_mem]

@[simp] theorem execAttestationReportDone_canonical (hm : s.mem.wf = true) : Canonical (execAttestationReportDone s) := by
  rw [execAttestationReportDone, canonical_next]
  split <;> simp [hm]

@[simp] theorem State.setClock_mem {p mhz : Nat} : (s.setClock p mhz).mem = s.mem := rfl

@[simp] theorem execGovernorInterval_canonical {power : Nat} (hm : s.mem.wf = true) :
    Canonical (execGovernorInterval power s) := by
  rw [execGovernorInterval, canonical_next]
  grind [foldl_wf, foldl_mem, State.setClock_mem, State.modPkg_mem]

@[simp] theorem execPlimit_canonical {port : Nat} {val : DWord} (hm : s.mem.wf = true) :
    Canonical (execPlimit port val s) := by
  rw [execPlimit, canonical_next]
  grind [State.guardedMgmt_wf, State.modPkg_mem]

@[simp] theorem execPclkmax_canonical {port p : Nat} {val : DWord} (hm : s.mem.wf = true) :
    Canonical (execPclkmax port p val s) := by
  rw [execPclkmax, canonical_next]
  grind [State.guardedMgmt_wf, State.modPkg_mem]

@[simp] theorem execPwrctl_canonical {port : Nat} {val : DWord} (hm : s.mem.wf = true) :
    Canonical (execPwrctl port val s) := by
  rw [execPwrctl, canonical_next]
  grind [State.guardedMgmt_wf, State.modPkg_mem]

@[simp] theorem execPartitionIdle_canonical {p : Nat} (hm : s.mem.wf = true) : Canonical (execPartitionIdle p s) := by
  rw [execPartitionIdle, canonical_next]
  split <;> simp [hm]

@[simp] theorem execPartitionOff_canonical {p : Nat} (hm : s.mem.wf = true) : Canonical (execPartitionOff p s) := by
  rw [execPartitionOff, canonical_next]
  grind [foldl_wf, foldl_mem, State.modCore_mem, State.modPkg_mem]

@[simp] theorem execThermalHot_canonical {die temp : Nat} (hm : s.mem.wf = true) :
    Canonical (execThermalHot die temp s) := by
  rw [execThermalHot, canonical_next]
  split <;> simp [hm]

@[simp] theorem execThermtrip_canonical {die : Nat} (hm : s.mem.wf = true) : Canonical (execThermtrip die s) := by
  rw [execThermtrip, canonical_next]
  grind [foldl_wf, foldl_mem, State.modCore_mem]

@[simp] theorem after_wf {r : Result} (hr : Canonical r) (h : s.mem.wf = true) : (after r s).mem.wf = true := by
  cases r with
  | next t => exact hr t rfl
  | fault _ => exact h
  | refused _ => exact h

@[simp] theorem State.setQcfg_mem {q v : Nat} : (s.setQcfg q v).mem = s.mem := by
  unfold State.setQcfg
  split <;> rfl

@[simp] theorem queueWrite_wf {port q off : Nat} {val : DWord} (hm : s.mem.wf = true) :
    (queueWrite port q off val s).mem.wf = true := by
  unfold queueWrite
  grind [execEhead_canonical, execRtail_canonical, State.guarded_wf, after_wf, State.setQcfg_mem, State.modQueue_mem]

@[simp] theorem chartWrite_wf {port die off : Nat} {val : DWord} (hm : s.mem.wf = true) :
    (chartWrite port die off val s).mem.wf = true := by
  unfold chartWrite
  grind [State.modChart_mem, execChcfgReload_canonical, State.guarded_wf, after_wf]

@[simp] theorem mainWrite_wf {port off : Nat} {val : DWord} (h : s.mem.wf = true) :
    (mainWrite port off val s).mem.wf = true := by
  have hg : ∀ f, (s.guarded port 4 (fun s => s.modHelm f)).mem.wf = true := fun f => State.guarded_wf (fun _ ht => ht) h
  exact ite_wf (ite_wf h h) <| ite_wf (after_wf (execPartk_canonical h) h) <| ite_wf (after_wf (execPhalt_canonical h) h) <|
    ite_wf (hg _) <| ite_wf (hg _) <| ite_wf (hg _) <| ite_wf (hg _) <| ite_wf (hg _) <| ite_wf (hg _) <|
    ite_wf (after_wf (execSemaphoreWrite_canonical h) h) <| ite_wf (chartWrite_wf h) <| ite_wf (chartWrite_wf h) <|
    ite_wf (queueWrite_wf h) h

@[simp] theorem meridianWrite_wf {port off : Nat} {val : DWord} (h : s.mem.wf = true) :
    (meridianWrite port off val s).mem.wf = true := by
  have hg : ∀ k f, (s.guarded port k (fun s => s.modMer f)).mem.wf = true := fun _ f => State.guarded_wf (fun _ ht => ht) h
  exact ite_wf (hg _ _) <| ite_wf (hg _ _) <| ite_wf (ite_wf h h) <| ite_wf (hg _ _) <| ite_wf (hg _ _) <|
    ite_wf (after_wf (execMqcfg_canonical h) h) <| ite_wf (after_wf (execMroute_canonical h) h) <| ite_wf (hg _ _) <|
    ite_wf (hg _ _) <| ite_wf (hg _ _) <| ite_wf (hg _ _) <| ite_wf (ite_wf h h) h

@[simp] theorem memoryWrite_wf {port off : Nat} {val : DWord} (h : s.mem.wf = true) :
    (memoryWrite port off val s).mem.wf = true := by
  unfold memoryWrite
  repeat' refine ite_wf ?_ ?_
  all_goals simp [h]

@[simp] theorem mgmtWrite_wf {port off : Nat} {val : DWord} (hm : s.mem.wf = true) :
    (mgmtWrite port off val s).mem.wf = true := by
  unfold mgmtWrite
  grind [execAttctl_canonical, execPlimit_canonical, State.guardedMgmt_wf, execPwrctl_canonical, State.modPkg_mem, after_wf,
    execPclkmax_canonical]

@[simp] theorem execRegisterWrite_canonical {port : Nat} {win : Window} {off : Nat} {val : DWord} (hm : s.mem.wf = true) :
    Canonical (execRegisterWrite port win off val s) := by
  unfold execRegisterWrite
  split <;> simp [hm]

/-! ### Machine/Select.lean -/

@[simp] theorem selLocate_wf {s k : State} {loc : Word} (hk : k.mem.wf = true) (h : s.mem.wf = true) :
    (selLocate c s loc k).mem.wf = true := by
  unfold selLocate
  split
  · exact takeTrap_wf h
  · exact hk

@[simp] theorem execSelkLd_canonical {a loc slot : Reg} {g : Guard} (hm : s.mem.wf = true) :
    Canonical (execSelkLd a loc slot g s) := by
  refine issueAs_canonical (fun c t hm => ?_) hm
  grind [selLocate_wf, pushStore_mem, access_wf, retire_mem]

@[simp] theorem execSelkRun_canonical {loc geom : Reg} {g : Guard} (hm : s.mem.wf = true) :
    Canonical (execSelkRun loc geom g s) := by
  refine issueAs_canonical (fun c t hm => ?_) hm
  grind [takeTrap_wf, Ctx.marks_mem, State.record_mem, State.performed_mem, retire_mem, State.putBytes_wf]

@[simp] theorem execSelkRd_canonical {mask : Bool} {d loc geom slot : Reg} {g : Guard} (hm : s.mem.wf = true) :
    Canonical (execSelkRd mask d loc geom slot g s) :=
  issueAs_canonical (fun c t hm => by simp [hm]) hm

@[simp] theorem execRngx_canonical {cnt : RngCount} {frac : Bool} {d a : Reg} {key : Fin 24} {cc : Reg}
    {stream : BitVec 8} {g : Guard} (hm : s.mem.wf = true) :
    Canonical (execRngx cnt frac d a key cc stream g s) := by
  refine issueAs_canonical (fun c t hm => ?_) hm
  grind [foldl_wf, foldl_mem, writeReg_mem, retire_mem]

/-! ### Machine/Service.lean -/

@[simp] theorem State.cycleOn_mem {core : Nat} : (s.cycleOn core).mem = s.mem := rfl

@[simp] theorem srClock_mem {sr : BitVec 8} : (srClock c sr s).mem = s.mem := by
  unfold srClock
  repeat' split
  all_goals rfl

@[simp] theorem execMovs_canonical {d : Reg} {sr : BitVec 8} {g : Guard} (hm : s.mem.wf = true) :
    Canonical (execMovs d sr g s) :=
  issueAs_canonical (fun c t hm => by simp [hm]) hm

@[simp] theorem execSysc_canonical {svc : BitVec 8} {a b : Reg} {g : Guard} (hm : s.mem.wf = true) :
    Canonical (execSysc svc a b g s) := by
  refine issueAs_canonical (fun c t hm => ?_) hm
  grind [State.postOpen_wf, trap_wf, retire_mem]

@[simp] theorem execSramSoftError_canonical {grp : Nat} (hm : s.mem.wf = true) : Canonical (execSramSoftError grp s) := by
  rw [execSramSoftError, canonical_next]
  grind [State.countMgmt_mem, State.endGrid_mem]

/-! ### Machine/StepOps.lean -/

@[simp] theorem helmResult_mem {d : Reg} {w : Word} : (helmResult c d w s).mem = s.mem := by simp [helmResult]

@[simp] theorem execSqget_canonical {d hd : Reg} {w : Fin 64} {g : Guard} (hm : s.mem.wf = true) :
    Canonical (execSqget d hd w g s) :=
  issueAs_canonical (fun c t hm => by simp [hm]) hm

@[simp] theorem emitEffect_wf {d : Reg} {h n : Nat} {core off : Nat} {locator : Word} (hm : s.mem.wf = true) :
    (emitEffect c d h n core off locator s).mem.wf = true := by
  unfold emitEffect
  grind [foldl_wf, foldl_mem, helmResult_mem, State.writeVa_wf, State.modReq_mem, spanAccess_wf]

@[simp] theorem execTokemit_canonical {d hd loc cnt : Reg} {g : Guard} (hm : s.mem.wf = true) :
    Canonical (execTokemit d hd loc cnt g s) := by
  refine issueAs_canonical (fun c t hm => ?_) hm
  grind [takeTrap_wf, emitEffect_wf]

@[simp] theorem execSqstop_canonical {d hd reason : Reg} {g : Guard} (hm : s.mem.wf = true) :
    Canonical (execSqstop d hd reason g s) := by
  refine issueAs_canonical (fun c t hm => ?_) hm
  grind [helmResult_mem, State.modReq_mem]

theorem State.rollBack_wf {a n : Nat} {r : Request} {m : Model} (h : s.mem.wf = true) :
    ∀ t, s.rollBack a n r m = some t → t.mem.wf = true := by
  intro t ht
  unfold State.rollBack at ht
  simp only at ht
  split at ht
  · cases ht
  · cases ht
    exact foldl_wf (fun u e hu => by split <;> simp [hu]) _ h

@[simp] theorem execSqroll_canonical {d hd n : Reg} {g : Guard} (h : s.mem.wf = true) :
    Canonical (execSqroll d hd n g s) := by
  refine issueAs_canonical (fun c t ht => ?_) h
  simp only
  split
  · simpa using ht
  · refine ite_wf (by simpa using ht) (ite_wf ht (ite_wf (by simpa using ht) ?_))
    split
    · obtain ⟨m, -, hr⟩ := Option.bind_eq_some_iff.mp ‹_›
      simpa using State.rollBack_wf ht _ hr
    · simpa using ht

@[simp] theorem execSqyield_canonical {skip : Bool} {d hd : Reg} {g : Guard} (hm : s.mem.wf = true) :
    Canonical (execSqyield skip d hd g s) := by
  refine issueAs_canonical (fun c t hm => ?_) hm
  grind [helmResult_mem, State.modReq_mem, State.modPart_mem]

/-! ### Machine/System.lean -/

@[simp] theorem execTrap_canonical {code : BitVec 8} {g : Guard} (hm : s.mem.wf = true) : Canonical (execTrap code g s) :=
  issueAs_canonical (fun c t hm => by simp [hm]) hm

@[simp] theorem execBkpt_canonical {code : BitVec 8} {g : Guard} (hm : s.mem.wf = true) : Canonical (execBkpt code g s) :=
  issueAs_canonical (fun c t hm => by simp [hm]) hm

@[simp] theorem execMovsw_canonical {sr : BitVec 8} {a : Reg} {g : Guard} (hm : s.mem.wf = true) :
    Canonical (execMovsw sr a g s) := by
  refine issueAs_canonical (fun c t hm => ?_) hm
  grind [State.modGroup_mem, State.modCore_mem, trap_wf, retire_mem]

@[simp] theorem execEret_canonical {g : Guard} (hm : s.mem.wf = true) : Canonical (execEret g s) := by
  refine issueAs_canonical (fun c t hm => ?_) hm
  grind [State.modGroup_mem, takeTrap_wf, State.callUnits_mem, State.retireGroup_wf, State.issued_mem, State.touchPlaces_wf,
    State.lostLanes_mem, takeOwed_wf]

@[simp] theorem execCsave_canonical {d : Reg} {p : Fin 24} {g : Guard} (hm : s.mem.wf = true) :
    Canonical (execCsave d p g s) := by
  refine issueAs_canonical (fun c t hm => ?_) hm
  grind [pushStore_mem, writeUni_mem, takeTrap_wf, retire_mem, spanAccess_wf]

@[simp] theorem execCload_canonical {p : Fin 24} {g : Guard} (hm : s.mem.wf = true) : Canonical (execCload p g s) := by
  refine issueAs_canonical (fun c t hm => ?_) hm
  grind [State.modGroup_mem, takeTrap_wf, State.callUnits_mem, spanMarks_wf, trap_wf, retire_mem, spanAccess_wf]

/-! ### Machine/Schedule.lean -/

@[simp] theorem State.lostPc_mem {asid : Nat} {pc : DWord} : (s.lostPc asid pc).mem = s.mem := by
  unfold State.lostPc
  split <;> simp

@[simp] theorem fetchTrap_wf {gid slot : Nat} {g : Group} {pc : DWord} (hm : s.mem.wf = true) :
    (fetchTrap gid slot g pc s).mem.wf = true := by
  unfold fetchTrap
  split <;> simp [hm]

/-! ### Machine/Dispatch.lean and Machine/Schedule.lean -/

/-- Whatever an instruction or an event does, it keeps memory canonical. -/
theorem exec_canonical {i : Instr} {s : State} (h : s.mem.wf = true) : Canonical (exec i s) := by
  cases i with
  | mov | movImm | iadd | iaddImm | isub | isubImm | iand | iandImm | ior | iorImm | ixor | ixorImm | shl | shlImm | shr
  | shrImm | sar | sarImm | imin | iminImm | imax | imaxImm | imul | imulImm | fadd | faddImm | fmul | fmulImm | fmin
  | fminImm | fmax | fmaxImm | andn | inot | rotl | shf | imulh | imulhu | imad | iabs | ineg | sel | bysel | clz | popc
  | brev | bfe | bfi | movw | movx | mget | mpop | mffs | shape | fsub | ffma | fabs | fneg | fcps | frnd | fclass | frcp
  | frsq | fsqrt | fex2 | flg2 | ftanh | fsin | fcos | hadd2 | hmul2 | hfma2 | hmax2 | hmin2 | cvtfi | cvtif | cvtfh
  | cvthf | cvtn8 | cvtf8 | qnt4 | dq4 | scale =>
    exact issueResult_canonical h
  | lxch | lpred | scan | rdux | matchLanes =>
    exact issueLanes_canonical h
  | pairWord => exact execPairWord_canonical h
  | iset => exact execIset_canonical h
  | mand => exact execMand_canonical h
  | mor => exact execMor_canonical h
  | mxor => exact execMxor_canonical h
  | mnot => exact execMnot_canonical h
  | mmov => exact execMmov_canonical h
  | fset => exact execFset_canonical h
  | selkLd => exact execSelkLd_canonical h
  | selkRun => exact execSelkRun_canonical h
  | selkRd => exact execSelkRd_canonical h
  | rngx => exact execRngx_canonical h
  | ld => exact execLd_canonical h
  | st => exact execSt_canonical h
  | ldu => exact execLdu_canonical h
  | atom => exact execAtom_canonical h
  | red => exact execRed_canonical h
  | fence => exact execFence_canonical h
  | pref => exact execPref_canonical h
  | bra => exact execBra_canonical h
  | bru => exact execBru_canonical h
  | brd => exact execBrd_canonical h
  | call => exact execCall_canonical h
  | ret => exact execRet_canonical h
  | brx => exact execBrx_canonical h
  | exit => exact execExit_canonical h
  | nop => exact execNop_canonical h
  | icpf => exact execIcpf_canonical h
  | hint => exact execHint_canonical h
  | binit => exact execBinit_canonical h
  | bjoin => exact execBjoin_canonical h
  | barv => exact execBarv_canonical h
  | barx => exact execBarx_canonical h
  | bwait => exact execBwait_canonical h
  | btest => exact execBtest_canonical h
  | bwaitt => exact execBwaitt_canonical h
  | bleave => exact execBleave_canonical h
  | tbar => exact execTbar_canonical h
  | cbar => exact execCbar_canonical h
  | sleep => exact execSleep_canonical h
  | yield => exact execYield_canonical h
  | grow => exact execGrow_canonical h
  | shrink => exact execShrink_canonical h
  | fork => exact execFork_canonical h
  | joinw => exact execJoinw_canonical h
  | spawn => exact execSpawn_canonical h
  | movs => exact execMovs_canonical h
  | movsw => exact execMovsw_canonical h
  | trap => exact execTrap_canonical h
  | sysc => exact execSysc_canonical h
  | eret => exact execEret_canonical h
  | bkpt => exact execBkpt_canonical h
  | csave => exact execCsave_canonical h
  | cload => exact execCload_canonical h
  | xferCopy => exact execXferCopy_canonical h
  | xferTranspose => exact execXferTranspose_canonical h
  | xferRepack => exact execXferRepack_canonical h
  | xferQuant => exact execXferQuant_canonical h
  | xferDequant => exact execXferDequant_canonical h
  | xferGather => exact execXferGather_canonical h
  | xferScatter => exact execXferScatter_canonical h
  | xferFill => exact execXferFill_canonical h
  | xmcast => exact execXmcast_canonical h
  | twaita => exact execTwaita_canonical h
  | twaitl => exact execTwaitl_canonical h
  | tffr => exact execTffr_canonical h
  | tclr => exact execTclr_canonical h
  | xstat => exact execXstat_canonical h
  | rfence => exact execRfence_canonical h
  | spfence => exact execSpfence_canonical h
  | mfmt => exact execMfmt_canonical h
  | mloop => exact execMloop_canonical h
  | accz => exact execAccz_canonical h
  | accrd => exact execAccrd_canonical h
  | accwr => exact execAccwr_canonical h
  | mwait => exact execMwait_canonical h
  | mstat => exact execMstat_canonical h
  | mhad => exact execMhad_canonical h
  | tbld => exact execTbld_canonical h
  | tlook => exact execTlook_canonical h
  | tval => exact execTval_canonical h
  | tspill => exact execTspill_canonical h
  | tfill => exact execTfill_canonical h
  | tdrop => exact execTdrop_canonical h
  | kvgath => exact execKvgath_canonical h
  | kvapp => exact execKvapp_canonical h
  | pgalloc => exact execPgalloc_canonical h
  | pgrefQ => exact execPgrefQ_canonical h
  | pgrefQf => exact execPgrefQf_canonical h
  | pgrefInc => exact execPgrefInc_canonical h
  | pgrefDec => exact execPgrefDec_canonical h
  | pgfetch => exact execPgfetch_canonical h
  | btset => exact execBtset_canonical h
  | btget => exact execBtget_canonical h
  | kvsend => exact execKvsend_canonical h
  | pfxh => exact execPfxh_canonical h
  | pfxlook => exact execPfxlook_canonical h
  | pfxins => exact execPfxins_canonical h
  | pfxinsDel => exact execPfxinsDel_canonical h
  | sqget => exact execSqget_canonical h
  | tokemit => exact execTokemit_canonical h
  | sqstop => exact execSqstop_canonical h
  | sqroll => exact execSqroll_canonical h
  | sqyield => exact execSqyield_canonical h
  | nsend => exact execNsend_canonical h
  | nput => exact execNput_canonical h
  | nget => exact execNget_canonical h
  | nred => exact execNred_canonical h
  | npoll => exact execNpoll_canonical h
  | nrecv => exact execNrecv_canonical h
  | ntime => exact execNtime_canonical h
  | splitMerge => exact execSplitMerge_canonical h
  | icacheMissFill => exact execIcacheMissFill_canonical h
  | yieldTimeout => exact execYieldTimeout_canonical h
  | sleepExpire => exact execSleepExpire_canonical h
  | bwaittTimeout => exact execBwaittTimeout_canonical h
  | growGrant => exact execGrowGrant_canonical h
  | growDeadlockResolve => exact execGrowDeadlockResolve_canonical h
  | syncOpEffect => exact execSyncOpEffect_canonical h
  | exitUnblock => exact execExitUnblock_canonical h
  | registerWriteLand => exact execRegisterWriteLand_canonical h
  | forkSwapOut => exact execForkSwapOut_canonical h
  | forkResume => exact execForkResume_canonical h
  | storeDrain => exact execStoreDrain_canonical h
  | l2LineEvict => exact execL2LineEvict_canonical h
  | hostMemoryAccess => exact execHostMemoryAccess_canonical h
  | engineLineRelease => exact execEngineLineRelease_canonical h
  | commandComplete => exact execCommandComplete_canonical h
  | traverseRefusalRetry => exact execTraverseRefusalRetry_canonical h
  | loopStep => exact execLoopStep_canonical h
  | tableBuild => exact execTableBuild_canonical h
  | tlookStep => exact execTlookStep_canonical h
  | loopComplete => exact execLoopComplete_canonical h
  | kvgathPageStep => exact execKvgathPageStep_canonical h
  | evictionComplete => exact execEvictionComplete_canonical h
  | fetchComplete => exact execFetchComplete_canonical h
  | chartScrub => exact execChartScrub_canonical h
  | chcfgReload => exact execChcfgReload_canonical h
  | blockTableRecord => exact execBlockTableRecord_canonical h
  | kvsendAck => exact execKvsendAck_canonical h
  | launch => exact execLaunch_canonical h
  | admitReq => exact execAdmitReq_canonical h
  | cancel => exact execCancel_canonical h
  | model => exact execModel_canonical h
  | modeldel => exact execModeldel_canonical h
  | badcmd => exact execBadcmd_canonical h
  | rtail => exact execRtail_canonical h
  | ehead => exact execEhead_canonical h
  | semaphoreRead => exact execSemaphoreRead_canonical h
  | semaphoreWrite => exact execSemaphoreWrite_canonical h
  | hostLinkDown => exact execHostLinkDown_canonical h
  | partk => exact execPartk_canonical h
  | kChangeApply => exact execKChangeApply_canonical h
  | phalt => exact execPhalt_canonical h
  | partitionHalt => exact execPartitionHalt_canonical h
  | shadowSwap => exact execShadowSwap_canonical h
  | haltSlowPath => exact execHaltSlowPath_canonical h
  | partitionResume => exact execPartitionResume_canonical h
  | gridDispatch => exact execGridDispatch_canonical h
  | leaseStage => exact execLeaseStage_canonical h
  | saveAreaAllocate => exact execSaveAreaAllocate_canonical h
  | holdAcquire => exact execHoldAcquire_canonical h
  | clusterPlace => exact execClusterPlace_canonical h
  | teamStart => exact execTeamStart_canonical h
  | workSteal => exact execWorkSteal_canonical h
  | teamSwapOut => exact execTeamSwapOut_canonical h
  | gridCompletion => exact execGridCompletion_canonical h
  | watchdogTrap => exact execWatchdogTrap_canonical h
  | watchdogEnd => exact execWatchdogEnd_canonical h
  | batchForm => exact execBatchForm_canonical h
  | swappedReturn => exact execSwappedReturn_canonical h
  | blockHandOver => exact execBlockHandOver_canonical h
  | sramSoftError => exact execSramSoftError_canonical h
  | linkTraining => exact execLinkTraining_canonical h
  | mroute => exact execMroute_canonical h
  | mqcfg => exact execMqcfg_canonical h
  | sextantFrame => exact execSextantFrame_canonical h
  | sextantFrameSend => exact execSextantFrameSend_canonical h
  | orderedPacketArrival => exact execOrderedPacketArrival_canonical h
  | beacon => exact execBeacon_canonical h
  | beaconSend => exact execBeaconSend_canonical h
  | orderedEmit => exact execOrderedEmit_canonical h
  | stallDeclare => exact execStallDeclare_canonical h
  | stallNotice => exact execStallNotice_canonical h
  | messageDelivery => exact execMessageDelivery_canonical h
  | putGetServe => exact execPutGetServe_canonical h
  | reductionContribution => exact execReductionContribution_canonical h
  | reductionCombine => exact execReductionCombine_canonical h
  | reductionAbandon => exact execReductionAbandon_canonical h
  | reductionResult => exact execReductionResult_canonical h
  | abandonNotice => exact execAbandonNotice_canonical h
  | tlbinvc => exact execTlbinvc_canonical h
  | invalidationComplete => exact execInvalidationComplete_canonical h
  | memcfg => exact execMemcfg_canonical h
  | memcfgChangeComplete => exact execMemcfgChangeComplete_canonical h
  | nrseed => exact execNrseed_canonical h
  | keydata => exact execKeydata_canonical h
  | rowActivate => exact execRowActivate_canonical h
  | reset => exact execReset_canonical h
  | attctl => exact execAttctl_canonical h
  | attestationReportDone => exact execAttestationReportDone_canonical h
  | governorInterval power => exact execGovernorInterval_canonical (power := power) h
  | plimit => exact execPlimit_canonical h
  | pclkmax => exact execPclkmax_canonical h
  | pwrctl => exact execPwrctl_canonical h
  | partitionIdle => exact execPartitionIdle_canonical h
  | partitionOff => exact execPartitionOff_canonical h
  | thermalHot => exact execThermalHot_canonical h
  | thermtrip => exact execThermtrip_canonical h
  | registerWrite => exact execRegisterWrite_canonical h
  | illegalInstruction => exact execIllegalInstruction_canonical h
  | linkFailure => exact execLinkFailure_canonical h
  | retransmission => exact execRetransmission_canonical h


theorem runWord_canonical {w : DWord} {s : State} (h : s.mem.wf = true) : Canonical (runWord w s) := by
  unfold runWord
  split
  · exact exec_canonical h
  · exact execIllegalInstruction_canonical h

theorem endTurn_canonical {r : Result} (h : Canonical r) : Canonical (endTurn r) := by
  cases r with
  | next t => exact (canonical_next _).mpr (h t rfl)
  | fault f => exact canonical_fault f
  | refused r => exact canonical_refused r

theorem issueWord_canonical {gid slot : Nat} {g : Group} {sp : Split} {asid : Nat} {s : State} (h : s.mem.wf = true) :
    Canonical (issueWord gid slot g sp asid s) := by
  unfold issueWord
  split
  · simp [h]
  · exact (canonical_next _).mpr (fetchTrap_wf h)
  · exact endTurn_canonical (runWord_canonical (by simpa using h))

theorem issueTurn_canonical {gid slot : Nat} {s : State} (h : s.mem.wf = true) : Canonical (issueTurn gid slot s) := by
  have hs : ((s.mergeAll gid).modSplit gid slot Split.beforeIssue).mem.wf = true := by simpa using h
  unfold issueTurn
  split
  · exact (canonical_next _).mpr h
  · split
    · simp only
      split
      · exact (canonical_next _).mpr hs
      · split
        · exact (canonical_next _).mpr hs
        · exact issueWord_canonical hs
    · exact (canonical_next _).mpr h

theorem runTurn_canonical {t : Turn} {s : State} (h : s.mem.wf = true) : Canonical (runTurn t s) := by
  unfold runTurn
  split
  · exact issueTurn_canonical h
  · split
    · exact endTurn_canonical (exec_canonical h)
    · exact (canonical_next _).mpr h
  all_goals simpa using h

/-- The first turn that changes the state keeps memory canonical when every turn tried does. -/
theorem firstChange_canonical {s : State} {fs : List (State → Result)} (hf : ∀ f ∈ fs, Canonical (f s)) :
    ∀ r, firstChange s fs = some r → Canonical r := by
  induction fs with
  | nil => intro r hr; cases hr
  | cons f fs ih =>
    obtain ⟨hf, hfs⟩ := List.forall_mem_cons.mp hf
    intro r hr
    unfold firstChange at hr
    split at hr
    · split at hr
      · exact ih hfs r hr
      · cases hr
        rename_i t ht _
        exact ht ▸ hf
    · cases hr; exact hf

/-! What the machine does of itself: every turn that `autoTurn` tries keeps memory canonical. -/

theorem coreEvents_canonical {s : State} (h : s.mem.wf = true) : ∀ f ∈ coreEvents s, Canonical (f s) := by
  simp only [coreEvents, List.forall_mem_append, List.forall_mem_flatMap, List.forall_mem_cons, List.forall_mem_map]
  simp [h]

theorem engineEvents_canonical {s : State} (h : s.mem.wf = true) : ∀ f ∈ engineEvents s, Canonical (f s) := by
  simp only [engineEvents, List.forall_mem_append, List.forall_mem_flatMap, List.forall_mem_cons]
  refine ⟨⟨⟨fun e _ => ?_, ?_⟩, ?_⟩, fun e _ => ?_⟩
  · split <;> simp [h]
  · simp [h]
  · simp [h]
  · split <;> simp [h]

theorem helmEvents_canonical {s : State} (h : s.mem.wf = true) : ∀ f ∈ helmEvents s, Canonical (f s) := by
  simp only [helmEvents, List.forall_mem_append, List.forall_mem_flatMap, List.forall_mem_cons, List.forall_mem_map]
  simp [h]

theorem netEvents_canonical {s : State} (h : s.mem.wf = true) : ∀ f ∈ netEvents s, Canonical (f s) := by
  simp only [netEvents, List.forall_mem_append, List.forall_mem_flatMap, List.forall_mem_cons, List.forall_mem_map]
  simp [h]

theorem autoTurn_canonical {s : State} (h : s.mem.wf = true) : Canonical (autoTurn s) := by
  have ht : ∀ f ∈ dueEvents s ++ readyTurns s ++ timeouts s, Canonical (f s) := by
    simp only [dueEvents, readyTurns, timeouts, List.forall_mem_append, List.forall_mem_map, List.forall_mem_flatMap]
    exact ⟨⟨⟨⟨⟨coreEvents_canonical h, engineEvents_canonical h⟩, helmEvents_canonical h⟩, netEvents_canonical h⟩,
      fun _ _ _ _ => issueTurn_canonical h⟩, fun _ _ _ _ => execBwaittTimeout_canonical h⟩
  unfold autoTurn
  split
  · exact firstChange_canonical ht _ ‹_›
  · exact (canonical_next _).mpr h

/-- Settles O60: a step is a turn of the agenda or of the machine's own choice, and each keeps memory canonical. -/
theorem memoryStaysCanonical : Obligations.MemoryStaysCanonical := by
  intro s t h hs
  unfold step at hs
  split at hs
  · exact runTurn_canonical (by exact h) t hs
  · exact autoTurn_canonical h t hs

end Sys2Proof.Machine

namespace Sys2Proof.Machine

/-! ### STORE_DRAIN of a group whose registers are being returned (R122, R127, R188) -/

/-- The placed group with an entry of no bytes in its FIFO, its last release to its team's reserve still draining. -/
def drainingReturn : Group := { placedGroup 3 with fifo := [{ bytes := [], key := (0, 0) }], returning := 1 }

def drainingMachine : State := { State.reset.place 0 with groups := [(4, drainingReturn)] }

/-- The units that group 4 is still returning. -/
def unitsLeft (m : Map Group) : Nat := ((m.find? 4).map (fun g => g.returning)).getD 0

/-- Refutes O12: the drain that empties a FIFO also closes a release to the team's reserve (SHRINK), while the statement
excludes a release to the core alone (releasing = 0, nothing said of returning). -/
theorem not_storeDrains : ¬ Obligations.StoreDrains := by
  unfold Obligations.StoreDrains
  intro ⟨hdrain, _⟩
  have heff : ∀ u, exec (.storeDrain 4) drainingMachine = .next u → unitsLeft u.groups = 0 := by
    intro u hu
    have hrun : (match exec (.storeDrain 4) drainingMachine with
      | .next t => unitsLeft t.groups
      | _ => 1) = 0 := by decide +kernel
    rwa [hu] at hrun
  obtain ⟨u, hu, _, hgroups⟩ := hdrain 4 drainingReturn { bytes := [], key := (0, 0) } []
    { Team.empty with grid := 1, cluster := 2, saveArea := 0x60000, started := true } drainingMachine placedGrid
    (by decide +kernel) rfl (by decide +kernel) (by decide +kernel) rfl (fun p hp => absurd hp (by simp))
  have h := hgroups (by decide) rfl
  have hleft : unitsLeft u.groups = 1 := by rw [h]; decide +kernel
  exact absurd (hleft.symm.trans (heff u hu)) (by decide)

/-! ### Chart and Meridian commands of a group listed twice (R405, R501)

A diverted command notes nothing, and a trap taken for an effect keeps the notes of h registers (see `doubled`). Here the h
register holds all ones: no offset and no locator of the group's SPAD. -/

/-- The doubled group's team, its h0 all ones. -/
def highTeam : Team :=
  { Team.empty with grid := 1, cluster := 2, saveArea := 0x60000, started := true, h := [(0, 0xFFFFFFFF)] }

def doubledHigh : State := { doubled with teams := [(3, highTeam)] }

def doubledHighCtx : Ctx := { doubledCtx with team := highTeam }

theorem doubledHigh_ctx {i : Instr} (h : i.guard = Guard.always) : doubledHigh.ctx? i = some doubledHighCtx := by
  unfold State.ctx?
  rw [h]
  decide +kernel

theorem doubledHigh_turn : doubledHigh.smallest 2 (doubledHighCtx.effectKey doubledHigh) = true := by decide +kernel

theorem doubledHigh_clear {i : Instr} (sync : Bool) (h : i.guard = Guard.always)
    (hb : doubledHigh.scoreboardBusy i doubledHighCtx.grp = false) (hp : privilegedUse i doubledHighCtx = false)
    (hr : i.rangeBad doubledHighCtx.grp.vallot = false) : Clear sync i doubledHighCtx doubledHigh := by
  refine ⟨doubledHigh_ctx h, hb, hp, hr, by decide, by decide, fun _ => ⟨fun _ => doubledHigh_turn, fun _ => ?_⟩⟩
  simp [firstRace, Cluster.race, doubledHighCtx, doubledCtx]

/-- PFXH of the token ids at the offset that an h register gives. -/
def pfxhh : Instr := .pfxh 0 (.h 0) 0 .zero 63 Guard.always

/-- Refutes O37: a PFXH of ids outside SPAD keeps the note of the h register it read where its group is listed twice. -/
theorem not_chartPrefixOperations : ¬ Obligations.ChartPrefixOperations := by
  unfold Obligations.ChartPrefixOperations
  intro ⟨_, htrap, _⟩
  have hc : Clear true pfxhh doubledHighCtx doubledHigh :=
    doubledHigh_clear true rfl (by decide) (by decide) (by decide)
  have h := htrap 0 (.h 0) 0 .zero 63 Guard.always doubledHighCtx doubledHigh hc (by decide +kernel)
  exact absurd (congrArg notesLeft h) (by decide +kernel)

/-- NRED of the operand block that an h register locates. -/
def nredh : Instr := .nred .maxF32 (.h 0) 63 Guard.always

/-- The trap of a locator of all ones. -/
def locatorTrap : Trap := { cause := 0x03, lanes := 0xFFFFFFFF }

/-- Refutes O44: an NRED whose locator traps keeps the note of the h register it read where its group is listed twice. -/
theorem not_meridianCommands : ¬ Obligations.MeridianCommands := by
  unfold Obligations.MeridianCommands
  intro ⟨_, _, _, _, _, htrap, _⟩
  have hc : Clear true nredh doubledHighCtx doubledHigh :=
    doubledHigh_clear true rfl (by decide) (by decide) (by decide)
  have h := htrap _ (.h 0) 63 Guard.always locatorTrap doubledHighCtx doubledHigh hc
    ⟨by decide +kernel, rfl, by decide +kernel⟩
  exact absurd (congrArg notesLeft h) (by decide +kernel)

end Sys2Proof.Machine

namespace Sys2Proof.Machine

/-! ### Accesses that store nothing (R217, R517) -/

/-- A core as another core's, or its own, writes of some units leave it: what it has yet to see of them. -/
def Core.afterWrites (core : Nat) (us : List Place) (k : Nat) (c : Core) : Core :=
  { c with views :=
      if k = core then c.views.filter (fun v => !us.contains v.unit)
      else c.views.map (fun v => if us.contains v.unit then { v with writers := core :: v.writers } else v) }

/-- What a core has yet to see of others' writes is no part of memory. -/
theorem sameBytes_performed (s : State) (core : Nat) (ps : List Place) : SameBytes s (s.performed core ps) := by
  unfold State.performed
  split
  · exact SameBytes.refl s
  · exact ⟨rfl, rfl, fun _ => rfl,
      fun k => find?_getD_map s.cores (Core.afterWrites core (ps.map unitOf).dedup) k Core.reset (fun c => c.spad)
        (fun _ _ => rfl),
      fun k => find?_getD_map s.cores (Core.afterWrites core (ps.map unitOf).dedup) k Core.reset (fun c => c.wbuf)
        (fun _ _ => rfl)⟩

@[simp] theorem State.performed_clusters (s : State) (core : Nat) (ps : List Place) :
    (s.performed core ps).clusters = s.clusters := by
  unfold State.performed; split <;> rfl

@[simp] theorem Ctx.tag_performed (c : Ctx) (s : State) (core : Nat) (ps : List Place) :
    c.tag (s.performed core ps) = c.tag s := by
  unfold State.performed; split <;> rfl

/-- Outside Reckoning mode, with no A bit to set, an access only performs and touches its lines. -/
theorem accessed_touches {c : Ctx} {s : State} (hm : ∀ v, s.markRead c.grid v = s) (hr : c.reckon = false) (act : Word)
    (addr : Nat → DWord) (size : Nat) (need : Need) (k : AccessKind) :
    ∃ u : State, SameBytes s u ∧ u.clusters = s.clusters ∧ c.tag u = c.tag s ∧
      accessed c s act addr size need k =
        u.touchPlaces (some c.grp.core) (c.tag u) ((lanesIn act).flatMap (lanePlaces c s addr size need)) := by
  unfold accessed
  simp only [hr, Bool.false_eq_true, if_false]
  rw [foldl_fixed _ s]
  · cases need with
    | atomic => exact ⟨_, sameBytes_performed .., State.performed_clusters .., Ctx.tag_performed .., rfl⟩
    | read => exact ⟨s, SameBytes.refl s, rfl, rfl, rfl⟩
    | write => exact ⟨s, SameBytes.refl s, rfl, rfl, rfl⟩
    | fetch => exact ⟨s, SameBytes.refl s, rfl, rfl, rfl⟩
  · intro l _
    split
    · exact hm _
    · rfl

/-- An access of lines that bear its key leaves every byte and every cluster. -/
theorem accessed_keeps {c : Ctx} {s : State} {act : Word} {addr : Nat → DWord} {size : Nat} {need : Need}
    (hm : ∀ v, s.markRead c.grid v = s) (hk : KeyHeld s (c.tag s) ((lanesIn act).flatMap (lanePlaces c s addr size need)))
    (hr : c.reckon = false) (k : AccessKind) :
    SameBytes s (accessed c s act addr size need k) ∧ (accessed c s act addr size need k).clusters = s.clusters := by
  obtain ⟨u, hb, hcl, ht, hu⟩ := accessed_touches hm hr act addr size need k
  rw [hu]
  refine ⟨hb.trans (touchPlaces_held u _ _ _ ?_), (touchPlaces_clusters ..).trans hcl⟩
  unfold KeyHeld
  rw [ht, hb.lineKey]
  exact hk

/-- Settles O10: the agents stay in every access, the bytes and clusters in one whose lines bear its key. -/
theorem readsKeepMemory : Obligations.ReadsKeepMemory := by
  unfold Obligations.ReadsKeepMemory
  intro c s act addr size need k hm hk hr
  obtain ⟨hb, hcl⟩ := accessed_keeps hm hk hr k
  have ha := sameAgents_accessed c s act addr size need k
  exact ⟨hb.byteAt, ha.groups, ha.teams, ha.grids, hcl, ha.cmds, ha.charts, ha.pages, ha.helm, ha.mer, ha.pkg, hb.lineKey⟩

end Sys2Proof.Machine

namespace Sys2Proof.Machine

/-! ### One lane's ATOM and RED (R193, R220, R221) -/

/-- Bytes put at places that exist, each named once, read back there. -/
theorem map_byteAt_putBytes_zip {s : State} {ps : List Place} {bs : List Byte} (hl : ps.length = bs.length) (hn : ps.Nodup)
    (ho : ∀ p ∈ ps, placeOk s p = true) : ps.map (s.putBytes (ps.zip bs)).byteAt = bs := by
  have hfst : (ps.zip bs).map Prod.fst = ps := List.map_fst_zip (by omega)
  refine List.ext_getElem (by simpa using hl) fun k hk hk' => ?_
  have hkp : k < ps.length := by simpa using hk
  rw [List.getElem_map]
  refine byteAt_putBytes_mem s (by rwa [hfst]) ?_ (ho _ (List.getElem_mem hkp))
  exact List.mem_iff_getElem.2 ⟨k, by simp; omega, by simp⟩

/-- A word put at four places that exist reads back there. -/
theorem wordAt_putBytes {s : State} {ps : List Place} (w : Word) (hl : ps.length = 4) (hn : ps.Nodup)
    (ho : ∀ p ∈ ps, placeOk s p = true) : (s.putBytes (ps.zip (leBytes 4 w.toNat))).wordAt ps = w := by
  rw [State.wordAt, map_byteAt_putBytes_zip (by simpa using hl) hn ho, leNat_leBytes,
    Nat.mod_eq_of_lt (show w.toNat < 256 ^ 4 from w.isLt), BitVec.ofNat_toNat, BitVec.setWidth_eq]

theorem byteAt_putBytes_zip_other {s : State} {ps : List Place} {p : Place} (bs : List Byte) (hp : p ∉ ps) :
    (s.putBytes (ps.zip bs)).byteAt p = s.byteAt p :=
  byteAt_putBytes_other s fun h => hp (by
    obtain ⟨e, he, rfl⟩ := List.mem_map.1 h
    exact (List.of_mem_zip he).1)

/-- Where Compass sends an atomic is no part of memory. -/
theorem sameBytes_compass (s : State) (core : Nat) (p : Place) : SameBytes s (s.compass core p) := by
  have hmod : ∀ f : Core → Core, (∀ k, (f k).spad = k.spad ∧ (f k).wbuf = k.wbuf) → SameBytes s (s.modCore core f) := by
    intro f hf
    refine ⟨rfl, rfl, fun _ => rfl, fun k => ?_, fun k => ?_⟩ <;> rw [core_modCore] <;> split
    · next h => rw [h, (hf _).1]
    · rfl
    · next h => rw [h, (hf _).2]
    · rfl
  obtain ⟨sp, a⟩ := p
  cases sp with
  | global =>
    unfold State.compass
    dsimp only
    split
    · exact SameBytes.refl s
    · split <;> exact hmod _ fun _ => ⟨rfl, rfl⟩
  | spad c => exact SameBytes.refl s
  | wbuf c => exact SameBytes.refl s

theorem sameBytes_endShadows (s : State) (op : RedOp) (reckon : Bool) (pa n : Nat) :
    SameBytes s (s.endShadows op reckon pa n) := by
  unfold State.endShadows
  split
  · exact SameBytes.refl s
  · exact ⟨rfl, rfl, fun _ => rfl, fun _ => rfl, fun _ => rfl⟩

theorem SameBytes.wordAt {s t : State} (h : SameBytes s t) (ps : List Place) : t.wordAt ps = s.wordAt ps :=
  congrArg (fun bs => BitVec.ofNat 32 (leNat bs)) (List.map_congr_left fun p _ => h.byteAt p)

theorem SameBytes.placeOk {s t : State} (h : SameBytes s t) (p : Place) : placeOk t p = placeOk s p := by
  obtain ⟨sp, a⟩ := p
  cases sp
  · exact h.exist a
  · rfl
  · rfl

/-- Four consecutive places of a space. -/
theorem nodup_fourPlaces (sp : Space) (o : Nat) : ([(sp, o), (sp, o + 1), (sp, o + 2), (sp, o + 3)] : List Place).Nodup := by
  simp

/-- The value that a lane's ATOM leaves, in the conditions of R220. -/
theorem atomNew_getD (op : AtomOp) (old a b : Word) : (atomNew op old a b).getD old = (match op with
    | .add => old + a
    | .min => if a.toInt < old.toInt then a else old
    | .max => if old.toInt < a.toInt then a else old
    | .minu => if a.toNat < old.toNat then a else old
    | .maxu => if old.toNat < a.toNat then a else old
    | .and => old &&& a
    | .or => old ||| a
    | .xor => old ^^^ a
    | .exch => a
    | .cas => if old = a then b else old) := by
  cases op with
  | min => simp [atomNew, BitVec.slt]
  | max => simp [atomNew, BitVec.slt]
  | minu => simp [atomNew, BitVec.ult]
  | maxu => simp [atomNew, BitVec.ult]
  | cas => simp only [atomNew]; split <;> rfl
  | add => rfl
  | and => rfl
  | or => rfl
  | xor => rfl
  | exch => rfl

/-- A lane's ATOM on four places that exist. -/
theorem atomLane_effect (op : AtomOp) (core : Nat) (a b : Word) {ps : List Place} {s : State} (hl : ps.length = 4)
    (hn : ps.Nodup) (ho : ∀ p ∈ ps, placeOk s p = true) :
    (atomLane op core a b ps s).2 = s.wordAt ps ∧
    (atomLane op core a b ps s).1.wordAt ps = (atomNew op (s.wordAt ps) a b).getD (s.wordAt ps) ∧
    ∀ p, p ∉ ps → (atomLane op core a b ps s).1.byteAt p = s.byteAt p := by
  have hb := sameBytes_compass s core (ps.headD (.global, 0))
  simp only [atomLane, hb.wordAt]
  cases atomNew op (s.wordAt ps) a b with
  | none => exact ⟨rfl, hb.wordAt ps, fun p _ => hb.byteAt p⟩
  | some w =>
    exact ⟨rfl, wordAt_putBytes w hl hn fun p hp => (hb.placeOk p).trans (ho p hp),
      fun p hp => (byteAt_putBytes_zip_other _ hp).trans (hb.byteAt p)⟩

/-- A lane's RED of 32 bits on four places that exist. -/
theorem redLane_effect {op : RedOp} (reckon : Bool) (core : Nat) (a : Word) {ps : List Place} {s : State}
    (hop : redShadowed op = false) (hl : ps.length = 4) (hn : ps.Nodup) (ho : ∀ p ∈ ps, placeOk s p = true) :
    (redLane op reckon core a ps s).wordAt ps = redWord op (s.wordAt ps) a ∧
    ∀ p, p ∉ ps → (redLane op reckon core a ps s).byteAt p = s.byteAt p := by
  have hb : ∀ p : Place, SameBytes s (if p.1 = .global then (s.compass core p).endShadows op reckon p.2 4
      else s.compass core p) := by
    intro p
    split
    · exact (sameBytes_compass ..).trans (sameBytes_endShadows ..)
    · exact sameBytes_compass ..
  have hb := hb (ps.headD (.global, 0))
  simp only [redLane, hop, Bool.false_eq_true, if_false, hb.wordAt]
  exact ⟨wordAt_putBytes _ hl hn fun p hp => (hb.placeOk p).trans (ho p hp),
    fun p hp => (byteAt_putBytes_zip_other _ hp).trans (hb.byteAt p)⟩

/-! ### Shadows (R192 to R194) -/

/-- A RED of a kind leaves the first shadow of its kind at its element. -/
theorem find?_endShadows {s : State} {pa : Nat} {sh : Shadow} (h : s.shadows.find? pa = some sh) (n : Nat) :
    (s.endShadows sh.op sh.reckon pa n).shadows.find? pa = some sh := by
  unfold State.endShadows
  split
  · exact h
  · let keep : Nat → Shadow → Shadow := fun k x =>
      if k < pa + n && pa < k + redSize x.op && !(x.op == sh.op && x.reckon == sh.reckon) then x.renew s.mem k else x
    have hmap : s.shadows.map (fun e =>
        if e.1 < pa + n && pa < e.1 + redSize e.2.op && !(e.2.op == sh.op && e.2.reckon == sh.reckon)
        then (e.1, e.2.renew s.mem e.1) else e) = s.shadows.map (fun e => (e.1, keep e.1 e.2)) := by
      refine List.map_congr_left fun e _ => ?_
      simp only [keep]
      split <;> rfl
    show Map.find? (s.shadows.map _) pa = some sh
    rw [hmap, Map.find?_map, h]
    simp [keep]

theorem physNat_putShadow {s : State} {pa : Nat} (h : paOk s.ms pa = true) (sh : Shadow) :
    (s.putShadow pa sh).physNat pa (redSize sh.op) = sh.round % 256 ^ redSize sh.op := by
  have hms : (s.putShadow pa sh).ms = s.ms := by simp [State.putShadow, State.physStore, h]
  have hmem : (s.putShadow pa sh).mem = s.mem.storeBytes pa (leBytes (redSize sh.op) sh.round) := by
    simp [State.putShadow, State.physStore, h]
  have hread := Mem.nat_storeBytes s.mem pa 0 (redSize sh.op) (bs := leBytes (redSize sh.op) sh.round) (by simp)
  rw [List.drop_zero, List.take_of_length_le (by simp), leNat_leBytes] at hread
  rw [State.physNat, State.physBytes, hms, if_pos h, hmem]
  exact hread

theorem find?_putShadow {s : State} {pa : Nat} (h : paOk s.ms pa = true) (sh : Shadow) :
    (s.putShadow pa sh).shadows.find? pa = some sh := by
  simp only [State.putShadow, h, if_true]
  exact Map.find?_set_self _ _ _

@[simp] theorem Shadow.add_op (sh : Shadow) (v : FVal) : (sh.add v).op = sh.op := by
  unfold Shadow.add
  split
  · cases v with
    | inf neg => cases neg <;> rfl
    | nan => rfl
    | fin neg m e => rfl
  · rfl

@[simp] theorem State.logByte_shadows (s : State) (p : Place) : (s.logByte p).shadows = s.shadows := by
  unfold State.logByte; split <;> rfl

@[simp] theorem State.markWritten_shadows (s : State) (pa : Nat) : (s.markWritten pa).shadows = s.shadows := by
  unfold State.markWritten; split <;> rfl

/-- Logging an element's bytes leaves the memory system and the shadows. -/
theorem logBytes_frame (s : State) (pa n : Nat) :
    let u := ((List.range n).foldl (fun s k => s.logByte (.global, pa + k)) s).markWritten pa
    u.ms = s.ms ∧ u.shadows = s.shadows := by
  have hfold : ∀ (ks : List Nat) (s : State), (ks.foldl (fun s k => s.logByte (.global, pa + k)) s).ms = s.ms ∧
      (ks.foldl (fun s k => s.logByte (.global, pa + k)) s).shadows = s.shadows := by
    intro ks
    induction ks with
    | nil => exact fun s => ⟨rfl, rfl⟩
    | cons k ks ih =>
      intro s
      have hf := logByte_frame s (.global, pa + k)
      simp only [Prod.mk.injEq] at hf
      exact ⟨(ih _).1.trans hf.2.1, (ih _).2.trans (State.logByte_shadows ..)⟩
  have hw := markWritten_frame ((List.range n).foldl (fun s k => s.logByte (.global, pa + k)) s) pa
  simp only [Prod.mk.injEq] at hw
  exact ⟨hw.2.1.trans (hfold _ s).1, (State.markWritten_shadows ..).trans (hfold _ s).2⟩

/-- A RED into an element that has a shadow of its kind adds to the shadow and writes it back rounded. -/
theorem redShadowLane_of_find? {pa : Nat} {s : State} {sh : Shadow} (h : s.shadows.find? pa = some sh) (a : Word) :
    ∃ u : State, u.ms = s.ms ∧ redShadowLane sh.op sh.reckon pa a s =
      u.putShadow pa (sh.add (elemVal sh.op (a.toNat % 2 ^ (8 * redSize sh.op)))) := by
  obtain ⟨hms, hsh⟩ := logBytes_frame s pa (redSize sh.op)
  refine ⟨_, hms, ?_⟩
  simp only [redShadowLane, hsh, shadowOf, h, and_self, if_true]

/-- Settles O14: the word's four bytes are put and read back; a shadow of the RED's kind survives to be added to. -/
theorem atomicLanes : Obligations.AtomicLanes := by
  unfold Obligations.AtomicLanes
  refine ⟨fun op core a b sp o s => ?_, fun op reckon core a sp o s hop => ?_,
    fun op reckon core a pa ps s sh hop hpa hsh hkind hmode => ?_⟩
  · dsimp only
    intro ho
    obtain ⟨hold, hnew, hother⟩ := atomLane_effect op core a b rfl (nodup_fourPlaces sp o) ho
    exact ⟨hold, hnew.trans (atomNew_getD ..), hother⟩
  · dsimp only
    intro ho
    obtain ⟨hnew, hother⟩ := redLane_effect reckon core a hop rfl (nodup_fourPlaces sp o) ho
    exact ⟨hnew.trans (by cases op <;> rfl), hother⟩
  · subst hkind hmode
    have hpa' := (sameBytes_endShadows s sh.op sh.reckon pa (redSize sh.op)).exist pa
    obtain ⟨u, hms, hu⟩ := redShadowLane_of_find? (find?_endShadows hsh (redSize sh.op)) a
    have hok : paOk u.ms pa = true := by rw [hms, hpa', hpa]
    simp only [redLane, hop, if_true, hu]
    refine ⟨find?_putShadow hok _, ?_⟩
    have := physNat_putShadow hok (sh.add (elemVal sh.op (a.toNat % 2 ^ (8 * redSize sh.op))))
    rwa [Shadow.add_op] at this

end Sys2Proof.Machine

namespace Sys2Proof.Machine

/-! ### The select unit and the generator (R274 to R282) -/

/-- A select locator that passes its checks. -/
theorem selLocate_ok {c : Ctx} {s : State} {loc : Reg} {t : Team} (h : locateTeam c s (c.rd loc 0) 128 true = .ok t)
    (k : State) : selLocate c s (c.uni loc) k = k := by
  unfold selLocate
  rw [show c.uni loc = c.rd loc 0 from rfl, h]

/-- SELK.LD of a legal area, with room in the FIFO, enters it. -/
theorem execSelkLd_completes {a loc slot : Reg} {g : Guard} {c : Ctx} {s : State} {p : Team}
    (hc : Clear false (.selkLd a loc slot g) c s)
    (hloc : locateTeam c (s.noted c (.selkLd a loc slot g)) (c.rd loc 0) 128 true = .ok p) (hroom : c.grp.fifo.length < 16)
    {addr : Nat → DWord} (haddr : addr = fun (l : Nat) => selAddr (c.rd loc 0)
      (128 * (32 * bits (c.rd slot 0).toNat 0 6 + l) + 4 * bits (c.rd slot 0).toNat 8 5))
    (hok : AccessOk c (s.noted c (.selkLd a loc slot g)) c.act addr 4 .write .write true false false) :
    let u := accessed c (s.noted c (.selkLd a loc slot g)) c.act addr 4 .write .write
    exec (.selkLd a loc slot g) s = .next (retire c (pushStore c.gid ((lanesIn c.act).flatMap (fun l =>
      (lanePlaces c u addr 4 .write l).zip (leBytes 4 (c.rd a l).toNat))) u)) := by
  intro u
  subst haddr
  show issueAs false _ s _ = _
  refine issueAs_retires hc ?_ ((stands_noted hc.1).accessed ..|>.modGroup _ _ (fun _ => rfl))
  rw [selLocate_ok hloc]
  simp only [fifoRoom, hroom, decide_true, if_true]
  exact access_ok _ hok

/-- The sectors of a select area. -/
def SelGeom.sectors (q : SelGeom) (core base : Nat) : List Place :=
  (List.range ((4 * q.rows + 128 * (q.rows + q.k) + 31) / 32)).map (fun k => (.spad core, base + 32 * k))

/-- The places and bytes that SELK.RUN writes, of the keys in a SPAD. -/
def SelGeom.cells (q : SelGeom) (core base : Nat) (sp : Mem) : List (Place × Byte) :=
  (selectWords q (fun r k => fval (BitVec.ofNat 32 (sp.nat (base + 128 * r + 4 * k) 4)))).flatMap (fun e =>
    (List.range 4).zip (leBytes 4 e.2) |>.map (fun jb => ((.spad core, base + e.1 + jb.1), jb.2)))

theorem raceOnce_nil (c : Ctx) (s : State) (addr : Place → DWord) : raceOnce c s [] addr = none := by
  simp [raceOnce, arenaTrap]

/-- SELK.RUN of a legal area outside Reckoning mode, the FIFO drained and no sector of the area owned, writes its cells. -/
theorem execSelkRun_completes {loc geom : Reg} {g : Guard} {c : Ctx} {s : State} {core base : Nat}
    (hc : Clear false (.selkRun loc geom g) c s) {q : SelGeom} (hq : selGeom (c.rd geom 0) = q)
    (hloc : locate c (s.noted c (.selkRun loc geom g)) (c.rd loc 0) (128 * (q.rows + q.k) + 4 * q.rows) 128 true =
      .ok (core, base))
    (hr : c.reckon = false) (hf : c.grp.fifo = [])
    (ho : ∀ k, (s.noted c (.selkRun loc geom g)).owned (.spad core, base + 32 * k) = false) :
    let s' := s.noted c (.selkRun loc geom g)
    exec (.selkRun loc geom g) s = .next (retire c ((s'.performed c.grp.core (q.sectors core base)).putBytes
      (q.cells core base (s'.core core).spad))) := by
  intro s'
  have hown : (q.sectors core base).any s'.owned = false := by
    simp only [SelGeom.sectors, List.any_eq_false, List.mem_map, Bool.not_eq_true]
    rintro p ⟨k, -, rfl⟩
    exact ho k
  show issueAs false _ s _ = _
  refine issueAs_retires hc ?_
    ((stands_noted hc.1).of_groups ((State.putBytes_groups ..).trans (sameAgents_performed ..).groups))
  unfold SelGeom.sectors at hown
  simp only [show c.uni geom = c.rd geom 0 from rfl, show c.uni loc = c.rd loc 0 from rfl, hq, hloc, hr, hf, Ctx.marks,
    raceOnce_nil, Bool.false_eq_true, if_false, List.isEmpty_nil, not_true, false_or]
  exact if_neg (by rw [hown]; decide)

/-- An access that loads one register, its write pending, and completes. -/
theorem loadRegister_done {i : Instr} {d : Reg} {c : Ctx} {s u : State} {k : Ctx → State → State} (val : Nat → Word)
    (hc : Clear false i c s) (hu : SameAgents (s.noted c i) u)
    (hk : k c (s.noted c i) = retire c (addPend c.gid (regCodes (d, 1)) (writeReg c d val u))) :
    ∃ t, issue i s k = .next t ∧
      Done c 1 (c.sp.pc + 8) (wrote c.act d val) keepMasks (pendAlso (regCodes (d, 1))) u t := by
  obtain ⟨hg, hsp, ht, -, -⟩ := ctx_group hc.1
  have hg' : (s.noted c i).groups.find? c.gid = some c.grp := by simpa using hg
  have ht' : (s.noted c i).teams.find? c.grp.team = some c.team := by simpa using ht
  have hd := done_of_touched 1 (c.sp.pc + 8) (by rw [hu.groups]; exact hg') (by rw [hu.teams]; exact ht') hsp rfl
    (touched_pend (regCodes (d, 1)) (touched_writeReg d val (touched_agents hu hg' ht')))
  exact ⟨_, issue_clear k hc (by rw [hk]; exact hd.moved (by decide)), by rw [hk]; exact hd⟩

/-- RNGX writes its words to consecutive registers, low register first. -/
theorem execRngx_completes (cnt : RngCount) (frac : Bool) (d a : Reg) (key : Fin 24) (cc : Reg) (stream : BitVec 8) (g : Guard)
    {c : Ctx} {s : State} (hc : Clear false (.rngx cnt frac d a key cc stream g) c s) :
    ∃ t, exec (.rngx cnt frac d a key cc stream g) s = .next t ∧
      Done c 1 (c.sp.pc + 8) (wroteMany c.act d cnt.num (fun i l =>
          let w := (philox (c.rd a l) (c.rd cc l) (stream.zeroExtend 32)
            (c.rd (.s (pairLo key)) 0, c.rd (.s (pairHi key)) 0)).getD i 0
          if frac then frac24 w else w))
        keepMasks keepRest (s.noted c (.rngx cnt frac d a key cc stream g)) t := by
  obtain ⟨hg, hsp, ht, -, -⟩ := ctx_group hc.1
  exact issue_done hc (by decide) (done_of_touched 1 _ (by simpa using hg) (by simpa using ht) hsp rfl
    (touched_writeMany d cnt.num _ (touched_refl (by simpa using hg) (by simpa using ht))))

/-- Settles O16: each form's access is in order, so its effect is its continuation. -/
theorem selectUnitCompletes : Obligations.SelectUnitCompletes := by
  unfold Obligations.SelectUnitCompletes
  refine ⟨fun a loc slot g c s p hc => ?_, fun loc geom g c s core base hc => ?_,
    fun mask d loc geom slot g c s p hc => ?_,
    fun cnt frac d a key cc stream g c s hc => execRngx_completes cnt frac d a key cc stream g hc⟩
  · dsimp only
    intro hloc hroom hok
    exact execSelkLd_completes hc hloc hroom rfl hok
  · dsimp only
    intro hloc hr hf ho
    exact execSelkRun_completes hc rfl hloc hr hf ho
  · dsimp only
    intro hloc hok
    exact loadRegister_done _ hc (sameAgents_accessed ..) ((selLocate_ok hloc _).trans (access_ok _ hok))

end Sys2Proof.Machine

namespace Sys2Proof.Machine

/-! ### Integer arithmetic of a lane (R232 to R238) -/

/-- sat_s32, read signed, clamps to the signed range (R232). -/
theorem toInt_satS32 (x : Int) : (satS32 x).toInt = max (-2 ^ 31) (min (2 ^ 31 - 1) x) := by
  unfold satS32
  split
  · rw [show (0x80000000 : Word).toInt = -2 ^ 31 by decide]; omega
  · split
    · rw [show (0x7FFFFFFF : Word).toInt = 2 ^ 31 - 1 by decide]; omega
    · rw [BitVec.toInt_ofInt_eq_self (by decide) (by omega) (by omega)]; omega

/-- sat_u32, read unsigned, clamps to the unsigned range (R232). -/
theorem toNat_satU32 (x : Int) : (satU32 x).toNat = min (2 ^ 32 - 1) x.toNat := by
  unfold satU32
  split
  · rw [show (0 : Word).toNat = 0 by decide]; omega
  · split
    · rw [show (0xFFFFFFFF : Word).toNat = 2 ^ 32 - 1 by decide]; omega
    · rw [BitVec.toNat_ofInt]; omega

theorem iadd32_wrap (a b : Word) : iadd32 .wrap a b = a + b := by
  rw [iadd32, narrow, BitVec.ofInt_add, BitVec.ofInt_toInt, BitVec.ofInt_toInt]

theorem isub32_wrap (a b : Word) : isub32 .wrap a b = a - b := by
  rw [isub32, narrow, Int.sub_eq_add_neg, BitVec.ofInt_add, BitVec.ofInt_neg, BitVec.ofInt_toInt, BitVec.ofInt_toInt,
    BitVec.sub_eq_add_neg]

theorem imul32_wrap (a b : Word) : imul32 .wrap a b = a * b := by
  rw [imul32, narrow, BitVec.ofInt_mul, BitVec.ofInt_toInt, BitVec.ofInt_toInt]

theorem toNat_iadd32_usat (a b : Word) : (iadd32 .usat a b).toNat = min (2 ^ 32 - 1) (a.toNat + b.toNat) :=
  toNat_satU32 (a.toNat + b.toNat : Nat)

/-- The difference cannot pass the top of the range, so it is clamped at 0 alone. -/
theorem toNat_isub32_usat (a b : Word) : (isub32 .usat a b).toNat = a.toNat - b.toNat := by
  have h : (isub32 .usat a b).toNat = _ := toNat_satU32 (a.toNat - b.toNat)
  omega

theorem toNat_imul32_usat (a b : Word) : (imul32 .usat a b).toNat = min (2 ^ 32 - 1) (a.toNat * b.toNat) :=
  toNat_satU32 (a.toNat * b.toNat : Nat)

theorem toNat_shl32 (a b : Word) : (shl32 a b).toNat = a.toNat * 2 ^ (b.toNat % 32) % 2 ^ 32 := by
  rw [shl32, BitVec.toNat_shiftLeft, Nat.shiftLeft_eq]

theorem toNat_shr32 (a b : Word) : (shr32 a b).toNat = a.toNat / 2 ^ (b.toNat % 32) := by
  rw [shr32, BitVec.toNat_ushiftRight, Nat.shiftRight_eq_div_pow]

theorem toInt_sar32 (a b : Word) : (sar32 a b).toInt = a.toInt / 2 ^ (b.toNat % 32) := by
  rw [sar32, BitVec.toInt_sshiftRight, Int.shiftRight_eq_div_pow, Nat.cast_pow, Nat.cast_ofNat]

theorem toInt_imin32 (a b : Word) : (imin32 false a b).toInt = min a.toInt b.toInt := by
  rw [imin32, min_comm, min_def_lt, apply_ite BitVec.toInt]
  simp [BitVec.slt_iff_toInt_lt]

theorem toNat_imin32 (a b : Word) : (imin32 true a b).toNat = min a.toNat b.toNat := by
  rw [imin32, min_comm, min_def_lt, apply_ite BitVec.toNat]
  simp [BitVec.ult_iff_lt, BitVec.lt_def]

theorem toInt_imax32 (a b : Word) : (imax32 false a b).toInt = max a.toInt b.toInt := by
  rw [imax32, max_def_lt, apply_ite BitVec.toInt]
  simp [BitVec.slt_iff_toInt_lt]

theorem toNat_imax32 (a b : Word) : (imax32 true a b).toNat = max a.toNat b.toNat := by
  rw [imax32, max_def_lt, apply_ite BitVec.toNat]
  simp [BitVec.ult_iff_lt, BitVec.lt_def]

/-- The upper half of a signed product: the product's size is 2^62 at most, so its quotient fits. -/
theorem toInt_imulh32 (a b : Word) : (imulh32 a b).toInt = a.toInt * b.toInt / 2 ^ 32 := by
  have hlo : -2 ^ 62 ≤ a.toInt * b.toInt := BitVec.le_toInt_mul_toInt
  have hhi : a.toInt * b.toInt ≤ 2 ^ 62 := BitVec.toInt_mul_toInt_le
  exact BitVec.toInt_ofInt_eq_self (by decide) (by omega) (by omega)

/-- The upper half of an unsigned product: the product is below 2^64, so its quotient fits. -/
theorem toNat_imulhu32 (a b : Word) : (imulhu32 a b).toNat = a.toNat * b.toNat / 2 ^ 32 := by
  have hlt : a.toNat * b.toNat < 2 ^ 32 * 2 ^ 32 := Nat.mul_lt_mul'' a.isLt b.isLt
  exact (BitVec.toNat_ofNat ..).trans (Nat.mod_eq_of_lt (Nat.div_lt_of_lt_mul hlt))

/-- No size is below the range, so it is clamped at the top alone. -/
theorem toInt_iabs32_sat (a : Word) : (iabs32 true a).toInt = min (2 ^ 31 - 1) (max a.toInt (-a.toInt)) := by
  have h : (iabs32 true a).toInt = _ := toInt_satS32 a.toInt.natAbs
  omega

/-- Only the negation of the least value leaves the range, at its top. -/
theorem toInt_ineg32_sat (a : Word) : (ineg32 true a).toInt = min (2 ^ 31 - 1) (-a.toInt) := by
  have h : (ineg32 true a).toInt = _ := toInt_satS32 (-a.toInt)
  have hlt : a.toInt < 2 ^ 31 := BitVec.toInt_lt
  omega

/-- Settles O3: saturation is a clamp, wrapping is the word's own arithmetic, and each other form is read off its lemma
above or, for the conditions, its definition. -/
theorem integerValues : Obligations.IntegerValues := by
  unfold Obligations.IntegerValues
  intro a b c
  refine ⟨?_, toInt_satS32 _, toNat_iadd32_usat a b, ?_, toInt_satS32 _, toNat_isub32_usat a b,
    ?_, toInt_satS32 _, toNat_imul32_usat a b, toNat_shl32 a b, toNat_shr32 a b, toInt_sar32 a b,
    toInt_imin32 a b, toNat_imin32 a b, toInt_imax32 a b, toNat_imax32 a b, toInt_imulh32 a b, toNat_imulhu32 a b,
    toInt_satS32 _, toInt_iabs32_sat a, toInt_ineg32_sat a, beq_eq_decide a b, ?_,
    rfl, rfl, rfl, rfl, rfl, rfl, rfl, rfl⟩
  · rw [iadd32_wrap, BitVec.toNat_add]
  · rw [isub32_wrap, BitVec.toNat_sub']
  · rw [imul32_wrap, BitVec.toNat_mul]
  · rw [icond, bne, beq_eq_decide, decide_not]

end Sys2Proof.Machine

namespace Sys2Proof.Machine

/-! ### Classes of FP32 words (R248, R263) -/

/-- The value of an FP32 pattern, read off its sign, exponent and fraction fields (R248). -/
theorem fval_eq_fields (w : Word) : fval w =
    if (w.extractLsb' 23 8).toNat = 255 then
      if (w.extractLsb' 0 23).toNat = 0 then .inf (w.getLsbD 31) else .nan
    else if (w.extractLsb' 23 8).toNat = 0 then .fin (w.getLsbD 31) (w.extractLsb' 0 23).toNat (-149)
    else .fin (w.getLsbD 31) ((w.extractLsb' 0 23).toNat + 2 ^ 23) ((w.extractLsb' 23 8).toNat - 150) := by
  have hexp : w.toNat / 2 ^ 23 % 256 = (w.extractLsb' 23 8).toNat := by
    rw [BitVec.extractLsb'_toNat, Nat.shiftRight_eq_div_pow]
  have hfrac : w.toNat % 2 ^ 23 = (w.extractLsb' 0 23).toNat := by
    rw [BitVec.extractLsb'_toNat, Nat.shiftRight_zero]
  have hneg : decide (w.toNat / 2 ^ (23 + 8) % 2 = 1) = w.getLsbD 31 := by
    rw [BitVec.getLsbD, Nat.testBit_eq_decide_div_mod_eq]
  simp only [fval, fvalOfBits, hexp, hfrac, hneg]
  norm_num [sub_sub]

/-- The class of a word by its fields (R263): a subnormal's fraction stays below 2^23, which a normal's significand
reaches. -/
theorem fclassBit_eq_fields (w : Word) : fclassBit w =
    let neg := w.getLsbD 31
    let e := (w.extractLsb' 23 8).toNat
    let f := (w.extractLsb' 0 23).toNat
    if e = 255 ∧ f = 0 then (if neg then 0 else 7)
    else if e = 255 then (if w.getLsbD 22 then 9 else 8)
    else if e = 0 ∧ f = 0 then (if neg then 3 else 4)
    else if e = 0 then (if neg then 2 else 5)
    else (if neg then 1 else 6) := by
  have hfrac : (w.extractLsb' 0 23).toNat < 2 ^ 23 := BitVec.isLt _
  rw [fclassBit, fval_eq_fields]
  dsimp only
  generalize (w.extractLsb' 23 8).toNat = e, (w.extractLsb' 0 23).toNat = f at hfrac ⊢
  by_cases hspecial : e = 255
  · by_cases hinf : f = 0
    · simp [hspecial, hinf]
    · simp [hspecial, hinf]
  · by_cases hsmall : e = 0
    · simp [hsmall, show f < 8388608 from hfrac]
    · simp [hspecial, hsmall]

/-- Settles O55: FCLASS gives the bit of `fclassBit`, whose cases are those of the word's fields. -/
theorem fclassBits : Obligations.FclassBits := by
  unfold Obligations.FclassBits
  intro d a g
  simp only [← fclassBit_eq_fields]
  exact gives_of fun _ => rfl

end Sys2Proof.Machine

namespace Sys2Proof.Machine

/-! ### Almanac commands of a group listed twice (R346, R347, R350)

A diverted command notes nothing, and a trap taken for an effect keeps the notes of h registers (see `doubled`). -/

/-- ACCZ of the tiles that an h register names. -/
def acczh : Instr := .accz .f32 (.h 0) Guard.always

/-- The doubled group's h0 is zero, so its ACCZ counts no tile, which R350 does not allow. -/
theorem doubled_noTiles : bits (doubledCtx.rd (.h 0) 0).toNat 8 8 = 0 := by decide

/-- Refutes O32: an ACCZ of no tiles traps and keeps the note of the h register it read where its group is listed twice. -/
theorem not_accCommands : ¬ Obligations.AccCommands := by
  unfold Obligations.AccCommands
  intro ⟨_, haccz, _⟩
  have hc : Clear true acczh doubledCtx doubled := doubled_clear true rfl (by decide) (by decide) (by decide)
  have h := haccz .f32 (.h 0) Guard.always doubledCtx doubled hc (.inr (.inr (.inl doubled_noTiles)))
  exact absurd (congrArg notesLeft h) (by decide +kernel)

/-- The doubled group, its ASTAT that of a loop that found its table STALE. -/
def staleGroup : Group := { placedGroup 3 with astat := 0x21 }

def doubledStale : State := { doubled with groups := [(4, staleGroup), (4, strayGroup)] }

def doubledStaleCtx : Ctx := { doubledCtx with grp := staleGroup }

theorem doubledStale_ctx {i : Instr} (h : i.guard = Guard.always) : doubledStale.ctx? i = some doubledStaleCtx := by
  unfold State.ctx?
  rw [h]
  decide +kernel

theorem doubledStale_turn : doubledStale.smallest 2 (doubledStaleCtx.effectKey doubledStale) = true := by decide +kernel

/-- MWAIT.TRAP of loop 0, ASTAT to an h register. -/
def mwaith : Instr := .mwait true (.h 0) .zero Guard.always

theorem mwaith_clear : Clear true mwaith doubledStaleCtx doubledStale := by
  refine ⟨doubledStale_ctx rfl, by decide, by decide, by decide, by decide, by decide,
    fun _ => ⟨fun _ => doubledStale_turn, fun _ => ?_⟩⟩
  simp [firstRace, Cluster.race, doubledStaleCtx, doubledCtx]

/-- The group has started no loop, so loop 0 is older than every loop in flight and MWAIT does not wait (R347). -/
theorem doubledStale_old : 7 < doubledStaleCtx.grp.loopAge (doubledStaleCtx.rd .zero 0).toNat := by decide

/-- Refutes O33: an MWAIT.TRAP that traps keeps the note of its destination where its group is listed twice. -/
theorem not_loopResults : ¬ Obligations.LoopResults := by
  unfold Obligations.LoopResults
  intro ⟨_, _, _, _, _, _, _, hmwait, _⟩
  have h := hmwait (.h 0) .zero Guard.always 0x07 doubledStaleCtx doubledStale mwaith_clear
    ⟨.inl doubledStale_old, rfl, by decide⟩
  exact absurd (congrArg notesLeft h) (by decide +kernel)

end Sys2Proof.Machine

namespace Sys2Proof.Machine

/-! ### Stores of a core in its arenas (R518) -/

/-- Two states agree in everything but the memory system: bytes, line keys, shadows, and its tables and counters. -/
def SameButMemory (s t : State) : Prop := ∃ m k h ms, t = { s with mem := m, lineKey := k, shadows := h, ms := ms }

theorem SameButMemory.refl (s : State) : SameButMemory s s := ⟨_, _, _, _, rfl⟩

theorem SameButMemory.trans {s t u : State} (h : SameButMemory s t) (k : SameButMemory t u) : SameButMemory s u := by
  obtain ⟨_, _, _, _, rfl⟩ := h
  obtain ⟨_, _, _, _, rfl⟩ := k
  exact ⟨_, _, _, _, rfl⟩

theorem sameButMemory_retag (s : State) (tag line : Nat) : SameButMemory s (s.retag tag line) := by
  unfold State.retag
  dsimp only
  split
  · exact .refl s
  · exact ⟨_, _, _, _, rfl⟩

theorem sameButMemory_touchLine (s : State) (tag line : Nat) : SameButMemory s (s.touchLine tag line) := by
  unfold State.touchLine
  dsimp only
  split_ifs
  · exact ⟨_, _, _, _, rfl⟩
  · exact .refl s
  · exact .trans ⟨_, _, _, _, rfl⟩ (sameButMemory_retag ..)
  · exact sameButMemory_retag ..
  · exact ⟨_, _, _, _, rfl⟩

theorem sameButMemory_touch (s : State) (tag pa n : Nat) : SameButMemory s (s.touch tag pa n) :=
  List.foldlRecOn _ _ (SameButMemory.refl s) fun _ h _ _ => h.trans (sameButMemory_touchLine ..)

theorem sameButMemory_physStore (s : State) (pa : Nat) (bs : List Byte) : SameButMemory s (s.physStore pa bs) := by
  unfold State.physStore
  split
  · exact ⟨_, _, _, _, rfl⟩
  · exact .refl s

theorem sameButMemory_arenaStore (s : State) (asid pa : Nat) (bs : List Byte) : SameButMemory s (s.arenaStore asid pa bs) :=
  (sameButMemory_touch ..).trans (sameButMemory_physStore ..)

/-- A trap that no handler takes, and that is no lease violation, stores its frame and ends the grid (R156, R157). -/
theorem takeTrap_ends {c : Ctx} {t : Trap} (s : State) (hi : c.grp.intrap = false) (he : c.grid.record.trapEntry = 0)
    (ht : t.cause ≠ 5) : ∃ u, SameButMemory s u ∧ takeTrap c t s =
      (u.issued c.grp.core c.grp.seq c.gid c.slot).endGrid c.team.grid (trapEnd t.cause t.sub false c.grp.ggid c.sp.pc) := by
  have hl : s.lostAt c.grid.asid t = s := if_neg fun h => ht h.1
  rw [takeTrap_unhandled s hi (.inl he), hl]
  exact ⟨_, sameButMemory_arenaStore .., rfl⟩

/-! ### Table commands of a group listed twice (R376)

A diverted command notes nothing, and a trap taken for an effect keeps the notes of h registers (see `doubled`). -/

/-- TVAL of the table whose number an h register holds. -/
def tvalh : Instr := .tval (.s 0) (.h 0) Guard.always

/-- The trap of a table number above 63 (R376). -/
def numberTrap : Trap := { cause := 0x0B, lanes := 0xFFFFFFFF }

/-- The h register of the doubled group's team holds all ones, which is no table's number. -/
theorem doubledHigh_noTable : 64 ≤ (doubledHighCtx.rd (.h 0) 0).toNat := by decide

/-- With the note of h0 made, the trap drops the group's first entry with its team: the stray entry that then stands for the
group has another ICNT, as if the instruction had taken effect, and the note stays. -/
theorem doubledHigh_trap_noted :
    let t := takeTrap doubledHighCtx numberTrap (doubledHigh.noted doubledHighCtx tvalh)
    doubledHighCtx.moved t = true ∧ notesLeft (.next t) = 1 := by
  obtain ⟨_, ⟨_, _, _, _, rfl⟩, htrap⟩ := takeTrap_ends (c := doubledHighCtx) (t := numberTrap)
    (doubledHigh.noted doubledHighCtx tvalh) rfl rfl (by decide)
  rw [htrap]
  exact ⟨rfl, rfl⟩

/-- The trap itself notes nothing. -/
theorem doubledHigh_trap_notes : notesLeft (.next (takeTrap doubledHighCtx numberTrap doubledHigh)) = 0 := by
  obtain ⟨_, ⟨_, _, _, _, rfl⟩, htrap⟩ :=
    takeTrap_ends (c := doubledHighCtx) (t := numberTrap) doubledHigh rfl rfl (by decide)
  rw [htrap]
  rfl

/-- Refutes O34: a TVAL of a number above 63 traps and keeps the note of the h register it read where its group is listed
twice. -/
theorem not_tableCommands : ¬ Obligations.TableCommands := by
  unfold Obligations.TableCommands
  intro ⟨_, htval, _⟩
  have hc : Clear true tvalh doubledHighCtx doubledHigh :=
    doubledHigh_clear true rfl (by decide) (by decide) (by decide)
  have hdiverts : exec tvalh doubledHigh = .next (takeTrap doubledHighCtx numberTrap doubledHigh) :=
    htval (.s 0) (.h 0) Guard.always doubledHighCtx doubledHigh hc doubledHigh_noTable
  obtain ⟨hmoved, hkept⟩ := doubledHigh_trap_noted
  have hnoted : exec tvalh doubledHigh =
      .next (takeTrap doubledHighCtx numberTrap (doubledHigh.noted doubledHighCtx tvalh)) := issueAs_clear _ hc hmoved
  have hnotes : notesLeft (exec tvalh doubledHigh) = 1 := by rw [hnoted, hkept]
  rw [hdiverts, doubledHigh_trap_notes] at hnotes
  exact Nat.zero_ne_one hnotes

end Sys2Proof.Machine

namespace Sys2Proof.Machine

/-! ### Sequence instructions of a group listed twice (R466)

A diverted instruction notes nothing, and a trap taken for an effect keeps the notes of h registers (see `doubled`). -/

/-- TOKEMIT of the token that an h register locates, its count zero. -/
def tokemith : Instr := .tokemit (.s 0) .zero (.h 0) .zero Guard.always

/-- The h register of the doubled group's team holds all ones, which locates no word (R136). -/
theorem doubledHigh_noLocator :
    locate doubledHighCtx doubledHigh (doubledHighCtx.rd (.h 0) 0) (4 * 1) 4 true = .error locatorTrap := by
  decide +kernel

/-- Refutes O39: a TOKEMIT whose locator traps keeps the note of the h register it read where its group is listed twice. -/
theorem not_sequenceInstructions : ¬ Obligations.SequenceInstructions := by
  unfold Obligations.SequenceInstructions
  intro ⟨_, _, _, _, _, htrap, _⟩
  have hc : Clear true tokemith doubledHighCtx doubledHigh :=
    doubledHigh_clear true rfl (by decide) (by decide) (by decide)
  have h := htrap (.s 0) .zero (.h 0) .zero Guard.always 1 locatorTrap doubledHighCtx doubledHigh hc
    ⟨rfl, doubledHigh_noLocator⟩
  exact absurd (congrArg notesLeft h) (by decide +kernel)

end Sys2Proof.Machine

namespace Sys2Proof.Machine

/-! ### Power states and thermal limits (R432, R540, R543, R544) -/

/-- A guarded write of the management window by the semaphore's owner. -/
theorem guardedMgmt_owner {s : State} {port sem : Nat} (f : State → State) (hp : port < 2)
    (ho : s.helm.sems.find? sem = some port) : s.guardedMgmt port sem f = f s := by
  simp [State.guardedMgmt, hp, ho]

/-- Nothing is found of a number below every number of a table. -/
theorem Map.find?_above {α : Type} {m : Map α} {k : Nat} (h : m.above k) : m.find? k = none := by
  induction m with
  | nil => rfl
  | cons e m ih =>
    obtain ⟨j, b⟩ := e
    have hj : k < j := h (j, b) List.mem_cons_self
    have hm := ih (fun e he => h e (List.mem_cons_of_mem _ he))
    simpa [Map.find?, Nat.ne_of_lt hj] using hm

/-- What is found of a table of rising numbers after a filter: the entry that was found, if the filter keeps it. -/
theorem Map.find?_filter_sorted {α : Type} {m : Map α} (p : Nat × α → Bool) (k : Nat) (h : Map.sorted m = true) :
    Map.find? (List.filter p m) k = (m.find? k).filter (fun a => p (k, a)) := by
  induction m with
  | nil => rfl
  | cons e m ih =>
    obtain ⟨j, b⟩ := e
    obtain ⟨habove, hs⟩ := (Map.sorted_cons_iff j b m).mp h
    have hm := ih hs
    by_cases hk : k = j
    · subst hk
      rw [Map.find?_above habove] at hm
      cases hb : p (k, b) <;> simp [Map.find?, Option.filter, hb, hm]
    · cases hb : p (j, b) <;> simp [Map.find?, hb, hk, hm]

/-- PLIMIT takes the value written, clamped (R541). -/
theorem execPlimit_owner {s : State} {port : Nat} (val : DWord) (hp : port < 2) (ho : s.helm.sems.find? 0 = some port) :
    exec (.plimit port val) s = .next (s.modPkg (fun p => { p with
      plimit := if val.toNat < 600 then 600 else if 2400 < val.toNat then 2400 else val.toNat })) := by
  have hclamp : min 2400 (max 600 val.toNat) =
      if val.toNat < 600 then 600 else if 2400 < val.toNat then 2400 else val.toNat := by split_ifs <;> omega
  show Host.Outcome.next (s.guardedMgmt port 0 _) = _
  rw [guardedMgmt_owner _ hp ho, hclamp]

/-- PCLKMAX of a partition takes a legal clock and no other (R544). -/
theorem execPclkmax_owner {s : State} {port p : Nat} (val : DWord) (hlt : p < 4) (hp : port < 2)
    (ho : s.helm.sems.find? 0 = some port) : ∃ t, exec (.pclkmax port p val) s = .next t ∧
      (∀ q, t.pkg.limit q = if q = p ∧ val.toNat % 50 = 0 ∧ 950 ≤ val.toNat ∧ val.toNat ≤ 1900 then val.toNat
        else s.pkg.limit q) ∧ { t with pkg := s.pkg } = s := by
  refine ⟨_, congrArg Host.Outcome.next ((if_neg (by omega)).trans (guardedMgmt_owner _ hp ho)), ?_⟩
  by_cases hv : val.toNat % 50 = 0 ∧ 950 ≤ val.toNat ∧ val.toNat ≤ 1900
  · simp only [hv, and_self, and_true, if_true]
    exact ⟨fun q => Map.getD_put _ _ _ _ _, rfl⟩
  · rw [if_neg hv]
    exact ⟨fun q => (if_neg fun h => hv h.2).symm, rfl⟩

/-- PWRCTL takes its OFF bit, and OFF written 0 brings partitions that are OFF back to IDLE (R540). -/
theorem execPwrctl_owner {s : State} {port : Nat} (val : DWord) (hp : port < 2) (ho : s.helm.sems.find? 0 = some port)
    (hs : s.pkg.power.sorted = true) : ∃ t, exec (.pwrctl port val) s = .next t ∧ t.pkg.pwrOff = val.getLsbD 0 ∧
      (∀ p, t.pkg.power.getD p .idle =
        if val.getLsbD 0 = false ∧ s.pkg.power.getD p .idle = .off then .idle else s.pkg.power.getD p .idle) ∧
      { t with pkg := s.pkg } = s := by
  refine ⟨_, congrArg Host.Outcome.next (guardedMgmt_owner _ hp ho), rfl, fun p => ?_, rfl⟩
  show Map.getD (if val.getLsbD 0 then s.pkg.power else s.pkg.power.filter (fun e => e.2 ≠ PState.off)) p .idle = _
  cases val.getLsbD 0 with
  | true => simp
  | false =>
    simp only [Bool.false_eq_true, if_false, true_and, Map.getD, Map.find?_filter_sorted _ p hs]
    cases s.pkg.power.find? p with
    | none => rfl
    | some a => cases a <;> rfl

/-- The power states after one partition's is set. -/
theorem power_put (s : State) (p q : Nat) (x : PState) :
    (s.modPkg (fun k => { k with power := k.power.put .idle p x })).pkg.power.getD q .idle =
      if q = p then x else s.pkg.power.getD q .idle := by
  rw [State.modPkg_pkg]
  exact Map.getD_put ..

/-- An ACTIVE partition without residents becomes IDLE (R540). -/
theorem execPartitionIdle_vacant {s : State} {p : Nat} (hlt : p < 4) (ha : s.active p = true) (hv : s.vacant p = true) :
    ∃ t, exec (.partitionIdle p) s = .next t ∧
      (∀ q, t.pkg.power.getD q .idle = if q = p then .idle else s.pkg.power.getD q .idle) ∧ { t with pkg := s.pkg } = s :=
  ⟨_, congrArg Host.Outcome.next (if_pos ⟨hlt, ha, hv⟩), fun q => power_put s p q .idle, rfl⟩

/-- One change of several cores changes the cores alone. -/
theorem foldl_modCore_frame (l : List Nat) (f : Core → Core) (s : State) :
    ∃ cs, l.foldl (fun s c => s.modCore c f) s = { s with cores := cs } := by
  induction l generalizing s with
  | nil => exact ⟨_, rfl⟩
  | cons c l ih =>
    obtain ⟨cs, hcs⟩ := ih (s.modCore c f)
    exact ⟨cs, hcs⟩

/-- One change of several cores, the same when made twice, is made of each of them and of no other. -/
theorem core_foldl_modCore {f : Core → Core} (hf : ∀ c, f (f c) = f c) (l : List Nat) (s : State) (k : Nat) :
    (l.foldl (fun s c => s.modCore c f) s).core k = if k ∈ l then f (s.core k) else s.core k := by
  induction l generalizing s with
  | nil => simp
  | cons c l ih =>
    rw [List.foldl_cons, ih, core_modCore]
    by_cases hk : k = c
    · subst hk
      simp [hf]
    · simp [hk]

/-- What a core keeps when its partition's rail is off: nothing of SPAD, WBUF, ACC and caches (R540). -/
def Core.railOff (k : Core) : Core :=
  { k with spad := [], wbuf := [], wbufTag := [], acc := [], accMode := [], accTag := [], recCache := [], opCache := [],
           alb := [], compass := [] }

/-- An IDLE partition with OFF set, nothing resident, no command in flight and no halt goes OFF (R540). -/
theorem execPartitionOff_idle {s : State} {p : Nat} (hlt : p < 4) (hoff : s.pkg.pwrOff = true)
    (hi : s.pkg.power.getD p .idle = .idle) (hh : (s.part p).halt = .run) (hv : s.vacant p = true)
    (hc : s.cmds.any (fun e => (s.partCores p).contains e.2.core) = false) :
    ∃ t, exec (.partitionOff p) s = .next t ∧
      (∀ q, t.pkg.power.getD q .idle = if q = p then .off else s.pkg.power.getD q .idle) ∧
      (∀ k, t.core k = if k ∈ s.partCores p then (s.core k).railOff else s.core k) ∧
      t.mem = s.mem ∧ t.groups = s.groups := by
  have hcores := core_foldl_modCore (f := Core.railOff) (fun _ => rfl) (s.partCores p) s
  have hrun : p < 4 ∧ s.pkg.pwrOff ∧ s.pkg.power.getD p .idle = .idle ∧ (s.part p).halt = .run ∧ s.vacant p ∧
      ¬s.cmds.any (fun e => (s.partCores p).contains e.2.core) := ⟨hlt, hoff, hi, hh, hv, ne_true_of_eq_false hc⟩
  obtain ⟨cs, hcs⟩ := foldl_modCore_frame (s.partCores p) Core.railOff s
  refine ⟨((s.partCores p).foldl (fun s c => s.modCore c Core.railOff) s).modPkg (fun k =>
    { k with power := k.power.put .idle p .off }), congrArg Host.Outcome.next (if_pos hrun), ?_⟩
  rw [hcs] at hcores ⊢
  exact ⟨fun q => power_put { s with cores := cs } p q .off, hcores, rfl, rfl⟩

/-- A die's temperature is taken; at 840 or more of 0.125 °C the die is hot, below 800 it is not (R543). -/
theorem execThermalHot_die {s : State} {die : Nat} (temp : Nat) (hd : die < 2) :
    ∃ t, exec (.thermalHot die temp) s = .next t ∧ t.pkg.temp.getD die 0 = temp ∧
      (die ∈ t.pkg.hotDies ↔ 840 ≤ temp ∨ (die ∈ s.pkg.hotDies ∧ 800 ≤ temp)) ∧
      (∀ d, d ≠ die → (d ∈ t.pkg.hotDies ↔ d ∈ s.pkg.hotDies)) ∧
      (t.pkg.hot = true ↔ s.pkg.hot = true ∨ 840 ≤ temp) ∧ { t with pkg := s.pkg } = s := by
  refine ⟨_, congrArg Host.Outcome.next (if_neg (by omega)), (Map.getD_put _ _ _ _ _).trans (if_pos rfl), ?_, ?_,
    by simp, rfl⟩
  all_goals simp only [State.modPkg_pkg]
  · split_ifs <;> simp_all
  · intro d hne
    split_ifs <;> simp [hne]

/-- THERMTRIP halts every core, loses every grid with its commands, and leaves memory (R543). -/
theorem execThermtrip_die {s : State} {die : Nat} (hd : die < 2) :
    ∃ t, exec (.thermtrip die) s = .next t ∧ t.pkg.trip = true ∧ t.grids = [] ∧ t.groups = [] ∧ t.teams = [] ∧
      t.cmds = [] ∧ t.mem = s.mem ∧ ∀ c, c < 96 → (t.core c).halted = true := by
  have hcores := core_foldl_modCore (f := fun k => { k with halted := true }) (fun _ => rfl) (List.range 96) s
  obtain ⟨cs, hcs⟩ := foldl_modCore_frame (List.range 96) (fun k => { k with halted := true }) s
  have hrun : exec (.thermtrip die) s = .next (
      let s := (List.range 96).foldl (fun s c => s.modCore c (fun k => { k with halted := true })) s
      { s with groups := [], teams := [], clusters := [], grids := [], cmds := [], undo := [],
               pkg := { s.pkg with trip := true } }) := congrArg Host.Outcome.next (if_neg (by omega))
  rw [hcs] at hcores hrun
  refine ⟨_, hrun, rfl, rfl, rfl, rfl, rfl, rfl, fun c hc => ?_⟩
  exact congrArg Core.halted ((hcores c).trans (if_pos (List.mem_range.mpr hc)))

/-- Settles O50: each event by the branch of its function that the premises choose. -/
theorem powerAndThermalEvents : Obligations.PowerAndThermalEvents := by
  unfold Obligations.PowerAndThermalEvents
  exact ⟨fun _ val _ hp ho => execPlimit_owner val hp ho, fun _ _ val _ hlt hp ho => execPclkmax_owner val hlt hp ho,
    fun _ val _ hp ho hs => execPwrctl_owner val hp ho hs, fun _ _ hlt ha hv => execPartitionIdle_vacant hlt ha hv,
    fun _ _ hlt hoff hi hh hv hc => execPartitionOff_idle hlt hoff hi hh hv hc, fun _ temp _ hd => execThermalHot_die temp hd,
    fun _ _ hd => execThermtrip_die hd⟩

end Sys2Proof.Machine

namespace Sys2Proof.Machine

/-! ### Links, time and routes (R475, R478, R479) -/

/-- The order in which ways to a grandmaster are preferred: grandmaster, hops, port (R479). -/
def wayBefore (x y : Nat × Nat × Nat) : Prop :=
  x.1 < y.1 ∨ (x.1 = y.1 ∧ (x.2.1 < y.2.1 ∨ (x.2.1 = y.2.1 ∧ x.2.2 ≤ y.2.2)))

theorem wayBefore_refl (x : Nat × Nat × Nat) : wayBefore x x := .inr ⟨rfl, .inr ⟨rfl, Nat.le_refl _⟩⟩

theorem wayBefore_trans {x y z : Nat × Nat × Nat} (h : wayBefore x y) (k : wayBefore y z) : wayBefore x z := by
  unfold wayBefore at *
  omega

/-- The better of the best way so far and another one, as `Mer.parent` keeps it. -/
def betterWay (b : Option (Nat × Nat × Nat)) (x : Nat × Nat × Nat) : Option (Nat × Nat × Nat) :=
  match b with
  | none => some x
  | some y => if x.1 < y.1 ∨ (x.1 = y.1 ∧ (x.2.1 < y.2.1 ∨ (x.2.1 = y.2.1 ∧ x.2.2 < y.2.2))) then some x else some y

theorem parent_eq (m : Mer) : m.parent = m.grandmasters.foldl betterWay none := rfl

/-- The better of two ways is one of them, and comes before both. -/
theorem betterWay_some (y x : Nat × Nat × Nat) :
    ∃ z, betterWay (some y) x = some z ∧ (z = y ∨ z = x) ∧ wayBefore z y ∧ wayBefore z x := by
  by_cases h : x.1 < y.1 ∨ (x.1 = y.1 ∧ (x.2.1 < y.2.1 ∨ (x.2.1 = y.2.1 ∧ x.2.2 < y.2.2)))
  · exact ⟨x, if_pos h, .inr rfl, by unfold wayBefore; omega, wayBefore_refl x⟩
  · exact ⟨y, if_neg h, .inl rfl, wayBefore_refl y, by unfold wayBefore; omega⟩

/-- The best way of a list, from one way on, is that way or one of the list, and comes before all of them. -/
theorem foldl_betterWay (l : List (Nat × Nat × Nat)) (y : Nat × Nat × Nat) :
    ∃ z, l.foldl betterWay (some y) = some z ∧ z ∈ y :: l ∧ ∀ x ∈ y :: l, wayBefore z x := by
  induction l generalizing y with
  | nil => exact ⟨y, rfl, by simp, by simp [wayBefore_refl]⟩
  | cons x l ih =>
    obtain ⟨w, hw, hmem, hy, hx⟩ := betterWay_some y x
    obtain ⟨z, hz, hzmem, hall⟩ := ih w
    refine ⟨z, by rw [List.foldl_cons, hw, hz], ?_, ?_⟩
    · rcases List.mem_cons.mp hzmem with rfl | hl
      · rcases hmem with rfl | rfl <;> simp
      · simp [hl]
    · have hzw := hall w List.mem_cons_self
      simp only [List.forall_mem_cons]
      exact ⟨wayBefore_trans hzw hy, wayBefore_trans hzw hx, fun u hu => hall u (List.mem_cons_of_mem _ hu)⟩

/-- The way the time comes is one of the known ways, and comes before all of them (R479). -/
theorem parent_best {m : Mer} {x : Nat × Nat × Nat} (h : m.parent = some x) :
    x ∈ m.grandmasters ∧ ∀ y ∈ m.grandmasters, wayBefore x y := by
  rw [parent_eq] at h
  cases hl : m.grandmasters with
  | nil => simp [hl] at h
  | cons y l =>
    obtain ⟨z, hz, hmem, hall⟩ := foldl_betterWay l y
    rw [hl, List.foldl_cons] at h
    cases hz.symm.trans h
    exact ⟨hmem, hall⟩

section Port
variable {s : State} {port : Nat} {p : NetPort} (hf : s.mer.ports.find? port = some p) (hu : p.up = true)
include hf hu

/-- A port that is up, as the events of links ask for it. -/
theorem port_up : (s.mer.ports.find? port).any (fun p => p.up) = true := by simp [hf, hu]

/-- A link that fails takes its port down, and what it knew of a grandmaster (R475). -/
theorem execLinkFailure_up : ∃ t, exec (.linkFailure port) s = .next t ∧
    t.mer.ports.find? port = some { p with up := false } ∧ t.mer.masters.find? port = none := by
  refine ⟨_, congrArg Host.Outcome.next (if_pos (port_up hf hu)), ?_, Map.find?_erase_self ..⟩
  exact (Map.find?_modify_self ..).trans (congrArg _ hf)

/-- A Sextant frame moves the time on, is recorded, and slews the time where the chosen way leads by its port (R479). -/
theorem execSextantFrame_up (time : DWord) (master : Nat × Nat) :
    ∃ t, exec (.sextantFrame port time master) s = .next t ∧ t.mer.time = s.tick.mer.time ∧
      t.mer.masters = (if master.1 < 8192 then s.mer.masters.set port master else s.mer.masters.erase port) ∧
      t.mer.slew = (if t.mer.parent.any (fun x => x.2.2 == port) = true then (time.toNat : Int) - s.tick.mer.time.toNat
        else s.tick.mer.slew) :=
  ⟨_, congrArg Host.Outcome.next (if_pos (port_up hf hu)), rfl, rfl, rfl⟩

/-- The time, the grandmaster and the hops to it are sent (R479). -/
theorem execSextantFrameSend_up : exec (.sextantFrameSend port) s =
    .next (s.tick.send port (.sextant s.tick.mer.time (s.tick.mer.parent.getD (0xFFFF, 0, 0)).1
      (s.tick.mer.parent.getD (0xFFFF, 0, 0)).2.1)) :=
  congrArg Host.Outcome.next (if_pos (port_up hf hu))

end Port

/-- The low 59 bits of a delivery queue's register (R477). -/
theorem queue_bits (val : DWord) : val &&& 0x7FFFFFFFFFFFFFF = BitVec.ofNat 64 (val.toNat % 2 ^ 59) := by
  apply BitVec.eq_of_toNat_eq
  have hlt := val.isLt
  rw [BitVec.toNat_and, BitVec.toNat_ofNat, show (0x7FFFFFFFFFFFFFF : DWord).toNat = 2 ^ 59 - 1 from rfl,
    Nat.and_two_pow_sub_one_eq_mod]
  omega

/-- MQCFG of an idle queue takes the register with its reserved bits 0, and starts the ring anew; of a queue in use it is
ignored with REJ (R477). -/
theorem execMqcfg_owner {s : State} {port q : Nat} (val : DWord) (hq : q < 64) (hr : s.pkg.ready = true) (hp : port < 2)
    (ho : s.helm.sems.find? (if q < 32 then 1 else 2) = some port) :
    ((s.dqueue q).msgs = [] → (s.dqueue q).waiting = [] → ∃ t, exec (.mqcfg port q val) s = .next t ∧
      t.mer.qcfg.getD q 0 = BitVec.ofNat 64 (val.toNat % 2 ^ 59) ∧ (t.dqueue q).head = 0) ∧
    ((s.dqueue q).msgs ≠ [] ∨ (s.dqueue q).waiting ≠ [] → exec (.mqcfg port q val) s =
      .next (s.modMer (fun m => { m with rej := true }))) := by
  have hrun : exec (.mqcfg port q val) s = .next (if ¬(s.dqueue q).msgs.isEmpty ∨ ¬(s.dqueue q).waiting.isEmpty
      then s.modMer (fun m => { m with rej := true })
      else (s.modMer (fun m => { m with qcfg := m.qcfg.put 0 q (val &&& 0x7FFFFFFFFFFFFFF) })).modDqueue q (fun d =>
        { d with head := 0 })) :=
    congrArg Host.Outcome.next ((if_neg (Nat.not_le.mpr hq)).trans (guarded_owner _ hr hp ho))
  refine ⟨fun hm hw => ⟨_, hrun.trans (congrArg _ (if_neg (by simp [hm, hw]))), ?_, ?_⟩, fun h => ?_⟩
  · rw [← queue_bits]
    exact (Map.getD_put s.mer.qcfg 0 q q _).trans (if_pos rfl)
  · exact congrArg DQueue.head ((Map.getD_put s.mer.queues DQueue.empty q q _).trans (if_pos rfl))
  · rw [hrun, if_pos (by simpa [List.isEmpty_iff] using h)]

/-- A frame on a link that the endpoint has sent for a command: a packet of its own that is no beacon (KIND 1), or a
question (R485, R491). -/
def Mer.sentFor (m : Mer) (id : Nat) (e : Nat × Frame) : Bool :=
  match e.2 with
  | .packet p => p.reply == id && p.key.src == m.mepid && p.kind != 1
  | .ask _ _ r => r == id
  | _ => false

section Retransmission
variable {s : State} {id : Nat} {c : Cmd} {n : Net} (hc : s.cmds.find? id = some c) (hw : c.work = .net n)
  (hs : n.sent = true) (hu : n.uud = false) (hn : n.status = none) (hd : n.waits.all (fun d => d = s.mer.mepid) = false)
include hs hu hn hd

/-- Nothing stops the retransmission of a command that was sent and that another endpoint has yet to answer. -/
theorem retransmission_due : ¬(¬n.sent = true ∨ n.uud = true ∨ n.status.isSome = true ∨
    n.waits.all (fun d => d = s.mer.mepid) = true) := by
  simp [hs, hu, hn, hd]

include hc hw

/-- Exhausted retransmissions answer the command with UNREACH (R496). -/
theorem execRetransmission_exhausted : exec (.retransmission id true) s =
    .next ((s.modNet id (fun n => n.answer 0 0x82)).keyNet id c.key.1) := by
  show execRetransmission id true s = _
  simp only [execRetransmission, hc, hw, if_neg (retransmission_due hs hu hn hd), if_true]

/-- Otherwise what the command has on the links is sent again, each frame once (R491). -/
theorem execRetransmission_again : exec (.retransmission id false) s =
    .next ((s.mer.wire.filter (s.mer.sentFor id)).dedup.foldl (fun s e => s.send e.1 e.2) s) := by
  show execRetransmission id false s = _
  simp only [execRetransmission, hc, hw, if_neg (retransmission_due hs hu hn hd), Bool.false_eq_true, if_false]
  rfl

end Retransmission

/-- Settles O47: each event by the branch of its function that the premises choose, and the chosen way as a minimum. -/
theorem linksAndRoutes : Obligations.LinksAndRoutes := by
  unfold Obligations.LinksAndRoutes
  refine ⟨fun port huaxel s hp => ?_, fun _ _ _ hf hu => execLinkFailure_up hf hu,
    fun _ _ time master _ hf hu => execSextantFrame_up hf hu time master, fun _ _ h => parent_best h,
    fun _ _ _ hf hu => execSextantFrameSend_up hf hu, fun port val s u bs vs hr hp ho hread hvs => ?_,
    fun _ _ val _ hq hr hp ho => execMqcfg_owner val hq hr hp ho, fun _ _ _ _ hc hw hs hu hn hd =>
      ⟨execRetransmission_exhausted hc hw hs hu hn hd, execRetransmission_again hc hw hs hu hn hd⟩⟩
  · exact ⟨_, congrArg Host.Outcome.next (if_pos hp), Map.find?_set_self ..⟩
  · show Host.Outcome.next (s.guarded port 1 _) = _
    rw [guarded_owner _ hr hp ho, hvs]
    simp only [hread]

end Sys2Proof.Machine

namespace Sys2Proof.Machine

/-! ### The memory window (R432, R516, R524, R529 to R533) -/

/-- What is found of a table after a filter by number: the entry that was found, if the filter keeps its number. -/
theorem Map.find?_filter_number {α : Type} (m : Map α) (p : Nat → Bool) (k : Nat) :
    Map.find? (List.filter (fun e => p e.1) m) k = if p k then m.find? k else none := by
  induction m with
  | nil => simp [Map.find?]
  | cons e m ih =>
    obtain ⟨j, b⟩ := e
    by_cases hk : k = j
    · subst hk
      cases hp : p k <;> simp [Map.find?, hp, ih]
    · cases hp : p j <;> simp [Map.find?, hp, hk, ih]

/-- What is found of a table that a list of numbers makes up. -/
theorem Map.find?_map_number {α : Type} (l : List Nat) (f : Nat → α) (k : Nat) :
    Map.find? (l.map (fun i => (i, f i))) k = if k ∈ l then some (f k) else none := by
  induction l with
  | nil => rfl
  | cons j l ih =>
    by_cases hk : k = j
    · simp [Map.find?, hk]
    · simp [Map.find?, hk, ih]

/-- What the generator of a pseudo-channel reads once all of them are set. -/
theorem getD_generators {pc : Nat} (f : Nat → Word) (h : pc < 768) :
    Map.getD ((List.range 768).map (fun i => (i, f i))) pc 0 = f pc := by
  rw [Map.getD, Map.find?_map_number, if_pos (List.mem_range.mpr h)]
  rfl

/-! Invalidations (R524) -/

/-- A completed invalidation ends, and of what it covers only the leased translations are kept (R524, R526). -/
theorem execInvalidationComplete_oldest {s : State} {i : Inval} {is : List Inval} (h : s.ms.inval = i :: is) :
    ∃ ks, exec .invalidationComplete s = .next (s.modMs (fun m => { m with inval := is, kept := ks })) ∧
      ∀ k, k ∈ ks ↔ k ∈ s.ms.kept ∧ (k.asid ≠ i.asid ∨ (i.all = false ∧ (k.unit < i.unit ∨ i.unit + i.count ≤ k.unit)) ∨
        s.leased k.asid k.unit = true) := by
  refine ⟨(s.dropKept i).ms.kept, ?_, fun k => ?_⟩
  · show execInvalidationComplete s = _
    simp only [execInvalidationComplete, h]
    rfl
  · refine List.mem_filter.trans (and_congr_right fun _ => ?_)
    cases hl : s.leased k.asid k.unit with
    | true => simp
    | false => by_cases ha : k.asid = i.asid <;> cases hi : i.all <;> simp [ha]

/-! MEMCFG (R532, R533) -/

/-- NRK and NRTEST of MEMCFG set, before the generators are seeded: NRK outside 4 to 12 is ignored (R532). -/
def State.refreshSet (s : State) (v : Nat) : State :=
  s.modMs (fun m => { m with
    nrtest := bit v 23, nrk := if 4 ≤ bits v 19 4 ∧ bits v 19 4 ≤ 12 then bits v 19 4 else m.nrk })

/-- NRTEST from 0 to 1 seeds the generators (R530). -/
theorem setRefresh_eq (s : State) (v : Nat) :
    s.setRefresh v = if bit v 23 = true ∧ s.ms.nrtest = false then (s.refreshSet v).reseed else s.refreshSet v := by
  unfold State.setRefresh
  simp only [Bool.not_eq_true]
  rfl

/-- New seeds change the generators alone of the memory system. -/
theorem reseed_ms (s : State) : ∃ g, s.reseed.ms = { s.ms with nrgen := g } := by
  unfold State.reseed
  split <;> exact ⟨_, rfl⟩

/-- What NRK and NRTEST of a MEMCFG change of the memory system: themselves and the generators. -/
theorem setRefresh_ms (s : State) (v : Nat) :
    ∃ t k g, (s.setRefresh v).ms = { s.ms with nrtest := t, nrk := k, nrgen := g } := by
  rw [setRefresh_eq]
  split
  · obtain ⟨g, hg⟩ := reseed_ms (s.refreshSet v)
    exact ⟨_, _, g, hg⟩
  · exact ⟨_, _, _, rfl⟩

section Memcfg
variable {s : State} {port : Nat} (val : DWord) (hr : s.pkg.ready = true) (hp : port < 2)
  (ho : s.helm.sems.find? 4 = some port)
include hr hp ho

/-- What a MEMCFG by the semaphore's owner comes to (R533). -/
theorem execMemcfg_owner : exec (.memcfg port val) s = .next (
    if 256 < val.toNat / 512 % 512 ∨ ¬({ s.ms with tcsize := val.toNat / 512 % 512 } : MemSys).regionsOk then s.reject
    else if val.toNat / 512 % 512 = s.ms.tcsize ∧ val.getLsbD 0 = s.ms.ilv then s.setRefresh val.toNat
    else if s.inUse ∨ s.ms.change.isSome then (s.setRefresh val.toNat).reject
    else (s.setRefresh val.toNat).modMs (fun m => { m with
      change := some { tcsize := val.toNat / 512 % 512, ilv := val.getLsbD 0 } })) :=
  congrArg Host.Outcome.next (guarded_owner _ hr hp ho)

/-- Of a size above 256 GB, or one that leaves a region no room, it is refused. -/
theorem execMemcfg_refused (h : 256 < val.toNat / 512 % 512 ∨
    ({ s.ms with tcsize := val.toNat / 512 % 512 } : MemSys).regionsOk = false) :
    exec (.memcfg port val) s = .next (s.modMs (fun m => { m with rej := true })) := by
  rw [execMemcfg_owner val hr hp ho, if_pos (h.imp_right ne_true_of_eq_false)]
  rfl

/-- Of the size and the interleaving that stand, it sets NRK and NRTEST. -/
theorem execMemcfg_refresh (hsize : val.toNat / 512 % 512 ≤ 256) (ht : s.ms.tcsize = val.toNat / 512 % 512)
    (hi : s.ms.ilv = val.getLsbD 0) (hok : s.ms.regionsOk = true) :
    exec (.memcfg port val) s = .next (if val.getLsbD 23 = true ∧ s.ms.nrtest = false
      then (s.refreshSet val.toNat).reseed else s.refreshSet val.toNat) := by
  have hlegal : ¬(256 < val.toNat / 512 % 512 ∨
      ¬({ s.ms with tcsize := val.toNat / 512 % 512 } : MemSys).regionsOk = true) := by
    simp [← ht, hok, ht ▸ hsize]
  rw [execMemcfg_owner val hr hp ho, if_neg hlegal, if_pos ⟨ht.symm, hi.symm⟩, setRefresh_eq]
  rfl

/-- Of another size or interleaving it starts the change, or is refused while memory is in use or a change goes on. -/
theorem execMemcfg_change (hsize : val.toNat / 512 % 512 ≤ 256)
    (hdiff : s.ms.tcsize ≠ val.toNat / 512 % 512 ∨ s.ms.ilv ≠ val.getLsbD 0)
    (hok : ({ s.ms with tcsize := val.toNat / 512 % 512 } : MemSys).regionsOk = true) :
    ∃ t, exec (.memcfg port val) s = .next t ∧ t.ms.tcsize = s.ms.tcsize ∧ t.ms.ilv = s.ms.ilv ∧ t.mem = s.mem ∧
      (s.inUse = true ∨ s.ms.change.isSome = true → t.ms.rej = true ∧ t.ms.change = s.ms.change) ∧
      (s.inUse = false → s.ms.change = none → t.ms.rej = s.ms.rej ∧
        t.ms.change = some { tcsize := val.toNat / 512 % 512, ilv := val.getLsbD 0 }) := by
  have hlegal : ¬(256 < val.toNat / 512 % 512 ∨
      ¬({ s.ms with tcsize := val.toNat / 512 % 512 } : MemSys).regionsOk = true) := by
    simp [hok, Nat.not_lt.mpr hsize]
  have hsame : ¬(val.toNat / 512 % 512 = s.ms.tcsize ∧ val.getLsbD 0 = s.ms.ilv) :=
    fun ⟨ht, hi⟩ => hdiff.elim (· ht.symm) (· hi.symm)
  obtain ⟨nt, k, g, hms⟩ := setRefresh_ms s val.toNat
  have hrun := execMemcfg_owner val hr hp ho
  rw [if_neg hlegal, if_neg hsame] at hrun
  by_cases hbusy : s.inUse = true ∨ s.ms.change.isSome = true
  · rw [if_pos hbusy] at hrun
    refine ⟨_, hrun, ?_⟩
    simp only [State.reject, State.modMs_ms, State.modMs_mem, State.setRefresh_mem, hms, true_and, and_self, implies_true]
    exact fun hu hn => by simp [hu, hn] at hbusy
  · rw [if_neg hbusy] at hrun
    refine ⟨_, hrun, ?_⟩
    simp only [State.modMs_ms, State.modMs_mem, State.setRefresh_mem, hms, true_and, and_self, implies_true, and_true]
    exact fun h => absurd h hbusy

end Memcfg

/-- A byte of memory once the fast tier below an address is cleared (R533). -/
theorem byte_zeroFast {s : State} {top : Nat} (ht : top ≤ 768 * gb) (a : Nat) :
    (s.zeroFast top).mem.byte a = if a < top then 0 else s.mem.byte a := by
  have hfast : (isFastPa a && decide (a < top)) = decide (a < top) := by
    simpa [isFastPa] using fun h : a < top => Nat.lt_of_lt_of_le h ht
  show Option.getD (Map.find? (List.filter (fun c => !(isFastPa c.1 && decide (c.1 < top))) s.mem) a) _ = _
  rw [Map.find?_filter_number s.mem (fun a => !(isFastPa a && decide (a < top))) a, hfast]
  by_cases h : a < top
  · simp [h, Mem.unlisted]
  · simp [h, Mem.byte, Map.getD]

/-- MEMCFG_CHANGE_COMPLETE puts the new values in force; another interleaving clears the fast tier outside the tier cache
(R533). -/
theorem execMemcfgChangeComplete_change {s : State} {c : MemChange} (h : s.ms.change = some c) :
    ∃ t, exec .memcfgChangeComplete s = .next t ∧ t.ms.change = none ∧ t.ms.ilv = c.ilv ∧ t.ms.tcsize = c.tcsize ∧
      (c.tcsize = s.ms.tcsize → t.ms.tcache = s.ms.tcache) ∧ (c.tcsize ≠ s.ms.tcsize → t.ms.tcache = []) ∧
      (c.ilv = s.ms.ilv → t.mem = s.mem) ∧
      (c.ilv ≠ s.ms.ilv → s.mem.wf = true → ∀ a,
        t.mem.byte a = if a < 768 * gb - c.tcsize * gb then 0 else s.mem.byte a) := by
  have hrun : exec .memcfgChangeComplete s = .next (
      let u := s.modMs (fun m => { m with
        change := none, ilv := c.ilv, tcsize := c.tcsize, tcache := if c.tcsize = m.tcsize then m.tcache else [] })
      if c.ilv ≠ s.ms.ilv then u.zeroFast (768 * gb - c.tcsize * gb) else u) := by
    show execMemcfgChangeComplete s = _
    simp only [execMemcfgChangeComplete, h]
  by_cases hi : c.ilv = s.ms.ilv
  · rw [if_neg (not_not.mpr hi)] at hrun
    exact ⟨_, hrun, rfl, rfl, rfl, fun ht => if_pos ht, fun ht => if_neg ht, fun _ => rfl, fun hne => absurd hi hne⟩
  · rw [if_pos hi] at hrun
    exact ⟨_, hrun, rfl, rfl, rfl, fun ht => if_pos ht, fun ht => if_neg ht, fun he => absurd he hi,
      fun _ _ => byte_zeroFast (Nat.sub_le ..)⟩

/-! Neighbour refresh and keys (R516, R529 to R531) -/

/-- NRSEED by the semaphore's owner seeds every generator: by its formula under NRTEST, else with open values
(R530). -/
theorem execNrseed_owner {s : State} {port : Nat} (val : DWord) (hr : s.pkg.ready = true) (hp : port < 2)
    (ho : s.helm.sems.find? 4 = some port) : ∃ t, exec (.nrseed port val) s = .next t ∧ t.ms.nrseed = val ∧
      (s.ms.nrtest = true → ∀ pc, pc < 768 → t.ms.nrgen.getD pc 0 = testSeed val pc) ∧
      (s.ms.nrtest = false → ∀ pc, pc < 768 → t.ms.nrgen.getD pc 0 = Config.freeWord (s.fresh + pc)) := by
  refine ⟨_, congrArg Host.Outcome.next (guarded_owner _ hr hp ho), ?_⟩
  cases ht : s.ms.nrtest with
  | true =>
    simp only [State.reseed, State.modMs_ms, ht, if_true]
    exact ⟨trivial, fun _ _ h => getD_generators _ h, fun h => nomatch h⟩
  | false =>
    simp only [State.reseed, State.modMs_ms, ht, Bool.false_eq_true, if_false]
    exact ⟨trivial, fun h => (nomatch h), fun _ _ h => getD_generators _ h⟩

/-- KEYDATA by the semaphore's owner fills its buffer, and its last double word loads slot KEYSEL (R516, R531). -/
theorem execKeydata_owner {s : State} {port k : Nat} (val : DWord) (hk : k < 8) (hr : s.pkg.ready = true) (hp : port < 2)
    (ho : s.helm.sems.find? 4 = some port) :
    ∃ t, exec (.keydata port (0x50 + 8 * k) val) s = .next t ∧ t.ms.keyBuf.getD k 0 = val ∧
      (k < 7 → t.ms.keys = s.ms.keys ∧ t.pkg = s.pkg) ∧
      (k = 7 → t.ms.keys.getD s.ms.keysel 0 = keyPair (s.ms.keyBuf.put 0 7 val) ∧
        (∀ j, j ≠ s.ms.keysel → t.ms.keys.getD j 0 = s.ms.keys.getD j 0) ∧ s.ms.keysel ∈ t.pkg.loaded) := by
  have hword : (0x50 + 8 * k - 0x50) / 8 = k := by omega
  have hrun : exec (.keydata port (0x50 + 8 * k) val) s = .next (
      let u := s.modMs (fun m => { m with keyBuf := m.keyBuf.put 0 k val })
      if 0x50 + 8 * k = 0x88 then
        { u.modMs (fun m => { m with keys := m.keys.put 0 m.keysel (keyPair m.keyBuf) }) with
          pkg := { s.pkg with loaded := if s.pkg.loaded.contains s.ms.keysel then s.pkg.loaded
            else s.pkg.loaded ++ [s.ms.keysel] } }
      else u) := by
    refine congrArg Host.Outcome.next ((if_neg (by omega)).trans ((guarded_owner _ hr hp ho).trans ?_))
    simp only [hword]
    rfl
  have hbuf : (s.ms.keyBuf.put 0 k val).getD k 0 = val := (Map.getD_put ..).trans (if_pos rfl)
  rcases Nat.lt_or_eq_of_le (Nat.le_of_lt_succ hk) with hlt | rfl
  · rw [if_neg (by omega)] at hrun
    exact ⟨_, hrun, hbuf, fun _ => ⟨rfl, rfl⟩, fun h => absurd h (Nat.ne_of_lt hlt)⟩
  · rw [if_pos rfl] at hrun
    refine ⟨_, hrun, hbuf, fun h => absurd h (Nat.lt_irrefl 7), fun _ => ⟨?_, fun j hj => ?_, ?_⟩⟩
    · simp only [State.modMs_ms, Map.getD_put, if_true]
    · simp only [State.modMs_ms, Map.getD_put, if_neg hj]
    · show s.ms.keysel ∈ if s.pkg.loaded.contains s.ms.keysel then s.pkg.loaded else s.pkg.loaded ++ [s.ms.keysel]
      split_ifs with h
      · exact List.contains_iff_mem.mp h
      · simp

/-- ROW_ACTIVATE steps the generator, and refreshes the neighbours of the row where its low bits are 0 (R529). -/
theorem execRowActivate_channel {s : State} {pc : Nat} (bank row : Nat) {w : Word} (hpc : pc < 768)
    (hw : w = nrStep (s.ms.nrgen.getD pc 0)) :
    ∃ t, exec (.rowActivate pc bank row) s = .next t ∧ t.ms.nrgen.getD pc 0 = w ∧
      (∀ j, j ≠ pc → t.ms.nrgen.getD j 0 = s.ms.nrgen.getD j 0) ∧
      (w.toNat % 2 ^ s.ms.nrk ≠ 0 → t.ms.refreshed = s.ms.refreshed) ∧
      (w.toNat % 2 ^ s.ms.nrk = 0 → 0 < row →
        t.ms.refreshed = s.ms.refreshed ++ [(pc, bank, row - 1), (pc, bank, row + 1)]) ∧
      (w.toNat % 2 ^ s.ms.nrk = 0 → row = 0 → t.ms.refreshed = s.ms.refreshed ++ [(pc, bank, 1)]) := by
  have hrun : exec (.rowActivate pc bank row) s = .next (s.modMs (fun m => { m with
      nrgen := m.nrgen.set pc w
      refreshed := m.refreshed ++ (if w.toNat % 2 ^ m.nrk = 0 then
        (if 0 < row then [(pc, bank, row - 1)] else []) ++ [(pc, bank, row + 1)] else []) })) := by
    subst hw
    exact congrArg Host.Outcome.next (if_neg (Nat.not_le.mpr hpc))
  refine ⟨_, hrun, ?_, fun j hj => ?_, fun h => ?_, fun h hrow => ?_, fun h hrow => ?_⟩
  · exact congrArg (Option.getD · 0) (Map.find?_set_self s.ms.nrgen pc w)
  · exact congrArg (Option.getD · 0) (Map.find?_set_other s.ms.nrgen pc j w hj)
  · simp [h]
  · simp [h, hrow]
  · simp [h, hrow]

/-- Settles O48: each event by the branch of its function that the premises choose. -/
theorem memoryWindowEvents : Obligations.MemoryWindowEvents := by
  unfold Obligations.MemoryWindowEvents
  refine ⟨fun port val s hr hp ho => ?_, fun s h => ?_, fun _ _ _ h => execInvalidationComplete_oldest h,
    fun port val s hr hp ho => ⟨fun h => execMemcfg_refused val hr hp ho (.inl h), execMemcfg_refresh val hr hp ho,
      fun h => execMemcfg_refused val hr hp ho (.inr h), execMemcfg_change val hr hp ho⟩,
    fun _ _ h => execMemcfgChangeComplete_change h, fun s h => ?_, fun _ val _ hr hp ho => execNrseed_owner val hr hp ho,
    fun _ _ val _ hk hr hp ho => execKeydata_owner val hk hr hp ho,
    fun _ bank row _ _ hpc hw => execRowActivate_channel bank row hpc hw⟩
  · refine congrArg Host.Outcome.next ((guarded_owner _ hr hp ho).trans ?_)
    simp [bits, bit, BitVec.getLsbD]
  · show execInvalidationComplete s = _
    simp only [execInvalidationComplete, h]
  · show execMemcfgChangeComplete s = _
    simp only [execMemcfgChangeComplete, h]

end Sys2Proof.Machine

namespace Sys2Proof.Machine

/-! ### Keys of ordered packets and their order (R481)

`pkLt b a = false` reads as: `a` does not come after `b`. -/

/-- Keys compare by stamp, source and sequence number (R481). -/
theorem pkLt_iff (a b : PKey) : pkLt a b = true ↔ (a.stamp < b.stamp ∨ (a.stamp = b.stamp ∧ (a.src < b.src ∨
    (a.src = b.src ∧ a.seq < b.seq)))) := by
  simp [pkLt]

theorem pkLt_irrefl (a : PKey) : pkLt a a = false := by
  rw [← Bool.not_eq_true, pkLt_iff]
  omega

theorem pkLt_asymm {a b : PKey} (h : pkLt a b = true) : pkLt b a = false := by
  rw [← Bool.not_eq_true]
  rw [pkLt_iff] at *
  omega

/-- The order is total: not to come after is transitive. -/
theorem not_pkLt_trans {a b c : PKey} (h : pkLt b a = false) (k : pkLt c b = false) : pkLt c a = false := by
  rw [← Bool.not_eq_true, pkLt_iff] at *
  omega

/-- The packet of the smaller key, as `smallestOf` keeps it. -/
def smallerOf (b : Option Queued) (q : Queued) : Option Queued :=
  match b with
  | none => some q
  | some x => if pkLt q.pkt.key x.pkt.key then some q else some x

theorem smallestOf_eq (qs : List Queued) : smallestOf qs = qs.foldl smallerOf none := rfl

/-- The smaller of two packets is one of them, and comes after neither. -/
theorem smallerOf_some (y x : Queued) : ∃ z, smallerOf (some y) x = some z ∧ (z = y ∨ z = x) ∧
    pkLt y.pkt.key z.pkt.key = false ∧ pkLt x.pkt.key z.pkt.key = false := by
  by_cases h : pkLt x.pkt.key y.pkt.key = true
  · exact ⟨x, if_pos h, .inr rfl, pkLt_asymm h, pkLt_irrefl _⟩
  · exact ⟨y, if_neg h, .inl rfl, pkLt_irrefl _, by simpa using h⟩

/-- The smallest packet of a list, from one packet on, is that packet or one of the list, and comes after none of them. -/
theorem foldl_smallerOf (qs : List Queued) (y : Queued) : ∃ z, qs.foldl smallerOf (some y) = some z ∧ z ∈ y :: qs ∧
    ∀ x ∈ y :: qs, pkLt x.pkt.key z.pkt.key = false := by
  induction qs generalizing y with
  | nil => exact ⟨y, rfl, by simp, by simp [pkLt_irrefl]⟩
  | cons x qs ih =>
    obtain ⟨w, hw, hmem, hy, hx⟩ := smallerOf_some y x
    obtain ⟨z, hz, hzmem, hall⟩ := ih w
    have hwz := hall w List.mem_cons_self
    refine ⟨z, by rw [List.foldl_cons, hw, hz], ?_, ?_⟩
    · rcases List.mem_cons.mp hzmem with rfl | hin
      · rcases hmem with rfl | rfl <;> simp
      · simp [hin]
    · simp only [List.forall_mem_cons]
      exact ⟨not_pkLt_trans hwz hy, not_pkLt_trans hwz hx, fun u hu => hall u (List.mem_cons_of_mem _ hu)⟩

/-- The packet of the smallest key is one of those it is chosen from, and comes after none of them (R483). -/
theorem smallestOf_least {qs : List Queued} {q : Queued} (h : smallestOf qs = some q) :
    q ∈ qs ∧ ∀ x ∈ qs, pkLt x.pkt.key q.pkt.key = false := by
  rw [smallestOf_eq] at h
  cases qs with
  | nil => simp at h
  | cons y qs =>
    obtain ⟨z, hz, hmem, hall⟩ := foldl_smallerOf qs y
    cases hz.symm.trans h
    exact ⟨hmem, hall⟩

/-! ### Horizons (R482, R489) -/

/-- The horizon that a promise of `k` leaves: the larger of it and the horizon so far. -/
def raisedTo (old : Option PKey) (k : PKey) : PKey :=
  match old with
  | some h => if pkLt h k then k else h
  | none => k

/-- A raised horizon comes neither before the promise nor before the horizon so far. -/
theorem raisedTo_reaches (old : Option PKey) (k : PKey) :
    pkLt (raisedTo old k) k = false ∧ ∀ h, old = some h → pkLt (raisedTo old k) h = false := by
  cases old with
  | none => exact ⟨pkLt_irrefl k, by simp⟩
  | some h =>
    simp only [Option.some.injEq, forall_eq']
    by_cases hlt : pkLt h k = true
    · rw [raisedTo, if_pos hlt]
      exact ⟨pkLt_irrefl k, pkLt_asymm hlt⟩
    · rw [raisedTo, if_neg hlt]
      exact ⟨by simpa using hlt, pkLt_irrefl h⟩

/-- Whether the input is unfenced or not, its horizon is the raised one. -/
theorem raise_horizon (m : Mer) (inp space : Nat) (k : PKey) : (m.raise inp space k).horizon.find? (linkSpace inp space) =
    some (raisedTo (m.horizon.find? (linkSpace inp space)) k) := by
  have hset : (m.raise inp space k).horizon = m.horizon.set (linkSpace inp space)
      (raisedTo (m.horizon.find? (linkSpace inp space)) k) := by
    cases hold : m.horizon.find? (linkSpace inp space) <;>
      simp only [Mer.raise, hold, raisedTo, apply_ite Mer.horizon, ite_self]
  rw [hset, Map.find?_set_self]

/-! ### Packets that arrive and beacons (R475, R480, R482, R485) -/

section HuaxelPort
variable {s : State} {inp : Nat} {p : NetPort} (hi : inp < 16) (hf : s.mer.ports.find? inp = some p) (hu : p.up = true)
  (hh : p.huaxel = true)
include hf hu hh

/-- A port that is up with a Huaxel partner, as ordered packets and beacons ask for it. -/
theorem huaxel_up : (s.mer.ports.find? inp).any (fun p => p.up && p.huaxel) = true := by simp [hf, hu, hh]

include hi

/-- A packet that another endpoint sent, and that its input may bring, enters the switch (R482). -/
theorem execOrderedPacketArrival_port {pkt : Packet} (ha : s.mer.active = true)
    (hpkt : pkt.ord = true ∧ pkt.key.src ≠ s.mer.mepid ∧ pkt.key.src < 8192 ∧ pkt.kind ≠ 1 ∧ pkt.kind < 7 ∧
      (pkt.late = true ∨ s.mer.fenced.contains (inp, pkt.space) = true ∨
        (s.mer.horizon.find? (linkSpace inp pkt.space)).all (fun h => pkLt h pkt.key) = true)) :
    exec (.orderedPacketArrival inp pkt) s = .next (s.enter inp pkt) := by
  show execOrderedPacketArrival inp pkt s = _
  rw [execOrderedPacketArrival, if_neg (not_not.mpr ha), if_pos hi, if_pos ⟨huaxel_up hf hu hh, hpkt⟩]

/-- A beacon of one enabled space raises the horizon it names (R485). -/
theorem execBeacon_port {space : Nat} (key : PKey) (ha : s.mer.active = true) (he : s.mer.enabled space = true) :
    exec (.beacon inp [(space, key)]) s = .next (s.modMer (fun m => m.raise inp space key)) := by
  show execBeacon inp [(space, key)] s = _
  have hgo : ¬(¬s.mer.active = true ∨ 18 ≤ inp ∨ (inp < 16 ∧
      ¬(s.mer.ports.find? inp).any (fun p => p.up && p.huaxel) = true)) := by
    simp [ha, huaxel_up hf hu hh, Nat.lt_of_lt_of_le hi (by decide : 16 ≤ 18)]
  rw [execBeacon, if_neg hgo, List.foldl_cons, List.foldl_nil, if_pos ⟨he, .inl hi⟩]

end HuaxelPort

/-- On a die's input the staged packet that the arrival names is injected when it may be (R480). -/
theorem execOrderedPacketArrival_die {s : State} {inp : Nat} {pkt staged : Packet} (ha : s.mer.active = true)
    (hi : 16 ≤ inp) (hf : s.mer.staged.find? (fun p => p.reply = pkt.reply) = some staged)
    (hin : s.inputOf staged.reply = inp) :
    exec (.orderedPacketArrival inp pkt) s = .next (if s.injectable staged = true then s.inject staged else s) := by
  show execOrderedPacketArrival inp pkt s = _
  rw [execOrderedPacketArrival, if_neg (not_not.mpr ha), if_neg (Nat.not_lt.mpr hi)]
  simp only [hf, hin, true_and]

/-- A packet without an output is told 0x80 to its source (R475). -/
theorem enter_noRoute {s : State} {p : Packet} (inp : Nat) (h : s.mer.outputFor p = none) :
    s.enter inp p = (s.tellOf p 0x80).modMer (fun m => m.raise inp p.space p.key) := by
  simp only [State.enter, h]

/-- What becomes of a packet that has an output (R475, R480, R482, R489). -/
theorem enter_output {s : State} {p : Packet} {out : Nat} (inp : Nat) (h : s.mer.outputFor p = some out) :
    s.enter inp p = (if s.mer.enabled p.space = false then s.tellOf p 0x80
      else if s.mer.late inp out p = true then s.lateMark out p
      else s.modMer (fun m => { m with queued := m.queued ++ [{ out := out, inp := inp, pkt := p }] })).modMer
        (fun m => m.raise inp p.space p.key) := by
  simp only [State.enter, h, Bool.not_eq_true]

/-- A packet that is numbered here bears the package as its source and the space's next sequence number, and in wall time
Meridian time as its stamp (R480, R481). -/
theorem number_key (p : Packet) (s : State) : (s.number p).2.key.src = s.mer.mepid ∧
    (s.number p).2.key.seq = (s.mer.seq.getD p.space 0).toNat ∧
    (s.number p).1.mer.seq.getD p.space 0 = s.mer.seq.getD p.space 0 + 1 ∧
    (4096 ≤ p.space → (s.number p).2.key.stamp = p.key.stamp) ∧
    (p.space < 4096 → (s.number p).2.key.stamp = s.tick.mer.time.toNat) := by
  by_cases hw : p.space < 4096
  · refine ⟨?_, ?_, ?_, fun h => absurd hw (Nat.not_lt.mpr h), fun _ => ?_⟩ <;>
      simp [State.number, State.tick, hw, Map.getD_put]
  · refine ⟨?_, ?_, ?_, fun _ => ?_, fun h => absurd h hw⟩ <;> simp [State.number, hw, Map.getD_put]

/-- The promise of an output, in wall time and in the logical spaces, is sent where there is one (R484, R485). -/
theorem execBeaconSend_huaxel {s : State} {out : Nat} {p : NetPort} (ha : s.mer.active = true) (ho : out < 16)
    (hf : s.mer.ports.find? out = some p) (hh : p.huaxel = true) :
    let u := s.tick
    let wall := u.beaconDue out 0
    let logs := u.mer.logicals.filterMap (fun sp => (u.beaconDue out sp).map (fun k => (sp, k)))
    exec (.beaconSend out) s = .next (if wall = none ∧ logs = [] then u
      else u.send out (.packet (beaconPacket u.mer.mepid wall logs))) := by
  show execBeaconSend out s = _
  have hgo : ¬(¬s.mer.active = true ∨ 16 ≤ out ∨ ¬(s.mer.ports.find? out).any (fun p => p.huaxel) = true) := by
    simp [ha, hf, hh, ho]
  rw [execBeaconSend, if_neg hgo]
  simp only [Option.isNone_iff_eq_none, List.isEmpty_iff]

/-! ### Ordered emission (R483, R487) -/

section Emission
variable {s : State} {out space : Nat} {q : Queued} (hq : smallestOf (s.mer.queuedFor out space) = some q)
include hq

/-- What keeps the smallest packet of an output back leaves everything as it is. -/
theorem execOrderedEmit_held (h : s.mer.active = false ∨ s.emittable out space q.pkt.key = false ∨
    s.mer.leads out space q.pkt.key = false) : exec (.orderedEmit out space) s = .next s := by
  show execOrderedEmit out space s = _
  simp only [execOrderedEmit, hq]
  rw [if_neg (by rintro ⟨ha, he, hl, -⟩; simp [ha, he, hl] at h)]

variable (ha : s.mer.active = true) (he : s.emittable out space q.pkt.key = true)
  (hl : s.mer.leads out space q.pkt.key = true)
include ha he hl

/-- An output to a die hands its smallest packet to the package's own endpoint. -/
theorem execOrderedEmit_die (ho : 16 ≤ out) : exec (.orderedEmit out space) s =
    .next ((s.modMer (fun m => { m with
        queued := m.queued.erase q, last := m.last.set (linkSpace out space) q.pkt.key })).modMer (fun m =>
      { m with inbound := m.inbound ++ [q.pkt] })) := by
  show execOrderedEmit out space s = _
  simp only [execOrderedEmit, hq]
  rw [if_pos ⟨ha, he, hl, .inl ho⟩, if_pos ho]

/-- The output of a port that is up puts its smallest packet on the link. -/
theorem execOrderedEmit_port {p : NetPort} (ho : out < 16) (hf : s.mer.ports.find? out = some p) (hu : p.up = true) :
    exec (.orderedEmit out space) s = .next ((s.modMer (fun m => { m with
      queued := m.queued.erase q, last := m.last.set (linkSpace out space) q.pkt.key })).send out (.packet q.pkt)) := by
  show execOrderedEmit out space s = _
  simp only [execOrderedEmit, hq]
  rw [if_pos ⟨ha, he, hl, .inr (port_up hf hu)⟩, if_neg (Nat.not_le.mpr ho)]

end Emission

/-! ### Stalls (R488, R490) -/

/-- An input that holds a packet back is fenced, and every reachable endpoint and the own one get a notice (R488). -/
theorem execStallDeclare_held {s : State} {inp space : Nat} (ha : s.mer.active = true)
    (hi : s.mer.inputs.contains inp = true) (hf : s.mer.fenced.contains (inp, space) = false)
    (hh : s.mer.queued.any (fun q => q.pkt.space == space &&
      !(s.mer.queuedFor q.out space).any (fun x => x.inp == inp) && !s.promises inp space q.pkt.key) = true) :
    let u := s.modMer (fun m => { m with fenced := m.fenced ++ [(inp, space)], stall := true })
    exec (.stallDeclare inp space) s = .next ((u.mer.mepid :: u.mer.reached).foldl (fun t d =>
      t.switchSend 5 space ((u.sourceStamp space).getD 0) d 0 0 0 []) u) :=
  congrArg Host.Outcome.next (if_pos ⟨ha, hi, by rw [hf]; exact Bool.false_ne_true, hh⟩)

/-- A stall notice that comes next is taken in and noted (R490). -/
theorem execStallNotice_next {s : State} {space : Nat} {p : Packet} (ha : s.mer.active = true)
    (hn : s.mer.nextIn space = some p) (hk : p.kind = 5) :
    exec (.stallNotice space) s = .next ((s.takeIn p).noteStall p) := by
  have hit : (s.mer.nextIn space).filter (fun p => s.mer.active && p.kind == 5) = some p := by simp [hn, ha, hk]
  show execStallNotice space s = _
  simp only [execStallNotice, hit]

/-- Settles O45: each event by the branch of its function that the premises choose, horizons and the smallest packet by the
total order of keys. -/
theorem orderedSwitch : Obligations.OrderedSwitch := by
  unfold Obligations.OrderedSwitch
  exact ⟨fun _ _ _ _ ha hi hf hu hh ho hs hs' hk hk' hr =>
      execOrderedPacketArrival_port hi hf hu hh ha ⟨ho, hs, hs', hk, hk', hr⟩,
    fun _ _ _ _ ha hi hf hin => execOrderedPacketArrival_die ha hi hf hin,
    fun inp _ _ h => enter_noRoute inp h,
    fun inp _ _ _ h => enter_output inp h,
    number_key,
    fun _ _ key _ _ ha hi hf hu hh he => execBeacon_port hi hf hu hh key ha he,
    fun m inp space k => ⟨_, raise_horizon m inp space k, raisedTo_reaches _ k⟩,
    fun _ _ _ ha ho hf hh => execBeaconSend_huaxel ha ho hf hh,
    fun _ _ _ _ ha hq he hl =>
      ⟨execOrderedEmit_die hq ha he hl, fun _ ho hf hu => execOrderedEmit_port hq ha he hl ho hf hu⟩,
    fun _ _ _ _ hq h => execOrderedEmit_held hq h,
    fun _ _ h => smallestOf_least h,
    fun _ _ _ ha hi hf hh => execStallDeclare_held ha hi hf hh,
    fun _ _ _ ha hn hk => execStallNotice_next ha hn hk,
    pkLt_iff⟩

end Sys2Proof.Machine

namespace Sys2Proof.Machine

/-! ### Delivery queues (R477, R491) -/

@[simp] theorem State.putByte_mer (s : State) (p : Place) (b : Byte) : (s.putByte p b).mer = s.mer := by
  have hlog : (s.logByte p).mer = s.mer := by unfold State.logByte; split <;> rfl
  have hstale : ∀ (t : State) sp lo hi, (t.markStale sp lo hi).mer = t.mer := by
    intro t sp lo hi; unfold State.markStale; split <;> rfl
  have hwritten : ∀ (t : State) pa, (t.markWritten pa).mer = t.mer := by
    intro t pa; unfold State.markWritten; split <;> rfl
  obtain ⟨sp, a⟩ := p
  cases sp with
  | global => exact (sameAgents_physStore _ a [b]).mer.trans ((hwritten _ a).trans hlog)
  | spad c => exact (hstale _ _ _ _).trans hlog
  | wbuf c => exact (hstale _ _ _ _).trans hlog

@[simp] theorem State.putBytes_mer (s : State) (ps : List (Place × Byte)) : (s.putBytes ps).mer = s.mer := by
  induction ps generalizing s with
  | nil => rfl
  | cons e ps ih => exact (ih (s.putByte e.1 e.2)).trans (State.putByte_mer s e.1 e.2)

theorem dqueue_congr {s t : State} (h : t.mer = s.mer) (q : Nat) : t.dqueue q = s.dqueue q := by
  unfold State.dqueue
  rw [h]

theorem dqueue_modDqueue_self (s : State) (q : Nat) (f : DQueue → DQueue) :
    (s.modDqueue q f).dqueue q = f (s.dqueue q) :=
  (Map.getD_put s.mer.queues DQueue.empty q q _).trans (if_pos rfl)

/-- A stored message is the last of its queue (R491). -/
theorem storeMsg_msgs (s : State) (q : Nat) (m : Msg) : ((s.storeMsg q m).dqueue q).msgs = (s.dqueue q).msgs ++ [m] := by
  unfold State.storeMsg
  rw [dqueue_modDqueue_self, dqueue_congr ((State.putBytes_mer ..).trans (sameAgents_touchPlaces ..).mer)]

/-- A queue that is not enabled takes no message. -/
theorem arrive_disabled {s : State} {q : Nat} (space : Nat) (m : Msg) (h : s.mer.qEn q = false) :
    s.arrive q space m = .refused :=
  if_pos (.inl (by simp [h]))

/-- An enabled queue with room stores a message that its order permits (R491). -/
theorem arrive_room {s : State} {q space : Nat} {m : Msg} (he : s.mer.qEn q = true)
    (ho : s.mer.qOrd q = true → m.ord = true ∧ s.mer.qSpace q = space) (hs : ringBytes m.payload.length ≤ s.mer.qSize q)
    (hr : (s.dqueue q).used + ringBytes m.payload.length ≤ s.mer.qSize q) :
    s.arrive q space m = .stored (s.storeMsg q m) := by
  unfold State.arrive
  rw [if_neg, if_neg (Nat.not_lt.mpr hr)]
  rintro (h | ⟨hq, h⟩ | h)
  · exact h he
  · exact h (ho hq)
  · exact Nat.not_lt.mpr hs h

/-! ### Messages and ordered puts (R473, R487, R491) -/

theorem lenOk_iff (put : Bool) (n : Nat) : lenOk put n = true ↔ 1 ≤ n ∧ n ≤ if put then 16777216 else 65536 := by
  simp [lenOk]

/-- The message that a packet of the ordered class brings (R492). -/
def orderedMsg (pkt : Packet) : Msg :=
  { src := pkt.key.src, stamp := pkt.key.stamp, ord := true, logical := decide (4096 ≤ pkt.space), payload := pkt.payload }

section Delivery
variable {s : State} {pkt : Packet} (ha : s.mer.active = true) (hk : pkt.kind = 0) (hd : pkt.dest = s.mer.mepid)
include ha hk hd

/-- The endpoint is active, and the packet brings it a message or a put. -/
theorem delivery_due : ¬(¬s.mer.active = true ∨ pkt.kind ≠ 0 ∨ pkt.dest ≠ s.mer.mepid) := by simp [ha, hk, hd]

/-- Another endpoint's unordered message of a supported length is delivered as it comes, stamped here (R491). -/
theorem execMessageDelivery_unordered (ho : pkt.ord = false) (hsrc : pkt.key.src ≠ s.mer.mepid)
    (hl : lenOk false pkt.payload.length = true) : exec (.messageDelivery pkt) s = .next (s.deliver s.tick pkt
      { src := pkt.key.src, stamp := s.tick.mer.time.toNat, ord := false, logical := false, payload := pkt.payload }
      (fun t => t.modMer (fun m => { m with flight := m.flight.erase pkt }))) := by
  show execMessageDelivery pkt s = _
  rw [execMessageDelivery, if_neg (delivery_due ha hk hd), if_neg (by simp [ho]), if_neg (fun h => hsrc h.1),
    if_neg (not_not.mpr hl)]

variable (ho : pkt.ord = true)
include ho

/-- An ordered packet whose turn has not come stays where it is (R487). -/
theorem execMessageDelivery_early (hn : s.mer.nextIn pkt.space ≠ some pkt) : exec (.messageDelivery pkt) s = .next s := by
  show execMessageDelivery pkt s = _
  rw [execMessageDelivery, if_neg (delivery_due ha hk hd), if_pos ho, if_pos hn]

variable (hn : s.mer.nextIn pkt.space = some pkt)
include hn

/-- A length that is not supported is refused (R473). -/
theorem execMessageDelivery_badLength (hl : lenOk (pkt.queue == 64) pkt.payload.length = false) :
    exec (.messageDelivery pkt) s = .next ((s.takeIn pkt).tell pkt.key.src pkt.reply pkt.dest 0x81 []) := by
  show execMessageDelivery pkt s = _
  rw [execMessageDelivery, if_neg (delivery_due ha hk hd), if_pos ho, if_neg (not_not.mpr hn), if_pos (by simp [hl])]

/-- An ordered put is served, and its source told (R478, R491). -/
theorem execMessageDelivery_put (hq : pkt.queue = 64) (hl : lenOk true pkt.payload.length = true) {u : State} {b : Bool}
    (hserve : (s.takeIn pkt).servePut pkt.asid pkt.addr pkt.payload = (u, b)) :
    exec (.messageDelivery pkt) s = .next (u.tell pkt.key.src pkt.reply pkt.dest (if b then 0 else 0x81) []) := by
  show execMessageDelivery pkt s = _
  rw [execMessageDelivery, if_neg (delivery_due ha hk hd), if_pos ho, if_neg (not_not.mpr hn), if_neg (by simp [hq, hl]),
    if_pos hq]
  simp only [hserve]

/-- An ordered message in its turn is delivered to its queue (R487, R491). -/
theorem execMessageDelivery_message (hq : pkt.queue ≠ 64) (hl : lenOk false pkt.payload.length = true) :
    exec (.messageDelivery pkt) s = .next (s.deliver s pkt (orderedMsg pkt) (fun t => t.takeIn pkt)) := by
  show execMessageDelivery pkt s = _
  rw [execMessageDelivery, if_neg (delivery_due ha hk hd), if_pos ho, if_neg (not_not.mpr hn),
    if_neg (by simp [beq_false_of_ne hq, hl]), if_neg hq]
  rfl

end Delivery

/-! ### Puts and gets (R478) -/

/-- What an up port brings of another endpoint is performed. -/
theorem execPutGetServe_port {s : State} {inp src : Nat} {p : NetPort} (req : PutGet) (reply : Nat)
    (ha : s.mer.active = true) (hi : inp < 16) (hs : src ≠ s.mer.mepid) (hlt : src < 8192)
    (hf : s.mer.ports.find? inp = some p) (hu : p.up = true) :
    exec (.putGetServe inp src req reply) s = .next (s.performAsk src reply req) := by
  show execPutGetServe inp src req reply s = _
  rw [execPutGetServe, if_neg (not_not.mpr ha), if_pos hi, if_pos ⟨hs, hlt, port_up hf hu⟩]

/-- What the package has asked of itself is performed, once no earlier ROD command has to go first (R473). -/
theorem execPutGetServe_own {s : State} {inp : Nat} {req : PutGet} {reply : Nat} (ha : s.mer.active = true) (hi : 16 ≤ inp)
    (hin : s.mer.asked.contains (reply, req) = true) (hw : s.rodWaits reply [s.mer.mepid] false = false) :
    exec (.putGetServe inp s.mer.mepid req reply) s = .next
      ((s.modMer (fun m => { m with asked := m.asked.erase (reply, req) })).performAsk s.mer.mepid reply req) := by
  show execPutGetServe inp s.mer.mepid req reply s = _
  rw [execPutGetServe, if_neg (not_not.mpr ha), if_neg (Nat.not_lt.mpr hi), if_pos ⟨rfl, hin, by simp [hw]⟩]

/-- A put that no entry of the exposure table covers is not performed. -/
theorem servePut_unexposed {s : State} {asid addr : Nat} {data : List Byte}
    (h : (s.exposed asid addr data.length true).2 = false) :
    s.servePut asid addr data = ((s.exposed asid addr data.length true).1, false) := by
  simp only [State.servePut, h, Bool.false_eq_true, false_and, if_false]

/-- A get that no entry of the exposure table covers is not performed. -/
theorem serveGet_unexposed {s : State} {asid addr n : Nat} (h : (s.exposed asid addr n false).2 = false) :
    s.serveGet asid addr n = ((s.exposed asid addr n false).1, none) := by
  simp only [State.serveGet, h, Bool.false_eq_true, if_false]

/-! ### Contributions to a round (R493, R495) -/

/-- A packet's contribution, and the name of the round it is for: ASID, COLL and ROUND. -/
def contributionOf (pkt : Packet) : Contribution := { key := pkt.key, reply := pkt.reply, data := (redFields pkt).2 }
def roundName (pkt : Packet) : Nat × Nat × Nat :=
  (pkt.asid, (redFields pkt).1.getD 0 0, (redFields pkt).1.getD 1 0)

section Contributions
variable {s : State} {pkt : Packet} (ha : s.mer.active = true) (hk : pkt.kind = 2)
  (hn : s.mer.nextIn pkt.space = some pkt)
include ha hk hn

/-- The endpoint is active, and a contribution is what it takes in next. -/
theorem contribution_due : ¬(¬s.mer.active = true ∨ pkt.kind ≠ 2 ∨ s.mer.nextIn pkt.space ≠ some pkt) := by
  simp [ha, hk, hn]

/-- A contribution to a closed round is counted, and its source told (R495). -/
theorem execReductionContribution_closed (hc : s.mer.closed.contains (roundName pkt) = true) :
    exec (.reductionContribution pkt) s = .next
      (((s.takeIn pkt).modMer (fun m => { m with mrlate := m.mrlate + 1 })).abandonTo pkt.asid pkt.space
        (pkt.key.stamp + 1) (contributionOf pkt) false) :=
  congrArg Host.Outcome.next ((if_neg (contribution_due ha hk hn)).trans (if_pos hc))

variable (hc : s.mer.closed.contains (roundName pkt) = false)
include hc

/-- A contribution to an open round joins it (R493). -/
theorem execReductionContribution_joins
    (ho : s.mer.rounds.any (fun r => (r.asid, r.coll, r.round) = roundName pkt) = true) :
    exec (.reductionContribution pkt) s = .next ((s.takeIn pkt).modMer (fun m => { m with
      rounds := m.rounds.map (fun r => if (r.asid, r.coll, r.round) = roundName pkt
        then r.add (redFields pkt).1 (contributionOf pkt) else r) })) :=
  congrArg Host.Outcome.next ((if_neg (contribution_due ha hk hn)).trans
    ((if_neg (ne_true_of_eq_false hc)).trans (if_pos ho)))

/-- The first contribution to a round opens it (R493). -/
theorem execReductionContribution_opens
    (ho : s.mer.rounds.any (fun r => (r.asid, r.coll, r.round) = roundName pkt) = false) :
    ∃ t r, exec (.reductionContribution pkt) s = .next t ∧ t.mer.rounds = s.mer.rounds ++ [r] ∧
      (r.asid, r.coll, r.round) = roundName pkt ∧ r.contribs = [contributionOf pkt] ∧ r.bad = false :=
  ⟨_, _, congrArg Host.Outcome.next ((if_neg (contribution_due ha hk hn)).trans
    ((if_neg (ne_true_of_eq_false hc)).trans (if_neg (ne_true_of_eq_false ho)))), rfl, rfl, rfl, rfl⟩

end Contributions

/-! ### Contributions in ascending key order (R494) -/

theorem insertKey_perm (c : Contribution) (xs : List Contribution) : (insertKey c xs).Perm (c :: xs) := by
  induction xs with
  | nil => exact .refl _
  | cons x xs ih =>
    rw [insertKey]
    split
    · exact .refl _
    · exact (ih.cons x).trans (.swap c x xs)

/-- Contributions none of which comes after a later one. -/
def Ascending (cs : List Contribution) : Prop := cs.Pairwise (fun a b => pkLt b.key a.key = false)

theorem insertKey_ascending (c : Contribution) {xs : List Contribution} (h : Ascending xs) : Ascending (insertKey c xs) := by
  induction xs with
  | nil => exact List.pairwise_singleton _ c
  | cons x xs ih =>
    obtain ⟨hx, hxs⟩ := List.pairwise_cons.mp h
    rw [insertKey]
    split
    next hlt =>
      refine List.pairwise_cons.mpr ⟨List.forall_mem_cons.mpr ⟨pkLt_asymm hlt, fun y hy => ?_⟩, h⟩
      exact not_pkLt_trans (pkLt_asymm hlt) (hx y hy)
    next hge =>
      refine List.pairwise_cons.mpr ⟨fun y hy => ?_, ih hxs⟩
      rcases List.mem_cons.mp ((insertKey_perm c xs).mem_iff.mp hy) with rfl | hin
      · simpa using hge
      · exact hx y hin

/-- Insertion one by one keeps the contributions, and an ascending list ascending. -/
theorem foldl_insertKey (xs : List Contribution) {ys : List Contribution} (h : Ascending ys) :
    (xs.foldl (fun ys c => insertKey c ys) ys).Perm (xs ++ ys) ∧ Ascending (xs.foldl (fun ys c => insertKey c ys) ys) := by
  induction xs generalizing ys with
  | nil => exact ⟨.refl _, h⟩
  | cons x xs ih =>
    obtain ⟨hperm, hasc⟩ := ih (insertKey_ascending x h)
    exact ⟨hperm.trans (((insertKey_perm x ys).append_left xs).trans List.perm_middle), hasc⟩

/-! ### What becomes of a round (R494, R495, R500) -/

/-- A full round whose contributions have all been received sends every contributor the combined values (R494). -/
theorem execReductionCombine_full {s : State} {asid coll round : Nat} {r : RedRound} {cs : List Contribution}
    {l : Contribution} (ha : s.mer.active = true) (hr : s.mer.roundOf asid coll round = some r)
    (hcs : cs = r.contribs.foldl (fun xs c => insertKey c xs) []) (hl : cs.getLast? = some l)
    (hfull : r.bad = false ∧ cs.length = r.npart ∧ s.received r.space l.key = true) :
    exec (.reductionCombine asid coll round) s =
      .next (cs.foldl (fun s c => s.resultTo r (redResult r.op r.count cs) c) (s.modMer (fun m => m.closeRound r))) := by
  subst hcs
  show execReductionCombine asid coll round s = _
  simp only [execReductionCombine, hr, hl]
  rw [if_neg (by simp [ha, hfull])]

/-- An abandoned round tells every contributor (R495). -/
theorem execReductionAbandon_round {s : State} {asid coll round : Nat} {r : RedRound} {mismatch : Bool}
    (ha : s.mer.active = true) (hr : s.mer.roundOf asid coll round = some r) (hm : r.bad = mismatch) :
    exec (.reductionAbandon asid coll round mismatch) s =
      .next (r.contribs.foldl (fun s c => s.abandonTo r.asid r.space r.stamp c mismatch)
        (s.modMer (fun m => { m.closeRound r with abandon := true }))) := by
  show execReductionAbandon asid coll round mismatch s = _
  simp only [execReductionAbandon, hr]
  rw [if_neg (by simp [ha, hm])]

/-- What is taken in for a command is of the kind asked for, names the command, and is next in its space (R487). -/
theorem replyFor_some {m : Mer} {kind id : Nat} {p : Packet} (h : m.replyFor kind id = some p) :
    p.reply = id ∧ p.kind = kind ∧ m.active = true ∧ m.nextIn p.space = some p := by
  have hp := List.find?_some h
  simp only [Bool.and_eq_true, beq_iff_eq] at hp
  obtain ⟨⟨⟨hact, hkind⟩, hreply⟩, hnext⟩ := hp
  exact ⟨hreply, hkind, hact, hnext⟩

section Answers
variable {s : State} {id : Nat} {p : Packet} {c : Cmd} {n : Net} (hw : s.redWaits id = some (c, n))
include hw

/-- A result of the right length ends the NRED that waits for it (R494, R500). -/
theorem execReductionResult_taken (hp : s.mer.replyFor 3 id = some p) (hl : p.payload.length = n.len) :
    exec (.reductionResult id p.key.stamp p.payload) s =
      .next (((s.takeIn p).modNet id (fun n => n.bring p.payload 0)).keyNet id p.key.stamp) := by
  have hit : (s.mer.replyFor 3 id).filter (fun x => x.key.stamp == p.key.stamp && x.payload == p.payload) = some p := by
    simp [hp]
  show execReductionResult id p.key.stamp p.payload s = _
  simp only [execReductionResult, hit, hw]
  rw [if_neg (not_not.mpr hl)]

/-- An abandon notice ends the NRED that waits for a result (R495). -/
theorem execAbandonNotice_taken {mismatch : Bool} (hp : s.mer.replyFor 4 id = some p)
    (hq : p.queue = if mismatch then 1 else 0) :
    exec (.abandonNotice id mismatch) s =
      .next (((s.takeIn p).modNet id (fun n => n.answer 0 (if mismatch then 0x85 else 0x84))).keyNet id p.key.stamp) := by
  have hit : (s.mer.replyFor 4 id).filter (fun x => x.queue == b2n mismatch) = some p := by simp [hp, hq, b2n]
  show execAbandonNotice id mismatch s = _
  simp only [execAbandonNotice, hit, hw]

end Answers

/-- Settles O46: each event by the branch of its function that the premises choose, and the combined values by insertion
in key order. -/
theorem deliveryAndReductions : Obligations.DeliveryAndReductions := by
  unfold Obligations.DeliveryAndReductions
  refine ⟨fun pkt m t s ha hk hd ho hn hq h1 h2 hm => ?_,
    fun _ _ ha hk hd ho hn hl => execMessageDelivery_badLength ha hk hd ho hn hl,
    fun _ _ _ _ ha hk hd ho hn hq h1 h2 hserve =>
      execMessageDelivery_put ha hk hd ho hn hq ((lenOk_iff true _).mpr ⟨h1, h2⟩) hserve,
    fun _ _ ha hk hd ho hn => execMessageDelivery_early ha hk hd ho hn,
    fun _ _ ha hk hd ho hs h1 h2 => execMessageDelivery_unordered ha hk hd ho hs ((lenOk_iff false _).mpr ⟨h1, h2⟩),
    fun q space m s => ⟨arrive_disabled space m, fun he ho hs hr => ⟨_, arrive_room he ho hs hr, storeMsg_msgs s q m⟩⟩,
    fun _ _ req reply _ _ ha hi hs hlt hf hu => execPutGetServe_port req reply ha hi hs hlt hf hu,
    fun _ _ _ _ ha hi hin hw => execPutGetServe_own ha hi hin hw,
    fun _ _ _ _ h => servePut_unexposed h,
    fun _ _ _ _ h => serveGet_unexposed h,
    fun pkt s c ha hk hn hc => ?_,
    fun _ _ _ _ _ _ _ ha hr hcs hl hb hlen hrec => execReductionCombine_full ha hr hcs hl ⟨hb, hlen, hrec⟩,
    fun xs => ?_,
    fun _ _ _ _ _ _ ha hr hm => execReductionAbandon_round ha hr hm,
    fun _ _ _ _ _ hp hw hl => execReductionResult_taken hw hp hl,
    fun _ _ _ _ _ _ hp hq hw => execAbandonNotice_taken hw hp hq,
    fun _ _ _ _ h => replyFor_some h⟩
  · have hmsg : m = orderedMsg pkt := hm
    subst hmsg
    rw [execMessageDelivery_message ha hk hd ho hn hq ((lenOk_iff false _).mpr ⟨h1, h2⟩)]
    refine ⟨fun h => ?_, fun h => ?_, fun h => ?_⟩ <;> simp only [State.deliver, h]
  · have hcon : c = contributionOf pkt := hc
    subst hcon
    exact ⟨execReductionContribution_closed ha hk hn, execReductionContribution_joins ha hk hn,
      execReductionContribution_opens ha hk hn⟩
  · have h := foldl_insertKey xs (ys := []) List.Pairwise.nil
    rwa [List.append_nil] at h

end Sys2Proof.Machine

namespace Sys2Proof.Machine

/-! ### Bring-up (R535 to R538) -/

/-- New seeds change the generators and the free values alone. -/
theorem reseed_frame (s : State) : ∃ g n, s.reseed = { s with fresh := n, ms := { s.ms with nrgen := g } } := by
  unfold State.reseed
  split <;> exact ⟨_, _, rfl⟩

/-- RESET# leaves the fuse (R537). -/
theorem powerOn_fuse (s : State) : s.powerOn.pkg.fuse = s.pkg.fuse := by
  have hsame : SameButMemory s (s.lineKey.foldl (fun s e => s.retag 0 e.1) s) :=
    List.foldlRecOn _ _ (.refl s) fun _ h _ _ => h.trans (sameButMemory_retag ..)
  obtain ⟨_, _, _, _, ht⟩ := hsame
  show (s.lineKey.foldl (fun s e => s.retag 0 e.1) s).pkg.fuse = s.pkg.fuse
  rw [ht]

/-- A bring-up that an image of a type has stopped (R537). -/
def State.bootFailed (s : State) (kind : Nat) : State :=
  s.powerOn.modPkg (fun p => { p with fail := true, stage := kind % 16 })

/-- A bring-up whose images have all been accepted: the board's capacities are set, the generators seeded, the fuse raised
to the management image's SVN, the images' digests kept, and READY set (R535, R537). -/
def State.booted (s : State) (board : Board) (m : Image) : State :=
  (s.powerOn.modMs (fun x => { x with
    lpddrMask := board.lpddrChannels, lpddrGb := board.lpddrGb, cxlGb := board.cxlGb })).reseed.modPkg (fun p => { p with
      ready := true
      fuse := max p.fuse m.svn
      digests := (bootOrder board.images).foldl (fun (d : Map (BitVec 512)) i =>
        d.set i.kind (digest (i.header ++ List.replicate 432 0 ++ i.body))) [] })

/-- What bring-up leaves of the machine when every image is accepted: nothing but the board's capacities, the fuse, the
digests and READY differs from reset in what work can see (R535, R537). -/
theorem booted_state (s : State) (board : Board) (m : Image) :
    let t := s.booted board m
    (t.pkg.ready = true ∧ t.pkg.fail = false ∧ t.pkg.fuse = max s.pkg.fuse m.svn) ∧
    (∃ g, t.ms = { MemSys.reset with
      lpddrMask := board.lpddrChannels, lpddrGb := board.lpddrGb, cxlGb := board.cxlGb, nrgen := g }) ∧
    t.groups = [] ∧ t.grids = [] ∧ t.cores = [] ∧ t.helm = Helm.reset ∧ t.mer = Mer.reset := by
  obtain ⟨g, n, hr⟩ := reseed_frame (s.powerOn.modMs (fun x => { x with
    lpddrMask := board.lpddrChannels, lpddrGb := board.lpddrGb, cxlGb := board.cxlGb }))
  unfold State.booted
  rw [hr]
  exact ⟨⟨rfl, rfl, congrArg (max · m.svn) (powerOn_fuse s)⟩, ⟨g, rfl⟩, rfl, rfl, rfl, rfl, rfl⟩

section Images
variable {board : Board} {m : Image} {is : List Image} (s : State) (hb : boardOk board = true)
  (ho : bootOrder board.images = m :: is) (hk : m.kind = 1)
include hb ho hk

theorem execReset_rejected {i : Image} (hi : (m :: is).find? (fun i => !imageAccepted i s.pkg.fuse) = some i) :
    exec (.reset board) s = .next (s.bootFailed i.kind) := by
  show execReset board s = _
  rw [execReset, if_neg (not_not.mpr hb)]
  simp only [ho, List.head?_cons, hk, ne_eq, not_true, if_false, powerOn_fuse, hi]
  rfl

theorem execReset_accepted (hi : ∀ i ∈ m :: is, imageAccepted i s.pkg.fuse = true) :
    exec (.reset board) s = .next (s.booted board m) := by
  have hi' : (m :: is).find? (fun i => !imageAccepted i s.pkg.fuse) = none :=
    List.find?_eq_none.mpr fun i h => by simp [hi i h]
  show execReset board s = _
  rw [execReset, if_neg (not_not.mpr hb)]
  simp only [ho, List.head?_cons, hk, ne_eq, not_true, if_false, powerOn_fuse, hi']
  rw [State.booted, ho]

end Images

/-- A directory without management firmware stops bring-up at once (R535). -/
theorem execReset_unmanaged {board : Board} (s : State) (hb : boardOk board = true) (hi : ∀ i ∈ board.images, i.kind ≠ 1) :
    exec (.reset board) s = .next (s.bootFailed 1) := by
  have hk : ∀ i ∈ (bootOrder board.images).head?, i.kind ≠ 1 := fun i h => by
    have hmem : i ∈ bootOrder board.images := List.mem_of_mem_head? h
    obtain hin | hin := List.mem_append.mp hmem <;> exact hi i (List.mem_of_mem_filter hin)
  show execReset board s = _
  rw [execReset, if_neg (not_not.mpr hb)]
  cases hh : (bootOrder board.images).head? with
  | none =>
    simp only [hh]
    rfl
  | some m =>
    simp only [hh, if_pos (hk m hh)]
    rfl

/-! ### Attestation (R539) -/

/-- A request by the owner of semaphore 4, unless one is being served. -/
theorem execAttctl_owner {s : State} {port : Nat} (val : DWord) (hp : port < 2) (ho : s.helm.sems.find? 4 = some port) :
    exec (.attctl port val) s = .next (if val.getLsbD 0 = true ∧ s.pkg.attBusy = false then
      s.modPkg (fun p => { p with attBusy := true, attDone := false }) else s) := by
  show Host.Outcome.next (s.guardedMgmt port 4 _) = _
  rw [guardedMgmt_owner _ hp ho]
  simp only [Bool.not_eq_true]

/-- The powers of two of distinct numbers sum to the number with those bits set. -/
theorem bit_foldl_two_pow {ks : List Nat} (hd : ks.Nodup) (b : Nat) :
    bit (ks.foldl (fun a k => a + 2 ^ k) 0) b = true ↔ b ∈ ks := by
  have hsum : ks.foldl (fun a k => a + 2 ^ k) 0 = ∑ k ∈ ks.toFinset, 2 ^ k := by
    rw [List.sum_toFinset _ hd, List.sum_eq_foldl, List.foldl_map]
  rw [hsum, bit, ← Nat.mem_bitIndices, ← List.mem_toFinset, Finset.toFinset_bitIndices_sum_two_pow, List.mem_toFinset]

/-- What the first bytes of a number hold. -/
theorem leNat_take (bs : List Byte) (n : Nat) : leNat (bs.take n) = leNat bs % 256 ^ n := by
  induction bs generalizing n with
  | nil => simp [leNat]
  | cons b bs ih =>
    cases n with
    | zero => simp [leNat, Nat.mod_one]
    | succ n =>
      have := b.isLt
      rw [List.take_succ_cons, leNat, leNat, ih, Nat.pow_succ', Nat.mod_mul, Nat.add_mul_div_left _ _ (by decide),
        Nat.add_mul_mod_self_left, Nat.mod_eq_of_lt this, Nat.div_eq_of_lt this, Nat.zero_add]

theorem two_pow_bytes (n : Nat) : 256 ^ n = 2 ^ (8 * n) := (Nat.pow_mul 2 8 n).symm

/-- A word of some bytes is a number of as many. -/
theorem toNat_mod_bytes (n : Nat) (w : BitVec (8 * n)) : w.toNat % 256 ^ n = w.toNat := by
  rw [two_pow_bytes, Nat.mod_eq_of_lt w.isLt]

/-- The fields of a report, before its reserved bytes (R539). -/
def State.reportFields (s : State) : List (Nat × Nat) :=
  [(4, 1), (4, hid (Config.freeBool s.fresh)), (16, Config.serialNumber.toNat), (8, s.pkg.fuse)] ++
    ((List.range 8).map (fun i => (8, (s.pkg.nonce.getD i 0).toNat)) ++
    ((List.range 5).map (fun i => (64, (s.pkg.digests.getD (i + 1) 0).toNat)) ++
    [(64, (digest s.configBytes).toNat), (512, s.pkg.loaded.foldl (fun a k => a + 2 ^ k) 0)]))

/-- The sizes of a report's fields. -/
def reportSizes : List Nat := [4, 4, 16, 8] ++ (List.replicate 8 8 ++ (List.replicate 5 64 ++ [64, 512]))

theorem reportFields_sizes (s : State) : s.reportFields.map Prod.fst = reportSizes := rfl

theorem reportBody_eq (s : State) : s.reportBody = leFields s.reportFields ++ List.replicate 32 0 := by
  simp [State.reportBody, State.reportFields, leFields, List.flatMap_map]

theorem reportBody_length (s : State) : s.reportBody.length = 1024 := by
  rw [reportBody_eq, List.length_append, leFields_length, reportFields_sizes, List.length_replicate]
  rfl

/-- A field of a report, by its number, reads back. -/
theorem leNat_report (s : State) (i : Nat) {o n v : Nat} (hf : s.reportFields[i]? = some (n, v))
    (ho : (reportSizes.take i).sum = o) : leNat ((s.reportBody.drop o).take n) = v % 256 ^ n := by
  rw [reportBody_eq, ← ho]
  exact leNat_leFields _ hf

theorem reportFields_nonce (s : State) {i : Nat} (h : i < 8) :
    s.reportFields[4 + i]? = some (8, (s.pkg.nonce.getD i 0).toNat) := by
  rw [State.reportFields, List.getElem?_append_right (by simp), List.getElem?_append_left (by simp; omega)]
  simp [h]

theorem reportFields_digest (s : State) {i : Nat} (h : i < 5) :
    s.reportFields[12 + i]? = some (64, (s.pkg.digests.getD (i + 1) 0).toNat) := by
  rw [State.reportFields, List.getElem?_append_right (by simp; omega), List.getElem?_append_right (by simp; omega),
    List.getElem?_append_left (by simp; omega)]
  have hi : 12 + i - 4 - 8 = i := by omega
  simp [h, hi]

theorem reportFields_keys (s : State) :
    s.reportFields[18]? = some (512, s.pkg.loaded.foldl (fun a k => a + 2 ^ k) 0) := rfl

theorem reportSizes_nonce : ∀ i, i < 8 → (reportSizes.take (4 + i)).sum = 0x20 + 8 * i := by decide

theorem reportSizes_digest : ∀ i, i < 5 → (reportSizes.take (12 + i)).sum = 0x60 + 64 * i := by decide

theorem reportBody_version (s : State) : s.reportBody.take 4 = [1, 0, 0, 0] := rfl

/-- The HID of a report, but for the byte that names a port. -/
theorem reportBody_hid (s : State) : leNat ((s.reportBody.drop 4).take 3) = 0x014832 := by
  have h := leNat_report s 1 (o := 4) rfl rfl
  have htake : (s.reportBody.drop 4).take 3 = ((s.reportBody.drop 4).take 4).take 3 := by rw [List.take_take]; rfl
  rw [htake, leNat_take, h]
  cases Config.freeBool s.fresh <;> rfl

theorem reportBody_nonce (s : State) {i : Nat} (h : i < 8) :
    leNat ((s.reportBody.drop (0x20 + 8 * i)).take 8) = (s.pkg.nonce.getD i 0).toNat :=
  (leNat_report s (4 + i) (reportFields_nonce s h) (reportSizes_nonce i h)).trans (toNat_mod_bytes 8 _)

theorem reportBody_digest (s : State) {k : Nat} (h1 : 1 ≤ k) (h5 : k ≤ 5) :
    leNat ((s.reportBody.drop (0x60 + 64 * (k - 1))).take 64) = (s.pkg.digests.getD k 0).toNat := by
  have hf := reportFields_digest s (i := k - 1) (by omega)
  rw [Nat.sub_add_cancel h1] at hf
  exact (leNat_report s _ hf (reportSizes_digest _ (by omega))).trans (toNat_mod_bytes 64 _)

/-- The bits of a report's bit map name the key slots that were loaded. -/
theorem reportBody_keys (s : State) {b : Nat} (h : b < 4096) (hd : s.pkg.loaded.Nodup) :
    bit (leNat ((s.reportBody.drop 0x1E0).take 512)) b = true ↔ b ∈ s.pkg.loaded := by
  rw [leNat_report s 18 (reportFields_keys s) (o := 0x1E0) rfl, bit, two_pow_bytes,
    Nat.testBit_mod_two_pow, ← bit_foldl_two_pow hd b, bit]
  simp [h]

/-- A request that is served: the report is written with its signature, and the request is done (R539). -/
theorem execAttestationReportDone_served {s : State} (hb : s.pkg.attBusy = true) (hr : s.pkg.ready = true) :
    exec .attestationReportDone s = .next ((s.bump.writePhys s.pkg.attaddr.toNat
      (s.reportBody ++ Config.deviceSignature s.reportBody)).modPkg (fun p => { p with attBusy := false, attDone := true })) :=
  congrArg Host.Outcome.next (if_pos ⟨hb, hr⟩)

/-- Settles O51: bring-up by what its directory holds and which images are accepted, and a report by its fields. -/
theorem bringUpAndAttestation : Obligations.BringUpAndAttestation := by
  unfold Obligations.BringUpAndAttestation
  refine ⟨fun board m is s hb ho hk => ?_, fun board s hb hi => ⟨_, execReset_unmanaged s hb hi, rfl, rfl, rfl⟩,
    fun _ val _ hp ho => execAttctl_owner val hp ho, fun s hbusy hready => ?_⟩
  · cases hf : (m :: is).find? (fun i => !imageAccepted i s.pkg.fuse) with
    | none =>
      have hall : ∀ i ∈ m :: is, imageAccepted i s.pkg.fuse = true := by simpa using hf
      obtain ⟨⟨hready, hfail, hfuse⟩, ⟨g, hms⟩, hrest⟩ := booted_state s board m
      refine ⟨s.booted board m, execReset_accepted s hb ho hk hall, fun _ => ?_, fun _ hr => by cases hr⟩
      rw [hms]
      exact ⟨hready, hfail, hfuse, rfl, rfl, rfl, rfl, rfl, rfl, hrest⟩
    | some i =>
      have hrej : imageAccepted i s.pkg.fuse = false := by simpa using List.find?_some hf
      refine ⟨s.bootFailed i.kind, execReset_rejected s hb ho hk hf, fun hall => ?_, fun j hj hlt => ?_⟩
      · exact absurd (hall i (List.mem_of_find?_eq_some hf)) (ne_true_of_eq_false hrej)
      · cases hj
        exact ⟨rfl, rfl, Nat.mod_eq_of_lt hlt, powerOn_fuse s⟩
  · exact ⟨s.reportBody, _, execAttestationReportDone_served hbusy hready, rfl, rfl, State.modPkg_mem _ _,
      reportBody_length s, reportBody_version s, reportBody_hid s, fun _ h => reportBody_nonce s h,
      fun _ h1 h5 => reportBody_digest s h1 h5, fun _ hb hd => reportBody_keys s hb hd⟩

end Sys2Proof.Machine

namespace Sys2Proof.Machine

/-! ### The first of a list by a measure (R541) -/

theorem firstBy_concat (before : Nat → Nat → Bool) (ps : List Nat) (x : Nat) :
    firstBy before (ps ++ [x]) = some ((firstBy before ps).elim x (fun y => if before x y then x else y)) := by
  rw [firstBy, List.foldl_append, ← firstBy]
  cases firstBy before ps <;> rfl

/-- None comes first only where there is none. -/
theorem firstBy_eq_none {before : Nat → Nat → Bool} {ps : List Nat} (h : firstBy before ps = none) : ps = [] := by
  cases ps using List.reverseRecOn with
  | nil => rfl
  | append_singleton ps x => simp [firstBy_concat] at h

/-- What comes first by a key has the least key, and the lowest number among those with that key. -/
theorem firstBy_least {α : Type} [LinearOrder α] {before : Nat → Nat → Bool} {key : Nat → α}
    (hb : ∀ a b, before a b = true ↔ key a < key b) {ps : List Nat} (hs : ps.Pairwise (· < ·)) {p : Nat}
    (h : firstBy before ps = some p) : p ∈ ps ∧ ∀ q ∈ ps, key p ≤ key q ∧ (key q = key p → p ≤ q) := by
  induction ps using List.reverseRecOn generalizing p with
  | nil => cases h
  | append_singleton ps x ih =>
    obtain ⟨hps, -, hx⟩ := List.pairwise_append.mp hs
    rw [firstBy_concat] at h
    cases hf : firstBy before ps with
    | none =>
      rw [hf] at h
      cases h
      simp [firstBy_eq_none hf]
    | some y =>
      obtain ⟨hy, hleast⟩ := ih hps hf
      have hyx : y < x := hx y hy x (List.mem_singleton_self x)
      rw [hf] at h
      have hp : (if before x y then x else y) = p := Option.some.inj h
      rw [List.forall_mem_append, List.forall_mem_singleton, List.mem_append, List.mem_singleton]
      by_cases hxy : key x < key y
      · rw [if_pos ((hb x y).mpr hxy)] at hp
        subst hp
        refine ⟨.inr rfl, fun q hq => ?_, le_rfl, fun _ => le_rfl⟩
        have hlt : key x < key q := hxy.trans_le (hleast q hq).1
        exact ⟨hlt.le, fun he => absurd he hlt.ne'⟩
      · rw [if_neg (fun hc => hxy ((hb x y).mp hc))] at hp
        subst hp
        exact ⟨.inl hy, hleast, not_lt.mp hxy, fun _ => hyx.le⟩

/-! ### The governor (R541, R543, R545) -/

/-- The partitions that are ACTIVE, by number. -/
def State.actives (s : State) : List Nat := (List.range 4).filter s.active

theorem mem_actives {s : State} {p : Nat} : p ∈ s.actives ↔ p < 4 ∧ s.active p = true := by
  simp [State.actives]

theorem actives_rising (s : State) : s.actives.Pairwise (· < ·) := List.pairwise_lt_range.filter _

theorem setClock_clock (s : State) (p mhz q : Nat) :
    (s.setClock p mhz).pkg.clock q = if q = p then mhz else s.pkg.clock q := Map.getD_put ..

/-- A partition's clock comes down to its PCLKMAX (R545). -/
def State.capClock (s : State) (p : Nat) : State :=
  if s.pkg.limit p < s.pkg.clock p then s.setClock p (s.pkg.limit p) else s

theorem capClock_frame (s : State) (p : Nat) : ∃ m, s.capClock p = s.modPkg (fun k => { k with pclk := m }) := by
  unfold State.capClock
  split
  · exact ⟨_, rfl⟩
  · exact ⟨s.pkg.pclk, rfl⟩

theorem capClock_clock (s : State) (p q : Nat) :
    (s.capClock p).pkg.clock q = if q = p then min (s.pkg.clock p) (s.pkg.limit p) else s.pkg.clock q := by
  unfold State.capClock
  split
  next h => rw [setClock_clock, min_eq_right h.le]
  next h =>
    rw [min_eq_left (not_lt.mp h)]
    split <;> simp_all

theorem capClock_limit (s : State) (p q : Nat) : (s.capClock p).pkg.limit q = s.pkg.limit q := by
  obtain ⟨m, hm⟩ := capClock_frame s p
  rw [hm]
  rfl

/-- The clocks of some partitions come down to their PCLKMAX, and nothing else changes (R545). -/
theorem foldl_capClock (l : List Nat) (s : State) :
    (∃ m, l.foldl State.capClock s = s.modPkg (fun k => { k with pclk := m })) ∧
    ∀ q, (l.foldl State.capClock s).pkg.clock q = if q ∈ l then min (s.pkg.clock q) (s.pkg.limit q) else s.pkg.clock q := by
  induction l generalizing s with
  | nil => exact ⟨⟨s.pkg.pclk, rfl⟩, fun q => by simp⟩
  | cons p l ih =>
    obtain ⟨⟨m, hm⟩, hclock⟩ := ih (s.capClock p)
    obtain ⟨m', hm'⟩ := capClock_frame s p
    refine ⟨⟨m, hm.trans (by rw [hm']; rfl)⟩, fun q => ?_⟩
    rw [List.foldl_cons, hclock, capClock_limit, capClock_clock]
    by_cases hq : q = p
    · simp [hq]
    · simp [hq]

/-- Before the governor acts: the interval's power is taken, and the clocks are at most PCLKMAX (R541, R545). -/
def State.capped (s : State) (power : Nat) : State :=
  (List.range 4).foldl State.capClock (s.modPkg (fun p => { p with pwrnow := power }))

/-- The ACTIVE partition with the highest clock (R541). -/
def State.fastest (s : State) : Option Nat := firstBy (fun a b => decide (s.pkg.clock b < s.pkg.clock a)) s.actives

/-- The ACTIVE partition with the lowest clock below its PCLKMAX (R541). -/
def State.slowest (s : State) : Option Nat :=
  firstBy (fun a b => decide (s.pkg.clock a < s.pkg.clock b))
    (s.actives.filter (fun p => decide (s.pkg.clock p < s.pkg.limit p)))

/-- The fastest ACTIVE partition loses 50 MHz, or FLOOR is set (R541). -/
def State.slower (s : State) : State :=
  s.fastest.elim (s.modPkg (fun k => { k with floor := true })) (fun p =>
    if s.pkg.clock p ≤ 950 then s.modPkg (fun k => { k with floor := true })
    else s.setClock p (max 950 (s.pkg.clock p - 50)))

/-- The slowest ACTIVE partition below its PCLKMAX gains 50 MHz (R541). -/
def State.faster (s : State) : State := s.slowest.elim s (fun p => s.setClock p (s.pkg.clock p + 50))

theorem capped_frame (s : State) (power : Nat) :
    ∃ m, s.capped power = s.modPkg (fun k => { k with pwrnow := power, pclk := m }) := by
  obtain ⟨m, hm⟩ := (foldl_capClock (List.range 4) (s.modPkg (fun p => { p with pwrnow := power }))).1
  exact ⟨m, hm⟩

theorem capped_clock (s : State) (power : Nat) {p : Nat} (h : p < 4) :
    (s.capped power).pkg.clock p = min (s.pkg.clock p) (s.pkg.limit p) :=
  ((foldl_capClock (List.range 4) (s.modPkg (fun p => { p with pwrnow := power }))).2 p).trans
    (if_pos (List.mem_range.mpr h))

/-- Lowering sets FLOOR where no ACTIVE partition runs above 950 MHz; else the fastest loses 50 MHz (R541). -/
theorem slower_cases (s : State) :
    ((∀ p, p < 4 → s.active p = true → s.pkg.clock p ≤ 950) ∧ s.slower = s.modPkg (fun k => { k with floor := true })) ∨
    ∃ p, p < 4 ∧ s.active p = true ∧ 950 < s.pkg.clock p ∧
      (∀ q, q < 4 → s.active q = true → s.pkg.clock q ≤ s.pkg.clock p ∧ (s.pkg.clock q = s.pkg.clock p → p ≤ q)) ∧
      s.slower = s.setClock p (max 950 (s.pkg.clock p - 50)) := by
  unfold State.slower
  cases hf : s.fastest with
  | none =>
    refine .inl ⟨fun p hp ha => ?_, rfl⟩
    simpa [firstBy_eq_none hf] using mem_actives.mpr ⟨hp, ha⟩
  | some p =>
    obtain ⟨hp, hmax⟩ := firstBy_least (key := fun q => OrderDual.toDual (s.pkg.clock q))
      (fun _ _ => decide_eq_true_iff) (actives_rising s) hf
    obtain ⟨hlt, hact⟩ := mem_actives.mp hp
    have hfast : ∀ q, q < 4 → s.active q = true →
        s.pkg.clock q ≤ s.pkg.clock p ∧ (s.pkg.clock q = s.pkg.clock p → p ≤ q) :=
      fun q hq ha => hmax q (mem_actives.mpr ⟨hq, ha⟩)
    simp only [Option.elim]
    split
    next hlow => exact .inl ⟨fun q hq ha => (hfast q hq ha).1.trans hlow, rfl⟩
    next hhigh => exact .inr ⟨p, hlt, hact, not_le.mp hhigh, hfast, rfl⟩

/-- Raising changes nothing where every ACTIVE partition is at its PCLKMAX; else the slowest below it gains 50 MHz (R541). -/
theorem faster_cases (s : State) :
    ((∀ p, p < 4 → s.active p = true → s.pkg.limit p ≤ s.pkg.clock p) ∧ s.faster = s) ∨
    ∃ p, p < 4 ∧ s.active p = true ∧ s.pkg.clock p < s.pkg.limit p ∧
      (∀ q, q < 4 → s.active q = true → s.pkg.clock q < s.pkg.limit q →
        s.pkg.clock p ≤ s.pkg.clock q ∧ (s.pkg.clock q = s.pkg.clock p → p ≤ q)) ∧
      s.faster = s.setClock p (s.pkg.clock p + 50) := by
  have hmem : ∀ p, p ∈ s.actives.filter (fun p => decide (s.pkg.clock p < s.pkg.limit p)) ↔
      (p < 4 ∧ s.active p = true) ∧ s.pkg.clock p < s.pkg.limit p := fun p => by
    rw [List.mem_filter, mem_actives, decide_eq_true_iff]
  unfold State.faster
  cases hf : s.slowest with
  | none =>
    refine .inl ⟨fun p hp ha => not_lt.mp fun hb => ?_, rfl⟩
    simpa [firstBy_eq_none hf] using (hmem p).mpr ⟨⟨hp, ha⟩, hb⟩
  | some p =>
    obtain ⟨hp, hmin⟩ := firstBy_least (key := s.pkg.clock) (fun _ _ => decide_eq_true_iff)
      ((actives_rising s).filter _) hf
    obtain ⟨⟨hlt, hact⟩, hbelow⟩ := (hmem p).mp hp
    exact .inr ⟨p, hlt, hact, hbelow, fun q hq ha hb => hmin q ((hmem q).mpr ⟨⟨hq, ha⟩, hb⟩), rfl⟩

/-- One act of the governor at a power (R541, R543). -/
def State.governed (s : State) (power : Nat) : State :=
  if s.pkg.hotDies ≠ [] ∨ s.pkg.plimit * 10 < power then s.slower
  else if power + 250 < s.pkg.plimit * 10 then s.faster
  else s

/-- An interval takes the power, brings the clocks down to PCLKMAX, and acts once (R541, R545). -/
theorem execGovernorInterval_governed {s : State} (power : Nat) (h : s.pkg.trip = false) :
    exec (.governorInterval power) s = .next ((s.capped power).governed power) := by
  show execGovernorInterval power s = _
  rw [execGovernorInterval, if_neg (ne_true_of_eq_false h)]
  have hcap : (List.range 4).foldl (fun s p => if s.pkg.limit p < s.pkg.clock p then s.setClock p (s.pkg.limit p) else s)
    (s.modPkg (fun p => { p with pwrnow := power })) = s.capped power := rfl
  simp only [hcap]
  generalize s.capped power = u
  simp only [State.governed, State.slower, State.faster, ne_eq, List.isEmpty_iff, Nat.lt_sub_iff_add_lt]
  split_ifs
  · show Host.Outcome.next (match u.fastest with | some p => _ | none => _) = _
    cases u.fastest <;> rfl
  · show Host.Outcome.next (match u.slowest with | some p => _ | none => _) = _
    cases u.slowest <;> rfl
  · rfl

/-- The governor changes the clocks and FLOOR alone. -/
theorem governed_frame (s : State) (power : Nat) :
    ∃ m b, s.governed power = s.modPkg (fun k => { k with pclk := m, floor := b }) := by
  unfold State.governed
  split_ifs
  · obtain ⟨-, ht⟩ | ⟨p, -, -, -, -, ht⟩ := slower_cases s
    · exact ⟨_, _, ht⟩
    · exact ⟨_, _, ht⟩
  · obtain ⟨-, ht⟩ | ⟨p, -, -, -, -, ht⟩ := faster_cases s
    · exact ⟨_, _, ht⟩
    · exact ⟨_, _, ht⟩
  · exact ⟨_, _, rfl⟩

/-- Above PLIMIT, or with a hot die, the fastest ACTIVE partition is lowered, or FLOOR is set (R541, R543). -/
theorem governed_over {s : State} {power : Nat} (h : s.pkg.hotDies ≠ [] ∨ s.pkg.plimit * 10 < power) :
    ((∀ p, p < 4 → s.active p = true → s.pkg.clock p ≤ 950) ∧ (s.governed power).pkg.floor = true ∧
      ∀ p, p < 4 → (s.governed power).pkg.clock p = s.pkg.clock p) ∨
    ∃ p, p < 4 ∧ s.active p = true ∧ 950 < s.pkg.clock p ∧ (s.governed power).pkg.floor = s.pkg.floor ∧
      (∀ q, q < 4 → s.active q = true → s.pkg.clock q ≤ s.pkg.clock p ∧ (s.pkg.clock q = s.pkg.clock p → p ≤ q)) ∧
      ∀ q, q < 4 → (s.governed power).pkg.clock q = if q = p then max 950 (s.pkg.clock p - 50) else s.pkg.clock q := by
  rw [State.governed, if_pos h]
  obtain ⟨hlow, ht⟩ | ⟨p, hp, ha, hhigh, hfast, ht⟩ := slower_cases s <;> rw [ht]
  · exact .inl ⟨hlow, rfl, fun _ _ => rfl⟩
  · exact .inr ⟨p, hp, ha, hhigh, rfl, hfast, fun q _ => setClock_clock s p _ q⟩

/-- More than 25 W below PLIMIT, the slowest ACTIVE partition below its PCLKMAX is raised (R541). -/
theorem governed_under {s : State} {power : Nat} (hc : s.pkg.hotDies = []) (h : power + 250 < s.pkg.plimit * 10) :
    (s.governed power).pkg.floor = s.pkg.floor ∧
    (((∀ p, p < 4 → s.active p = true → s.pkg.limit p ≤ s.pkg.clock p) ∧
      ∀ p, p < 4 → (s.governed power).pkg.clock p = s.pkg.clock p) ∨
    ∃ p, p < 4 ∧ s.active p = true ∧ s.pkg.clock p < s.pkg.limit p ∧
      (∀ q, q < 4 → s.active q = true → s.pkg.clock q < s.pkg.limit q →
        s.pkg.clock p ≤ s.pkg.clock q ∧ (s.pkg.clock q = s.pkg.clock p → p ≤ q)) ∧
      ∀ q, q < 4 → (s.governed power).pkg.clock q = if q = p then s.pkg.clock p + 50 else s.pkg.clock q) := by
  have hno : ¬(s.pkg.hotDies ≠ [] ∨ s.pkg.plimit * 10 < power) := not_or.mpr ⟨not_not.mpr hc, by omega⟩
  rw [State.governed, if_neg hno, if_pos h]
  obtain ⟨hfull, ht⟩ | ⟨p, hp, ha, hbelow, hslow, ht⟩ := faster_cases s <;> rw [ht]
  · exact ⟨rfl, .inl ⟨hfull, fun _ _ => rfl⟩⟩
  · exact ⟨rfl, .inr ⟨p, hp, ha, hbelow, hslow, fun q _ => setClock_clock s p _ q⟩⟩

/-- Within 25 W below PLIMIT, nothing changes (R541). -/
theorem governed_within {s : State} {power : Nat} (hc : s.pkg.hotDies = []) (hle : power ≤ s.pkg.plimit * 10)
    (hge : s.pkg.plimit * 10 ≤ power + 250) : s.governed power = s := by
  have hno : ¬(s.pkg.hotDies ≠ [] ∨ s.pkg.plimit * 10 < power) := not_or.mpr ⟨not_not.mpr hc, by omega⟩
  rw [State.governed, if_neg hno, if_neg (by omega)]

/-- Settles O49: the clocks come down to PCLKMAX, and the branch of R541 that the power chooses lowers, raises or keeps them. -/
theorem governorInterval : Obligations.GovernorInterval := by
  unfold Obligations.GovernorInterval
  intro power s htrip
  have hexec := execGovernorInterval_governed power htrip
  have hclock := fun p => capped_clock s power (p := p)
  obtain ⟨m, hcap⟩ := capped_frame s power
  generalize s.capped power = u at *
  have hact : u.active = s.active := by rw [hcap]; rfl
  have hlimit : u.pkg.limit = s.pkg.limit := by rw [hcap]; rfl
  have hfloor : u.pkg.floor = s.pkg.floor := by rw [hcap]; rfl
  have hhot : u.pkg.hotDies = s.pkg.hotDies := by rw [hcap]; rfl
  have hplimit : u.pkg.plimit = s.pkg.plimit := by rw [hcap]; rfl
  obtain ⟨m', b, ht⟩ := governed_frame u power
  rw [← hact, ← hlimit, ← hfloor, ← hhot, ← hplimit]
  refine ⟨u.governed power, hexec, by rw [ht, hcap]; rfl, by rw [ht, hcap]; rfl, by rw [ht, hcap]; rfl, u.pkg.clock,
    fun p hp => hlimit ▸ hclock p hp, governed_over, governed_under, fun hcool hle hge => ?_⟩
  rw [governed_within hcool hle hge]
  exact ⟨rfl, fun _ _ => rfl⟩

end Sys2Proof.Machine

namespace Sys2Proof.Machine

/-! ### The state after reset (R388, R430, R476, R531, R544) -/

/-- Settles O57: the reset state is written out, and its tables are empty. -/
theorem resetState : Obligations.ResetState := by
  unfold Obligations.ResetState
  refine ⟨rfl, rfl, rfl, rfl, rfl, rfl, rfl, fun _ => rfl, fun _ => rfl, rfl, fun _ => rfl, rfl, ?_, rfl, rfl, rfl, rfl, ?_,
    fun _ => ⟨rfl, rfl⟩, rfl, rfl, fun _ => rfl, ?_, ?_, ?_⟩ <;> decide

end Sys2Proof.Machine

namespace Sys2Proof.Machine

/-! ### Register writes (R388, R430 to R433, R476, R477, R531, R533, R544) -/

/-- A guarded write of the management window by any other port. -/
theorem guardedMgmt_other {s : State} {port sem : Nat} (f : State → State) (hp : port < 2)
    (ho : s.helm.sems.find? sem ≠ some port) :
    s.guardedMgmt port sem f = s.modHelm (fun h => { h with semViol := h.semViol.set port true }) := by
  simp [State.guardedMgmt, hp, ho]

@[simp] theorem exec_registerWrite_main (port off : Nat) (val : DWord) (s : State) :
    exec (.registerWrite port .main off val) s = .next (mainWrite port off val s) := rfl

@[simp] theorem exec_registerWrite_meridian (port off : Nat) (val : DWord) (s : State) :
    exec (.registerWrite port .meridian off val) s = .next (meridianWrite port off val s) := rfl

@[simp] theorem exec_registerWrite_memory (port off : Nat) (val : DWord) (s : State) :
    exec (.registerWrite port .memory off val) s = .next (memoryWrite port off val s) := rfl

@[simp] theorem exec_registerWrite_mgmt (port off : Nat) (val : DWord) (s : State) :
    exec (.registerWrite port .mgmt off val) s = .next (mgmtWrite port off val s) := rfl

/-- The main window's offsets of a queue (R433). -/
theorem mainWrite_queue (port : Nat) {q r : Nat} (hq : q < 64) (hr : r < 64) (val : DWord) (s : State) :
    mainWrite port (0x10000 + 64 * q + r) val s = queueWrite port q r val s := by
  unfold mainWrite
  repeat rw [if_neg (by omega)]
  rw [if_pos (by omega), show (0x10000 + 64 * q + r - 0x10000) / 64 = q by omega, show (0x10000 + 64 * q + r) % 64 = r by omega]

/-- The main window's offsets of a die's Chart block (R388). -/
theorem mainWrite_chart (port : Nat) {die r : Nat} (hd : die < 2) (hr : r < 0x1000) (val : DWord) (s : State) :
    mainWrite port (0x1000 + 0x1000 * die + r) val s = chartWrite port die r val s := by
  unfold mainWrite
  repeat rw [if_neg (by omega)]
  obtain rfl | rfl : die = 0 ∨ die = 1 := by omega
  · rw [if_pos (by omega), show 0x1000 + 0x1000 * 0 + r - 0x1000 = r by omega]
  · rw [if_neg (by omega), if_pos (by omega), show 0x1000 + 0x1000 * 1 + r - 0x2000 = r by omega]


section Guarded
variable {s : State} {port : Nat} (hr : s.pkg.ready = true) (hp : port < 2)
include hr hp

/-- The plain registers of the main and the memory window that semaphore 4 guards (R430, R531). -/
theorem registerWrite_owner4 (val : DWord) (ho : s.helm.sems.find? 4 = some port) :
    exec (.registerWrite port .main 0x40 val) s = .next (s.modHelm (fun h => { h with savBase := val })) ∧
    exec (.registerWrite port .main 0x48 val) s = .next (s.modHelm (fun h => { h with savSize := val })) ∧
    (∀ die, die < 2 →
      exec (.registerWrite port .main (0x20 + 16 * die) val) s =
        .next (s.modHelm (fun h => { h with btBase := h.btBase.put 0 die val })) ∧
      exec (.registerWrite port .main (0x28 + 16 * die) val) s =
        .next (s.modHelm (fun h => { h with btSize := h.btSize.put 0 die val }))) ∧
    exec (.registerWrite port .memory 0x18 val) s =
      .next (s.modMs (fun m => { m with asidBase := val &&& 0x3FFFFFFF0001 })) ∧
    exec (.registerWrite port .memory 0x30 val) s = .next (s.modMs (fun m => { m with tlbinva := val })) ∧
    exec (.registerWrite port .memory 0x48 val) s = .next (s.modMs (fun m => { m with keysel := val.toNat % 4096 })) := by
  have set := fun f => guarded_owner f hr hp ho
  refine ⟨?_, ?_, fun die hd => ?_, ?_, ?_, ?_⟩
  case refine_3 =>
    obtain rfl | rfl : die = 0 ∨ die = 1 := by omega
    · simp [mainWrite, set]
    · simp [mainWrite, set]
  all_goals simp [mainWrite, memoryWrite, set]

/-- STGBASE and STGSIZE, which may not bring the staging pool onto a region (R533). -/
theorem registerWrite_staging (val : DWord) (ho : s.helm.sems.find? 4 = some port) (off : Nat) (u v : MemSys)
    (hv : (off, v) ∈ ([
      (0x20, { u with stgBase := val.toNat / 65536 * 65536 }), (0x28, { u with stgSize := val.toNat / 65536 * 65536 })] :
        List (Nat × MemSys))) (hu : u = s.ms) :
    exec (.registerWrite port .memory off val) s = .next (s.modMs (fun m =>
      if v.regionsOk = false then { m with rej := true } else v)) := by
  have set : ∀ f : MemSys → MemSys, Host.Outcome.next (s.guarded port 4 (fun s => s.setStaging f)) =
      (Host.Outcome.next (s.modMs (fun m => if (f s.ms).regionsOk = false then { m with rej := true } else f s.ms)) : Result) := by
    intro f
    rw [guarded_owner _ hr hp ho]
    unfold State.setStaging
    cases (f s.ms).regionsOk <;> rfl
  subst hu
  simp only [List.mem_cons, List.not_mem_nil, or_false, Prod.mk.injEq] at hv
  obtain ⟨rfl, rfl⟩ | ⟨rfl, rfl⟩ := hv
  · exact set (fun m => { m with stgBase := val.toNat / 65536 * 65536 })
  · exact set (fun m => { m with stgSize := val.toNat / 65536 * 65536 })

/-- The bases and sizes of the shadow store and the metadata arena (R533). -/
theorem registerWrite_region (val : DWord) (ho : s.helm.sems.find? 4 = some port) (off : Nat) (u v : MemSys)
    (hv : (off, v) ∈ ([
      (0x150, { u with shdBase := val.toNat / 65536 * 65536 }), (0x158, { u with shdSize := val.toNat / 65536 * 65536 }),
      (0x160, { u with rmdBase := val.toNat / 65536 * 65536 }), (0x168, { u with rmdSize := val.toNat / 65536 * 65536 })] :
        List (Nat × MemSys))) (hu : u = s.ms) (hne : v ≠ u) :
    exec (.registerWrite port .memory off val) s = .next (s.modMs (fun m =>
      if s.inUse = true ∨ v.regionsOk = false then { m with rej := true } else v)) := by
  have set : ∀ f : MemSys → MemSys, f s.ms ≠ s.ms → Host.Outcome.next (s.guarded port 4 (fun s => s.setRegion f)) =
      (Host.Outcome.next (s.modMs (fun m =>
        if s.inUse = true ∨ (f s.ms).regionsOk = false then { m with rej := true } else f s.ms)) : Result) := by
    intro f hf
    rw [guarded_owner _ hr hp ho]
    unfold State.setRegion
    rw [if_neg hf]
    cases s.inUse <;> cases (f s.ms).regionsOk <;> rfl
  subst hu
  simp only [List.mem_cons, List.not_mem_nil, or_false, Prod.mk.injEq] at hv
  obtain ⟨rfl, rfl⟩ | ⟨rfl, rfl⟩ | ⟨rfl, rfl⟩ | ⟨rfl, rfl⟩ := hv
  · exact set (fun m => { m with shdBase := val.toNat / 65536 * 65536 }) hne
  · exact set (fun m => { m with shdSize := val.toNat / 65536 * 65536 }) hne
  · exact set (fun m => { m with rmdBase := val.toNat / 65536 * 65536 }) hne
  · exact set (fun m => { m with rmdSize := val.toNat / 65536 * 65536 }) hne

/-- The rings of a queue, which semaphore 3 guards (R433). -/
theorem registerWrite_queue (val : DWord) {q : Nat} (hq : q < 64) (ho : s.helm.sems.find? 3 = some port) :
    exec (.registerWrite port .main (0x10000 + 64 * q) val) s = .next (s.modQueue q (fun k => { k with rbase := val })) ∧
    exec (.registerWrite port .main (0x10008 + 64 * q) val) s = .next (s.modQueue q (fun k => { k with ebase := val })) := by
  have base := mainWrite_queue port hq (r := 0) (by omega) val s
  have event := mainWrite_queue port hq (r := 8) (by omega) val s
  have set := fun f => guarded_owner f hr hp ho
  rw [show 0x10000 + 64 * q + 8 = 0x10008 + 64 * q by omega] at event
  simp only [exec_registerWrite_main, event, Nat.add_zero] at base ⊢
  simp only [base, queueWrite, set, and_self]

/-- A die's Chart block, which semaphore 1 or 2 guards (R388). -/
theorem registerWrite_chart (val : DWord) {die : Nat} (hd : die < 2) (ho : s.helm.sems.find? (1 + die) = some port) :
    exec (.registerWrite port .main (0x1000 + 0x1000 * die) val) s =
      .next (s.modChart die (fun k => { k with scrub := val.getLsbD 1, lowStrict := val.getLsbD 0 })) ∧
    exec (.registerWrite port .main (0x1008 + 0x1000 * die) val) s =
      .next (s.modChart die (fun k => { k with poolBase := val })) ∧
    exec (.registerWrite port .main (0x1010 + 0x1000 * die) val) s =
      .next (s.modChart die (fun k => { k with keyBase := val })) := by
  have policy := mainWrite_chart port hd (r := 0) (by omega) val s
  have pools := mainWrite_chart port hd (r := 8) (by omega) val s
  have keys := mainWrite_chart port hd (r := 16) (by omega) val s
  have set := fun f => guarded_owner f hr hp ho
  rw [show 0x1000 + 0x1000 * die + 8 = 0x1008 + 0x1000 * die by omega] at pools
  rw [show 0x1000 + 0x1000 * die + 16 = 0x1010 + 0x1000 * die by omega] at keys
  simp only [exec_registerWrite_main, pools, keys, Nat.add_zero] at policy ⊢
  simp only [policy, chartWrite, set, and_self]

/-- The plain registers of the Meridian window that semaphore 1 guards (R476, R477). -/
theorem registerWrite_meridian (val : DWord) (ho : s.helm.sems.find? 1 = some port) :
    exec (.registerWrite port .meridian 0x00 val) s = .next (s.modMer (fun m => { m with mepid := val.toNat % 65536 })) ∧
    (∀ a, a < 16 → exec (.registerWrite port .meridian (0x20 + 8 * a) val) s =
      .next (s.modMer (fun m => { m with spaces := m.spaces.put 0 a (val &&& 0x1FFF) }))) ∧
    (∀ q, q < 32 → exec (.registerWrite port .meridian (0x100 + 16 * q) val) s =
      .next (s.modMer (fun m => { m with qbase := m.qbase.put 0 q val }))) := by
  have set := fun f => guarded_owner f hr hp ho
  refine ⟨by simp [meridianWrite, set], fun a ha => ?_, fun q hq => ?_⟩
  · rw [exec_registerWrite_meridian, meridianWrite, if_neg (by omega), if_neg (by omega), if_neg (by omega), if_pos (by omega),
      show (0x20 + 8 * a - 0x20) / 8 = a by omega]
    simp only [set]
  · rw [exec_registerWrite_meridian, meridianWrite, if_neg (by omega), if_neg (by omega), if_neg (by omega),
      if_neg (by omega), if_pos (by omega), show (0x100 + 16 * q - 0x100) / 16 = q by omega]
    simp only [hq, if_true, set]

/-- A guarded register of each window, written by a port that does not own its guard (R431, R432). -/
theorem registerWrite_other (val : DWord) (win : Window) (sem off : Nat)
    (hin : (win, sem, off) ∈ ([(.main, 0, 0x10), (.main, 0, 0x18), (.main, 4, 0x40), (.main, 1, 0x1000), (.main, 2, 0x2008),
      (.main, 3, 0x10000), (.meridian, 1, 0x08), (.meridian, 2, 0x4F0), (.memory, 4, 0x00), (.memory, 4, 0x18),
      (.memory, 4, 0x88), (.memory, 4, 0x150), (.mgmt, 0, 0x08), (.mgmt, 0, 0x10), (.mgmt, 4, 0xC8)] :
        List (Window × Nat × Nat)))
    (ho : s.helm.sems.find? sem ≠ some port) :
    exec (.registerWrite port win off val) s =
      .next (s.modHelm (fun h => { h with semViol := h.semViol.set port true })) := by
  have viol := fun f => guarded_other f hr hp ho
  have violMgmt := fun f => guardedMgmt_other f hp ho
  simp only [List.mem_cons, List.not_mem_nil, or_false, Prod.mk.injEq] at hin
  rcases hin with ⟨rfl, rfl, rfl⟩ | ⟨rfl, rfl, rfl⟩ | ⟨rfl, rfl, rfl⟩ | ⟨rfl, rfl, rfl⟩ | ⟨rfl, rfl, rfl⟩ | ⟨rfl, rfl, rfl⟩ |
    ⟨rfl, rfl, rfl⟩ | ⟨rfl, rfl, rfl⟩ | ⟨rfl, rfl, rfl⟩ | ⟨rfl, rfl, rfl⟩ | ⟨rfl, rfl, rfl⟩ | ⟨rfl, rfl, rfl⟩ |
    ⟨rfl, rfl, rfl⟩ | ⟨rfl, rfl, rfl⟩ | ⟨rfl, rfl, rfl⟩ <;>
  simp [mainWrite, chartWrite, queueWrite, meridianWrite, memoryWrite, mgmtWrite, after, execPartk, execPhalt, execMemcfg,
    execKeydata, execPlimit, execPclkmax, execAttctl, viol, violMgmt]

/-- The registers of which a bit written 1 clears (R431, R476, R531, R544). -/
theorem registerWrite_clears (val : DWord) :
    (∃ t, exec (.registerWrite port .main 0x08 val) s = .next t ∧
      t.helm.semViol.getD port false = (s.helm.semViol.getD port false && !val.getLsbD 0)) ∧
    exec (.registerWrite port .memory 0x08 val) s = .next (s.modMs (fun m => { m with
      rej := m.rej && !val.getLsbD 2, paerr := m.paerr && !val.getLsbD 3 })) ∧
    exec (.registerWrite port .mgmt 0x58 val) s = .next (s.modPkg (fun p => { p with
      floor := p.floor && !val.getLsbD 0, hot := p.hot && !val.getLsbD 1 })) := by
  have hopen := open_of_ready hr hp
  exact ⟨⟨_, rfl, by simp [mainWrite, hopen, Map.getD_put, clears]⟩, by simp [memoryWrite, hopen, clears],
    by simp [mgmtWrite, hp, clears]⟩

end Guarded

/-- Registers that have an event of their own do what it does (R430, R433, R477, R531, R544). -/
theorem registerWrite_event (port : Nat) (val : DWord) (s : State) :
    exec (.registerWrite port .main 0x10 val) s = exec (.partk port val) s ∧
    exec (.registerWrite port .main 0x18 val) s = exec (.phalt port val) s ∧
    (∀ n, n < 16 → exec (.registerWrite port .main (0x100 + 8 * n) val) s = exec (.semaphoreWrite port n val) s) ∧
    (∀ q, q < 64 → exec (.registerWrite port .main (0x10014 + 64 * q) val) s =
      exec (.rtail port q (val.setWidth 32)) s ∧
      exec (.registerWrite port .main (0x10020 + 64 * q) val) s = exec (.ehead port q (val.setWidth 32)) s ∧
      exec (.registerWrite port .meridian (0x108 + 16 * q) val) s = exec (.mqcfg port q val) s) ∧
    exec (.registerWrite port .meridian 0x800 val) s = exec (.mroute port val) s ∧
    exec (.registerWrite port .memory 0x00 val) s = exec (.memcfg port val) s ∧
    exec (.registerWrite port .memory 0x38 val) s = exec (.tlbinvc port val) s ∧
    exec (.registerWrite port .memory 0x40 val) s = exec (.nrseed port val) s ∧
    (∀ k, k < 8 → exec (.registerWrite port .memory (0x50 + 8 * k) val) s = exec (.keydata port (0x50 + 8 * k) val) s) ∧
    exec (.registerWrite port .mgmt 0x08 val) s = exec (.plimit port val) s ∧
    (∀ p, p < 4 → exec (.registerWrite port .mgmt (0x10 + 8 * p) val) s = exec (.pclkmax port p val) s) ∧
    exec (.registerWrite port .mgmt 0x70 val) s = exec (.pwrctl port val) s ∧
    exec (.registerWrite port .mgmt 0xC8 val) s = exec (.attctl port val) s := by
  have hlow : val.extractLsb' 0 32 = val.setWidth 32 := BitVec.setWidth_eq_extractLsb' (by omega) |>.symm
  refine ⟨rfl, rfl, fun n hn => ?_, fun q hq => ⟨?_, ?_, ?_⟩, rfl, rfl, rfl, rfl, fun k hk => ?_, rfl, fun p hp => ?_, rfl, rfl⟩
  · rw [exec_registerWrite_main, mainWrite]
    repeat rw [if_neg (by omega)]
    rw [if_pos (by omega), show (0x100 + 8 * n - 0x100) / 8 = n by omega]
    rfl
  · rw [exec_registerWrite_main, show 0x10014 + 64 * q = 0x10000 + 64 * q + 0x14 by omega,
      mainWrite_queue port hq (by omega), ← hlow]
    rfl
  · rw [exec_registerWrite_main, show 0x10020 + 64 * q = 0x10000 + 64 * q + 0x20 by omega,
      mainWrite_queue port hq (by omega), ← hlow]
    rfl
  · rw [exec_registerWrite_meridian, meridianWrite]
    repeat rw [if_neg (by omega)]
    rw [if_pos (by omega), show (0x108 + 16 * q - 0x108) / 16 = q by omega]
    rfl
  · rw [exec_registerWrite_memory, memoryWrite]
    repeat rw [if_neg (by omega)]
    rw [if_pos (by omega)]
    rfl
  · rw [exec_registerWrite_mgmt, mgmtWrite, if_neg (by omega), if_pos (by omega), show (0x10 + 8 * p - 0x10) / 8 = p by omega]
    rfl

/-- The memory window lists nothing from 0xA0 to 0x14F, and nothing from 0x170 on (R531). -/
theorem memoryWrite_unlisted {off : Nat} (h : 0x170 ≤ off ∨ (0xA0 ≤ off ∧ off < 0x150)) (port : Nat) (val : DWord) (s : State) :
    memoryWrite port off val s = s := by
  unfold memoryWrite
  repeat rw [if_neg (by omega)]

/-- Settles O52: a write by the guard's owner, by any other port, and of what is no plain register. -/
theorem registerWrites : Obligations.RegisterWrites := by
  unfold Obligations.RegisterWrites
  refine ⟨fun port val s hr hp ho => ?_, fun port q val s hq hr hp ho => registerWrite_queue hr hp val hq ho,
    fun port die val s hd hr hp ho => registerWrite_chart hr hp val hd ho,
    fun port val s hr hp ho => registerWrite_meridian hr hp val ho,
    fun port win sem off val s hr hp hin ho => registerWrite_other hr hp val win sem off hin ho,
    registerWrite_event, fun port val s hr hp => registerWrite_clears hr hp val,
    fun port off val s h => congrArg Host.Outcome.next (memoryWrite_unlisted h port val s)⟩
  obtain ⟨hsav, hsavSize, htable, hasid, htlb, hkey⟩ := registerWrite_owner4 hr hp val ho
  exact ⟨hsav, hsavSize, htable, hasid, htlb, hkey, registerWrite_staging hr hp val ho, registerWrite_region hr hp val ho⟩

end Sys2Proof.Machine

namespace Sys2Proof.Machine

/-! ### Chart's own state: engines, pools and pages (R384, R387, R390) -/

@[simp] theorem chart_modChart_self (s : State) (die : Nat) (f : Chart → Chart) : (s.modChart die f).chart die = f (s.chart die) := by
  simp [State.modChart, State.chart, Map.getD_put]

theorem chart_modChart_other (s : State) {die d : Nat} (f : Chart → Chart) (h : d ≠ die) :
    (s.modChart die f).chart d = s.chart d := by
  simp [State.modChart, State.chart, Map.getD_put, h]

@[simp] theorem pool_modPool_self (s : State) (die p : Nat) (f : Pool → Pool) : (s.modPool die p f).pool die p = f (s.pool die p) := by
  simp [State.modPool, State.pool, Map.getD_put]

theorem SameAgents.pool {s t : State} (h : SameAgents s t) (die p : Nat) : t.pool die p = s.pool die p := by
  unfold State.pool State.chart
  rw [h.charts]

/-! #### Bytes that Chart stores (R387, R399, R402, R517) -/

theorem sameAgents_chartStore (s : State) (asid pa : Nat) (bs : List Byte) : SameAgents s (s.chartStore asid pa bs) :=
  (sameAgents_touchPlaces ..).trans (sameAgents_physStore ..)

theorem sameAgents_slotStore (s : State) (n asid off : Nat) (bs : List Byte) : SameAgents s (s.slotStore n asid off bs) :=
  (sameAgents_chartStore ..).trans (sameAgents_chartStore ..)

theorem sameAgents_copyPayload (s : State) (asid src dst n : Nat) : SameAgents s (s.copyPayload asid src dst n) :=
  (sameAgents_touchPlaces ..).trans (sameAgents_chartStore ..)

theorem touchLine_requests (s : State) (tag line : Nat) : (s.touchLine tag line).requests = s.requests := by
  unfold State.touchLine State.retag
  simp only
  repeat' split
  all_goals rfl

theorem touchPlaces_requests (s : State) (tag : Nat) (ps : List Place) : (s.touchPlaces none tag ps).requests = s.requests := by
  unfold State.touchPlaces
  generalize (ps.map unitOf).dedup = us
  induction us generalizing s with
  | nil => rfl
  | cons u us ih =>
    rw [List.foldl_cons, ih]
    obtain ⟨sp, n⟩ := u
    cases sp with
    | global =>
      refine (touchLine_requests ..).trans ?_
      show (State.recall s none _).requests = _
      unfold State.recall
      split <;> rfl
    | spad c => rfl
    | wbuf c => rfl

theorem chartStore_requests (s : State) (asid pa : Nat) (bs : List Byte) : (s.chartStore asid pa bs).requests = s.requests := by
  unfold State.chartStore State.physStore
  split <;> exact touchPlaces_requests ..

theorem slotStore_requests (s : State) (n asid off : Nat) (bs : List Byte) : (s.slotStore n asid off bs).requests = s.requests :=
  (chartStore_requests ..).trans (chartStore_requests ..)

/-! #### A changed header (R389) -/

section
variable {s : State} {n : Nat} {p : Page} (f : Page → Page) (h : s.pages.find? n = some p)
include h

/-- A page's header changed: its slot is stored over the pages with the new one. -/
theorem modPage_found : ∃ bs, s.modPage n f = ({ s with pages := s.pages.set n (f p) } : State).slotStore n (f p).asid 0 bs := by
  unfold State.modPage
  rw [h]
  exact ⟨_, rfl⟩

theorem modPage_find? : (s.modPage n f).pages.find? n = some (f p) := by
  obtain ⟨bs, hm⟩ := modPage_found f h
  rw [hm, (sameAgents_slotStore ..).pages]
  exact Map.find?_set_self ..

theorem modPage_requests : (s.modPage n f).requests = s.requests := by
  obtain ⟨bs, hm⟩ := modPage_found f h
  rw [hm]
  exact slotStore_requests ..

theorem modPage_pool (die k : Nat) : (s.modPage n f).pool die k = s.pool die k := by
  obtain ⟨bs, hm⟩ := modPage_found f h
  rw [hm]
  exact (sameAgents_slotStore ..).pool die k

/-- A page that something refers to stays (R391). -/
theorem settlePage_referenced (hr : p.refcnt ≠ 0) : s.settlePage n = s := by
  unfold State.settlePage
  simp only [h, hr, false_and, if_false]

end

/-- A frame comes back to a pool in which nothing waits (R391, R399). -/
theorem giveFrame_unawaited {s : State} {die k : Nat} (f : Nat) (h : (s.pool die k).waiters = []) :
    s.giveFrame die k f = s.modPool die k (fun x => { x with used := x.used.erase f }) := by
  unfold State.giveFrame State.serveWaiters
  rw [pool_modPool_self]
  simp only [h, List.length_nil]
  rfl

end Sys2Proof.Machine

namespace Sys2Proof.Machine

/-! ### Chart's events (R391, R399, R404, R421, R503) -/

/-- An eviction ends: a referenced page is left in CAPACITY, and its frame comes back (R391, R399). -/
theorem finishEviction_referenced {s : State} {n f : Nat} {p : Page} (hn : s.pages.find? n = some p) (hst : p.st = .evicting)
    (hf : p.frame = some f) (hr : p.refcnt ≠ 0) (hw : (s.pool (pageDie n) (pagePool n)).waiters = []) :
    (s.finishEviction n).pages.find? n = some { p with st := .capacity, frame := none } ∧
    ((s.finishEviction n).pool (pageDie n) (pagePool n)).used = (s.pool (pageDie n) (pagePool n)).used.erase f := by
  unfold State.finishEviction
  simp only [hn, hst, hf]
  generalize hu : s.copyPayload p.asid _ _ _ = u
  have hagents : SameAgents s u := hu ▸ sameAgents_copyPayload ..
  have hpage : u.pages.find? n = some p := by rw [hagents.pages]; exact hn
  have hpool := fun f => (modPage_pool f hpage (pageDie n) (pagePool n)).trans (hagents.pool (pageDie n) (pagePool n))
  rw [giveFrame_unawaited f (by rw [hpool]; exact hw)]
  have hleft := modPage_find? (fun p => { p with st := .capacity, frame := none }) hpage
  rw [settlePage_referenced (s := State.modPool ..) hleft hr]
  exact ⟨hleft, by rw [pool_modPool_self, hpool]⟩

/-- A page that nothing but its references holds becomes QUARANTINED and keeps its contents (R404). -/
theorem quarantine_unnamed {s : State} {n : Nat} {p : Page} (hn : s.pages.find? n = some p) (hst : p.st = .resident)
    (hr : p.refcnt ≠ 0) (hnone : ∀ e ∈ s.requests, ∀ b ∈ e.2.bt, b.2 ≠ n) :
    (s.quarantine n).pages.find? n = some { p with st := .quarantined } := by
  have hleft := modPage_find? (fun q => { q with st := .quarantined }) hn
  have hreqs := modPage_requests (fun q => { q with st := .quarantined }) hn
  have hempty : s.requests.filter (fun e => e.2.bt.any (fun b => b.2 = n)) = [] := by
    simpa [List.filter_eq_nil_iff] using fun a b hab x hx => hnone (a, b) hab (x, n) hx rfl
  unfold State.quarantine
  simp only [hn, hst, reduceCtorEq, if_false, hreqs, hempty, List.map_nil, List.foldl_nil]
  rw [settlePage_referenced hleft hr]
  exact hleft

/-- EVICTION_COMPLETE reads the payload it stores; an uncorrectable error quarantines the page (R391, R399, R404). -/
theorem execEvictionComplete_evicting {s : State} {n : Nat} {p : Page} (hn : s.pages.find? n = some p) (hst : p.st = .evicting) :
    exec (.evictionComplete (pageDie n) n) s = .next (if (s.readPages [n]).2.isSome
      then ((s.readPages [n]).1.quarantine n).runEvict (pageDie n) (pagePool n)
      else (s.readPages [n]).1.finishEviction n) := by
  show execEvictionComplete (pageDie n) n s = _
  simp [execEvictionComplete, hn, hst]

/-- FETCH_COMPLETE reads the payload it brings; an uncorrectable error quarantines the page (R400, R404). -/
theorem execFetchComplete_fetching {s : State} {n f : Nat} {p : Page} (err : PageError) (hn : s.pages.find? n = some p)
    (hst : p.st = .fetching) (hf : p.frame = some f) :
    exec (.fetchComplete (pageDie n) n err) s = .next (if (s.payloadError n err).2
      then (s.payloadError n err).1.quarantine n else (s.payloadError n err).1.finishFetch n) := by
  show execFetchComplete (pageDie n) n err s = _
  simp [execFetchComplete, hn, hst, hf]

/-- The read of CHART_SCRUB is due of any page's header, and of a resident payload under CHPOL.SCRUB (R388, R402, R403). -/
theorem execChartScrub_due {s : State} {n : Nat} {p : Page} (err : PageError) (hn : s.pages.find? n = some p)
    (hdue : (∃ a b, err = .header a b) ∨ ((s.chart (pageDie n)).scrub = true ∧ p.st = .resident)) :
    exec (.chartScrub (pageDie n) n err) s = .next (if (s.payloadError n err).2
      then (s.payloadError n err).1.quarantine n else (s.payloadError n err).1) := by
  show execChartScrub (pageDie n) n err s = _
  unfold execChartScrub
  obtain ⟨a, b, rfl⟩ | ⟨hscrub, hst⟩ := hdue
  · simp [hn]
  · cases err <;> simp [hn, hscrub, hst]

/-- CHCFG reads descriptors and keys again for the semaphore's owner (R388, R431). -/
theorem execChcfgReload_guarded {s : State} {port die : Nat} (hd : die < 2) (hr : s.pkg.ready = true) (hp : port < 2) :
    (s.helm.sems.find? (1 + die) = some port → exec (.chcfgReload port die) s = .next (s.reloadChart die)) ∧
    (s.helm.sems.find? (1 + die) ≠ some port → exec (.chcfgReload port die) s =
      .next (s.modHelm (fun h => { h with semViol := h.semViol.set port true }))) := by
  have hrun : exec (.chcfgReload port die) s = .next (s.guarded port (1 + die) (fun s => s.reloadChart die)) :=
    congrArg Host.Outcome.next (if_neg (by omega))
  exact ⟨fun ho => by rw [hrun, guarded_owner _ hr hp ho], fun ho => by rw [hrun, guarded_other _ hr hp ho]⟩

section Record
variable {s : State} {ho : HandOver} {p : Packet} {r : Request} {m : Model} (hrec : s.mer.recordOf ho = some p)
include hrec

/-- A block-table record that no request waits for is refused (R503). -/
theorem execBlockTableRecord_unawaited (hq : s.requests.find? ho.handle = none) :
    exec (.blockTableRecord ho) s = .next ((s.takeIn p).tell p.key.src p.reply p.dest 0x81 []) := by
  show execBlockTableRecord ho s = _
  simp [execBlockTableRecord, hrec, hq]

variable (hq : s.requests.find? ho.handle = some r) (hm : s.model? r.model = some m) (hst : r.st = .remote)
  (hi : r.imported = true)
include hq hm hst hi

/-- A record for the request that waits for it, with room, is installed and acknowledged (R442, R503). -/
theorem execBlockTableRecord_installs (ha : m.asid = p.asid)
    (hframes : ho.pages.length ≤ (s.pool (ho.handle / 16384) (m.pool (ho.handle / 16384))).spare)
    (hheaders : ho.pages.length ≤ s.freeHeaders (ho.handle / 16384) (m.pool (ho.handle / 16384))) :
    exec (.blockTableRecord ho) s = .next (((s.takeIn p).installRecord ho r m).tell p.key.src p.reply p.dest 0 []) := by
  show execBlockTableRecord ho s = _
  simp [execBlockTableRecord, hrec, hq, hm, hst, hi, ha, Nat.not_lt.mpr hframes, Nat.not_lt.mpr hheaders]

/-- A record of another ASID is refused, and its request fails with PEER (R443). -/
theorem execBlockTableRecord_foreign (ha : m.asid ≠ p.asid) :
    exec (.blockTableRecord ho) s =
      .next (((s.takeIn p).tell p.key.src p.reply p.dest 0x81 []).failReq ho.handle 0x13) := by
  show execBlockTableRecord ho s = _
  simp [execBlockTableRecord, hrec, hq, hm, hst, hi, ha]

end Record

/-- KVSEND_ACK of a hand-over whose pages have gone out (R421, R442). -/
theorem execKvsendAck_sent {s : State} {id n : Nat} {cmd : Cmd} {k : ChartCmd} {x : Send} (hc : s.cmds.find? id = some cmd)
    (hw : cmd.work = .chart k) (hop : k.op = .send x) (hacks : x.acks = some n) (hover : s.gridOver cmd = false)
    (hdue : s.completable cmd = true) :
    exec (.kvsendAck id false) s = .next (peerEnd id cmd k x.handle s) ∧
    (x.recorded = true → s.mer.carries id = false →
      ∀ r, (finishChart id cmd k 0 [] s).requests.find? x.handle = some r → r.st = .decode → r.inStep = none →
        exec (.kvsendAck id true) s =
          .next (((finishChart id cmd k 0 [] s).modReq x.handle (fun r => Request.mark r 0x04)).endReq x.handle .remote)) := by
  constructor
  · show execKvsendAck id false s = _
    simp [execKvsendAck, hc, hw, hop, hacks, hover, hdue]
  · intro hrec hleft r hr hst hin
    show execKvsendAck id true s = _
    simp only [execKvsendAck, hc, hw, hop, hacks, hover, hdue, hrec, hleft, hr, hst, hin, Bool.false_eq_true, not_true,
      Option.isNone_some, Option.isSome_none, ne_eq, or_self, if_false]

/-- Settles O38: each event by the branch of its function that the premises choose, and the pages as they are left. -/
theorem chartEvents : Obligations.ChartEvents := by
  unfold Obligations.ChartEvents
  exact ⟨fun n p s => execEvictionComplete_evicting, fun n p f s => finishEviction_referenced,
    fun n p f err s => execFetchComplete_fetching err,
    fun n p err s hn hscrub hst => execChartScrub_due err hn (.inr ⟨hscrub, hst⟩),
    fun n p a b s hn => execChartScrub_due (.header a b) hn (.inl ⟨a, b, rfl⟩), fun n p s => quarantine_unnamed,
    fun port die s => execChcfgReload_guarded,
    fun ho p r m s hrec hq hm hst hi ha hf hh => execBlockTableRecord_installs hrec hq hm hst hi ha hf hh,
    fun ho p r m s hrec hq hm hst hi ha => execBlockTableRecord_foreign hrec hq hm hst hi ha,
    fun ho p s hrec hq => execBlockTableRecord_unawaited hrec hq, fun id cmd k x n s => execKvsendAck_sent⟩

end Sys2Proof.Machine

namespace Sys2Proof.Machine

/-! ### Chart's work leaves the groups -/

section
variable (s : State)

@[simp] theorem State.touchPlaces_groups (keep : Option Nat) (tag : Nat) (ps : List Place) :
    (s.touchPlaces keep tag ps).groups = s.groups := (sameAgents_touchPlaces ..).groups

@[simp] theorem State.modChart_groups (die : Nat) (f : Chart → Chart) : (s.modChart die f).groups = s.groups := rfl
@[simp] theorem State.modPool_groups (die p : Nat) (f : Pool → Pool) : (s.modPool die p f).groups = s.groups := rfl
@[simp] theorem State.takeSeq_groups (die : Nat) : (s.takeSeq die).1.groups = s.groups := rfl

@[simp] theorem State.chartStore_groups (asid pa : Nat) (bs : List Byte) : (s.chartStore asid pa bs).groups = s.groups :=
  (sameAgents_chartStore ..).groups

@[simp] theorem State.slotStore_groups (n asid off : Nat) (bs : List Byte) : (s.slotStore n asid off bs).groups = s.groups :=
  (sameAgents_slotStore ..).groups

@[simp] theorem State.copyPayload_groups (asid src dst n : Nat) : (s.copyPayload asid src dst n).groups = s.groups :=
  (sameAgents_copyPayload ..).groups

@[simp] theorem State.modPage_groups (n : Nat) (f : Page → Page) : (s.modPage n f).groups = s.groups := by
  unfold State.modPage
  split
  · rfl
  · exact State.slotStore_groups ..

@[simp] theorem State.modPlanes_groups (n : Nat) (f : Page → Page) : (s.modPlanes n f).groups = s.groups := by
  unfold State.modPlanes
  dsimp only
  split <;> simp

@[simp] theorem State.pin_groups (n : Nat) : (s.pin n).groups = s.groups := State.modPage_groups ..

/-! #### Frames, eviction and fetch (R391, R398 to R400) -/

@[simp] theorem State.serve_groups (die pool fuel : Nat) : (s.serve die pool fuel).groups = s.groups := by
  induction fuel generalizing s with
  | zero => rfl
  | succ fuel ih =>
    unfold State.serve
    dsimp only
    split
    · rw [ih]; simp
    · rfl

@[simp] theorem State.serveWaiters_groups (die pool : Nat) : (s.serveWaiters die pool).groups = s.groups := State.serve_groups ..

@[simp] theorem State.giveFrame_groups (die pool f : Nat) : (s.giveFrame die pool f).groups = s.groups := by
  simp [State.giveFrame]

@[simp] theorem State.dropFrame_groups (n : Nat) (p : Page) : (s.dropFrame n p).groups = s.groups := by
  unfold State.dropFrame
  dsimp only
  repeat' split
  all_goals simp

@[simp] theorem State.settlePage_groups (n : Nat) : (s.settlePage n).groups = s.groups := by
  unfold State.settlePage
  split
  · rfl
  · split
    · simp only [State.dropFrame_groups, State.slotStore_groups]
      split <;> rfl
    · rfl

@[simp] theorem State.evict_groups (die pool fuel : Nat) : (s.evict die pool fuel).groups = s.groups := by
  induction fuel generalizing s with
  | zero => rfl
  | succ fuel ih =>
    unfold State.evict
    split
    · rfl
    · split
      · rfl
      · rw [ih]; simp

@[simp] theorem State.runEvict_groups (die pool : Nat) : (s.runEvict die pool).groups = s.groups := State.evict_groups ..

@[simp] theorem State.unpin_groups (n : Nat) : (s.unpin n).groups = s.groups := by
  unfold State.unpin State.unhold
  dsimp only
  split <;> simp

@[simp] theorem State.startFetch_groups (n : Nat) (seq : Word) : (s.startFetch n seq).groups = s.groups := by
  unfold State.startFetch
  dsimp only
  split
  · rfl
  · split
    · split <;> simp
    · rfl

@[simp] theorem State.fetchPages_groups (seqs : Map Word) (ns : List Nat) : (s.fetchPages seqs ns).1.groups = s.groups := by
  unfold State.fetchPages
  generalize ([] : List Nat) = done
  induction ns generalizing s done with
  | nil => rfl
  | cons n ns ih =>
    rw [List.foldl_cons]
    split
    · rw [ih]; simp
    · exact ih ..

@[simp] theorem State.awaitFrames_groups (die pool id n : Nat) : (s.awaitFrames die pool id n).groups = s.groups := by
  simp [State.awaitFrames]

/-! #### Block tables and allocation (R395, R396, R420) -/

@[simp] theorem State.putEntry_groups (h e : Nat) (n : Option Nat) : (s.putEntry h e n).groups = s.groups := by
  unfold State.putEntry
  split
  · rfl
  · simp

@[simp] theorem State.decRef_groups (n : Nat) : (s.decRef n).groups = s.groups := by simp [State.decRef]

theorem install_groups {s t : State} {h e : Nat} {n : Option Nat} (ht : s.install h e n = some t) : t.groups = s.groups := by
  unfold State.install at ht
  dsimp only at ht
  split at ht
  · cases ht; rfl
  · split at ht
    · cases ht
    · cases ht
      cases n <;> cases s.entry h e <;> simp

@[simp] theorem State.install_getD_groups (h e : Nat) (n : Option Nat) : ((s.install h e n).getD s).groups = s.groups := by
  cases ht : s.install h e n with
  | none => rfl
  | some t => exact install_groups ht

@[simp] theorem State.clearTable_groups (h : Nat) : (s.clearTable h).groups = s.groups := by
  unfold State.clearTable
  split
  · rfl
  · exact foldl_groups (fun s (e : Nat × Nat) => State.install_getD_groups s h e.1 none) _ s

theorem allocPage_groups {s : State} {die pool h asid model parent tok rowb kv pins : Nat} {seq : Word} {r : State × Nat}
    (hr : s.allocPage die pool h asid model parent tok rowb kv seq pins = some r) : r.1.groups = s.groups := by
  unfold State.allocPage at hr
  split at hr
  · cases hr; simp
  · cases hr

@[simp] theorem State.joinHold_groups (grid n : Nat) : (s.joinHold grid n).groups = s.groups := by
  unfold State.joinHold
  split
  · split <;> simp
  · rfl

theorem allocAt_groups {s : State} {die grid h e mnum pins : Nat} {m : Model} {seq : Word} {r : State × Nat}
    (hr : s.allocAt die grid h e m mnum seq pins = some r) : r.1.groups = s.groups := by
  unfold State.allocAt at hr
  split at hr
  · cases hr
  · rename_i t n ha
    obtain ⟨u, hu, rfl⟩ := Option.map_eq_some_iff.mp hr
    have hpage : t.groups = s.groups := allocPage_groups ha
    simp [install_groups hu, hpage]

/-! #### Errors, events and failing requests (R402 to R404, R437, R442, R443) -/

theorem State.payloadError_groups (n : Nat) (e : PageError) : (s.payloadError n e).1.groups = s.groups := by
  have hcount := fun k : Nat => foldl_groups (f := fun (s : State) (_ : Nat) => s.countMgmt k) (fun _ _ => rfl)
  unfold State.payloadError
  dsimp only
  split
  · split
    · rfl
    · simp only [hcount]
      split <;> split <;> simp
  · split <;> simp
  · rfl

@[simp] theorem State.readPages_groups (ns : List Nat) : (State.readPages ns s).1.groups = s.groups := by
  induction ns generalizing s with
  | nil => rfl
  | cons n ns ih =>
    unfold State.readPages
    dsimp only
    split
    · exact State.payloadError_groups ..
    · rw [ih, State.payloadError_groups, State.bump_groups]

@[simp] theorem State.modQueue_groups (q : Nat) (f : Queue → Queue) : (s.modQueue q f).groups = s.groups := rfl

@[simp] theorem State.writePhys_groups (pa : Nat) (bs : List Byte) : (s.writePhys pa bs).groups = s.groups := by
  simp [State.writePhys]

@[simp] theorem State.flushFor_groups (q fuel : Nat) : (s.flushFor q fuel).groups = s.groups := by
  induction fuel generalizing s with
  | zero => rfl
  | succ fuel ih =>
    unfold State.flushFor
    dsimp only
    split
    · rfl
    · split
      · rw [ih]; split <;> simp
      · rfl

@[simp] theorem State.post_groups (q : Nat) (bs : List Byte) (frees : Option Nat) : (s.post q bs frees).groups = s.groups := by
  unfold State.post
  split
  · exact State.flushFor_groups ..
  · split <;> rfl

@[simp] theorem State.endReq_groups (h : Nat) (st : ReqState) : (s.endReq h st).groups = s.groups := by
  unfold State.endReq
  dsimp only
  split <;> simp

@[simp] theorem State.failReq_groups (h : Nat) (code : Word) : (s.failReq h code).groups = s.groups := by
  unfold State.failReq
  dsimp only
  split
  · rfl
  · split
    · split <;> simp
    · rfl

@[simp] theorem State.quarantine_groups (n : Nat) : (s.quarantine n).groups = s.groups := by
  have hfail := foldl_groups (f := fun (s : State) (h : Nat) => s.failReq h 0x11) (fun s h => s.failReq_groups h 0x11)
  unfold State.quarantine
  dsimp only
  split
  · rfl
  · split
    · rfl
    · rw [State.settlePage_groups, hfail]
      split <;> simp

/-! #### Gathers and appends (R413, R417, R424) -/

@[simp] theorem State.gatherPin_groups (seqs : Map Word) (n : Nat) : (s.gatherPin seqs n).1.groups = s.groups := by
  unfold State.gatherPin
  dsimp only
  rw [State.modPage_groups]
  split <;> rfl

@[simp] theorem State.gatherWalk_groups (asid : Nat) (holds : List Nat) (seqs : Map Word) (os : List GOrd) (i : Nat) :
    (s.gatherWalk asid holds seqs os i).1.groups = s.groups := by
  induction os generalizing s seqs i with
  | nil => rfl
  | cons o os ih =>
    unfold State.gatherWalk
    split
    · exact (ih ..).trans (State.gatherPin_groups ..)
    · rfl

@[simp] theorem State.copyRows_groups (src dst : Nat) : (s.copyRows src dst).groups = s.groups := by
  unfold State.copyRows
  split
  · split <;> simp
  · rfl

@[simp] theorem State.copyOnWrite_groups (die grid : Nat) (a : Append) (m : Model) (mnum n : Nat) (seq : Word) :
    (s.copyOnWrite die grid a m mnum n seq).groups = s.groups := by
  unfold State.copyOnWrite
  split
  · rfl
  · split
    · rfl
    · rename_i t q ha
      have hpage : t.groups = s.groups := allocPage_groups ha
      simp [hpage]

@[simp] theorem State.appendRead_groups (a : Append) (m : Model) : (s.appendRead a m).1.groups = s.groups := by
  unfold State.appendRead
  split
  · split <;> simp
  · rfl

@[simp] theorem State.appendPlan_groups (die grid : Nat) (a : Append) (m : Model) (mnum : Nat) (seq : Word) :
    (s.appendPlan die grid a m mnum seq).1.groups = s.groups := by
  unfold State.appendPlan
  dsimp only
  rw [State.runEvict_groups, foldl_groups (fun s (e : Nat × Nat × Nat × Nat) => s.pin_groups e.1), foldl_groups]
  · split
    · split <;> simp
    · rfl
  · intro s k
    split
    · rfl
    · split
      · rename_i ha; exact allocAt_groups ha
      · rfl

end

end Sys2Proof.Machine

namespace Sys2Proof.Machine

/-! ### What a CSEQ taken leaves (R390) -/

/-- From `s` to `t` Chart engines alone have changed, and none of their pools. -/
structure OnlySeq (s t : State) : Prop where
  others : { t with charts := s.charts } = s
  pools : ∀ die p, t.pool die p = s.pool die p

theorem OnlySeq.refl (s : State) : OnlySeq s s := ⟨rfl, fun _ _ => rfl⟩

theorem OnlySeq.trans {s t u : State} (h : OnlySeq s t) (k : OnlySeq t u) : OnlySeq s u :=
  ⟨by rw [← h.others, ← k.others], fun die p => (k.pools die p).trans (h.pools die p)⟩

theorem onlySeq_takeSeq (s : State) (die : Nat) : OnlySeq s (s.takeSeq die).1 := by
  refine ⟨rfl, fun d p => ?_⟩
  unfold State.pool State.takeSeq
  by_cases hd : d = die
  · rw [hd, chart_modChart_self]
  · rw [chart_modChart_other _ _ hd]

theorem onlySeq_seqFor (s : State) (die : Nat) (own : Word) (n : Nat) : OnlySeq s (s.seqFor die own n).1 := by
  unfold State.seqFor
  split
  · exact OnlySeq.refl s
  · exact onlySeq_takeSeq ..

theorem onlySeq_seqThere (s : State) (die : Nat) (ns : List Nat) : OnlySeq s (s.seqThere die ns) := by
  unfold State.seqThere
  split
  · exact onlySeq_takeSeq ..
  · exact OnlySeq.refl s

theorem onlySeq_seqsFor (s : State) (die : Nat) (seq : Word) (ns : List Nat) : OnlySeq s (s.seqsFor die seq ns).1 := by
  unfold State.seqsFor
  generalize ([(die, seq)] : Map Word) = seqs
  induction ns generalizing s seqs with
  | nil => exact OnlySeq.refl s
  | cons n ns ih =>
    rw [List.foldl_cons]
    split
    · exact ih ..
    · exact (onlySeq_takeSeq ..).trans (ih ..)

theorem onlySeq_sequenced (c : Ctx) (s : State) (n : Nat) : OnlySeq s (c.sequenced s n).1 :=
  (onlySeq_takeSeq ..).trans (onlySeq_seqFor ..)

section
variable {s t : State} (h : OnlySeq s t)
include h

theorem OnlySeq.groups : t.groups = s.groups := by rw [← h.others]
theorem OnlySeq.pages : t.pages = s.pages := by rw [← h.others]
theorem OnlySeq.requests : t.requests = s.requests := by rw [← h.others]
theorem OnlySeq.liveReq (n asid : Nat) : t.liveReq n asid = s.liveReq n asid := by rw [← h.others]; rfl
theorem OnlySeq.model? (n : Nat) : t.model? n = s.model? n := by rw [← h.others]; rfl
theorem OnlySeq.entry (n e : Nat) : t.entry n e = s.entry n e := by rw [← h.others]; rfl
theorem OnlySeq.entryWord (n e : Nat) : t.entryWord n e = s.entryWord n e := by rw [← h.others]; rfl
theorem OnlySeq.entryCode (c : Ctx) (n e : Nat) : entryCode c t n e = entryCode c s n e := by rw [← h.others]; rfl
theorem OnlySeq.pageCode (c : Ctx) (n : Nat) (quar : Bool) : pageCode c t n quar = pageCode c s n quar := by rw [← h.others]; rfl

theorem OnlySeq.freeHeaders (die p : Nat) : t.freeHeaders die p = s.freeHeaders die p := by
  have hpages : t.poolPages die p = s.poolPages die p := by rw [← h.others]; rfl
  rw [State.freeHeaders, h.pools, hpages, State.freeHeaders]

end

/-! ### Acceptance of Chart commands (R22, R292, R409) -/

/-- Nothing holds a Chart command back: it goes on. -/
theorem chartGate_free {c : Ctx} {s : State} {tag : Nat} {hs ps : List Nat} (go : State → State) (h : ChartFree c s tag hs ps) :
    chartGate c tag hs ps s go = go s := by
  simp [chartGate, h.1, h.2]

/-- Acceptance is that of any command, with its result registers held, and a check whether a page is outside the hold set. -/
theorem checked_chartAccept (c : Ctx) (tag : Nat) (bar : Option Nat) (owned : List (Space × Nat × Nat)) (k : ChartCmd) (s : State) :
    Checked (holdRegs c.gid (k.results.flatMap (fun r => regCodes (r.1, 1)))
      (s.accept c (some tag) bar (viewOf c s) owned (.chart k))) (chartAccept c tag bar owned k s) := by
  unfold chartAccept
  dsimp only
  split
  · split
    · exact checked_owe ..
    · exact Checked.refl _
  · exact Checked.refl _

theorem Ctx.stands.chartAccept {c : Ctx} {s : State} (h : c.stands s) (tag : Nat) (bar : Option Nat)
    (owned : List (Space × Nat × Nat)) (k : ChartCmd) : c.stands (chartAccept c tag bar owned k s) :=
  (checked_chartAccept ..).stands ((h.of_groups (accept_groups ..)).modGroup c.gid _ (fun _ => rfl))

/-- The issuing group has retired an instruction since the context was taken. -/
def Ctx.retired (c : Ctx) (t : State) : Prop := ∃ g, t.groups.find? c.gid = some g ∧ g.icnt ≠ c.grp.icnt

theorem Ctx.retired.moved {c : Ctx} {t : State} (h : c.retired t) : c.moved t = true := by
  obtain ⟨g, hg, hi⟩ := h
  simp [Ctx.moved, hg, hi]

theorem Ctx.retired.of_groups {c : Ctx} {s t : State} (h : c.retired s) (hg : t.groups = s.groups) : c.retired t := by
  unfold Ctx.retired
  rw [hg]
  exact h

theorem Checked.retired {c : Ctx} {s t : State} (h : Checked s t) (hs : c.retired s) : c.retired t := by
  obtain ⟨g, hg, hi⟩ := hs
  obtain ⟨g', hg', he⟩ := h.find hg
  exact ⟨g', hg', fun e => hi ((congrArg Group.icnt he).symm.trans e)⟩

theorem rouse_icnt (g : Group) (core seq : Nat) (but : Option Nat) : (g.rouse core seq but).icnt = g.icnt := by
  unfold Group.rouse
  split <;> rfl

theorem Ctx.stands.retire {c : Ctx} {u : State} (h : c.stands u) : c.retired (retire c u) := by
  obtain ⟨g, hg, hi⟩ := h
  have hcount : ((Machine.retire c u).groups.find? c.gid).map Group.icnt = some (c.grp.icnt + 1) := by
    unfold Machine.retire retireTo
    rw [issued_groups]
    simp [State.retireAt, State.modSplit, hg, rouse_icnt, Group.count, hi]
  obtain ⟨g', hg', hi'⟩ := Option.map_eq_some_iff.mp hcount
  exact ⟨g', hg', by rw [hi']; simp⟩

/-- A command whose whole work is done at acceptance retires. -/
theorem Ctx.stands.chartSettle {c : Ctx} {s : State} (h : c.stands s) (tag code : Nat) (rs : List (Reg × Word)) (pins : List Nat) :
    c.retired (chartSettle c tag code rs pins s) := (h.chartAccept ..).retire

theorem Ctx.retired.readsFrom {c : Ctx} {s : State} (h : c.retired s) (off n : Nat) : c.retired (readsFrom c off n s) := by
  unfold Machine.readsFrom
  split
  · exact (checked_sourceAccess ..).retired h
  · exact h

/-- A Chart instruction yields what its effect comes to, where that retires it. -/
theorem chart_yields {i : Instr} {p : Ctx → State → Prop} {f k : Ctx → State → State} (he : ∀ s, exec i s = issueSync i s k)
    (h : ∀ c s, p c s → k c s = f c s) (hm : ∀ c s, c.stands s → p c s → c.retired (f c s)) : Yields true i p f :=
  yields_of he h (fun c _ hc hp => (hm c _ (stands_noted hc.1) hp).moved)

/-- What is found of an accepted command: its tag PENDING, and the command in flight. -/
theorem chartAccept_found (c : Ctx) (tag : Nat) (bar : Option Nat) (owned : List (Space × Nat × Nat)) (k : ChartCmd) (s : State) :
    (chartAccept c tag bar owned k s).tag c.grp.core tag =
      { st := .pending, status := 2, cmd := s.uid + 1, team := c.grp.team, key := c.grp.key } ∧
    (chartAccept c tag bar owned k s).cmds.find? (s.uid + 1) = some (newCmd s c (some tag) bar (viewOf c s) owned (.chart k)) := by
  have h := checked_chartAccept c tag bar owned k s
  constructor
  · exact ((sameTags_of_cores h.cores).tag ..).trans (accept_tag ..)
  · rw [h.cmds]
    show (s.accept c (some tag) bar (viewOf c s) owned (.chart k)).cmds.find? _ = _
    rw [accept_cmds, Map.find?_set_self]

end Sys2Proof.Machine

namespace Sys2Proof.Machine

/-! ### Page operations (R390, R396, R408, R409, R419, R420) -/

theorem Ctx.stands.onlySeq {c : Ctx} {s t : State} (h : c.stands s) (ht : OnlySeq s t) : c.stands t := h.of_groups ht.groups

section Pgref
variable {c : Ctx} {s : State} {page : Reg} {tag n : Nat} {quar : Bool} (d : Reg)
  (f : Nat → Page → State → Except Nat (State × Word)) (hn : n = (c.rd page 0).toNat) (hfree : ChartFree c s tag [] [n])
include hn hfree

/-- PGREF of a page that cannot be used has its status (R420). -/
theorem startPgref_refused {k : Nat} (hk : k ≠ 0) (hcode : pageCode c s n quar = k) :
    startPgref d page tag quar f c s = chartSettle c tag k [(d, 0)] [] (c.sequenced s n).1 := by
  subst hn
  unfold startPgref
  rw [show c.uni page = c.rd page 0 from rfl, chartGate_free _ hfree]
  show (match pageCode c (c.sequenced s _).1 _ quar, (c.sequenced s _).1.pages.find? _ with | 0, some p => _ | k, _ => _) = _
  rw [(onlySeq_sequenced ..).pageCode, hcode]
  split
  · contradiction
  · rfl

/-- PGREF of a page that can be used does what its form does there (R420). -/
theorem startPgref_usable {p : Page} (hcode : pageCode c s n quar = 0) (hp : s.pages.find? n = some p) :
    startPgref d page tag quar f c s = match f n p (c.sequenced s n).1 with
      | .error k => chartSettle c tag k [(d, 0)] [] (c.sequenced s n).1
      | .ok (t, w) => chartSettle c tag 0 [(d, w)] [] t := by
  subst hn
  unfold startPgref
  rw [show c.uni page = c.rd page 0 from rfl, chartGate_free _ hfree]
  show (match pageCode c (c.sequenced s _).1 _ quar, (c.sequenced s _).1.pages.find? _ with | 0, some p => _ | k, _ => _) = _
  rw [(onlySeq_sequenced ..).pageCode, hcode, (onlySeq_sequenced ..).pages, hp]
  rfl

end Pgref

/-- A form of PGREF yields the status of a page that cannot be used. -/
theorem pgref_refused {i : Instr} {d page : Reg} {tag n k : Nat} {quar : Bool} {f : Nat → Page → State → Except Nat (State × Word)}
    (he : ∀ s, exec i s = issueSync i s (startPgref d page tag quar f)) (hk : k ≠ 0) :
    Yields true i (fun c s => n = (c.rd page 0).toNat ∧ ChartFree c s tag [] [n] ∧ pageCode c s n quar = k)
      (fun c s => chartSettle c tag k [(d, 0)] [] (c.sequenced s n).1) :=
  chart_yields he (fun _ _ ⟨hn, hfree, hcode⟩ => startPgref_refused d f hn hfree hk hcode)
    (fun _ _ hs _ => (hs.onlySeq (onlySeq_sequenced ..)).chartSettle ..)

section
variable {i : Instr} {d page : Reg} {tag n : Nat} {p : Page} {quar : Bool} {f : Nat → Page → State → Except Nat (State × Word)}
  {cond : Ctx → State → Prop} (he : ∀ s, exec i s = issueSync i s (startPgref d page tag quar f))
  (hcond : ∀ c s, cond c s → n = (c.rd page 0).toNat ∧ ChartFree c s tag [] [n] ∧ pageCode c s n quar = 0 ∧
    s.pages.find? n = some p)
include he hcond

/-- A form of PGREF yields what it does to a page that can be used. -/
theorem pgref_done {w : Word} {g : State → State} (hf : ∀ c s, cond c s → ∀ t, f n p t = .ok (g t, w))
    (hg : ∀ t, (g t).groups = t.groups) :
    Yields true i cond (fun c s => chartSettle c tag 0 [(d, w)] [] (g (c.sequenced s n).1)) := by
  refine chart_yields he (fun c s h => ?_) (fun c s hs _ =>
    ((hs.onlySeq (onlySeq_sequenced ..)).of_groups (hg _)).chartSettle ..)
  obtain ⟨hn, hfree, hcode, hp⟩ := hcond c s h
  rw [startPgref_usable d f hn hfree hcode hp, hf c s h]

/-- A form of PGREF yields the status it meets at a page that can be used. -/
theorem pgref_stopped {k : Nat} (hf : ∀ c s, cond c s → ∀ t, f n p t = .error k) :
    Yields true i cond (fun c s => chartSettle c tag k [(d, 0)] [] (c.sequenced s n).1) := by
  refine chart_yields he (fun c s h => ?_) (fun c s hs _ => (hs.onlySeq (onlySeq_sequenced ..)).chartSettle ..)
  obtain ⟨hn, hfree, hcode, hp⟩ := hcond c s h
  rw [startPgref_usable d f hn hfree hcode hp, hf c s h]

end

/-- PGREF.INC below both limits (R396, R420). -/
theorem pgrefInc_done (d page : Reg) (tag : Fin 64) (g : Guard) (n : Nat) (p : Page) : Yields true (.pgrefInc d page tag g)
    (fun c s => n = (c.rd page 0).toNat ∧ ChartFree c s tag.val [] [n] ∧ pageCode c s n true = 0 ∧
      s.pages.find? n = some p ∧ p.refcnt < 65535 ∧ p.xref < 65535)
    (fun c s => chartSettle c tag.val 0 [(d, BitVec.ofNat 32 (p.refcnt + 1))] []
      ((c.sequenced s n).1.modPage n (fun p => { p with refcnt := p.refcnt + 1, xref := p.xref + 1 }))) :=
  pgref_done (fun _ => rfl) (fun _ _ ⟨hn, hfree, hcode, hp, _⟩ => ⟨hn, hfree, hcode, hp⟩)
    (g := fun t => t.modPage n (fun p => { p with refcnt := p.refcnt + 1, xref := p.xref + 1 }))
    (fun _ _ ⟨_, _, _, _, hr, hx⟩ _ => if_neg (by omega)) (fun _ => State.modPage_groups ..)

/-- PGREF.INC at the limit of either count (R420). -/
theorem pgrefInc_limited (d page : Reg) (tag : Fin 64) (g : Guard) (n : Nat) (p : Page) : Yields true (.pgrefInc d page tag g)
    (fun c s => n = (c.rd page 0).toNat ∧ ChartFree c s tag.val [] [n] ∧ pageCode c s n true = 0 ∧
      s.pages.find? n = some p ∧ (65535 ≤ p.refcnt ∨ 65535 ≤ p.xref))
    (fun c s => chartSettle c tag.val 0x46 [(d, 0)] [] (c.sequenced s n).1) :=
  pgref_stopped (fun _ => rfl) (fun _ _ ⟨hn, hfree, hcode, hp, _⟩ => ⟨hn, hfree, hcode, hp⟩)
    (fun _ _ ⟨_, _, _, _, hl⟩ _ => if_pos hl)

/-- PGREF.DEC of a page with an external reference (R391, R396, R420). -/
theorem pgrefDec_done (d page : Reg) (tag : Fin 64) (g : Guard) (n : Nat) (p : Page) : Yields true (.pgrefDec d page tag g)
    (fun c s => n = (c.rd page 0).toNat ∧ ChartFree c s tag.val [] [n] ∧ pageCode c s n true = 0 ∧
      s.pages.find? n = some p ∧ 0 < p.xref)
    (fun c s => chartSettle c tag.val 0 [(d, BitVec.ofNat 32 (p.refcnt - 1))] []
      (((c.sequenced s n).1.modPage n (fun p => { p with xref := p.xref - 1 })).decRef n)) :=
  pgref_done (fun _ => rfl) (fun _ _ ⟨hn, hfree, hcode, hp, _⟩ => ⟨hn, hfree, hcode, hp⟩)
    (g := fun t => (t.modPage n (fun p => { p with xref := p.xref - 1 })).decRef n)
    (fun _ _ ⟨_, _, _, _, hx⟩ _ => if_neg (by omega)) (fun _ => by simp)

/-! #### BTSET and BTGET (R396, R420) -/

/-- The page that BTSET's operand names: none for null (R383, R420). -/
def Ctx.named (c : Ctx) (page : Reg) : Option Nat := if c.uni page = nullPage then none else some (c.uni page).toNat

/-- BTSET installs what its operand names, where the entry and the page can be used (R396, R420). -/
theorem btset_installs {d req idx page : Reg} {tag : Fin 64} {g : Guard} {h e : Nat} {new : Option Nat} {s1 : State} :
    Yields true (.btset d req idx page tag g)
      (fun c s => (h = (c.rd req 0).toNat ∧ e = (c.rd idx 0).toNat ∧ c.named page = new) ∧
        ChartFree c s tag.val [h] (new.toList ++ (s.entry h e).toList) ∧ entryCode c s h e = 0 ∧
        (∀ n, new = some n → pageCode c s n true = 0) ∧
        ((s.takeSeq c.die).1.seqThere c.die (new.toList ++ (s.entry h e).toList)).install h e new = some s1)
      (fun c s => chartSettle c tag.val 0 [(d, s.entryWord h e)] [] s1) := by
  have hseq := fun (c : Ctx) (s : State) (ns : List Nat) => (onlySeq_takeSeq s c.die).trans (onlySeq_seqThere _ c.die ns)
  refine chart_yields (fun _ => rfl) (fun c s ⟨⟨hh, hi, hnew⟩, hfree, hentry, hpage, hinst⟩ => ?_)
    (fun c s hs ⟨_, _, _, _, hinst⟩ => ((hs.onlySeq (hseq ..)).of_groups (install_groups hinst)).chartSettle ..)
  have hpageCode : (if new.isSome then pageCode c s (c.uni page).toNat true else 0) = 0 := by
    unfold Ctx.named at hnew
    split at hnew <;> subst hnew
    · rfl
    · exact hpage _ rfl
  dsimp only
  rw [show (if c.uni page = nullPage then none else some (c.uni page).toNat) = new from hnew, show (c.uni req).toNat = h from hh.symm,
    show (c.uni idx).toNat = e from hi.symm, chartGate_free _ hfree]
  simp only [(hseq c s _).entryCode, (hseq c s _).pageCode, (hseq c s _).entryWord, hentry, hpageCode, hinst, ne_eq,
    not_true, if_false]

/-- BTGET gives the entry with its status (R420). -/
theorem btget_gives (d req idx : Reg) (tag : Fin 64) (g : Guard) (h e : Nat) : Yields true (.btget d req idx tag g)
    (fun c s => h = (c.rd req 0).toNat ∧ e = (c.rd idx 0).toNat ∧ ChartFree c s tag.val [h] [])
    (fun c s => chartSettle c tag.val (entryCode c s h e) [(d, s.entryWord h e)] [] (s.takeSeq c.die).1) := by
  refine chart_yields (fun _ => rfl) (fun c s ⟨hh, hi, hfree⟩ => ?_) (fun c s hs _ => (hs.onlySeq (onlySeq_takeSeq ..)).chartSettle ..)
  dsimp only
  rw [show (c.uni req).toNat = h from hh.symm, show (c.uni idx).toNat = e from hi.symm, chartGate_free _ hfree]
  rfl

/-! #### PGALLOC and PGFETCH (R390, R400, R420) -/

section Pgalloc
variable {c : Ctx} {s : State} {req idx : Reg} {tag h e : Nat} (d : Reg) (hh : h = (c.rd req 0).toNat)
  (hi : e = (c.rd idx 0).toNat) (hfree : ChartFree c s tag [h] (s.entry h e).toList)
include hh hi hfree

/-- PGALLOC of a live request, with a frame and a header free, installs a new page and pins it (R420). -/
theorem startPgalloc_allocates {r : Request} {m : Model} {u : State} {n : Nat} (hreq : s.liveReq h c.grid.asid = some r)
    (hm : s.model? r.model = some m) (he : e < m.nlg * m.maxpg) (hframe : 0 < (s.pool c.die (m.pool c.die)).spare)
    (hheader : 0 < s.freeHeaders c.die (m.pool c.die))
    (halloc : ((s.takeSeq c.die).1.seqThere c.die (s.entry h e).toList).allocAt c.die c.team.grid h e m r.model
      (s.takeSeq c.die).2 1 = some (u, n)) :
    startPgalloc d req idx tag c s = chartSettle c tag 0 [(d, BitVec.ofNat 32 n)] [n] (u.runEvict c.die (m.pool c.die)) := by
  have hseq := (onlySeq_takeSeq s c.die).trans (onlySeq_seqThere _ c.die (s.entry h e).toList)
  have hroom : ¬((s.pool c.die (m.pool c.die)).spare = 0 ∨ s.freeHeaders c.die (m.pool c.die) = 0) := by omega
  unfold startPgalloc
  dsimp only
  rw [show (c.uni req).toNat = h from hh.symm, show (c.uni idx).toNat = e from hi.symm, chartGate_free _ hfree]
  simp only [hseq.liveReq, hreq, hseq.model?, hm, hseq.pools, hseq.freeHeaders, halloc, Nat.not_le.mpr he, hroom, if_false]

/-- PGALLOC of a request that is not live (R408). -/
theorem startPgalloc_unlive (hreq : s.liveReq h c.grid.asid = none) : startPgalloc d req idx tag c s =
    chartSettle c tag 0x44 [(d, 0)] [] ((s.takeSeq c.die).1.seqThere c.die (s.entry h e).toList) := by
  have hseq := (onlySeq_takeSeq s c.die).trans (onlySeq_seqThere _ c.die (s.entry h e).toList)
  unfold startPgalloc
  dsimp only
  rw [show (c.uni req).toNat = h from hh.symm, show (c.uni idx).toNat = e from hi.symm, chartGate_free _ hfree]
  simp only [hseq.liveReq, hreq]

end Pgalloc

/-- PGFETCH of a page that can be used completes at a RESIDENT one, and starts the fetch of a CAPACITY one (R400, R420). -/
theorem startPgfetch_usable {c : Ctx} {s : State} {page : Reg} {tag n : Nat} {p : Page} (hn : n = (c.rd page 0).toNat)
    (hfree : ChartFree c s tag [] [n]) (hcode : pageCode c s n true = 0) (hp : s.pages.find? n = some p) :
    (p.st = .resident → startPgfetch page tag c s = chartSettle c tag 0 [] [] (c.sequenced s n).1) ∧
    (p.st = .capacity → startPgfetch page tag c s = retire c (chartAccept c tag none []
      { op := .fetch n true (c.sequenced s n).2, results := [], status := none, pins := [] }
      ((c.sequenced s n).1.startFetch n (c.sequenced s n).2))) := by
  have hseq := onlySeq_sequenced c s n
  have hcode' := (hseq.pageCode c n true).trans hcode
  have hp' : (c.sequenced s n).1.pages.find? n = some p := by rw [hseq.pages]; exact hp
  unfold startPgfetch
  dsimp only
  rw [show (c.uni page).toNat = n from hn.symm, chartGate_free _ hfree]
  unfold Ctx.sequenced at *
  simp only [hcode', hp']
  exact ⟨fun hst => by rw [hst], fun hst => by rw [hst]⟩

/-! #### The end of a command whose work was done at acceptance (R408, R409, R425) -/

theorem retire_cores {c : Ctx} {s : State} : (retire c s).cores = s.cores := rfl

theorem retire_cmds {c : Ctx} {s : State} : (retire c s).cmds = s.cmds := rfl

/-- COMMAND_COMPLETE finishes it, in Reckoning mode at its key. -/
theorem execCommandComplete_settled {s : State} {id : Nat} {cmd : Cmd} {k : ChartCmd} (hc : s.cmds.find? id = some cmd)
    (hw : cmd.work = .chart k) (hop : k.op = .settled) (hover : s.gridOver cmd = false) (hdue : s.completable cmd = true) :
    exec (.commandComplete id) s = .next (finishChart id cmd k (k.status.getD 0) [] s) := by
  show execCommandComplete id s = _
  simp [execCommandComplete, hc, hw, hop, completeChart, hover, hdue]

/-- From `s` to `t` no s register has changed, and no team has ended or come back. -/
structure SameScalars (s t : State) : Prop where
  regs : ∀ k, (t.groups.find? k).map Group.s = (s.groups.find? k).map Group.s
  ended : ∀ k, (t.teams.find? k).map Team.ended = (s.teams.find? k).map Team.ended

theorem SameScalars.refl (s : State) : SameScalars s s := ⟨fun _ => rfl, fun _ => rfl⟩

theorem SameScalars.trans {s t u : State} (h : SameScalars s t) (k : SameScalars t u) : SameScalars s u :=
  ⟨fun n => (k.regs n).trans (h.regs n), fun n => (k.ended n).trans (h.ended n)⟩

theorem SameScalars.foldl {α : Type} {f : State → α → State} (h : ∀ s a, SameScalars s (f s a)) (l : List α) (s : State) :
    SameScalars s (l.foldl f s) := by
  induction l generalizing s with
  | nil => exact SameScalars.refl s
  | cons a l ih => exact (h s a).trans (ih _)

theorem sameScalars_of_eq {s t : State} (hg : t.groups = s.groups) (ht : t.teams = s.teams) : SameScalars s t :=
  ⟨fun _ => by rw [hg], fun _ => by rw [ht]⟩

/-- A lane's s register is what its group holds. -/
theorem SameScalars.lane {s t : State} (h : SameScalars s t) (gid : Nat) (n : Fin 48) (l : Nat) :
    t.lane gid (.s n) l = s.lane gid (.s n) l := by
  have hk := h.regs gid
  unfold State.lane
  cases hs : s.groups.find? gid <;> cases ht : t.groups.find? gid <;>
    simp only [hs, ht, Option.map_some, Option.map_none, Option.some.injEq, reduceCtorEq] at hk
  · rfl
  · show Map.getD _ _ _ = Map.getD _ _ _
    rw [hk]

theorem sameScalars_markStale (s : State) (sp : Space) (lo hi : Nat) : SameScalars s (s.markStale sp lo hi) := by
  unfold State.markStale
  split
  · refine ⟨fun _ => rfl, fun k => ?_⟩
    refine (congrArg _ (Map.find?_map s.teams (fun _ (t : Team) => { t with tables := staleTables sp lo hi t.tables }) k)).trans ?_
    rw [Option.map_map]
    rfl
  · exact SameScalars.refl s

theorem sameScalars_putByte (s : State) (p : Place) (b : Byte) : SameScalars s (s.putByte p b) := by
  have hlog : SameScalars s (s.logByte p) := sameScalars_of_eq (by simp) (by unfold State.logByte; split <;> rfl)
  obtain ⟨sp, a⟩ := p
  cases sp with
  | global =>
    refine hlog.trans (sameScalars_of_eq ?_ ?_)
    · simp [State.putByte]
    · exact (sameAgents_physStore ..).teams.trans (by unfold State.markWritten; split <;> rfl)
  | spad c => exact (hlog.trans (sameScalars_of_eq (t := State.modCore _ c _) rfl rfl)).trans (sameScalars_markStale ..)
  | wbuf c => exact (hlog.trans (sameScalars_of_eq (t := State.modCore _ c _) rfl rfl)).trans (sameScalars_markStale ..)

theorem sameScalars_putObj (s : State) (core off : Nat) (o : BarObj) : SameScalars s (s.putObj core off o) := by
  refine SameScalars.trans (t := s.seeUnit (unitOf (.spad core, off))) ?_
    (SameScalars.foldl (fun s (e : Place × Byte) => sameScalars_putByte s e.1 e.2) _ _)
  unfold State.seeUnit
  split
  · exact SameScalars.refl s
  · exact sameScalars_of_eq rfl rfl

theorem sameScalars_releaseWaits (s : State) (core off : Nat) (w : Wait) : SameScalars s (s.releaseWaits core off w) := by
  refine ⟨fun k => ?_, fun _ => rfl⟩
  refine (congrArg _ (Map.find?_map s.groups (fun _ (g : Group) => { g with splits := g.splits.map (fun (x : Nat × Split) =>
    if x.2.wait.isOn core off then (x.1, { x.2 with wait := w }) else x) }) k)).trans ?_
  rw [Option.map_map]
  rfl

theorem sameScalars_phaseDone (s : State) (cl core off : Nat) (o : BarObj) (reckon : Bool) (k : Key) :
    SameScalars s (s.phaseDone cl core off o reckon k) := by
  unfold State.phaseDone
  dsimp only
  generalize hu : State.modCore s core _ = u
  have hcore : SameScalars s u := sameScalars_of_eq (by rw [← hu]; rfl) (by rw [← hu]; rfl)
  have hseen : SameScalars s ((u.releaseWaits core off (.released k)).seeAll (u.clusterCores cl)) :=
    (hcore.trans (sameScalars_releaseWaits ..)).trans
      (sameScalars_of_eq (sameAgents_seeAll ..).groups (sameAgents_seeAll ..).teams)
  split
  · exact hseen.trans (sameScalars_of_eq (t := State.advanceEpoch _ cl) rfl rfl)
  · exact hseen

/-- Bytes counted on an object leave the s registers. -/
theorem sameScalars_countBytes (s : State) (cl core off b : Nat) (reckon : Bool) (k : Key) :
    SameScalars s (s.countBytes cl core off b reckon k) := by
  unfold State.countBytes
  dsimp only
  split
  · exact (sameScalars_putObj ..).trans (sameScalars_phaseDone ..)
  · split
    · exact (sameScalars_putObj s core off _).trans (sameScalars_releaseWaits ..)
    · exact sameScalars_putObj ..

theorem sameScalars_bumpGen (s : State) (team region : Nat) : SameScalars s (s.bumpGen team region) := by
  refine ⟨fun _ => by rw [bumpGen_groups], fun k => ?_⟩
  unfold State.bumpGen
  split
  · rfl
  · show ((s.teams.modify team _).find? k).map Team.ended = _
    rw [Map.find?_modify]
    split
    · rw [Option.map_map]; rfl
    · rfl

theorem Checked.scalars {s t : State} (h : Checked s t) : SameScalars s t := by
  refine ⟨fun k => ?_, fun _ => by rw [h.teams]⟩
  have hk := congrArg (Option.map Group.s) (h.groups k)
  rw [Option.map_map, Option.map_map] at hk
  exact hk

/-- The completion of a command of a team that has not ended leaves the s registers. -/
theorem sameScalars_complete (s : State) (id : Nat) (cmd : Cmd) (status : Word) (written : List (Place × DWord))
    (ht : (s.teams.find? cmd.team).any (fun t => t.ended) = false) : SameScalars s (s.complete id cmd status written) := by
  have hcount : SameScalars s _ := SameScalars.foldl (fun s (u : Nat × Nat × Nat) =>
    sameScalars_countBytes s cmd.cluster u.1 u.2.1 u.2.2 cmd.reckon cmd.key) cmd.uncounted s
  have hsettled : SameScalars s (s.settled id cmd written) :=
    (hcount.trans (checked_engineAccess ..).scalars).trans
      ((SameScalars.foldl (fun s (g : Nat × Nat) => sameScalars_bumpGen s g.1 g.2) _ _).trans (sameScalars_of_eq rfl rfl))
  have hgone : SameScalars s (((s.settled id cmd written).readyTag id cmd status).gone id cmd) := by
    refine hsettled.trans (SameScalars.trans (t := State.readyTag _ id cmd status) ?_ (sameScalars_of_eq rfl rfl))
    unfold State.readyTag
    split
    · split <;> exact sameScalars_of_eq rfl rfl
    · exact SameScalars.refl _
  rw [complete_eq]
  generalize ((s.settled id cmd written).readyTag id cmd status).gone id cmd = u at hgone
  have hleft : (u.teams.find? cmd.team).any (fun t => t.ended) = false := by
    have hk := hgone.ended cmd.team
    cases hu : u.teams.find? cmd.team <;> cases hs : s.teams.find? cmd.team <;>
      simp only [hu, hs, Option.map_some, Option.map_none, Option.some.injEq, reduceCtorEq] at hk
    · rfl
    · rw [hs] at ht
      exact hk.trans ht
  unfold State.dropTeam
  rw [hleft]
  exact hgone

/-- A register of a group that is alive takes the value that lands in it (R409). -/
theorem landReg_scalar {s : State} {cmd : Cmd} {g : Group} (hg : s.groups.find? cmd.grp = some g) (ha : g.alive = true)
    (n : Fin 48) (f : Nat → Word) :
    (∀ l, (landReg cmd (.s n) f s).lane cmd.grp (.s n) l = f 0) ∧ (landReg cmd (.s n) f s).teams = s.teams := by
  unfold landReg
  generalize hu : State.modGroup _ cmd.grp _ = u
  obtain ⟨g', hg', hst, hs⟩ : ∃ g', u.groups.find? cmd.grp = some g' ∧ g'.st = g.st ∧ g'.s = g.s.put 0 n.val (f 0) := by
    rw [← hu]
    simp [writeRegAt, hg]
  have hlive : ¬(g'.st = .draining) ∧ ¬(g'.st = .ended) := by
    unfold Group.alive at ha
    rw [hst]
    constructor <;> intro h <;> simp [h] at ha
  have hsettle : u.settle cmd.grp = u.freeReleased cmd.grp g' := by
    unfold State.settle
    simp [hg', hlive.1, hlive.2]
  have hfree : SameScalars u (u.freeReleased cmd.grp g') ∧ (u.freeReleased cmd.grp g').teams = u.teams := by
    unfold State.freeReleased
    split
    · exact ⟨SameScalars.refl u, rfl⟩
    · refine ⟨⟨fun k => ?_, fun _ => rfl⟩, rfl⟩
      simp only [State.modGroup_groups, State.modCore_groups, Map.find?_modify]
      split
      · rw [Option.map_map]; rfl
      · rfl
  rw [hsettle]
  refine ⟨fun l => ?_, by rw [hfree.2, ← hu]; rfl⟩
  rw [hfree.1.lane]
  unfold State.lane
  rw [hg']
  show Map.getD _ _ _ = _
  rw [hs, Map.getD_put, if_pos rfl]

/-- The result of a command that ends with OK is in its s register then. -/
theorem finishChart_result {id : Nat} {cmd : Cmd} {k : ChartCmd} {n : Fin 48} {w : Word} {g : Group} {s : State}
    (hg : s.groups.find? cmd.grp = some g) (ha : g.alive = true) (hpins : k.pins = []) (hres : k.results = [(.s n, w)])
    (ht : (s.teams.find? cmd.team).any (fun t => t.ended) = false) (l : Nat) :
    (finishChart id cmd k 0 [] s).lane cmd.grp (.s n) l = w := by
  unfold finishChart
  simp only [hpins, hres, List.foldl_nil, List.foldl_cons]
  obtain ⟨hland, hteams⟩ := landReg_scalar hg ha n
    (fun _ => if (isFault (statusCode 0) || statusCode 0 == 0x13) = true then nullPage else w)
  rw [(sameScalars_complete _ id cmd 0 [] (by rw [hteams]; exact ht)).lane, hland]
  rfl

/-- Settles O35: each operation by what its request, its entry and its page are, and a command's end by what completion leaves. -/
theorem chartPageOperations : Obligations.ChartPageOperations := by
  unfold Obligations.ChartPageOperations
  refine ⟨fun d page tag g n p => ?_, fun d page tag g n p => ?_, fun d page tag g n k hk => pgref_refused (fun _ => rfl) hk,
    fun d page tag g n k hk => pgref_refused (fun _ => rfl) hk, fun d page tag g n k hk => pgref_refused (fun _ => rfl) hk,
    fun d page tag g n k hk => pgref_refused (fun _ => rfl) hk, pgrefInc_done, pgrefInc_limited, pgrefDec_done, ?_, ?_, btget_gives,
    ?_, ?_, ?_, ?_, ?_, fun id cmd k s hc hw hop => execCommandComplete_settled hc hw hop,
    fun id cmd k n w g s hg ha hp hr ht l => finishChart_result hg ha hp hr ht l⟩
  · exact pgref_done (g := id) (fun _ => rfl) (fun _ _ h => h) (fun _ _ _ _ => rfl) (fun _ => rfl)
  · exact pgref_done (g := id) (fun _ => rfl) (fun _ _ h => h) (fun _ _ _ _ => rfl) (fun _ => rfl)
  · intro d req idx page tag g h e n s1 c s hc ⟨hh, hi, hne, hn, hfree, hentry, hpage, hinst⟩
    have hnew : c.named page = some n := by rw [hn]; exact if_neg hne
    exact btset_installs c s hc ⟨⟨hh, hi, hnew⟩, hfree, hentry, fun _ hm => Option.some.inj hm ▸ hpage, hinst⟩
  · intro d req idx page tag g h e s1 c s hc ⟨hh, hi, heq, hfree, hentry, hinst⟩
    have hnew : c.named page = none := if_pos heq
    exact btset_installs c s hc ⟨⟨hh, hi, hnew⟩, hfree, hentry, fun _ hm => (nomatch hm), hinst⟩
  · intro d req idx tag g h e r m u n
    refine chart_yields (fun _ => rfl) (fun c s ⟨hh, hi, hfree, hreq, hm, he, hframe, hheader, halloc⟩ =>
      startPgalloc_allocates d hh hi hfree hreq hm he hframe hheader halloc) (fun c s hs ⟨_, _, _, _, _, _, _, _, halloc⟩ => ?_)
    have hgroups : u.groups = _ := allocAt_groups halloc
    exact ((hs.onlySeq ((onlySeq_takeSeq s c.die).trans (onlySeq_seqThere _ c.die (s.entry h e).toList))).of_groups
      ((State.runEvict_groups ..).trans hgroups)).chartSettle ..
  · intro d req idx tag g h
    exact chart_yields (fun _ => rfl) (fun c s ⟨hh, hfree, hreq⟩ => startPgalloc_unlive d hh rfl hfree hreq)
      (fun c s hs _ => (hs.onlySeq ((onlySeq_takeSeq s c.die).trans (onlySeq_seqThere ..))).chartSettle ..)
  · intro page tag g n p
    exact chart_yields (fun _ => rfl) (fun c s ⟨hn, hfree, hcode, hp, hst⟩ => (startPgfetch_usable hn hfree hcode hp).1 hst)
      (fun c s hs _ => (hs.onlySeq (onlySeq_sequenced ..)).chartSettle ..)
  · intro page tag g n p
    exact chart_yields (fun _ => rfl) (fun c s ⟨hn, hfree, hcode, hp, hst⟩ => (startPgfetch_usable hn hfree hcode hp).2 hst)
      (fun c s hs _ => (((hs.onlySeq (onlySeq_sequenced ..)).of_groups (State.startFetch_groups ..)).chartAccept ..).retire)
  · intro c tag code rs pins s _ t
    obtain ⟨htag, hcmd⟩ := chartAccept_found c tag none [] {
      op := .settled, results := if isFault code then rs.map (fun r => (r.1, nullPage)) else rs,
      status := some (statusWord 0 code), pins := pins } s
    exact ⟨((sameTags_of_cores retire_cores).tag ..).trans htag, _, (congrArg (Map.find? · _) retire_cmds).trans hcmd, rfl, rfl, rfl⟩

end Sys2Proof.Machine

namespace Sys2Proof.Machine

/-! ### Gathers (R411 to R413) -/

/-- What KVGATH comes to behind its checks at issue, its list read (R411, R412). -/
def gatherTaken (fetch : Bool) (o : Fin 6) (tag : Nat) (c : Ctx) (b sd : Option Nat) (es : List (List Word)) (s : State) : State :=
  let rs := (es.map (fun e => (e.getD 0 0).toNat)).map (fun h => s.liveReq h c.grid.asid)
  let refuse := fun (code : Nat) =>
    readsFrom c (octetAt c o 0) (16 * octetAt c o 1) (chartSettle c tag code [] [] (s.takeSeq c.die).1)
  if rs.any Option.isNone then refuse 0x44
  else
    match (rs.headD none).bind (fun r => (s.model? r.model).map (fun m => (r.model, m))) with
    | none => refuse 0x44
    | some (mnum, m) =>
      let total := es.foldl (fun n e => n + (e.getD 3 0).toNat) 0
      if rs.any (fun r => r.any (fun r => r.model != mnum)) ∨
         es.any (fun e => decide (m.nlg ≤ (e.getD 1 0).toNat) || (e.getD 3 0).toNat == 0) ∨ 65535 < total ∨
         (sd.isSome ∧ m.kvtype = 3) ∨ s.spadb c.team < octetAt c o 2 + total * m.rowb ∨
         s.spadb c.team < octetAt c o 3 + total * m.rowb ∨
         sd.any (fun x => decide (s.spadb c.team < x + 2 * total)) then refuse 0x45
      else
        acceptGather c tag b
          { fetch := fetch, rowb := m.rowb, kdst := octetAt c o 2, vdst := octetAt c o 3, sdst := sd, first := octetAt c o 5,
            ords := gatherOrds m.tok m.maxpg 0 es, next := octetAt c o 5, walk := none, seqs := [(c.die, (s.takeSeq c.die).2)],
            stop := none, spoiled := [] } (spadPlaces c (runOf (octetAt c o 0) (16 * octetAt c o 1))) (s.takeSeq c.die).1

section
variable {c : Ctx} {s : State} {bar : Reg} {o : Fin 6} {b sd : Option Nat}

/-- The object that a legal octet names. -/
theorem GatherOctet.located (h : GatherOctet c s bar o b sd) :
    (if bar = .zero then .ok none else (locate c s (c.uni bar) 16 16 true).map (fun p => some (p.2 - c.team.spadBase)) :
      Except Trap (Option Nat)) = .ok b := by
  have hobj := h.object
  by_cases hz : bar = .zero
  · rw [if_pos hz] at hobj ⊢
    rw [hobj]
  · rw [if_neg hz] at hobj ⊢
    obtain ⟨p, hp, rfl⟩ := hobj
    rw [show c.uni bar = c.rd bar 0 from rfl, hp]
    rfl

/-- KVGATH of a legal octet that nothing holds back gets past its checks at issue. -/
theorem startKvgath_legal (fetch : Bool) {tag : Nat} (h : GatherOctet c s bar o b sd)
    (hfree : ChartFree c s tag ((gatherList c s (octetAt c o 0) (octetAt c o 1)).map (fun e => (e.getD 0 0).toNat)) []) :
    startKvgath fetch bar o tag c s =
      gatherTaken fetch o tag c b sd (gatherList c s (octetAt c o 0) (octetAt c o 1)) s := by
  obtain ⟨hsix, hseven, hone, hmax⟩ := h.fields
  obtain ⟨hlist, hk, hv, hscales⟩ := h.inside
  obtain ⟨alist, ak, av, ascales⟩ := h.aligned
  have hin := (Option.any_eq_false (fun x => decide (s.spadb c.team ≤ x)) sd).mpr (fun x hx => decide_eq_false (Nat.not_le.mpr (hscales x hx)))
  have heven := (Option.any_eq_false (fun x => x % 2 != 0) sd).mpr (fun x hx => by simp [ascales x hx])
  have hsd : (if octetAt c o 4 = nullPage.toNat then none else some (octetAt c o 4)) = sd := h.scales.symm
  unfold startKvgath
  dsimp only
  simp only [show ∀ i, ((octetOf c o).getD i 0).toNat = octetAt c o i from fun _ => rfl, hsd]
  rw [if_neg (by omega), if_neg (by simp only [hin]; simp; omega), if_neg (by simp only [heven]; simp; omega), h.located]
  dsimp only
  rw [if_neg (by simp [h.drained])]
  exact chartGate_free _ hfree

end

/-- A gather does not fit a model just where one of KVGATH's checks of its list and destinations fails. -/
theorem not_gatherFits_iff {c : Ctx} {s : State} {o : Fin 6} {sd : Option Nat} {es : List (List Word)} {m : Model} {total : Nat} :
    ¬GatherFits c s o sd es m total ↔
      es.any (fun e => decide (m.nlg ≤ (e.getD 1 0).toNat) || (e.getD 3 0).toNat == 0) = true ∨ 65535 < total ∨
      (sd.isSome = true ∧ m.kvtype = 3) ∨ s.spadb c.team < octetAt c o 2 + total * m.rowb ∨
      s.spadb c.team < octetAt c o 3 + total * m.rowb ∨
      sd.any (fun x => decide (s.spadb c.team < x + 2 * total)) = true := by
  have hfits : GatherFits c s o sd es m total ↔ (∀ e ∈ es, (e.getD 1 0).toNat < m.nlg ∧ (e.getD 3 0).toNat ≠ 0) ∧ total ≤ 65535 ∧
      (octetAt c o 2 + total * m.rowb ≤ s.spadb c.team ∧ octetAt c o 3 + total * m.rowb ≤ s.spadb c.team) ∧
      ∀ x, sd = some x → m.kvtype ≠ 3 ∧ x + 2 * total ≤ s.spadb c.team :=
    ⟨fun h => ⟨h.entries, h.tokens, h.rows, h.scales⟩, fun ⟨he, ht, hr, hs⟩ => ⟨he, ht, hr, hs⟩⟩
  have hentries : es.any (fun e => decide (m.nlg ≤ (e.getD 1 0).toNat) || (e.getD 3 0).toNat == 0) = true ↔
      ¬∀ e ∈ es, (e.getD 1 0).toNat < m.nlg ∧ (e.getD 3 0).toNat ≠ 0 := by
    simp only [List.any_eq_true, Bool.or_eq_true, decide_eq_true_eq, beq_iff_eq, not_forall, not_and_or, Nat.not_lt, not_not,
      exists_prop]
  rw [hfits, hentries]
  cases sd with
  | none => simp only [Option.any_none, Option.isSome_none]; grind
  | some x => simp only [Option.any_some, Option.isSome_some, Option.some.injEq, forall_eq', decide_eq_true_eq]; grind

section
variable {c : Ctx} {s : State} {o : Fin 6} {sd : Option Nat} {es : List (List Word)} {tag : Nat} (fetch : Bool) (b : Option Nat)

/-- A list that names a request that is not live (R412). -/
theorem gatherTaken_unlive (h : ∃ h ∈ es.map (fun e => (e.getD 0 0).toNat), s.liveReq h c.grid.asid = none) :
    gatherTaken fetch o tag c b sd es s =
      readsFrom c (octetAt c o 0) (16 * octetAt c o 1) (chartSettle c tag 0x44 [] [] (s.takeSeq c.die).1) := by
  obtain ⟨n, hn, hlive⟩ := h
  exact if_pos (List.any_eq_true.mpr ⟨none, List.mem_map.mpr ⟨n, hn, hlive⟩, rfl⟩)

variable {r : Request} {m : Model} {total : Nat}
  (hlive : ∀ h ∈ es.map (fun e => (e.getD 0 0).toNat), (s.liveReq h c.grid.asid).isSome = true) (hne : es ≠ [])
  (hhead : s.liveReq ((es.map (fun e => (e.getD 0 0).toNat)).headD 0) c.grid.asid = some r) (hm : s.model? r.model = some m)
  (htotal : total = es.foldl (fun n e => n + (e.getD 3 0).toNat) 0)
include hlive hne hhead hm htotal

/-- KVGATH with its requests live is refused with RANGE, or accepted, as the model of its first request has it (R412). -/
theorem gatherTaken_live :
    (((∃ h ∈ es.map (fun e => (e.getD 0 0).toNat), ∃ q, s.liveReq h c.grid.asid = some q ∧ q.model ≠ r.model) ∨
        ¬GatherFits c s o sd es m total) → gatherTaken fetch o tag c b sd es s =
      readsFrom c (octetAt c o 0) (16 * octetAt c o 1) (chartSettle c tag 0x45 [] [] (s.takeSeq c.die).1)) ∧
    ((∀ h ∈ es.map (fun e => (e.getD 0 0).toNat), ∀ q, s.liveReq h c.grid.asid = some q → q.model = r.model) →
        GatherFits c s o sd es m total → gatherTaken fetch o tag c b sd es s = acceptGather c tag b
      { fetch := fetch, rowb := m.rowb, kdst := octetAt c o 2, vdst := octetAt c o 3, sdst := sd, first := octetAt c o 5,
        ords := gatherOrds m.tok m.maxpg 0 es, next := octetAt c o 5, walk := none, seqs := [(c.die, (s.takeSeq c.die).2)],
        stop := none, spoiled := [] } (spadPlaces c (runOf (octetAt c o 0) (16 * octetAt c o 1))) (s.takeSeq c.die).1) := by
  have hall : ((es.map (fun e => (e.getD 0 0).toNat)).map (fun h => s.liveReq h c.grid.asid)).any Option.isNone = false := by
    rw [List.any_map, List.any_eq_false]
    intro h hh
    simp [Option.isSome_iff_ne_none.mp (hlive h hh)]
  have hfirst : (((es.map (fun e => (e.getD 0 0).toNat)).map (fun h => s.liveReq h c.grid.asid)).headD none).bind
      (fun r => (s.model? r.model).map (fun m => (r.model, m))) = some (r.model, m) := by
    obtain ⟨e, es, rfl⟩ := List.exists_cons_of_ne_nil hne
    rw [show ((((e :: es).map (fun e => (e.getD 0 0).toNat)).map (fun h => s.liveReq h c.grid.asid)).headD none) = some r from hhead]
    simp [hm]
  have hother : ((es.map (fun e => (e.getD 0 0).toNat)).map (fun h => s.liveReq h c.grid.asid)).any
      (fun q => q.any (fun q => q.model != r.model)) = true ↔
      ∃ h ∈ es.map (fun e => (e.getD 0 0).toNat), ∃ q, s.liveReq h c.grid.asid = some q ∧ q.model ≠ r.model := by
    simp only [List.any_map, List.any_eq_true, Function.comp, Option.any_eq_true, bne_iff_ne, List.mem_map,
      exists_exists_and_eq_and]
  subst htotal
  unfold gatherTaken
  dsimp only
  rw [if_neg (by rw [hall]; exact Bool.false_ne_true), hfirst]
  dsimp only
  constructor
  · intro hbad
    rw [if_pos (by rwa [hother, ← not_gatherFits_iff])]
  · intro hsame hfits
    refine if_neg ?_
    rw [hother, ← not_gatherFits_iff]
    rintro (⟨h, hh, q, hq, hne⟩ | hnot)
    · exact hne (hsame h hh q hq)
    · exact hnot hfits

end

/-- A gather that is accepted retires (R412, R424). -/
theorem Ctx.stands.acceptGather {c : Ctx} {s : State} (h : c.stands s) (tag : Nat) (b : Option Nat) (g : Gather)
    (src : List (Place × DWord)) : c.retired (acceptGather c tag b g src s) := by
  unfold Machine.acceptGather
  dsimp only
  refine Ctx.stands.retire ?_
  generalize hw : (if c.reckon = true then _ else _ : State × Map Word × Option (List Nat × Option (Nat × Nat))) = w
  have hwalk : c.stands w.1 := by
    refine h.of_groups ?_
    rw [← hw]
    split
    · exact State.gatherWalk_groups ..
    · rfl
  generalize hu : Machine.chartAccept c tag b _ _ w.1 = u
  have haccepted : c.stands u := by
    rw [← hu]
    exact hwalk.chartAccept ..
  split
  · refine (checked_sourceAccess ..).stands ?_
    split
    · exact (checked_owe ..).stands haccepted
    · exact haccepted
  · split
    · exact (checked_owe ..).stands haccepted
    · exact haccepted

section
variable {fetch : Bool} {bar : Reg} {o : Fin 6} {tag : Fin 64} {g : Guard} {b sd : Option Nat} {es : List (List Word)}
  {hs : List Nat}

theorem gatherList_ne_nil {c : Ctx} {s : State} {off n : Nat} (h : 1 ≤ n) : gatherList c s off n ≠ [] := by
  unfold gatherList
  simp only [ne_eq, List.map_eq_nil_iff, List.range_eq_nil]
  omega

/-- KVGATH of live requests of one model, everything in bounds (R412). -/
theorem kvgath_accepted {mnum : Nat} {m : Model} {total : Nat} : Yields true (.kvgath fetch bar o tag g)
    (fun c s => GatherOctet c s bar o b sd ∧ es = gatherList c s (octetAt c o 0) (octetAt c o 1) ∧
      hs = es.map (fun e => (e.getD 0 0).toNat) ∧ ChartFree c s tag.val hs [] ∧
      (∀ h ∈ hs, ∃ r, s.liveReq h c.grid.asid = some r ∧ r.model = mnum) ∧ s.model? mnum = some m ∧
      total = es.foldl (fun n e => n + (e.getD 3 0).toNat) 0 ∧ GatherFits c s o sd es m total)
    (fun c s => acceptGather c tag.val b
      { fetch := fetch, rowb := m.rowb, kdst := octetAt c o 2, vdst := octetAt c o 3, sdst := sd, first := octetAt c o 5,
        ords := gatherOrds m.tok m.maxpg 0 es, next := octetAt c o 5, walk := none, seqs := [(c.die, (s.takeSeq c.die).2)],
        stop := none, spoiled := [] } (spadPlaces c (runOf (octetAt c o 0) (16 * octetAt c o 1))) (s.takeSeq c.die).1) := by
  refine chart_yields (fun _ => rfl) (fun c s ⟨hoct, hes, hhs, hfree, hlive, hm, htotal, hfits⟩ => ?_)
    (fun c s hs _ => (hs.onlySeq (onlySeq_takeSeq ..)).acceptGather ..)
  subst hhs
  have hne : es ≠ [] := hes ▸ gatherList_ne_nil hoct.fields.2.2.1
  obtain ⟨r, hr, hmodel⟩ := hlive ((es.map (fun e => (e.getD 0 0).toNat)).headD 0) (by
    obtain ⟨e, es, rfl⟩ := List.exists_cons_of_ne_nil hne
    exact List.mem_cons_self)
  rw [startKvgath_legal fetch hoct (hes ▸ hfree), ← hes]
  refine (gatherTaken_live fetch b (fun h hh => ?_) hne hr (hmodel ▸ hm) htotal).2 (fun h hh q hq => ?_) hfits
  · obtain ⟨q, hq, _⟩ := hlive h hh
    rw [hq]; rfl
  · obtain ⟨q', hq', hmodel'⟩ := hlive h hh
    rw [Option.some.inj (hq.symm.trans hq'), hmodel', hmodel]

/-- KVGATH of a request that is not live (R412). -/
theorem kvgath_unlive : Yields true (.kvgath fetch bar o tag g)
    (fun c s => GatherOctet c s bar o b sd ∧ es = gatherList c s (octetAt c o 0) (octetAt c o 1) ∧
      hs = es.map (fun e => (e.getD 0 0).toNat) ∧ ChartFree c s tag.val hs [] ∧ ∃ h ∈ hs, s.liveReq h c.grid.asid = none)
    (fun c s => readsFrom c (octetAt c o 0) (16 * octetAt c o 1) (chartSettle c tag.val 0x44 [] [] (s.takeSeq c.die).1)) := by
  refine chart_yields (fun _ => rfl) (fun c s ⟨hoct, hes, hhs, hfree, hlive⟩ => ?_)
    (fun c s hs _ => ((hs.onlySeq (onlySeq_takeSeq ..)).chartSettle ..).readsFrom ..)
  subst hhs
  rw [startKvgath_legal fetch hoct (hes ▸ hfree), ← hes]
  exact gatherTaken_unlive fetch b hlive

/-- KVGATH with a second model, or a range out of bounds (R412). -/
theorem kvgath_unfit {r : Request} {m : Model} {total : Nat} : Yields true (.kvgath fetch bar o tag g)
    (fun c s => GatherOctet c s bar o b sd ∧ es = gatherList c s (octetAt c o 0) (octetAt c o 1) ∧
      hs = es.map (fun e => (e.getD 0 0).toNat) ∧ ChartFree c s tag.val hs [] ∧
      (∀ h ∈ hs, (s.liveReq h c.grid.asid).isSome = true) ∧ s.liveReq (hs.headD 0) c.grid.asid = some r ∧
      s.model? r.model = some m ∧ total = es.foldl (fun n e => n + (e.getD 3 0).toNat) 0 ∧
      ((∃ h ∈ hs, ∃ q, s.liveReq h c.grid.asid = some q ∧ q.model ≠ r.model) ∨ ¬GatherFits c s o sd es m total))
    (fun c s => readsFrom c (octetAt c o 0) (16 * octetAt c o 1) (chartSettle c tag.val 0x45 [] [] (s.takeSeq c.die).1)) := by
  refine chart_yields (fun _ => rfl) (fun c s ⟨hoct, hes, hhs, hfree, hlive, hhead, hm, htotal, hbad⟩ => ?_)
    (fun c s hs _ => ((hs.onlySeq (onlySeq_takeSeq ..)).chartSettle ..).readsFrom ..)
  subst hhs
  rw [startKvgath_legal fetch hoct (hes ▸ hfree), ← hes]
  exact (gatherTaken_live fetch b hlive (hes ▸ gatherList_ne_nil hoct.fields.2.2.1) hhead hm htotal).1 hbad

end

end Sys2Proof.Machine
namespace Sys2Proof.Machine

/-! ### Appends (R415 to R417, R425) -/

/-- What KVAPP comes to by what it lacks, once its checks have passed (R417, R425). -/
def appendByLack (c : Ctx) (tag : Nat) (a : Append) (m : Model) (mnum : Nat) (u : State) : State :=
  match u.appendLack c.die a m (u.pool c.die (m.pool c.die)).spare with
  | .nothing =>
    match (u.appendRead a m).2 with
    | some n => chartSettle c tag 0x41 [] [] ((u.appendRead a m).1.quarantine n)
    | none =>
      let p := (u.appendRead a m).1.appendPlan c.die c.team.grid a m mnum a.seq
      appendTaken c tag a m { op := .append { a with plan := p.2 }, results := [], status := none, pins := p.2.map Prod.fst } p.1
  | .page n => appendTaken c tag a m
      { op := .append { a with waitFor := some n, starter := (u.pages.find? n).any (fun p => decide (p.st = .capacity)) },
        results := [], status := none, pins := [] } (u.startFetch n a.there)
  | .room need =>
    if c.reckon then
      let v := appendTaken c tag a m { op := .append a, results := [], status := none, pins := [] } u
      v.awaitFrames c.die (m.pool c.die) v.uid need
    else chartSettle c tag 0x40 [] [] u

theorem onlySeq_appendStart (c : Ctx) (s : State) (o : Fin 6) (ss : Option Nat) (m : Model) :
    OnlySeq s (appendStart c s o ss m).1 := by
  unfold appendStart
  dsimp only
  split
  · exact (onlySeq_takeSeq ..).trans (onlySeq_seqFor ..)
  · exact onlySeq_takeSeq ..

/-- KVAPP of a legal octet that nothing holds back: of a request that is not live its status is 0x44; of a live one, once it
has taken its values, it has its status by its checks, or comes to what it lacks. -/
theorem startKvapp_legal {c : Ctx} {s : State} {o : Fin 6} {ss : Option Nat} {tag : Nat} (h : AppendOctet c s o ss)
    (hfree : ChartFree c s tag [octetAt c o 0] []) :
    (s.liveReq (octetAt c o 0) c.grid.asid = none →
      startKvapp o tag c s = chartSettle c tag 0x44 [] [] (s.takeSeq c.die).1) ∧
    ∀ r m u a, s.liveReq (octetAt c o 0) c.grid.asid = some r → s.model? r.model = some m → appendStart c s o ss m = (u, a) →
      u.chartHeld [] (u.appendFirst a m).toList = false →
      startKvapp o tag c s = if appendCode c u a m ≠ 0 then chartSettle c tag (appendCode c u a m) [] [] u
        else appendByLack c tag a m r.model u := by
  obtain ⟨hlg, hseven⟩ := h.fields
  obtain ⟨hk, hv, hscales⟩ := h.inside
  have hin := (Option.any_eq_false (fun x => decide (s.spadb c.team ≤ x)) ss).mpr
    (fun x hx => decide_eq_false (Nat.not_le.mpr (hscales x hx)))
  have hss : (if octetAt c o 6 = nullPage.toNat then none else some (octetAt c o 6)) = ss := h.scales.symm
  unfold startKvapp
  dsimp only
  simp only [show ∀ i, ((octetOf c o).getD i 0).toNat = octetAt c o i from fun _ => rfl, hss]
  rw [if_neg (by omega), if_neg (by simp only [hin]; simp; omega), if_neg (by simp [h.aligned]), if_neg (by simp [h.drained]),
    chartGate_free _ hfree, (onlySeq_takeSeq ..).liveReq]
  refine ⟨fun hreq => by rw [hreq], fun r m u a hreq hm hstart hheld => ?_⟩
  rw [hreq]
  dsimp only
  rw [(onlySeq_takeSeq ..).model?, hm]
  dsimp only
  unfold appendStart at hstart
  dsimp only at hstart
  split at hstart
  next n hf =>
    cases hstart
    rw [State.appendFirst, (onlySeq_seqFor ..).entry, show State.entry _ _ _ = some n from hf] at hheld
    rw [hf]
    dsimp only [Option.toList_some] at hheld ⊢
    exact if_neg (by rw [hheld]; exact Bool.false_ne_true)
  next hf =>
    cases hstart
    rw [hf] at hheld ⊢
    dsimp only [Option.toList_none] at hheld ⊢
    exact if_neg (by rw [hheld]; exact Bool.false_ne_true)

theorem OnlySeq.left {α : Type} {s u : State} {x : State × α} {y : α} (h : OnlySeq s x.1) (hx : x = (u, y)) : OnlySeq s u := by
  subst hx
  exact h

/-- An append that is accepted retires (R417). -/
theorem Ctx.stands.appendTaken {c : Ctx} {s : State} (h : c.stands s) (tag : Nat) (a : Append) (m : Model) (k : ChartCmd) :
    c.retired (appendTaken c tag a m k s) := by
  unfold Machine.appendTaken
  refine Ctx.stands.retire ?_
  split
  · exact (checked_sourceAccess ..).stands (h.chartAccept ..)
  · exact h.chartAccept ..

theorem Ctx.stands.appendStart {c : Ctx} {s u : State} {o : Fin 6} {ss : Option Nat} {m : Model} {a : Append} (h : c.stands s)
    (hstart : appendStart c s o ss m = (u, a)) : c.stands u :=
  h.onlySeq ((onlySeq_appendStart c s o ss m).left hstart)

section
variable {o : Fin 6} {tag : Fin 64} {g : Guard} {ss : Option Nat} {r : Request} {m : Model} {u : State} {a : Append}

/-- KVAPP of a live request with a check of R416 failed. -/
theorem kvapp_refused {code : Nat} : Yields true (.kvapp o tag g)
    (fun c s => AppendOctet c s o ss ∧ ChartFree c s tag.val [octetAt c o 0] [] ∧
      s.liveReq (octetAt c o 0) c.grid.asid = some r ∧ s.model? r.model = some m ∧ appendStart c s o ss m = (u, a) ∧
      u.chartHeld [] (u.appendFirst a m).toList = false ∧ appendCode c u a m = code ∧ code ≠ 0)
    (fun c _ => chartSettle c tag.val code [] [] u) := by
  refine chart_yields (fun _ => rfl) (fun c s ⟨hoct, hfree, hreq, hm, hstart, hheld, hcode, hne⟩ => ?_)
    (fun c s hs ⟨_, _, _, _, hstart, _⟩ => (hs.appendStart hstart).chartSettle ..)
  rw [(startKvapp_legal hoct hfree).2 r m u a hreq hm hstart hheld, hcode, if_pos hne]

/-- KVAPP with its checks passed yields what it comes to by what it lacks, where that retires it. -/
theorem kvapp_passed {lack : Lack} {f : Ctx → State}
    (hf : ∀ c : Ctx, u.appendLack c.die a m (u.pool c.die (m.pool c.die)).spare = lack → appendByLack c tag.val a m r.model u = f c)
    (hmoved : ∀ c : Ctx, c.stands u → c.retired (f c)) : Yields true (.kvapp o tag g)
    (fun c s => AppendOctet c s o ss ∧ ChartFree c s tag.val [octetAt c o 0] [] ∧
      s.liveReq (octetAt c o 0) c.grid.asid = some r ∧ s.model? r.model = some m ∧ appendStart c s o ss m = (u, a) ∧
      u.chartHeld [] (u.appendFirst a m).toList = false ∧ appendCode c u a m = 0 ∧
      u.appendLack c.die a m (u.pool c.die (m.pool c.die)).spare = lack)
    (fun c _ => f c) := by
  refine chart_yields (fun _ => rfl) (fun c s ⟨hoct, hfree, hreq, hm, hstart, hheld, hcode, hlack⟩ => ?_)
    (fun c s hs ⟨_, _, _, _, hstart, _⟩ => hmoved c (hs.appendStart hstart))
  rw [(startKvapp_legal hoct hfree).2 r m u a hreq hm hstart hheld, if_neg (not_not.mpr hcode), hf c hlack]

/-- KVAPP with nothing lacking takes its acceptance step (R417). -/
theorem kvapp_complete : Yields true (.kvapp o tag g)
    (fun c s => AppendOctet c s o ss ∧ ChartFree c s tag.val [octetAt c o 0] [] ∧
      s.liveReq (octetAt c o 0) c.grid.asid = some r ∧ s.model? r.model = some m ∧ appendStart c s o ss m = (u, a) ∧
      u.chartHeld [] (u.appendFirst a m).toList = false ∧ appendCode c u a m = 0 ∧
      u.appendLack c.die a m (u.pool c.die (m.pool c.die)).spare = .nothing)
    (fun c _ =>
      match (u.appendRead a m).2 with
      | some n => chartSettle c tag.val 0x41 [] [] ((u.appendRead a m).1.quarantine n)
      | none =>
        let p := (u.appendRead a m).1.appendPlan c.die c.team.grid a m r.model a.seq
        appendTaken c tag.val a m
          { op := .append { a with plan := p.2 }, results := [], status := none, pins := p.2.map Prod.fst } p.1) := by
  refine kvapp_passed (fun c hlack => by unfold appendByLack; rw [hlack]) (fun c hu => ?_)
  have hread : c.stands (u.appendRead a m).1 := hu.of_groups (State.appendRead_groups ..)
  split
  · exact (hread.of_groups (State.quarantine_groups ..)).chartSettle ..
  · exact (hread.of_groups (State.appendPlan_groups ..)).appendTaken ..

/-- KVAPP whose first page is away waits for it and starts its fetch (R417, R421). -/
theorem kvapp_away {n : Nat} : Yields true (.kvapp o tag g)
    (fun c s => AppendOctet c s o ss ∧ ChartFree c s tag.val [octetAt c o 0] [] ∧
      s.liveReq (octetAt c o 0) c.grid.asid = some r ∧ s.model? r.model = some m ∧ appendStart c s o ss m = (u, a) ∧
      u.chartHeld [] (u.appendFirst a m).toList = false ∧ appendCode c u a m = 0 ∧
      u.appendLack c.die a m (u.pool c.die (m.pool c.die)).spare = .page n)
    (fun c _ => appendTaken c tag.val a m
      { op := .append { a with waitFor := some n, starter := (u.pages.find? n).any (fun p => decide (p.st = .capacity)) },
        results := [], status := none, pins := [] } (u.startFetch n a.there)) :=
  kvapp_passed (fun c hlack => by unfold appendByLack; rw [hlack])
    (fun c hu => (hu.of_groups (State.startFetch_groups ..)).appendTaken ..)

/-- KVAPP with too few frames or headers is refused, or waits for them in Reckoning mode (R417, R425). -/
theorem kvapp_short {need : Nat} : Yields true (.kvapp o tag g)
    (fun c s => AppendOctet c s o ss ∧ ChartFree c s tag.val [octetAt c o 0] [] ∧
      s.liveReq (octetAt c o 0) c.grid.asid = some r ∧ s.model? r.model = some m ∧ appendStart c s o ss m = (u, a) ∧
      u.chartHeld [] (u.appendFirst a m).toList = false ∧ appendCode c u a m = 0 ∧
      u.appendLack c.die a m (u.pool c.die (m.pool c.die)).spare = .room need)
    (fun c _ =>
      if c.reckon then
        let v := appendTaken c tag.val a m { op := .append a, results := [], status := none, pins := [] } u
        v.awaitFrames c.die (m.pool c.die) v.uid need
      else chartSettle c tag.val 0x40 [] [] u) := by
  refine kvapp_passed (fun c hlack => by unfold appendByLack; rw [hlack]) (fun c hu => ?_)
  split
  · exact (hu.appendTaken ..).of_groups (State.awaitFrames_groups ..)
  · exact hu.chartSettle ..

/-- KVAPP of a request that is not live (R416). -/
theorem kvapp_unlive : Yields true (.kvapp o tag g)
    (fun c s => AppendOctet c s o ss ∧ ChartFree c s tag.val [octetAt c o 0] [] ∧
      s.liveReq (octetAt c o 0) c.grid.asid = none)
    (fun c s => chartSettle c tag.val 0x44 [] [] (s.takeSeq c.die).1) :=
  chart_yields (fun _ => rfl) (fun _ _ ⟨hoct, hfree, hreq⟩ => (startKvapp_legal hoct hfree).1 hreq)
    (fun _ _ hs _ => (hs.onlySeq (onlySeq_takeSeq ..)).chartSettle ..)

end

/-! ### Hand-over and the page step (R413, R421) -/

/-- What KVSEND comes to once its request's pages are read from the block table (R390, R421). -/
def sendTaken (req dest rreq : Reg) (tag : Nat) (c : Ctx) (ps : List Nat) (s : State) : State :=
  let q := (s.takeSeq c.die).1.seqsFor c.die (s.takeSeq c.die).2 ps
  if 65536 ≤ (c.rd dest 0).toNat then chartSettle c tag 0x45 [] [] q.1
  else if (s.liveReq (c.rd req 0).toNat c.grid.asid).isNone then chartSettle c tag 0x44 [] [] q.1
  else
    match (ps.map (fun n => pageCode c s n true)).find? (fun k => k ≠ 0) with
    | some k => chartSettle c tag k [] [] q.1
    | none =>
      let f := (ps.foldl (fun s n => s.pin n) q.1).fetchPages q.2 ps
      retire c (chartAccept c tag none []
        { op := .send { handle := (c.rd req 0).toNat, dest := (c.rd dest 0).toNat, rreq := (c.rd rreq 0).toNat, seqs := q.2,
                        started := f.2, acks := none, recorded := false },
          results := [], status := none, pins := ps } f.1)

theorem onlySeq_sendSeqs (c : Ctx) (s : State) (ps : List Nat) :
    OnlySeq s ((s.takeSeq c.die).1.seqsFor c.die (s.takeSeq c.die).2 ps).1 :=
  (onlySeq_takeSeq ..).trans (onlySeq_seqsFor ..)

/-- KVSEND that nothing holds back reads the pages its request's block table names. -/
theorem startKvsend_named {req dest rreq : Reg} {tag : Nat} {c : Ctx} {s : State} {ps : List Nat}
    (hps : ps = (((s.requests.find? (c.rd req 0).toNat).map (fun r => (r.bt.map Prod.snd).dedup)).getD []))
    (hfree : ChartFree c s tag [(c.rd req 0).toNat] ps) :
    startKvsend req dest rreq tag c s = sendTaken req dest rreq tag c ps s := by
  unfold startKvsend
  simp only [show ∀ r, c.uni r = c.rd r 0 from fun _ => rfl]
  cases hreq : s.requests.find? (c.rd req 0).toNat
  all_goals
    rw [hreq] at hps
    subst hps
    refine (chartGate_free _ hfree).trans ?_
    simp only [(onlySeq_sendSeqs c s _).liveReq, (onlySeq_sendSeqs c s _).pageCode]
    rfl

section
variable {req dest rreq : Reg} {tag : Fin 64} {g : Guard} {ps : List Nat}

/-- KVSEND of a live request whose pages can be used pins and fetches them (R421). -/
theorem kvsend_accepted {r : Request} {u : State} {sq : Map Word} {f : State × List Nat} : Yields true (.kvsend req dest rreq tag g)
    (fun c s => s.liveReq (c.rd req 0).toNat c.grid.asid = some r ∧ ps = (r.bt.map Prod.snd).dedup ∧
      ChartFree c s tag.val [(c.rd req 0).toNat] ps ∧ (c.rd dest 0).toNat < 65536 ∧
      (∀ n ∈ ps, pageCode c s n true = 0) ∧ (s.takeSeq c.die).1.seqsFor c.die (s.takeSeq c.die).2 ps = (u, sq) ∧
      (ps.foldl (fun s n => s.pin n) u).fetchPages sq ps = f)
    (fun c _ => retire c (chartAccept c tag.val none []
      { op := .send { handle := (c.rd req 0).toNat, dest := (c.rd dest 0).toNat, rreq := (c.rd rreq 0).toNat, seqs := sq,
                      started := f.2, acks := none, recorded := false },
        results := [], status := none, pins := ps } f.1)) := by
  refine chart_yields (fun _ => rfl) (fun c s ⟨hreq, hps, hfree, hdest, hcodes, hu, hf⟩ => ?_)
    (fun c s hs ⟨_, _, _, _, _, hu, hf⟩ => ?_)
  · have hfound : s.requests.find? (c.rd req 0).toNat = some r := (Option.filter_eq_some_iff.mp hreq).1
    have hok : (ps.map (fun n => pageCode c s n true)).find? (fun k => k ≠ 0) = none := by simpa using hcodes
    rw [startKvsend_named (by rw [hfound]; exact hps) hfree]
    unfold sendTaken
    simp only [hu, hreq, hok, hf, Option.isNone_some, Bool.false_eq_true, if_false, Nat.not_le.mpr hdest]
  · have hstands : c.stands u := hs.onlySeq ((onlySeq_sendSeqs c s ps).left hu)
    have hpinned := foldl_groups (f := fun (s : State) n => s.pin n) (fun s n => s.pin_groups n) ps u
    subst hf
    exact ((hstands.of_groups ((State.fetchPages_groups ..).trans hpinned)).chartAccept ..).retire

/-- KVSEND to an endpoint number past the last, or of a request that is not live (R421). -/
theorem kvsend_refused : Yields true (.kvsend req dest rreq tag g)
    (fun c s => ps = (((s.requests.find? (c.rd req 0).toNat).map (fun r => (r.bt.map Prod.snd).dedup)).getD []) ∧
      ChartFree c s tag.val [(c.rd req 0).toNat] ps ∧
      (65536 ≤ (c.rd dest 0).toNat ∨ s.liveReq (c.rd req 0).toNat c.grid.asid = none))
    (fun c s => chartSettle c tag.val (if 65536 ≤ (c.rd dest 0).toNat then 0x45 else 0x44) [] []
      ((s.takeSeq c.die).1.seqsFor c.die (s.takeSeq c.die).2 ps).1) := by
  refine chart_yields (fun _ => rfl) (fun c s ⟨hps, hfree, hbad⟩ => ?_)
    (fun c s hs _ => (hs.onlySeq (onlySeq_sendSeqs c s ps)).chartSettle ..)
  rw [startKvsend_named hps hfree]
  unfold sendTaken
  by_cases hdest : 65536 ≤ (c.rd dest 0).toNat
  · simp only [hdest, if_true]
  · simp only [hdest, if_false, hbad.resolve_left hdest, Option.isNone_none, if_true]

end

/-- A gather's step at an ordinal that nothing holds back copies its page, or stops the gather with the code it meets (R413). -/
theorem exec_kvgathPageStep {s : State} {id n : Nat} {cmd : Cmd} {k : ChartCmd} {gth : Gather} (err : PageError) {ord : GOrd}
    (hc : s.cmds.find? id = some cmd) (hw : cmd.work = .chart k) (hop : k.op = .gather gth) (hover : s.gridOver cmd = false)
    (hord : gth.ords[gth.next]? = some ord) (hstop : gth.stop = none) (hblock : s.ordBlocked id cmd gth ord = false)
    (hwalk : gth.walk = none) (hheld : s.chartHeld [ord.handle] (s.entry ord.handle ord.entry).toList = false) :
    (s.gatherCheck cmd.asid none ord = (0, n) → exec (.kvgathPageStep id err) s =
      .next (copyOrd id cmd k { gth with seqs := (s.gatherPin gth.seqs n).2 } ord n err (s.gatherPin gth.seqs n).1)) ∧
    ∀ code, code ≠ 0 → s.gatherCheck cmd.asid none ord = (code, n) → exec (.kvgathPageStep id err) s =
      .next (s.putChart id { k with op := .gather { gth with stop := some (code, gth.next) } }) := by
  have hstep : exec (.kvgathPageStep id err) s = .next (gatherStep id cmd k gth err s) := by
    show execKvgathPageStep id err s = _
    unfold execKvgathPageStep
    simp only [hc, hw, hop, hover]
    rfl
  rw [hstep]
  unfold gatherStep
  simp only [hord, hstop, hblock, hwalk, hheld, Option.isSome_none, Bool.false_eq_true, or_self, if_false]
  refine ⟨fun hcheck => by rw [hcheck]; rfl, fun code hne hcheck => ?_⟩
  rw [hcheck]
  cases code with
  | zero => contradiction
  | succ code => rfl

/-- Settles O36: each instruction by the lemma of its checks and its plan, the page step by what its ordinal's check finds. -/
theorem chartGatherAppend : Obligations.ChartGatherAppend := by
  unfold Obligations.ChartGatherAppend
  exact ⟨fun _ _ _ _ _ _ _ _ _ _ _ _ => kvgath_accepted, fun _ _ _ _ _ _ _ _ _ => kvgath_unlive,
    fun _ _ _ _ _ _ _ _ _ _ _ _ => kvgath_unfit, fun _ _ _ _ _ _ _ _ _ => kvapp_refused, fun _ _ _ _ _ _ _ _ => kvapp_complete,
    fun _ _ _ _ _ _ _ _ _ => kvapp_away, fun _ _ _ _ _ _ _ _ _ => kvapp_short, fun _ _ _ _ => kvapp_unlive,
    fun _ _ _ _ _ _ _ _ _ _ => kvsend_accepted, fun _ _ _ _ _ _ => kvsend_refused,
    fun _ _ _ _ err _ _ _ hc hw hop hover hord hstop hblock hwalk hheld =>
      exec_kvgathPageStep err hc hw hop hover hord hstop hblock hwalk hheld⟩

end Sys2Proof.Machine
